-- ==== Sys2Proof/Word.lean ====
section
/-! DEFINITION. Word.lean: the word types and their plainest arithmetic. Byte order and bit fields are in
Machine/Bits.lean. -/

namespace Sys2Proof

/-- A byte. -/
abbrev Byte := BitVec 8

/-- A byte string, the byte at the lowest address or earliest wire position first (R10). -/
abbrev Bytes := List Byte

/-- A 32-bit lane or register value. -/
abbrev Lane := BitVec 32

/-- A 64-bit word. -/
abbrev Word64 := BitVec 64

end Sys2Proof
end

