-- ==== Sys2Proof/Syntax.lean ====
section
/-! DEFINITION. Syntax.lean: the commands and events of the part, one constructor for each row of the table of
operations and events, with the operands that come from outside the part. -/

namespace Sys2Proof

/-- The issue slot of a vector operation (Table 6-1). -/
inductive VSlot where
  /-- The first issue slot. -/
  | va
  /-- The second issue slot. -/
  | vb
  deriving DecidableEq, Repr

/-- What the sensors and oscillators report at a beat edge: by region, the junction temperature in units of
0.125 degree C and the mean rate over the last wall beat in MHz (R88, R91); by stack, its temperature in degree C
(R286); and by schedule region that has finished its beat, the local cycles left unused. A region or stack that is not
listed keeps its last reading, and has no slack to count in the beat. -/
structure EdgeEnv where
  /-- Junction temperatures by region. -/
  tj : List (Nat × Nat)
  /-- Mean rates by region. -/
  rate : List (Nat × Nat)
  /-- Stack temperatures by stack. -/
  stackTemp : List (Nat × Nat)
  /-- Local cycles from the end of its work in the beat to this edge, by schedule region (R77). -/
  slack : List (Nat × Nat)
  /-- sc counted so far in the present schedule beat, by copy network region that has not finished it (R74, R361). -/
  count : List (Nat × Nat)
  deriving DecidableEq, Repr

/-- A record of the twin stream as it arrives: the fields of its header but for KIND and LEN, and its payload
(Table 22-4, Table 22-5). -/
structure TwinRec where
  /-- BEAT. -/
  beat : Nat
  /-- SC. -/
  sc : Nat
  /-- CORE. -/
  core : Nat
  /-- AUX. -/
  aux : Nat
  /-- Payload. -/
  data : List (BitVec 8)
  deriving DecidableEq, Repr

/-- The rows of the table of operations and events. The rule that governs each stands in its docstring. -/
inductive Instr where
  /-- REGISTER_WRITE (R448). A write to a BAR0 register or mailbox area that has no row of its own, such as the command area, a W1C status bit or the high half of SUBMIT, stores its value under the access rules. -/
  | registerWrite (off : Nat) (size : Nat) (val : Nat)
  /-- SUBMIT (R450). A SUBMIT write with bit 0 set captures the command area and queues the command, unless the mailbox is busy or the SEQ values differ. -/
  | submit (win : Nat) (size : Nat) (val : Nat)
  /-- RELAY_ABANDON (R464). A SUBMIT with bit 1 set to a pending relay window empties the window and discards later responses for that SEQ. -/
  | relayAbandon (win : Nat) (size : Nat) (val : Nat)
  /-- RING_CONFIG_WRITE (R459). A write to RING_BASE, RING_SIZE or RING_CTRL takes effect only while ENABLE is 0; setting ENABLE resets RING_HEAD and RING_TAIL. -/
  | ringConfigWrite (off : Nat) (size : Nat) (val : Nat)
  /-- RING_HEAD_WRITE (R459). A valid write to RING_HEAD frees completion ring entries, so that held entries can be written. -/
  | ringHeadWrite (size : Nat) (val : Nat)
  /-- BAR2_WRITE (R273). A host write through BAR2 lands in the task staging area, or is dropped and counted in BAR2_DROPPED. -/
  | bar2Write (off : Nat) (data : List (BitVec 8))
  /-- SMB_SET_POINTER (R465). SMBus command 0x01 sets the offset pointer of mailbox 15. -/
  | smbSetPointer (pecOk : Bool) (ptr : Nat)
  /-- SMB_BLOCK_WRITE (R465). SMBus command 0x02 writes bytes at the pointer of mailbox 15 and advances the pointer. -/
  | smbBlockWrite (pecOk : Bool) (data : List (BitVec 8))
  /-- SMB_BLOCK_READ (R465). SMBus command 0x03 reads 32 bytes at the pointer of mailbox 15 and advances the pointer. -/
  | smbBlockRead (pecOk : Bool)
  /-- COMMAND_START (R453). In or after its stamp beat, the Chanter starts the pending command with the lowest ordering key that no held object blocks. -/
  | commandStart
  /-- COMMAND_COMPLETE (R458). A command that took time completes: it writes its result, DETAIL, DONE_W and MBX_STATUS, and a completion ring entry if one was asked for. -/
  | commandComplete (mb : Nat)
  /-- RING_ENTRY_WRITE (R459). A held completion ring entry is written once RING_HEAD advances or the host link returns. -/
  | ringEntryWrite
  /-- IDENT (R579). Returns the identity block and the hub's certificate chain. -/
  | identRead (mb : Nat)
  /-- VERSION_NEGOTIATE (R461). Chooses the highest common interface version for the issuer. -/
  | versionNegotiate (mb : Nat)
  /-- TOPO_SET (R358). Installs the device number, neighbours, device map, open route table and manager from the topology block. -/
  | topoSet (mb : Nat)
  /-- DRONE_ROLE (R41). Sets the device's drone role, rootward masks, reference offset and DRONE_OUT enable. -/
  | droneRole (mb : Nat)
  /-- IMAGE_STAGE (R493). Copies a Felre image from host memory into the frame buffer, checks it and returns its header. -/
  | imageStage (mb : Nat)
  /-- IMAGE_COMMIT (R494). Writes the staged image into a flash slot, reads it back and updates the directory copies. -/
  | imageCommit (mb : Nat)
  /-- TASK_BIND (R403). Checks an image in the order of Table 18-5, then places, relocates and patches it into a task slot. -/
  | taskBind (mb : Nat)
  /-- TASK_START (R409). Registers the start of a bound or yielded task at schedule beat S_start. -/
  | taskStart (mb : Nat)
  /-- YIELD_REQ (R414). Registers a request that the task become YIELDED at its first yield point at or after S_req. -/
  | yieldReq (mb : Nat)
  /-- TASK_STOP (R415). Unbinds a task slot, at once, or at the next yield point when the task is running. -/
  | taskStop (mb : Nat)
  /-- CTX_SAVE (R419). Writes the context record of a yielded or faulted task. -/
  | ctxSave (mb : Nat)
  /-- CTX_RESTORE (R420). Loads a context record into a bound or yielded slot, which becomes YIELDED. -/
  | ctxRestore (mb : Nat)
  /-- PLAN_STOP (R468). Registers the stop of the slot plan at the end of schedule beat S_STOP. -/
  | planStop (mb : Nat)
  /-- PLAN_SET (R469). Builds and checks a new slot plan while the base plan runs. -/
  | planSet (mb : Nat)
  /-- PLAN_START (R469). Registers the new or restored plan to take effect at S_START. -/
  | planStart (mb : Nat)
  /-- SNAPSHOT (R470). Registers a latch of every counter and status word at wall beat W_SNAP. -/
  | snapshot (mb : Nat)
  /-- COUNTER_READ (R475). Returns live or shadowed counters of one class. -/
  | counterRead (mb : Nat)
  /-- HEALTH_READ (R476). Frees parking records, then returns a summary and health log records. -/
  | healthRead (mb : Nat)
  /-- DIGEST_READ (R443). Computes and signs the digest tag of an output buffer. -/
  | digestRead (mb : Nat)
  /-- REPLAY_ARM (R430). Arms or disarms a task slot for recording into a replay ring. -/
  | replayArm (mb : Nat)
  /-- REPLAY_RUN (R435). Starts a task as a replay from a start record of a log. -/
  | replayRun (mb : Nat)
  /-- POWER_POLICY (R565). Registers new power limit, rate cap, VQ setpoints, depth and park setting for wall beat W_EFFECT. -/
  | powerPolicy (mb : Nat)
  /-- METER_READ (R574). Returns the ledger entries of one epoch. -/
  | meterRead (mb : Nat)
  /-- EPOCH_SET (R571). Closes the open metering epoch and opens the next one with the host time given. -/
  | epochSet (mb : Nat)
  /-- TWIN_ATTACH (R531). Begins an attach of a STANDBY partner to a SOLO package. -/
  | twinAttach (mb : Nat)
  /-- TWIN_DETACH (R535). Mutes the package in the named seat at the next wall-beat edge. -/
  | twinDetach (mb : Nat)
  /-- HOST_COPY (R474). Moves bytes between host memory and device DRAM or staging. -/
  | hostCopy (mb : Nat)
  /-- TASK_START_EFFECT (R409). At the gate of S_start a registered TASK_START or REPLAY_RUN takes effect and the task becomes RUNNING. -/
  | taskStartEffect (slot : Nat)
  /-- PLAN_STOP_EFFECT (R468). At the end of S_STOP running tasks in the plan fault, and at S_STOP + 4 every port changes to the base plan. -/
  | planStopEffect
  /-- PLAN_START_EFFECT (R469). At the edge where S becomes S_START the new plan's entries take effect. -/
  | planStartEffect
  /-- SNAPSHOT_LATCH (R552). At the edge of W_SNAP every latchable counter and status word is copied into its shadow. -/
  | snapshotLatch
  /-- POWER_POLICY_EFFECT (R566). At the edge of W_EFFECT every policy field takes effect together: setpoints, wakes, and entry to or exit from Parked. -/
  | powerPolicyEffect
  /-- MGMT_PIECE (R463). An MGMT command piece arrives for mailbox 12, 13 or 14 and is assembled into the command area. -/
  | mgmtPiece (mb : Nat) (src : Nat) (off : Nat) (data : List (BitVec 8)) (last : Bool)
  /-- MGMT_RESPONSE (R464). A response piece arrives and the relay window mirrors the target's status and result. -/
  | mgmtResponse (src : Nat) (mb : Nat) (off : Nat) (data : List (BitVec 8)) (last : Bool)
  /-- CT_NOP (R147). CT no-operation. -/
  | ctNop (c : Nat)
  /-- CT_LOOP (R154). Runs the next len bundles n times. -/
  | ctLoop (c : Nat)
  /-- CT_JUMP (R381). Makes the next bundle bundle TARGET of the instruction window. -/
  | ctJump (c : Nat)
  /-- CT_GATE (R155). Issues empty bundles until the beat count is reached, then stops at the beat gate. -/
  | ctGate (c : Nat)
  /-- CT_YIELD (R411). Marks a yield point and ends the core's work for the beat. -/
  | ctYield (c : Nat)
  /-- CT_HINT (R397). Gives the Chanter an idle span and the deepest allowed power state for the core. -/
  | ctHint (c : Nat)
  /-- CT_FLAGRD (R168). Writes the numeric status word to lane register 31 of lane 0. -/
  | ctFlagrd (c : Nat)
  /-- CT_FLAGCLR (R168). Clears the numeric status flags named in MASK. -/
  | ctFlagclr (c : Nat)
  /-- CT_END (R297). Waits until nothing is in flight, checks the end counts of the keys and ends the task on the core. -/
  | ctEnd (c : Nat)
  /-- CU_NOP (R260). CU no-operation. -/
  | cuNop (c : Nat)
  /-- CU_COPY (R263). Issues a copy from a descriptor, registers its scoreboard ranges and advances the descriptor. -/
  | cuCopy (c : Nat)
  /-- MX_NOP (R147). MX no-operation. -/
  | mxNop (c : Nat)
  /-- MX_PASS (R172). Places a matrix pass in the MX feed as the current or next pass. -/
  | mxPass (c : Nat)
  /-- V_NOP (R147). Vector no-operation. -/
  | vNop (c : Nat) (sl : VSlot)
  /-- V_ADD (R215). Lanewise A + B. -/
  | vAdd (c : Nat) (sl : VSlot)
  /-- V_SUB (R215). Lanewise A − B. -/
  | vSub (c : Nat) (sl : VSlot)
  /-- V_MUL (R215). Lanewise A × B. -/
  | vMul (c : Nat) (sl : VSlot)
  /-- V_FMA (R215). Lanewise A × B + vC with one rounding. -/
  | vFma (c : Nat) (sl : VSlot)
  /-- V_DIV (R223). Lanewise A ÷ B. -/
  | vDiv (c : Nat) (sl : VSlot)
  /-- V_SQRT (R223). Lanewise square root of A. -/
  | vSqrt (c : Nat) (sl : VSlot)
  /-- V_MAX (R105). Lanewise maximum, in which void wins. -/
  | vMax (c : Nat) (sl : VSlot)
  /-- V_MIN (R105). Lanewise minimum, in which void loses. -/
  | vMin (c : Nat) (sl : VSlot)
  /-- V_CMP (R104). Lanewise comparison giving 1 or 0 as HN32. -/
  | vCmp (c : Nat) (sl : VSlot)
  /-- V_SEL (R215). Selects A where the vC lane has a bit set, and B elsewhere. -/
  | vSel (c : Nat) (sl : VSlot)
  /-- V_NEG (R215). Lanewise negation. -/
  | vNeg (c : Nat) (sl : VSlot)
  /-- V_2SUM (R136). Error-free two-sum into vD and vD+1. -/
  | v2sum (c : Nat) (sl : VSlot)
  /-- V_2PROD (R136). Error-free two-product into vD and vD+1. -/
  | v2prod (c : Nat) (sl : VSlot)
  /-- V_EXP2 (R226). Correctly rounded 2^A. -/
  | vExp2 (c : Nat) (sl : VSlot)
  /-- V_LOG2 (R226). Correctly rounded log2 A. -/
  | vLog2 (c : Nat) (sl : VSlot)
  /-- V_RCP (R226). Correctly rounded 1 ÷ A. -/
  | vRcp (c : Nat) (sl : VSlot)
  /-- V_RSQRT (R226). Correctly rounded 1 ÷ √A. -/
  | vRsqrt (c : Nat) (sl : VSlot)
  /-- V_AND (R215). Bitwise AND. -/
  | vAnd (c : Nat) (sl : VSlot)
  /-- V_OR (R215). Bitwise OR. -/
  | vOr (c : Nat) (sl : VSlot)
  /-- V_XOR (R215). Bitwise XOR. -/
  | vXor (c : Nat) (sl : VSlot)
  /-- V_SHL (R119). Shift left by B. -/
  | vShl (c : Nat) (sl : VSlot)
  /-- V_SHR (R119). Logical shift right by B. -/
  | vShr (c : Nat) (sl : VSlot)
  /-- V_SRA (R119). Arithmetic shift right by B. -/
  | vSra (c : Nat) (sl : VSlot)
  /-- V_MOV (R215). Moves A unchanged. -/
  | vMov (c : Nat) (sl : VSlot)
  /-- V_PERM (R216). Permutes the lanes of A by the indices in B. -/
  | vPerm (c : Nat) (sl : VSlot)
  /-- V_SHUF (R217). Shuffles lanes by a fixed pattern. -/
  | vShuf (c : Nat) (sl : VSlot)
  /-- V_CVT (R120). Converts A from TB32 or HN32 into TY. -/
  | vCvt (c : Nat) (sl : VSlot)
  /-- V_UNPK (R396). Unpacks 128 elements at a pointer into TB32 or HN32. -/
  | vUnpk (c : Nat) (sl : VSlot)
  /-- V_PACK (R396). Converts A and writes it as 128 elements of TY at a pointer. -/
  | vPack (c : Nat) (sl : VSlot)
  /-- V_CMPR (R218). Compresses the active lanes and writes their positions and count. -/
  | vCmpr (c : Nat) (sl : VSlot)
  /-- V_EXPD (R219). Scatters values to the positions relative to base P. -/
  | vExpd (c : Nat) (sl : VSlot)
  /-- V_BCOMB (R224). Combines three HN32 bands into a TB32 value. -/
  | vBcomb (c : Nat) (sl : VSlot)
  /-- V_RSUM (R220). Sums the 128 lanes into one lane, by tree or exactly in a Canonical task. -/
  | vRsum (c : Nat) (sl : VSlot)
  /-- V_RMAX (R105). Lane maximum into one lane. -/
  | vRmax (c : Nat) (sl : VSlot)
  /-- V_RMIN (R105). Lane minimum into one lane. -/
  | vRmin (c : Nat) (sl : VSlot)
  /-- V_XADD (R222). Adds 128 lanes to an exact accumulator. -/
  | vXadd (c : Nat) (sl : VSlot)
  /-- V_XRD (R140). Reads an exact accumulator out into one lane. -/
  | vXrd (c : Nat) (sl : VSlot)
  /-- V_XCLR (R225). Clears an exact accumulator. -/
  | vXclr (c : Nat) (sl : VSlot)
  /-- V_XST (R225). Stores the 80 B image of an exact accumulator. -/
  | vXst (c : Nat) (sl : VSlot)
  /-- V_XLD (R141). Adds an accumulator image from scratchpad to an exact accumulator. -/
  | vXld (c : Nat) (sl : VSlot)
  /-- V_SM0 (R228). Initialises an attention state. -/
  | vSm0 (c : Nat) (sl : VSlot)
  /-- V_SM1 (R229). Updates the block maximum of an attention state. -/
  | vSm1 (c : Nat) (sl : VSlot)
  /-- V_SMR (R230). Closes the first phase of a block and rescales the running sum. -/
  | vSmr (c : Nat) (sl : VSlot)
  /-- V_SM2 (R231). Forms p and adds it to the running sum pair. -/
  | vSm2 (c : Nat) (sl : VSlot)
  /-- V_SMN (R232). Writes the reciprocal of the running sum. -/
  | vSmn (c : Nat) (sl : VSlot)
  /-- V_PSET (R207). Sets the ADDR and STEP of a pointer register. -/
  | vPset (c : Nat) (sl : VSlot)
  /-- V_PBUF (R207). Sets the BUF and POS of a pointer register. -/
  | vPbuf (c : Nat) (sl : VSlot)
  /-- V_BELL (R213). Releases the bell queue head. -/
  | vBell (c : Nat) (sl : VSlot)
  /-- QK_NOP (R147). QK no-operation. -/
  | qkNop (c : Nat)
  /-- KEY_ADD (R293). Adds n to a key. -/
  | keyAdd (c : Nat)
  /-- KEY_WAIT (R293). Waits until a key reaches n, then subtracts n. -/
  | keyWait (c : Nat)
  /-- KEY_TAKE (R293). Subtracts n from a key, or faults with KEY_UNDERFLOW. -/
  | keyTake (c : Nat)
  /-- KEY_READ (R293). Writes a key count to one lane. -/
  | keyRead (c : Nat)
  /-- Q_SEND (R303). Reads a send block and sends its descriptor to a queue. -/
  | qSend (c : Nat)
  /-- Q_RECV (R309). Waits for a visible head, then frees the head entry and starts the copy of its descriptor and data. -/
  | qRecv (c : Nat)
  /-- Q_SELECT (R311). Waits for a visible head among up to 8 queues, chooses one and receives from it. -/
  | qSelect (c : Nat)
  /-- ENT_DRAW (R385). Writes 32 bits of entropy to one lane. -/
  | entDraw (c : Nat)
  /-- TIME_READ (R385). Writes half of W to one lane. -/
  | timeRead (c : Nat)
  /-- CNT_READ (R385). Writes a core counter to one lane. -/
  | cntRead (c : Nat)
  /-- VECTOR_WRITEBACK (R208). A fixed-latency result lands at the end of sc s + L − 1 in registers, scratchpad or an exact accumulator. -/
  | vectorWriteback (c : Nat)
  /-- MX_FEED_READ (R179). In its planned sc the feed reads a stored tile row or a weight vector and advances the slide front. -/
  | mxFeedRead (c : Nat)
  /-- PASS_RESULT_LAND (R177). A result vector leaves the array and lands in a bell tile row. -/
  | passResultLand (c : Nat) (err : Option (Nat × Nat))
  /-- BEAT_EDGE (R35). At each wall beat edge W advances, H or S advances, and votes, caps, wakes, the base plan and DRONE_OUT are updated. -/
  | beatEdge (env : EdgeEnv)
  /-- BEAT_WORK_DONE (R75). A schedule region's count reaches 1,600 (or BEAT_SC) and it stops at the beat gate. -/
  | beatWorkDone (region : Nat)
  /-- BEAT_GATE_OPEN (R75). Once its edge is passed and every schedule region has finished, the next beat's gate opens and the regions restart. -/
  | beatGateOpen (stall : List (Nat × Nat))
  /-- SCRUB_CYCLE (R254). Every 512 schedule beats a core scrubs one bank row across all 64 banks. -/
  | scrubCycle (c : Nat)
  /-- YIELD_POINT (R411). At the end of a beat in which every core issued ct.yield the task reaches a yield point and registered commands act. -/
  | yieldPoint (slot : Nat)
  /-- YIELD_OVERDUE (R412). No yield point in 4,096 schedule beats faults the task. -/
  | yieldOverdue (slot : Nat)
  /-- BUNDLE_WAIT_OVERDUE (R162). A bundle waiting 4,096 wall beats faults its task with YIELD_OVERDUE. -/
  | bundleWaitOverdue (c : Nat)
  /-- TASK_FAULTED (R541). Once nothing of a stopping task remains in flight, the task becomes FAULTED. -/
  | taskFaulted (slot : Nat)
  /-- COPY_ACCESS (R243). In a copy cycle the copy engine makes a ready access in its copy group, in the order of R244. -/
  | copyAccess (c : Nat) (bank : Nat) (fresh : Bool)
  /-- COPY_COMPLETE (R269). A copy or receive completes, clears its scoreboard range and increments its key. -/
  | copyComplete (c : Nat) (id : Nat)
  /-- QUEUE_ARRIVAL (R307). A message reaches its owning core and is accepted into the ring or parked. -/
  | queueArrival (c : Nat)
  /-- DRAM_TICK (R278). In each tick every stack group serves a window, hub-window or refresh use. -/
  | dramTick
  /-- FORCED_REFRESH (R287). A group that lapses its refresh interval forces a refresh of the stack and a hold vote. -/
  | forcedRefresh (stack : Nat)
  /-- DRAM_SCRUB (R538). Each wall beat the DRAM scrubber reads one unit per stack and acts on its errors. -/
  | dramScrub (stack : Nat)
  /-- STAGING_SCRUB (R257). Each wall beat the staging scrubber reads one word per block. -/
  | stagingScrub
  /-- LOG_GAP (R434). When the logger buffer has room again after losses, a GAP record is written. -/
  | logGap
  /-- REPLAY_APPLY (R436). During a replay a logged input is applied at its point. -/
  | replayApply (slot : Nat)
  /-- SLOT_TRANSMIT (R330). Each position of each port sends outbox, forwarded, open, re-sent or empty content with its trailer. -/
  | slotTransmit (p : Nat)
  /-- CONTROL_SLOT_TRANSMIT (R33). Position 0 of every wall beat sends the control slot on every port that is up. -/
  | controlSlotTransmit (p : Nat)
  /-- OUTBOX_READY (R330). When every region has issued READY_SC, the LOCAL data is read into the outbox. -/
  | outboxReady (p : Nat) (pos : Nat)
  /-- SLOT_RECEIVE (R323). A received slot is checked, NACKed, forwarded, filed or discarded, and its votes relayed. -/
  | slotReceive (p : Nat) (slot : List (BitVec 8))
  /-- CONTROL_SLOT_RECEIVE (R325). A control slot gives drone fields, stamps, ledger words and hold state. -/
  | controlSlotReceive (p : Nat) (slot : List (BitVec 8)) (stamp : Int)
  /-- SLIP_WRITE (R331). A held scheduled slot is written at the later of its arrival and the start of its beat, then raises its key. -/
  | slipWrite (p : Nat)
  /-- REPAIR_RESEND (R339). A retained slot named by a NACK is re-sent in the next suitable repair position. -/
  | repairResend (p : Nat)
  /-- LEDGER_CHECK (R340). At the end of wall beat v + 2 the receiver checks beat v against SENT(v). -/
  | ledgerCheck (p : Nat)
  /-- LINK_TRAINING_DONE (R342). Training of a port completes or fails. -/
  | linkTrainingDone (p : Nat) (ok : Bool)
  /-- LINK_FRAMING_LOCK (R342). After 16 good control slots the receiver locks framing. -/
  | linkFramingLock (p : Nat)
  /-- OPEN_LINK (R342). A LINK packet of hello or authentication arrives during link-up. -/
  | openLink (p : Nat)
  /-- LINK_DELAY_DONE (R342). The delay measurement over 1,024 beats completes and the port is up. -/
  | linkDelayDone (p : Nat) (up : Bool)
  /-- PORT_FRAMING_LOSS (R342). 16 consecutive failed control slots take the port down to retrain. -/
  | portFramingLoss (p : Nat)
  /-- OPEN_WRITE (R356). An open WRITE is checked and written at its destination. -/
  | openWrite
  /-- OPEN_READ_REQ (R356). A READ_REQ reads its bytes and answers with READ_DATA. -/
  | openReadReq
  /-- OPEN_READ_DATA (R356). READ_DATA is written at its destination. -/
  | openReadData
  /-- OPEN_KEY_ADD (R357). A KEY_ADD increments a key after the copy's bytes have landed. -/
  | openKeyAdd
  /-- OPEN_QMSG (R356). A QMSG delivers a descriptor to a queue as an open arrival. -/
  | openQmsg
  /-- OPEN_DONE (R356). A DONE completes the open copy at its origin. -/
  | openDone
  /-- OPEN_HOST (R474). HOST packet data of a remote HOST_COPY arrives. -/
  | openHost
  /-- DRONE_IN_MARKER (R46). A DRONE_IN marker edge is judged good or not, and the root locks or steers. -/
  | droneInMarker (deltaPs : Int)
  /-- DRONE_IN_WORD (R47). A DRONE_IN word frame is checked against W. -/
  | droneInWord (frame : Nat)
  /-- DRONE_LOST (R55). Loss of reference or drone for 4 beats starts freewheel. -/
  | droneLost
  /-- FREEWHEEL_EXPIRED (R58). After 65,536 wall beats of freewheel the device enters freewheel expired. -/
  | freewheelExpired
  /-- FREEWHEEL_EXIT (R59). Valid drone, or good marker edges, for 4 beats end freewheel. -/
  | freewheelExit
  /-- DRONE_LOCK (R51). An aligning member whose averaged θ is small enters locked. -/
  | droneLock
  /-- DRONE_REALIGN (R60). After a new DRONE_ROLE the device takes new beat numbers at one edge, or refuses them. -/
  | droneRealign
  /-- STANDBY_TAKEOVER (R61). After 64 beats without a good root the standby becomes acting root. -/
  | standbyTakeover
  /-- REFCLK_LOST (R85). Loss of REFCLK takes every port down and freewheels. -/
  | refclkLost
  /-- REFCLK_RETURN (R86). After 1 ms of good REFCLK the PLL returns and ports retrain. -/
  | refclkReturn
  /-- PCIE_REFCLK_LOST (R87). Loss of PCIE_REFCLK takes down the host link only. -/
  | pcieRefclkLost
  /-- HOST_LINK_UP (R87). The host link comes up and held writes are made in order. -/
  | hostLinkUp
  /-- POWER_CAP_UPDATE (R90). Every 64 wall beats the Chanter raises or lowers the power cap. -/
  | powerCapUpdate
  /-- METER_ENERGY_SHARE (R570). Every 64 wall beats rail energy is shared out among ledger entries. -/
  | meterEnergyShare
  /-- RAIL_TELEMETRY_READ (R593). Every 32 wall beats rail voltage and current are read and integrated. -/
  | railTelemetryRead (readings : List (Nat × Nat × Nat))
  /-- RAIL_STATUS_READ (R594). Every 1,024 wall beats STATUS_WORD is read, and 4 bad readings record PACKAGE_FAULT. -/
  | railStatusRead (faults : List Nat)
  /-- THERMAL_SHUTDOWN (R607). 10 hot samples stop the part and turn off its rails. -/
  | thermalShutdown (sensor : Nat)
  /-- WAKE_COMPLETE (R562). A core, quarter or device wake completes at a beat edge. -/
  | wakeComplete (kind : Nat) (unit : Nat)
  /-- CORE_REMAP (R549). A marked core with no bound task is remapped to a spare. -/
  | coreRemap (c : Nat)
  /-- RESET_ASSERT (R584). RESET_N or POWER_GOOD low stops every region and idles every output. -/
  | resetAssert
  /-- RESET_RELEASE (R584). At t0 the part samples its straps and begins start-up. -/
  | resetRelease (seat : Nat) (smbAddr : Nat)
  /-- DIE_ATTESTATION (R496). Die attestation with each quarter completes or fails. -/
  | dieAttestation (q : Nat) (ok : Bool)
  /-- BOOT_FRAME (R485). A frame of the image or recovery stream is read and checked into the frame buffer. -/
  | bootFrame
  /-- BOOT_SIGNATURE (R487). The signature is checked and the frames are broadcast, or the next slot is tried. -/
  | bootSignature
  /-- STARTUP_STEP (R495). After the previous step and its delay, the next step of the order word runs. -/
  | startupStep
  /-- CHANTER_READY (R497). After DRAM training and SRAM clear the Chanter serves the mailboxes. -/
  | chanterReady
  /-- TWIN_SEAT_TIMEOUT (R503). Seat 1 becomes SOLO when TWIN_PEER_ALIVE stays low for 1.0 s. -/
  | twinSeatTimeout
  /-- TWIN_PEER_ALIVE_FALL (R524). The partner's TWIN_ALIVE falls and the package becomes SOLO. -/
  | twinPeerAliveFall
  /-- DECIDE (R516). A DECIDE record gives the shadow the content of 16 positions. -/
  | twDecide (r : TwinRec)
  /-- ACK (R516). An ACK lets the primary send the positions it names. -/
  | twAck (r : TwinRec)
  /-- READY (R515). A READY CRC is compared with the primary's data. -/
  | twReady (r : TwinRec)
  /-- COMMAND (R508). A COMMAND record gives the shadow a command to start in order. -/
  | twCommand (r : TwinRec)
  /-- HOST_IN (R510). A HOST_IN record carries host-written bytes to be applied. -/
  | twHostIn (r : TwinRec)
  /-- VALUE (R513). A VALUE record gives the shadow the result of a varying instruction. -/
  | twValue (r : TwinRec)
  /-- MISSED (R514). The shadow reports a failed slot. -/
  | twMissed (r : TwinRec)
  /-- FILL (R514). The primary's good copy of a slot replaces the shadow's. -/
  | twFill (r : TwinRec)
  /-- DIGEST (R520). The DIGEST records of a compare point are compared. -/
  | twDigest (r : TwinRec)
  /-- FAULT (R522). A FAULT record is compared to decide on a common fault or a mute. -/
  | twFault (r : TwinRec)
  /-- STEER (R517). A STEER record gives the shadow the port timing and drone state. -/
  | twSteer (r : TwinRec)
  /-- COPY (R532). A COPY record carries state to the partner during an attach or a repair. -/
  | twCopy (r : TwinRec)
  /-- MBOX14 (R463). Mailbox 14 pieces pass between twin Chanters. -/
  | twMbox14 (off : Nat) (data : List (BitVec 8)) (last : Bool) (response : Bool)
  /-- OPEN_DEFERRAL_APPLY (R511). In a pair, deferred open packets are applied before schedule beat S(v) + 4. -/
  | openDeferralApply
  /-- TWIN_MUTE (R523). A package mutes itself at a wall beat edge, and its partner becomes SOLO. -/
  | twinMute
  /-- TWIN_LINK_LOSS (R526). A shadow without twin control slots for 4 beats, or missing 16 DECIDE deadlines, mutes itself. -/
  | twinLinkLoss
  /-- TWIN_JOIN (R533). At the join beat the final copy is made and the pair forms. -/
  | twinJoin
  /-- TWIN_ATTACH_ABANDON (R534). An attach without a join beat in time, or after a lost link, is abandoned. -/
  | twinAttachAbandon
  /-- TWIN_SCRUB_REPAIR (R530). At the twin repair window the partner's word replaces an uncorrectable one. -/
  | twinScrubRepair
  /-- BYPASS (R590). JTAG BYPASS instruction. -/
  | bypass
  /-- IDCODE (R590). JTAG IDCODE instruction. -/
  | idcode
  /-- SAMPLE_PRELOAD (R590). JTAG SAMPLE/PRELOAD instruction. -/
  | samplePreload
  /-- EXTEST (R590). JTAG EXTEST, which acts only while RESET_N is low. -/
  | extest
  /-- CLAMP (R590). JTAG CLAMP, which acts only while RESET_N is low. -/
  | clamp
  /-- HIGHZ (R590). JTAG HIGHZ, which acts only while RESET_N is low. -/
  | highz
  /-- HOST_LINK_DOWN (R87). The PCIe host link goes down for a reason other than loss of PCIE_REFCLK, and the part holds its host-memory writes until the link returns. -/
  | hostLinkDown
  /-- LINK_UP_TIMEOUT (R342). A link-up step of Table 13-10 passes its bound without completing, so the port records the event and returns to step 1 or stays down. -/
  | linkUpTimeout (p : Nat)
  /-- TWIN_PEER_ALIVE_RISE (R503). TWIN_PEER_ALIVE rises on a seat-1 package within 1.0 s of CHANTER_STATUS reading 0x02, and the package becomes STANDBY. -/
  | twinPeerAliveRise
  /-- LOSS_OF_POWER (R604). All power, VHUB included, is lost at once, which clears the health log and its index, DRAM contents and remaps that a fuse does not hold. -/
  | lossOfPower
  /-- PACKAGE_FAULT (R537). Hardware finds an uncorrectable die-to-die link error or a failure of a quarter die, a stack, the hub or its memories, and records PACKAGE_FAULT with its outcome under Table 23-6. -/
  | packageFault (cause : Nat) (unit : Nat)
  deriving DecidableEq, Repr

end Sys2Proof
end

