-- ==== Sys2Proof/Decode.lean ====
section
/-! DEFINITION. Decode.lean: the commands that words spell. The table of operations and events gives no row any bits: a command
reaches the part as a mailbox command, a bundle slot, a packet or an event, which the state holds and the meanings read. -/

namespace Sys2Proof

/-- The command that a word spells by the table's bits: none, since the table gives no bits (log 1). -/
def decodeTableWord (_nbits _w : Nat) : Option Instr := none

end Sys2Proof
end

