-- ==== Sys2Proof/Config.lean ====
section
/-! DEFINITION. Config.lean: what the spec leaves open. Every constant is opaque: nothing in Lean can evaluate it. -/

namespace Sys2Proof.Config

/-- The free values (R7, R385): the n-th value drawn. The state counts the draws. Log 2. -/
opaque freeNat : Nat → Nat

/-- Does an ECDSA P-384 signature verify against a fused image-signing key (R487)? The arguments are the SHA-384 digest of the
header and the frames, the signature (r, then s) and the number of the key. Log 10. -/
opaque imageSigned : List Byte → List Byte → Nat → Bool

/-- The signature that the device key makes over a SHA-384 digest (R443, R576): bytes r then s. Log 10. -/
opaque deviceSign : List Byte → List Byte

/-- The hub's certificate chain (R577), from the serial number. Log 10. -/
opaque certChain : Nat → List Byte

/-- The fused public key of a die (R576, R579): 0 the hub, 1 to 4 the quarters. Log 10. -/
opaque devicePublicKey : Nat → List Byte

/-- Does a certificate chain lead to the Eotik root, and does a signature of a SHA-384 digest verify under its hub key (R342)?
The arguments are the chain, the digest and the signature. Log 10. -/
opaque linkAuth : List Byte → List Byte → List Byte → Bool

/-- What the two ends of a link sign the SHA-384 digest of (R342): from the signer's nonce and the other end's, then DEVICE and
PORT of the signer, those of the other end, and the version. Log 10. -/
opaque linkTranscript : List Byte → List Byte → List Nat → List Byte

/-- What the LINK packets of one end carry (R342), whose layout the spec does not give: from the mask of offered versions, DEVICE,
PORT, twin role, grade and stepping (R531), then the nonce, the certificate chain, and the signature, empty while none is due.
Log 10. -/
opaque linkPacket : List Nat → List Byte → List Byte → List Byte → List Byte

/-- CORE of the transmit entry from which the slot at a position of a port comes (R332): by the port, the schedule beat and the
position. The neighbour's plan holds it, the device's own does not. Log 2. -/
opaque txCore : Nat → Nat → Nat → Nat

/-- The nonce of a hello (R342). Log 10. -/
opaque linkNonce : List Byte → List Byte

/-- The certificate chain of a hello (R342). Log 10. -/
opaque linkChain : List Byte → List Byte

/-- The signature in what a LINK packet carries, empty where it has none (R342). Log 10. -/
opaque linkProof : List Byte → List Byte

/-- The offered link versions of a hello, as a mask (R342). Log 10. -/
opaque linkVersions : List Byte → Nat

/-- The role that a partner shows in a hello on a twin port (R504, R531). Log 10. -/
opaque linkRole : List Byte → Nat

/-- The grade that a partner shows in a hello on a twin port, coded as in IDENT (R531). Log 10. -/
opaque linkGrade : List Byte → Nat

/-- The stepping that a partner shows in a hello on a twin port (R531). Log 10. -/
opaque linkStepping : List Byte → Nat

/-- DEVICE of a hello (R342). Log 10. -/
opaque linkDevice : List Byte → Nat

/-- PORT of a hello (R342). Log 10. -/
opaque linkPort : List Byte → Nat

/-- The payload of a STEER record (Table 22-5), whose layout the spec does not give: from d, θ, the last arrival stamp, BAD_RX,
the link-up step and the drone state of each port in turn. Log 10. -/
opaque steerBytes : List Int → List Byte

/-- A field of a STEER record: that of a port, by its place in the list that steerBytes takes. Log 10. -/
opaque steerField : List Byte → Nat → Nat → Int

end Sys2Proof.Config
end

