-- ==== Sys2Proof/Machine/Bits.lean ====
section
/-! DEFINITION. Machine/Bits.lean: bit fields, little-endian byte strings and small list helpers that every other
file uses. -/

namespace Sys2Proof.Machine

/-- Bits [lo + w - 1 : lo] of a number (R9). -/
def bits (x lo w : Nat) : Nat := x / 2 ^ lo % 2 ^ w

/-- Bit i of a number. -/
def bitAt (x i : Nat) : Bool := bits x i 1 == 1

/-- A number with the w bits from lo replaced by the low w bits of v. -/
def setBits (x lo w v : Nat) : Nat := x - bits x lo w * 2 ^ lo + v % 2 ^ w * 2 ^ lo

/-- 1 for true and 0 for false. -/
def b2n (b : Bool) : Nat := if b then 1 else 0

/-- A number cut to a signed value of w bits. -/
def toSigned (x w : Nat) : Int :=
  let y := x % 2 ^ w
  if y < 2 ^ (w - 1) then (y : Int) else (y : Int) - (2 ^ w : Nat)

/-- A signed value as the w bits of its two's complement. -/
def ofSigned (x : Int) (w : Nat) : Nat := (x % ((2 ^ w : Nat) : Int)).toNat

/-- The number that a byte string holds, little-endian (R10). -/
def leNat : List (BitVec 8) → Nat
  | [] => 0
  | b :: bs => b.toNat + 256 * leNat bs

/-- The low n bytes of a number, little-endian (R10). -/
def leBytes : Nat → Nat → List (BitVec 8)
  | 0, _ => []
  | n + 1, x => BitVec.ofNat 8 x :: leBytes n (x / 256)

/-- The number that a byte string holds, most significant byte first. -/
def beNat (bs : List (BitVec 8)) : Nat := bs.foldl (fun a b => a * 256 + b.toNat) 0

/-- The low n bytes of a number, most significant first. -/
def beBytes (n x : Nat) : List (BitVec 8) := (leBytes n x).reverse

/-- n bytes of a string from an offset; bytes past the end read as 0. -/
def slice (bs : List (BitVec 8)) (off n : Nat) : List (BitVec 8) :=
  let t := (bs.drop off).take n
  t ++ List.replicate (n - t.length) 0

/-- The little-endian field of n bytes at an offset. -/
def fieldLe (bs : List (BitVec 8)) (off n : Nat) : Nat := leNat (slice bs off n)

/-- Are all bytes of a string 0? -/
def allZero (bs : List (BitVec 8)) : Bool := bs.all (· == 0)

/-- Is a number a multiple of n? -/
def aligned (x n : Nat) : Bool := x % n == 0

/-- Round up to a multiple of n. -/
def roundUp (x n : Nat) : Nat := (x + n - 1) / n * n

/-- The number of bits of a number: 0 for 0. -/
def bitLen (x : Nat) : Nat := if x = 0 then 0 else Nat.log2 x + 1

/-- The numbers below n for which a test holds, as a mask. -/
def maskOf (n : Nat) (p : Nat → Bool) : Nat :=
  (List.range n).foldl (fun a i => if p i then a + 2 ^ i else a) 0

/-- The members of a mask below n, ascending. -/
def bitsOf (n m : Nat) : List Nat := (List.range n).filter (fun i => bitAt m i)

/-- Add a member to a list that holds no member twice. -/
def insertNew (x : Nat) (l : List Nat) : List Nat := if l.contains x then l else l ++ [x]

/-- Do two byte ranges [a, a + n) and [b, b + m) share a byte? -/
def overlaps (a n b m : Nat) : Bool := a < b + m && b < a + n && 0 < n && 0 < m

/-- Element i of a list, or a default. -/
def nth {α : Type} (l : List α) (i : Nat) (d : α) : α := (l[i]?).getD d

/-- Replace element i of a list. -/
def setNth {α : Type} (l : List α) (i : Nat) (x : α) : List α := l.set i x

/-- Take a list apart into pieces of n elements. -/
def chunks {α : Type} (n : Nat) (l : List α) : List (List α) :=
  (List.range ((l.length + n - 1) / n)).map (fun i => (l.drop (i * n)).take n)

/-- The least element of a list of numbers, or a default when it is empty. -/
def minOr (d : Nat) (l : List Nat) : Nat :=
  match l with
  | [] => d
  | x :: xs => xs.foldl min x

/-- The greatest element of a list of numbers, or 0. -/
def maxOr0 (l : List Nat) : Nat := l.foldl max 0

/-- The characters of an ASCII string as bytes. -/
def ascii (s : String) : List (BitVec 8) := s.toList.map (fun c => BitVec.ofNat 8 c.toNat)

end Sys2Proof.Machine
end

