-- ==== Sys2Proof/Machine/Crc.lean ====
section
/-! DEFINITION. Machine/Crc.lean: the check sums of the part: CRC-16/CCITT-FALSE (Table 2-3), CRC-32C (R323) and
CRC-64/ECMA-182 (R519), all over one bit-serial register. -/

namespace Sys2Proof.Machine

/-- Shift bits into a check register of w bits. -/
def crcBits (w poly reg : Nat) (bs : List Bool) : Nat :=
  bs.foldl (fun r b =>
    let top := bitAt r (w - 1)
    let r2 := r * 2 % 2 ^ w
    if top != b then Nat.xor r2 poly else r2) reg

/-- The bits of a byte, least significant first. -/
def bitsLsb (b : BitVec 8) : List Bool := (List.range 8).map (fun i => bitAt b.toNat i)

/-- The bits of a byte, most significant first. -/
def bitsMsb (b : BitVec 8) : List Bool := (bitsLsb b).reverse

/-- The low w bits of a number in reverse order. -/
def reflect (w x : Nat) : Nat := maskOf w (fun i => bitAt x (w - 1 - i))

/-- CRC-16/CCITT-FALSE over the low n bits of a number, bit 0 first (Table 2-3). -/
def crc16 (n x : Nat) : Nat := crcBits 16 0x1021 0xFFFF ((List.range n).map (fun i => bitAt x i))

/-- CRC-32C: polynomial 0x1EDC6F41, reflected, initial value and final XOR all ones (R323). -/
def crc32c (bs : List (BitVec 8)) : Nat :=
  Nat.xor (reflect 32 (crcBits 32 0x1EDC6F41 0xFFFFFFFF (bs.flatMap bitsLsb))) 0xFFFFFFFF

/-- CRC-64/ECMA-182: initial value 0, no reflection (R519). -/
def crc64 (bs : List (BitVec 8)) : Nat := crcBits 64 0x42F0E1EBA9EA3693 0 (bs.flatMap bitsMsb)

end Sys2Proof.Machine
end

