-- ==== Sys2Proof/Machine/Sparse.lean ====
section
/-! DEFINITION. Machine/Sparse.lean: tables as lists of (key, value) in one canonical form: keys rise strictly, and no
entry equals what an unlisted key reads as. Memory bytes (Host.Cell), register files and tables of units all use it. -/

namespace Sys2Proof.Machine

/-- A table: what it lists, by key. -/
abbrev Sparse (α : Type) := List (Nat × α)

/-- The value under a key, or what an unlisted key reads as. -/
def Sparse.get {α : Type} (d : α) (m : Sparse α) (k : Nat) : α :=
  match m with
  | [] => d
  | (j, v) :: r => if j = k then v else Sparse.get d r k

/-- The table without a key. -/
def Sparse.erase {α : Type} (m : Sparse α) (k : Nat) : Sparse α := m.filter (fun e => e.1 != k)

/-- Insert an entry before the first larger key. -/
def Sparse.insert {α : Type} (m : Sparse α) (k : Nat) (v : α) : Sparse α :=
  match m with
  | [] => [(k, v)]
  | (j, w) :: r => if k < j then (k, v) :: (j, w) :: r else (j, w) :: Sparse.insert r k v

/-- The table with a value under a key; the value an unlisted key reads as removes the entry. -/
def Sparse.set {α : Type} [DecidableEq α] (d : α) (m : Sparse α) (k : Nat) (v : α) : Sparse α :=
  if v = d then Sparse.erase m k else Sparse.insert (Sparse.erase m k) k v

/-- Do the keys rise strictly from a lower bound? -/
def Sparse.rising {α : Type} (b : Nat) (m : Sparse α) : Bool :=
  match m with
  | [] => true
  | (j, _) :: r => decide (b ≤ j) && Sparse.rising (j + 1) r

/-- The canonical form. -/
def Sparse.wf {α : Type} [DecidableEq α] (d : α) (m : Sparse α) : Bool :=
  Sparse.rising 0 m && m.all (fun e => decide (e.2 ≠ d))

/-- Change the value under a key. -/
def Sparse.upd {α : Type} [DecidableEq α] (d : α) (m : Sparse α) (k : Nat) (f : α → α) : Sparse α :=
  Sparse.set d m k (f (Sparse.get d m k))

/-- Change every value listed. -/
def Sparse.mapVals {α : Type} [DecidableEq α] (d : α) (m : Sparse α) (f : α → α) : Sparse α :=
  m.foldl (fun s e => Sparse.set d s e.1 (f e.2)) []

/-- Put values under consecutive keys. -/
def Sparse.setMany {α : Type} [DecidableEq α] (d : α) (m : Sparse α) (k : Nat) (vs : List α) : Sparse α :=
  match vs with
  | [] => m
  | v :: r => Sparse.setMany d (Sparse.set d m k v) (k + 1) r

/-- The values under n consecutive keys. -/
def Sparse.getMany {α : Type} (d : α) (m : Sparse α) (k n : Nat) : List α :=
  (List.range n).map (fun i => Sparse.get d m (k + i))

end Sys2Proof.Machine
end

