-- ==== Sys2Proof/Machine/State.lean ====
section
/-! DEFINITION. Machine/State.lean: everything the spec gives the machine, as plain data, with the value each
piece holds right after RESET_N is released, and the reasons a step can stop. INVENTORY.md lists every field with
its rule and reset value. -/

namespace Sys2Proof.Machine

/-- The three grades of the part (Table 0-1, R2). -/
inductive Grade where
  | lmx9410
  | lmx9408
  | lmx9404
  deriving DecidableEq, Repr, Inhabited

/-- The JTAG instructions of R590. -/
inductive Jtag where
  | bypass
  | idcode
  | samplePreload
  | extest
  | clamp
  | highz
  deriving DecidableEq, Repr, Inhabited

/-- Where start-up stands: held in reset; attesting the dies (R496); reading an image (R480, R485); its frames read
and the signature due (R487); the start-up steps (R495); the Chanter running (R497); the recovery Chanter
(R491); boot halt (R492); stopped by thermal shutdown (R607). -/
inductive BootPhase where
  | inReset
  | attest
  | frames
  | sign
  | steps
  | running
  | recovery
  | halt
  | shutdown
  deriving DecidableEq, Repr, Inhabited

/-- The time base's numbers. -/
structure Beat where
  /-- wall beat number W (02 R34, R36; 64 bits). -/
  w : Nat
  /-- hold count H (02 R35, R36; 64 bits). -/
  h : Nat
  /-- schedule beat number S (02 R35, R36; 64 bits). -/
  s : Nat
  /-- the device has aligned and counts beats (02 R36; 1 bits). -/
  aligned : Bool
  deriving DecidableEq, Repr, Inhabited

/-- Beat right after RESET_N is released. -/
def Beat.reset : Beat where
  w := 0
  h := 0
  s := 0
  aligned := false

/-- What the fuses of the package hold. -/
structure Ident where
  /-- grade of the package (00 R2; 24 R579; 2 bits). -/
  grade : Grade
  /-- fused part code (21 R482, R486; 16 bits). -/
  part : Nat
  /-- fused stepping, B0 (00 R1; 21 R486; 8 bits). -/
  stepping : Nat
  /-- fused serial number (21 R486; 24 R579; 64 bits). -/
  serial : Nat
  /-- field repair fuses left (23 R550; 5 bits). -/
  repairLeft : Nat
  /-- physical cores that the manufacture and field repair fuses disable (23 R550). -/
  physFused : List Nat
  /-- bad physical cores of remaps that found no repair fuse left, until loss of power (23 R550). -/
  physHeld : List Nat
  /-- the disabled physical cores over which the numbering of R3 was built at start-up (23 R550). -/
  physBuilt : List Nat
  deriving DecidableEq, Repr, Inhabited

/-- Ident right after RESET_N is released. -/
def Ident.reset : Ident where
  grade := .lmx9410
  part := 0x9400
  stepping := 0x10
  serial := 0
  repairLeft := 16
  physFused := []
  physHeld := []
  physBuilt := []

/-- Pins the part reads and drives. -/
structure Pins where
  /-- RESET_N as sampled (25 R584; 1 bits). -/
  resetN : Bool
  /-- POWER_GOOD as sampled (25 R584; 1 bits). -/
  powerGood : Bool
  /-- TWIN_SEAT sampled at t0 (22 R501; 25 R586; 1 bits). -/
  twinSeat : Nat
  /-- SMB_ADDR sampled at t0 (25 R586, R587; 2 bits). -/
  smbAddr : Nat
  /-- TWIN_PEER_ALIVE input (pull-down, R502) (22 R501, R503; 1 bits). -/
  peerAlive : Bool
  /-- TWIN_ALIVE output (22 R503; 25 R584; 1 bits). -/
  twinAlive : Bool
  /-- TWIN_TX_EN output (22 R503; 25 R584; 1 bits). -/
  twinTxEn : Bool
  /-- SerDes transmitters in electrical idle (25 R584; 1 bits). -/
  serdesIdle : Bool
  /-- PCIe transmitters released (21 R495; 1 bits). -/
  pcieTx : Bool
  /-- PMBus and AVSBus pins driven (21 R495; 25 R584; 1 bits). -/
  pmbusOn : Bool
  /-- xSPI pins driven (25 R588; 1 bits). -/
  xspiOn : Bool
  /-- REFCLK good (03 R85; 1 bits). -/
  refclk : Bool
  /-- PCIE_REFCLK good (03 R87; 1 bits). -/
  pcieRefclk : Bool
  /-- rails commanded off by the part (25 R605, R607). -/
  railsOff : List Nat
  /-- instruction in force at the test access port (25 R590). -/
  jtagIr : Jtag
  /-- what the selected test data register captured (25 R590). -/
  jtagDr : Nat
  deriving DecidableEq, Repr, Inhabited

/-- Pins right after RESET_N is released. -/
def Pins.reset : Pins where
  resetN := true
  powerGood := true
  twinSeat := 0
  smbAddr := 0
  peerAlive := false
  twinAlive := false
  twinTxEn := false
  serdesIdle := true
  pcieTx := false
  pmbusOn := false
  xspiOn := false
  refclk := true
  pcieRefclk := true
  railsOff := []
  jtagIr := .bypass
  jtagDr := 0

/-- The drone logic. -/
structure Drone where
  /-- ROLE of Table 2-6 (02 R39, R66; 4 bits). -/
  role : Nat
  /-- STATE of Table 2-6 (02 R66; 4 bits). -/
  st : Nat
  /-- ACTIVE_PORT (02 R43, R66; 6 bits). -/
  activePort : Nat
  /-- HOPS (02 R42, R66; 5 bits). -/
  hops : Nat
  /-- WORD_MISMATCH (02 R47, R66; 1 bits). -/
  mismatch : Bool
  /-- wall beats in the current freewheel (the word shows at most 65,535) (02 R58, R66). -/
  freeBeats : Nat
  /-- W at which the freewheel began (02 R55; 23 Table 23-5; 64 bits). -/
  freeStart : Nat
  /-- TAKEOVER (02 R61, R64, R66; 1 bits). -/
  takeover : Bool
  /-- PHASE in units of 10 ps, unclamped (02 R66; 16 bits). -/
  phase : Int
  /-- reference offset (02 R47). -/
  offsetPs : Int
  /-- root-tree mask (02 R40; 64 bits). -/
  rootMask : Nat
  /-- standby-tree mask (02 R40; 64 bits). -/
  standbyMask : Nat
  /-- the standby tree is in use (02 R63, R64; 1 bits). -/
  useStandby : Bool
  /-- the beat derives from an acting root (13 Table 13-2 TREE; 1 bits). -/
  tree : Bool
  /-- DRONE_OUT enabled (02 R48; 1 bits). -/
  outEnable : Bool
  /-- DRONE_OUT has marked the current beat edge (02 R48; 1 bits). -/
  outEdge : Bool
  /-- word frame on DRONE_OUT (Table 2-3); 0 while both signals are held low (02 R45, R48; 96 bits). -/
  outFrame : Nat
  /-- consecutive good marker edges whose words are good and rise by 1 (02 R46). -/
  goodEdges : Nat
  /-- consecutive expected marker edges that were not good (02 R54). -/
  badEdges : Nat
  /-- wall beats for which own marker edges have been good (held at 64) (02 R61). -/
  ownGood : Nat
  /-- number of the good word since the last marker edge (02 R46; 64 bits). -/
  lastWord : Option Nat
  /-- that word names the device's own next W (02 R47, R609; 1 bits). -/
  wordFits : Bool
  /-- number of the good word of the last marker edge: the beat that began there (02 R46; 64 bits). -/
  prevWord : Option Nat
  /-- the last marker edge against the edge that the device predicts (02 R46, R609). -/
  markPs : Option Int
  /-- a good edge came in the current beat (02 R54; 1 bits). -/
  edgeSeen : Bool
  /-- consecutive wall beats without valid drone on the tree in use (02 R54). -/
  noValid : Nat
  /-- consecutive wall beats with valid drone on the tree in use (02 R59). -/
  valid : Nat
  /-- the upstream's W at the last edge was the own W (02 R59; 1 bits). -/
  upFits : Bool
  /-- consecutive marker edges that meet R609 (02 R609). -/
  relock : Nat
  /-- consecutive wall beats of R61 without a good root (02 R61). -/
  rootBad : Nat
  /-- theta of the last 1,024 wall beats in ps, newest first (02 R49, R51). -/
  thetas : List Int
  /-- d of the last 1,024 wall beats in ps, newest first (02 R49). -/
  delays : List Int
  /-- accumulated slew of the own beat edge (02 R50, R62). -/
  edgePs : Int
  /-- realignment: 0 none, 1 pending, 2 refused, 3 pending from freewheel expired, 4 pending from freewheel (02 R60; 3 bits). -/
  realign : Nat
  deriving DecidableEq, Repr, Inhabited

/-- Drone right after RESET_N is released. -/
def Drone.reset : Drone where
  role := 0
  st := 0
  activePort := 0
  hops := 0
  mismatch := false
  freeBeats := 0
  freeStart := 0
  takeover := false
  phase := 0
  offsetPs := 0
  rootMask := 0
  standbyMask := 0
  useStandby := false
  tree := false
  outEnable := false
  outEdge := false
  outFrame := 0
  goodEdges := 0
  badEdges := 0
  ownGood := 0
  lastWord := none
  wordFits := false
  prevWord := none
  markPs := none
  edgeSeen := false
  noValid := 0
  valid := 0
  upFits := false
  relock := 0
  rootBad := 0
  thetas := []
  delays := []
  edgePs := 0
  realign := 0

/-- Lag and hold votes. -/
structure Hold where
  /-- lag at the last edge in sc (15 R362, R368; 12 bits). -/
  lag : Nat
  /-- origin wall beats of votes originated or received, recent ones (15 R364). -/
  votes : List Nat
  /-- HOLD_NOW (15 R368; 1 bits). -/
  now : Bool
  /-- HOLD_NEXT, as the last edge left it (15 R368; 1 bits). -/
  next : Bool
  /-- VOTE_CAUSE, bit 0 lag, 1 refresh, 2 repair, 3 parking, 4 FIFO (15 R368, Table 15-1; 5 bits). -/
  cause : Nat
  /-- a refresh was forced in this wall beat: vote in the next (11 R287; 1 bits). -/
  refreshVote : Bool
  /-- STORM (15 R370; 1 bits). -/
  storm : Bool
  /-- STORM_SEEN (15 R370; 1 bits). -/
  stormSeen : Bool
  /-- wall beats of the hold beats of the last 1,048,576 wall beats, newest first (15 R368). -/
  holdBeats : List Nat
  /-- W at alignment, or after the forward step of a realignment: older beats were not counted here (02 R36, R60; 64 bits). -/
  since : Nat
  deriving DecidableEq, Repr, Inhabited

/-- Hold right after RESET_N is released. -/
def Hold.reset : Hold where
  lag := 0
  votes := []
  now := false
  next := false
  cause := 0
  refreshVote := false
  storm := false
  stormSeen := false
  holdBeats := []
  since := 0

/-- The device's progress through schedule beats. -/
structure Gate where
  /-- schedule beat whose gate opened most recently (15 R361; 64 bits). -/
  e : Nat
  deriving DecidableEq, Repr, Inhabited

/-- Gate right after RESET_N is released. -/
def Gate.reset : Gate where
  e := 0

/-- One region of Table 3-1. -/
structure Region where
  /-- schedule cycle count of beat e (03 R74; 11 bits). -/
  count : Nat
  /-- the region has finished schedule beat e (R79: nothing runs) (03 R75, R79; 1 bits). -/
  finished : Bool
  /-- local cycles left unused at the beat gate in this beat (03 R77). -/
  slack : Nat
  /-- the present schedule beat has met its beat edge, at which its slack is judged (03 R77; 1 bits). -/
  judged : Bool
  /-- the oscillator has run since the last beat edge (03 R75, R91; 1 bits). -/
  ran : Bool
  /-- RATE_MHZ (03 R91; 12 bits). -/
  rate : Nat
  /-- CAP_MHZ (03 R88, R91; 12 bits). -/
  cap : Nat
  /-- CAP_CAUSE (03 R91; 2 bits). -/
  capCause : Nat
  /-- slack of the last 1,024 schedule beats in which the region counted sc, newest first (03 R91 MIN_SLACK). -/
  slacks : List Nat
  /-- LAG_SEEN (03 R91; 1 bits). -/
  lagSeen : Bool
  /-- junction temperature in 0.125 degree C (03 R91; 10 bits). -/
  tj : Nat
  /-- in the 800 MHz band (03 R89; 1 bits). -/
  hot : Bool
  /-- in the sloped band (03 R89; 1 bits). -/
  sloped : Bool
  deriving DecidableEq, Repr, Inhabited

/-- Region right after RESET_N is released. -/
def Region.reset : Region where
  count := 0
  finished := true
  slack := 0
  judged := true
  ran := false
  rate := 0
  cap := 0x866
  capCause := 0
  slacks := []
  lagSeen := false
  tj := 0
  hot := false
  sloped := false

/-- An exact accumulator. -/
structure XAcc where
  /-- V (05 R138; 576 bits). -/
  v : BitVec 576
  /-- VOID (05 R138; 1 bits). -/
  void : Bool
  /-- RANGE_LOST (05 R138; 1 bits). -/
  lost : Bool
  /-- poison mark (10 R250; 1 bits). -/
  poison : Bool
  deriving DecidableEq, Repr, Inhabited

/-- XAcc right after RESET_N is released. -/
def XAcc.reset : XAcc where
  v := 0
  void := false
  lost := false
  poison := false

/-- A protected memory: bytes, poison marks and stored errors. -/
structure Mem where
  /-- bytes, in canonical form; an unlisted address reads as 0 (10 R235, R272; 11 R274). -/
  bytes : List Host.Cell
  /-- poison bits (10 R248; 11 R288). -/
  poison : List (Nat × Bool)
  /-- errors in the stored codeword: 1 correctable, 2 uncorrectable (10 R248; 11 R288). -/
  ecc : List (Nat × Nat)
  deriving DecidableEq, Repr, Inhabited

/-- Mem right after RESET_N is released. -/
def Mem.reset : Mem where
  bytes := []
  poison := []
  ecc := []

/-- A tile of the bell queue. -/
structure BellTile where
  /-- sum format: Horn32 (else Tuba32) (07 R186; 1 bits). -/
  horn : Bool
  /-- values by 128 x row + column (07 R186). -/
  rows : List (Nat × BitVec 32)
  /-- rows that have landed (07 R186, R211). -/
  landed : List Nat
  /-- poisoned rows (10 R250). -/
  poison : List Nat
  /-- complete under R186 (07 R186; 1 bits). -/
  complete : Bool
  deriving DecidableEq, Repr, Inhabited

/-- BellTile right after RESET_N is released. -/
def BellTile.reset : BellTile where
  horn := false
  rows := []
  landed := []
  poison := []
  complete := false

/-- A pass in the MX feed. -/
structure Pass where
  /-- task slot (07 R174; 3 bits). -/
  slot : Nat
  /-- FMT (07 R172; 3 bits). -/
  fmt : Nat
  /-- STOP (07 R172; 2 bits). -/
  stop : Nat
  /-- SHAPE (07 R172; 3 bits). -/
  shape : Nat
  /-- TRANS (07 R172; 1 bits). -/
  trans : Bool
  /-- KEEP (07 R172; 1 bits). -/
  keep : Bool
  /-- X_ADDR at issue (07 R172; 32 bits). -/
  xAddr : Nat
  /-- W_ADDR at issue (07 R172; 32 bits). -/
  wAddr : Nat
  /-- X_STRIDE in bytes (07 R172; 22 bits). -/
  xStride : Nat
  /-- W_STRIDE in bytes (07 R172; 22 bits). -/
  wStride : Nat
  /-- W_COUNT (07 R172; 17 bits). -/
  count : Nat
  /-- the task is a level-1 task (16 R387; 1 bits). -/
  level1 : Bool
  /-- sc of the MX instruction (07 R179). -/
  q : Nat
  /-- bundle index of the MX instruction (07 R187; 23 Table 23-5; 14 bits). -/
  bundle : Nat
  /-- sc within the beat of the issue (23 Table 23-5; 11 bits). -/
  scIdx : Nat
  /-- schedule beat of the issue (23 Table 23-5; 64 bits). -/
  beat : Nat
  /-- sc of the first weight read (of the first sweep) (07 R179, R183). -/
  s1 : Nat
  /-- tile reads made, over all sweeps (07 R179). -/
  readsDone : Nat
  /-- weight reads made, over all sweeps (07 R179). -/
  wDone : Nat
  /-- the shadow stationary values read for the present sweep (07 R170, R180). -/
  tile : List (Nat × BitVec 32)
  /-- a stationary value was marked (10 R250; 1 bits). -/
  tilePoison : Bool
  /-- re-entry buffer: sums by 128 x t + column (07 R184). -/
  sums : List (Nat × BitVec 32)
  /-- exact sums of the piece products so far, in units of 2^-600, by 128 x t + column (05 R131). -/
  sumExact : List (Nat × Int)
  /-- flags raised so far by weight vector t (05 R131). -/
  sumFlags : List (Nat × Nat)
  /-- mark of the sums of weight vector t (10 R250). -/
  sumPoison : List (Nat × Bool)
  deriving DecidableEq, Repr, Inhabited

/-- Pass right after RESET_N is released. -/
def Pass.reset : Pass where
  slot := 0
  fmt := 0
  stop := 0
  shape := 0
  trans := false
  keep := false
  xAddr := 0
  wAddr := 0
  xStride := 0
  wStride := 0
  count := 0
  level1 := false
  q := 0
  bundle := 0
  scIdx := 0
  beat := 0
  s1 := 0
  readsDone := 0
  wDone := 0
  tile := []
  tilePoison := false
  sums := []
  sumExact := []
  sumFlags := []
  sumPoison := []

/-- A result vector on its way out of the array. -/
structure Landing where
  /-- sc at whose end it lands (07 R177). -/
  due : Nat
  /-- task slot (10 R116; 3 bits). -/
  slot : Nat
  /-- q of its pass (07 R186). -/
  passQ : Nat
  /-- index t of the weight read (08 R200). -/
  read : Nat
  /-- last result of the pass (or band) (07 R186; 1 bits). -/
  last : Bool
  /-- Horn32 sums (07 R170; 1 bits). -/
  horn : Bool
  /-- bell rows per read (08 R200). -/
  perRead : Nat
  /-- tiles filled together (07 R186). -/
  tiles : Nat
  /-- values by (tile x perRead + i) x 128 + column (08 R200). -/
  rowsOf : List (Nat × BitVec 32)
  /-- flags raised (05 R131; 5 bits). -/
  flags : Nat
  /-- poison mark (10 R250; 1 bits). -/
  poison : Bool
  /-- bundle index of the pass (23 Table 23-5; 14 bits). -/
  bundle : Nat
  /-- sc of its issue (23 Table 23-5; 11 bits). -/
  scIdx : Nat
  /-- schedule beat of its issue (23 Table 23-5; 64 bits). -/
  beat : Nat
  /-- the pass closes with it (07 R174; 1 bits). -/
  closes : Bool
  deriving DecidableEq, Repr, Inhabited

/-- Landing right after RESET_N is released. -/
def Landing.reset : Landing where
  due := 0
  slot := 0
  passQ := 0
  read := 0
  last := false
  horn := false
  perRead := 0
  tiles := 0
  rowsOf := []
  flags := 0
  poison := false
  bundle := 0
  scIdx := 0
  beat := 0
  closes := false

/-- A slide front: a stationary tile that the PEs take over diagonal by diagonal (07 R180, 08 R198). -/
structure Front where
  /-- sc of the first weight read that uses the tile, s1 (07 R180). -/
  start : Nat
  /-- SHAPE of its pass, which sets the timing rows and columns (08 R198; 3 bits). -/
  shape : Nat
  /-- its stationary values, by lane x 16384 + row x 128 + column (07 R170). -/
  tile : List (Nat × BitVec 32)
  /-- a value of it is marked (10 R250; 1 bits). -/
  poison : Bool
  deriving DecidableEq, Repr, Inhabited

/-- The matrix feed and array of a core. -/
structure Mx where
  /-- current pass (07 R173). -/
  cur : Option Pass
  /-- next pass (07 R173). -/
  nxt : Option Pass
  /-- the current pass that left the feed last: sc of its last weight read, sc of its last sweep's first one, and its
  SHAPE (07 R173; 08 R199; 16 R387). -/
  gone : Option (Nat × Nat × Nat)
  /-- stationary values of the PEs that no slide front has reached, by lane x 16384 + row x 128 + column (07 R180). -/
  active : List (Nat × BitVec 32)
  /-- slide fronts crossing the array, oldest first (07 R180, R182). -/
  fronts : List Front
  /-- a stationary value is marked (10 R250; 1 bits). -/
  activePoison : Bool
  /-- results in the array (07 R177). -/
  out : List Landing
  /-- FMT, TRANS, SHAPE and one-sweep of the most recent pass since the yield point (07 R181). -/
  lastKey : Option (Nat × Bool × Nat × Bool)
  /-- passes open (07 R174). -/
  passesOpen : Nat
  deriving DecidableEq, Repr, Inhabited

/-- Mx right after RESET_N is released. -/
def Mx.reset : Mx where
  cur := none
  nxt := none
  gone := none
  active := []
  fronts := []
  activePoison := false
  out := []
  lastKey := none
  passesOpen := 0

/-- A fixed-latency result of a vector or QK operation. -/
structure Flight where
  /-- sc at whose end it lands (09 R208). -/
  due : Nat
  /-- unit order: 4 VA, 5 VB, 6 QK (06 R149; 3 bits). -/
  unit : Nat
  /-- sc of issue (09 R210). -/
  issued : Nat
  /-- task slot (06 R116; 3 bits). -/
  slot : Nat
  /-- lane writes: 128 x register + lane, value, mark (09 R208). -/
  regs : List (Nat × BitVec 32 × Bool)
  /-- task-relative address of a scratchpad write (09 R208; 32 bits). -/
  addr : Nat
  /-- bytes of a scratchpad write (09 R208). -/
  data : List (BitVec 8)
  /-- marks of those bytes (10 R250). -/
  marks : List Bool
  /-- exact accumulator (09 R225; 3 bits). -/
  xaIdx : Nat
  /-- what it adds to that accumulator: value in units of 2^-276, VOID, RANGE_LOST, mark (09 R225; 577 bits). -/
  xaAdd : Option (Int × Bool × Bool × Bool)
  /-- it clears that accumulator (09 R225; 1 bits). -/
  xaClr : Bool
  /-- 1 v.sm1, 2 v.sm2, else 0 (09 R233; 2 bits). -/
  chain : Nat
  /-- state base of that operation (09 R233; 5 bits). -/
  chainBase : Nat
  /-- flags it raises (06 R168; 5 bits). -/
  flags : Nat
  deriving DecidableEq, Repr, Inhabited

/-- Flight right after RESET_N is released. -/
def Flight.reset : Flight where
  due := 0
  unit := 0
  issued := 0
  slot := 0
  regs := []
  addr := 0
  data := []
  marks := []
  xaIdx := 0
  xaAdd := none
  xaClr := false
  chain := 0
  chainBase := 0
  flags := 0

/-- The bundle that the core is issuing in the present sc. -/
structure Issue where
  /-- the bundle (06 R146; 384 bits). -/
  word : BitVec 384
  /-- task-relative bundle index (06 R164; 14 bits). -/
  index : Nat
  /-- task slot (06 R167; 3 bits). -/
  slot : Nat
  /-- phases of the sc that are over, in the order of R245 (06 R148; 10 R245). -/
  done : List Nat
  /-- pointers at the start of the sc (09 R207). -/
  ptr0 : List (Nat × BitVec 96)
  /-- key counts at the start of the sc (12 R293, R294). -/
  keys0 : List (Nat × Nat)
  /-- pointer fields set in this sc: 2p for ADDR and STEP, 2p + 1 for BUF and POS (09 R207). -/
  ptrSet : List Nat
  /-- pointers stepped in this sc (09 R207). -/
  ptrStep : List Nat
  /-- the head is released at the end of the sc (09 R213; 1 bits). -/
  rel : Bool
  /-- flags cleared at the end of the sc (06 R168; 5 bits). -/
  flagClr : Nat
  /-- banks taken: bank, unit, address, write (10 R245; 64 bits). -/
  taken : List (Nat × Nat × Nat × Bool)
  /-- detail of the first access that was suppressed in this sc (10 R247; 128 bits). -/
  conflict : Option (Nat × Nat)
  /-- the bundle holds ct.end (12 R297; 1 bits). -/
  ends : Bool
  /-- wall beat of the issue (16 R385; 64 bits). -/
  w : Nat
  /-- task-relative queue that a receive takes, chosen on the state at the start of the sc (12 R309, R311; 7 bits). -/
  choice : Option Nat
  /-- physical queue whose head a receive freed in this sc (12 R307, R309; 7 bits). -/
  freed : Option Nat
  /-- amount that a key operation subtracts at the end of the sc: physical key, amount (12 R294). -/
  keySub : List (Nat × Nat)
  /-- increments that land in this sc: physical key, amount, and whether it is `key.add` (12 R294). -/
  keyInc : List (Nat × Nat × Bool)
  /-- flags that copies of the core raised in this sc: task slot, flags (04 R116). -/
  late : List (Nat × Nat)
  deriving DecidableEq, Repr, Inhabited

/-- Issue right after RESET_N is released. -/
def Issue.reset : Issue where
  word := 0
  index := 0
  slot := 0
  done := []
  ptr0 := []
  keys0 := []
  ptrSet := []
  ptrStep := []
  rel := false
  flagClr := 0
  taken := []
  conflict := none
  ends := false
  w := 0
  choice := none
  freed := none
  keySub := []
  keyInc := []
  late := []

/-- A loop level. -/
structure Loop where
  /-- remaining count (06 R154; 18 Table 18-10; 24 bits). -/
  left : Nat
  /-- body start (18 Table 18-10; 14 bits). -/
  start : Nat
  /-- body length (18 Table 18-10; 13 bits). -/
  len : Nat
  deriving DecidableEq, Repr, Inhabited

/-- Loop right after RESET_N is released. -/
def Loop.reset : Loop where
  left := 0
  start := 0
  len := 0

/-- A pending range of the scoreboard. -/
structure Range where
  /-- lowest physical byte (06 R156; 27 bits). -/
  lo : Nat
  /-- highest physical byte (06 R156; 27 bits). -/
  hi : Nat
  /-- write-pending (else read-pending) (06 R156; 1 bits). -/
  write : Bool
  /-- copy or receive that owns it (06 R158). -/
  copy : Nat
  deriving DecidableEq, Repr, Inhabited

/-- Range right after RESET_N is released. -/
def Range.reset : Range where
  lo := 0
  hi := 0
  write := false
  copy := 0

/-- A copy or receive in flight. -/
structure Copy where
  /-- identity on its core; the TAG of open packets (11 R259). -/
  id : Nat
  /-- task slot (11 R259; 3 bits). -/
  slot : Nat
  /-- descriptor as it stood at issue (11 R262; 512 bits). -/
  desc : BitVec 512
  /-- source kind after R263 (11 R262; 3 bits). -/
  srcKind : Nat
  /-- destination kind after R263 (11 R262; 3 bits). -/
  dstKind : Nat
  /-- physical or Rinaz address of source row 0 (11 R263; 64 bits). -/
  srcBase : Nat
  /-- physical or Rinaz address of destination row 0 (11 R263; 64 bits). -/
  dstBase : Nat
  /-- descriptor that a receive writes before the data (12 R309). -/
  head : List (BitVec 8)
  /-- source bytes read so far with marks, by offset in the copy's source bytes (11 R267). -/
  data : List (Nat × (BitVec 8 × Bool))
  /-- source pieces read: offset, bytes, local cycle of the issuing core (11 R269). -/
  got : List (Nat × Nat × Nat)
  /-- destination pieces written or sent: offset, bytes (11 R269). -/
  put : List (Nat × Nat)
  /-- destination bytes that a refused read leaves out (14 R350). -/
  lost : Nat
  /-- bytes landed that the completion notice reported (14 R356). -/
  notice : Option Nat
  /-- source pieces for which a READ_REQ has been sent, by offset (14 R355). -/
  asked : List Nat
  /-- source bytes of the whole copy (11 R263). -/
  readBytes : Nat
  /-- destination bytes of the whole copy (11 R263). -/
  writeBytes : Nat
  /-- a receive (12 R309; 1 bits). -/
  receive : Bool
  /-- local cycle of issue (10 R244). -/
  ready : Nat
  /-- bundle that issued it (23 Table 23-5; 14 bits). -/
  issueBundle : Nat
  /-- sc of that issue (23 Table 23-5; 11 bits). -/
  issueSc : Nat
  /-- the read-pending range is cleared (11 R269; 1 bits). -/
  srcClear : Bool
  /-- local cycle of the source core, where that is another core, in which the request reached it (10 R244). -/
  farAt : Nat
  /-- number of that arrival (10 R244). -/
  farNum : Nat
  deriving DecidableEq, Repr, Inhabited

/-- Copy right after RESET_N is released. -/
def Copy.reset : Copy where
  id := 0
  slot := 0
  desc := 0
  srcKind := 0
  dstKind := 0
  srcBase := 0
  dstBase := 0
  head := []
  data := []
  got := []
  put := []
  lost := 0
  notice := none
  asked := []
  readBytes := 0
  writeBytes := 0
  receive := false
  ready := 0
  issueBundle := 0
  issueSc := 0
  srcClear := false
  farAt := 0
  farNum := 0

/-- An open packet. -/
structure Packet where
  /-- header of Table 13-6 (13 R334). -/
  hdr : List (BitVec 8)
  /-- data (13 R334). -/
  data : List (BitVec 8)
  /-- poison mask of the slot (13 Table 13-1; 60 bits). -/
  poison : Nat
  /-- incoming port, 63 for local origin (22 R511; 6 bits). -/
  port : Nat
  /-- wall beat that the slot's SEQ names (22 R511; 64 bits). -/
  v : Nat
  /-- position (22 R511; 8 bits). -/
  pos : Nat
  /-- schedule beat that the slot's BEAT names (13 R324; 64 bits). -/
  beat : Nat
  deriving DecidableEq, Repr, Inhabited

/-- Packet right after RESET_N is released. -/
def Packet.reset : Packet where
  hdr := []
  data := []
  poison := 0
  port := 0
  v := 0
  pos := 0
  beat := 0

/-- Up to 256 B of a copy's data in a handshake crossing (Table 3-3). -/
structure CrossItem where
  /-- core that issued the copy (11 R259; 8 bits). -/
  core : Nat
  /-- the copy, by its identity on that core (11 R259; 16 bits). -/
  copy : Nat
  /-- which 256 B of the copy's source bytes (03 Table 3-3). -/
  block : Nat
  /-- bytes (03 Table 3-3; 9 bits). -/
  size : Nat
  /-- local cycle of the receiving core in which it came into its queue (10 R244). -/
  cyc : Nat
  /-- number of that arrival (10 R244). -/
  num : Nat
  deriving DecidableEq, Repr, Inhabited

/-- CrossItem right after RESET_N is released. -/
def CrossItem.reset : CrossItem where
  core := 0
  copy := 0
  block := 0
  size := 0
  cyc := 0
  num := 0

/-- A request at a core's copy engine: that of an open packet, or a scheduled payload from a slip buffer (R244 classes 6 and
4), oldest first. -/
structure Req where
  /-- local cycle in which it became ready (10 R244). -/
  ready : Nat
  /-- number of its arrival (10 R244). -/
  num : Nat
  /-- a scheduled payload: port, position, and the key that its last byte raises (13 R331). -/
  slip : Option (Nat × Nat × Option Nat)
  /-- physical scratchpad address (10 R244; 27 bits). -/
  addr : Nat
  /-- a write (else a read) (14 R356; 1 bits). -/
  write : Bool
  /-- bytes (14 R356; 9 bits). -/
  len : Nat
  /-- offsets of the accesses made (10 R243). -/
  done : List Nat
  /-- bytes read so far, by offset (14 R356). -/
  got : List (Nat × (BitVec 8 × Bool))
  /-- the packet it serves (14 R356). -/
  pk : Packet
  deriving DecidableEq, Repr, Inhabited

/-- Req right after RESET_N is released. -/
def Req.reset : Req where
  ready := 0
  num := 0
  slip := none
  addr := 0
  write := false
  len := 0
  done := []
  got := []
  pk := Packet.reset

/-- A message. -/
structure Msg where
  /-- descriptor (12 R302). -/
  desc : List (BitVec 8)
  /-- sender device (12 R307; 12 bits). -/
  dev : Nat
  /-- sender core (12 R307; 8 bits). -/
  core : Nat
  /-- physical queue (12 R303; 7 bits). -/
  mq : Nat
  /-- it came in an open slot (12 R307; 1 bits). -/
  openSlot : Bool
  /-- schedule beat of the send (12 Table 12-7; 64 bits). -/
  sendS : Nat
  /-- send of the sending core that it completes, + 1; 0 for none (12 R305). -/
  sendId : Nat
  /-- it came in a scheduled slot (13 R332; 1 bits). -/
  sched : Bool
  /-- 8 x position + block of that slot (13 R332; 11 bits). -/
  pos : Nat
  /-- marks of the four words of the descriptor (10 R250; 4 bits). -/
  poison : Nat
  deriving DecidableEq, Repr, Inhabited

/-- Msg right after RESET_N is released. -/
def Msg.reset : Msg where
  desc := []
  dev := 0
  core := 0
  mq := 0
  openSlot := false
  sendS := 0
  sendId := 0
  sched := false
  pos := 0
  poison := 0

/-- State of a queue. -/
structure QState where
  /-- HEAD (12 R301; 16 bits). -/
  head : Nat
  /-- TAIL (12 R301; 16 bits). -/
  tail : Nat
  /-- COUNT (12 R301; 16 bits). -/
  count : Nat
  /-- OVERFLOWED (12 R301; 1 bits). -/
  overflowed : Bool
  /-- visible messages (12 R308; 16 bits). -/
  visible : Nat
  /-- accepted messages not yet visible: entry, descriptor with its marks, written, cycle ready (12 R308; 10 R250). -/
  wait : List (Nat × List (BitVec 8 × Bool) × Bool × Nat)
  deriving DecidableEq, Repr, Inhabited

/-- QState right after RESET_N is released. -/
def QState.reset : QState where
  head := 0
  tail := 0
  count := 0
  overflowed := false
  visible := 0
  wait := []

/-- Power state of a core. -/
structure CorePower where
  /-- code of Table 24-1 (24 R555; 3 bits). -/
  state : Nat
  /-- task slot, schedule beat at which the hint in force ends, DEEPEST (24 R561). -/
  hint : Option (Nat × Nat × Nat)
  /-- hint that comes into force at the next gate (24 R561). -/
  hintNew : Option (Nat × Nat × Nat)
  /-- wall beats left of a wake (24 R562). -/
  waking : Option Nat
  /-- W of the last forced-wake record (24 R559; 64 bits). -/
  forcedW : Option Nat
  deriving DecidableEq, Repr, Inhabited

/-- CorePower right after RESET_N is released. -/
def CorePower.reset : CorePower where
  state := 0
  hint := none
  hintNew := none
  waking := none
  forcedW := none

/-- A logical core. -/
structure Core where
  /-- scratchpad, by physical address (10 R235). -/
  spad : Mem
  /-- instruction store, by bundle index (06 R150). -/
  istore : List (Nat × BitVec 384)
  /-- slots whose parity check fails, by 8 x index + slot (06 R150, R153). -/
  istoreBad : List (Nat × Bool)
  /-- page map (10 R237). -/
  pageMap : List (Nat × BitVec 8)
  /-- uncorrectable errors found per page (10 R256; 28,672 bits). -/
  pageUe : List (Nat × Nat)
  /-- retired pages (10 R256). -/
  retired : List (Nat × Bool)
  /-- current scrub row (10 R254; 15 bits). -/
  scrubRow : Nat
  /-- schedule beat + 1 of the last scrub cycle (10 R254; 64 bits). -/
  scrubS : Nat
  /-- lane registers, by 128 x n + lane (09 R202). -/
  lanes : List (Nat × BitVec 32)
  /-- poison marks of lane registers (10 R250). -/
  laneMarks : List (Nat × Bool)
  /-- pointer registers (09 R203). -/
  ptrs : List (Nat × BitVec 96)
  /-- exact accumulators (09 R203). -/
  xa : List (Nat × XAcc)
  /-- bell queue, head first (07 R186). -/
  bell : List BellTile
  /-- matrix feed and array (07). -/
  mx : Mx
  /-- fixed-latency results not yet landed (09 R208). -/
  flights : List Flight
  /-- keys K0 to K47 (12 R291). -/
  keys : List (Nat × Nat)
  /-- most recent task that held each key since RESET_N: slot + 1, task-relative key, END (12 R298, Table 12-8). -/
  keyOwner : List (Nat × Nat × Nat × Nat)
  /-- queue state mq0 to mq127 (12 R301; 128 bits). -/
  queues : List (Nat × QState)
  /-- messages on their way to this core (12 R307). -/
  msgIn : List Msg
  /-- base-and-bound sets, by task slot (06 R163). -/
  bounds : List (Nat × BitVec 256)
  /-- numeric status words, by task slot (04 R115). -/
  flags : List (Nat × BitVec 32)
  /-- copy descriptor files, by 256 x slot + DESC (11 R261). -/
  copyDesc : List (Nat × BitVec 512)
  /-- their image values (11 R261). -/
  copyDescImg : List (Nat × BitVec 512)
  /-- MX descriptor files, by 64 x slot + MD (16 R383). -/
  mxDesc : List (Nat × BitVec 256)
  /-- their image values (16 R383). -/
  mxDescImg : List (Nat × BitVec 256)
  /-- key maps, by 64 x slot + key (12 R291). -/
  keyMap : List (Nat × BitVec 64)
  /-- queue maps, by 128 x slot + queue (12 R300). -/
  queueMap : List (Nat × BitVec 128)
  /-- send counters, by task slot (12 R304). -/
  sendCtr : List (Nat × BitVec 16)
  /-- rotation state: bit 7 chosen, bits 6 to 0 queue (12 R311; 8 bits). -/
  rot : BitVec 8
  /-- task slot that runs (06 R167; 3 bits). -/
  running : Option Nat
  /-- task-relative index of the next bundle (06 R150, R164; 14 bits). -/
  pc : Nat
  /-- loop levels, innermost first (06 R154; 4 bits). -/
  loops : List Loop
  /-- index of the ct.gate or ct.yield after which the core issues empty bundles (06 R155; 14 bits). -/
  fill : Option Nat
  /-- ct.yield issued in this schedule beat (18 R411; 1 bits). -/
  yielded : Bool
  /-- resume bundle index of each task slot (18 R409; 14 bits). -/
  resume : List (Nat × Nat)
  /-- task slots whose ct.end this core has issued (18 Table 18-8). -/
  ended : List Nat
  /-- the core issues no more bundles of the running task (23 R541; 1 bits). -/
  stopped : Bool
  /-- number within its beat of the last sc issued (10 R610; 11 bits). -/
  lastSc : Nat
  /-- copy cycles since that sc in which no bundle issued (10 R610). -/
  extra : Nat
  /-- banks of the copy group that the copy engine has used in this copy cycle (10 R242). -/
  copyUsed : List Nat
  /-- issued sc since RESET_N, the time of R177 to R184 and R208 (07 R178). -/
  sc : Nat
  /-- local cycles since RESET_N (03 R74). -/
  cyc : Nat
  /-- bundle issuing in the present sc (06 R148; 384 bits). -/
  issue : Option Issue
  /-- kind of wait and wall beat in which it began (06 R160, R162). -/
  wait : Option (Nat × Nat)
  /-- pending ranges (06 R156; 64 bits). -/
  scoreboard : List Range
  /-- copies and receives in flight (11 R259; 16 bits). -/
  copies : List Copy
  /-- identity of the next copy (14 R355 TAG; 16 bits). -/
  nextCopy : Nat
  /-- sends in flight (12 R305). -/
  sends : List Nat
  /-- requests waiting for a copy cycle (10 R244). -/
  reqs : List Req
  /-- core counters by index (23 Table 23-8). -/
  counters : List (Nat × BitVec 64)
  /-- power state (24 R555). -/
  power : CorePower
  /-- physical core after a remap; none: the numbering of R550 (23 R544, R549; 8 bits). -/
  phys : Option Nat
  /-- marked for remapping (23 R549; 1 bits). -/
  marked : Bool
  /-- taken out of service (23 R548, R549; 1 bits). -/
  absent : Bool
  deriving DecidableEq, Repr, Inhabited

/-- Core right after RESET_N is released. -/
def Core.reset : Core where
  spad := Mem.reset
  istore := []
  istoreBad := []
  pageMap := []
  pageUe := []
  retired := []
  scrubRow := 0
  scrubS := 0
  lanes := []
  laneMarks := []
  ptrs := []
  xa := []
  bell := []
  mx := Mx.reset
  flights := []
  keys := []
  keyOwner := []
  queues := []
  msgIn := []
  bounds := []
  flags := []
  copyDesc := []
  copyDescImg := []
  mxDesc := []
  mxDescImg := []
  keyMap := []
  queueMap := []
  sendCtr := []
  rot := 0
  running := none
  pc := 0
  loops := []
  fill := none
  yielded := false
  resume := []
  ended := []
  stopped := false
  lastSc := 0
  extra := 0
  copyUsed := []
  sc := 0
  cyc := 0
  issue := none
  wait := none
  scoreboard := []
  copies := []
  nextCopy := 0
  sends := []
  reqs := []
  counters := []
  power := CorePower.reset
  phys := none
  marked := false
  absent := false

/-- A digest tag entry. -/
structure TagEntry where
  /-- ROLE (19 R440; 8 bits). -/
  role : Nat
  /-- IMAGE_CORE (19 R440; 8 bits). -/
  core : Nat
  /-- WINDOW (19 R440; 2 bits). -/
  window : Nat
  /-- LENGTH (19 R440; 32 bits). -/
  len : Nat
  /-- ADDR (19 R440; 64 bits). -/
  addr : Nat
  deriving DecidableEq, Repr, Inhabited

/-- TagEntry right after RESET_N is released. -/
def TagEntry.reset : TagEntry where
  role := 0
  core := 0
  window := 0
  len := 0
  addr := 0

/-- A task slot. -/
structure Task where
  /-- state code of TASK_STATE (18 R408; 20 Table 20-4; 4 bits). -/
  state : Nat
  /-- contract level (16 R371; 8 bits). -/
  level : Nat
  /-- BEAT_SC (16 R371; 11 bits). -/
  beatSc : Nat
  /-- contract word (16 R371; 64 bits). -/
  contract : Nat
  /-- Canonical mode (05 R142; 1 bits). -/
  canonical : Bool
  /-- SEED (04 R113; 64 bits). -/
  seed : BitVec 64
  /-- core map: logical core of each image core (18 R401). -/
  cores : List Nat
  /-- SPILL (18 R417; 15 bits). -/
  spillPage : Nat
  /-- program digest (18 R400). -/
  program : List (BitVec 8)
  /-- weight digest (18 R400). -/
  weight : List (BitVec 8)
  /-- input digest (19 R441). -/
  input : List (BitVec 8)
  /-- digest tag entries (19 R440; 256 bits). -/
  tags : List TagEntry
  /-- ct.yield indices of each image core (18 R413). -/
  yields : List (List Nat)
  /-- bundles of each image core as bound, which CTX_RESTORE writes again (18 R420). -/
  bundles : List (List (BitVec 384))
  /-- window table period P (11 R276; 5 bits). -/
  period : Nat
  /-- window entries after the core map (11 R276). -/
  windows : List (BitVec 64)
  /-- refresh plan entries (11 R284). -/
  refresh : List (BitVec 64)
  /-- recorded slot-plan fragment: port, P, transmit and receive entries (18 R407). -/
  plan : List (Nat × Nat × List (BitVec 64) × List (BitVec 64))
  /-- registered S_start (18 R409; 64 bits). -/
  startS : Option Nat
  /-- mailbox of that TASK_START or REPLAY_RUN (18 R455; 4 bits). -/
  startMb : Option Nat
  /-- registered S_req (18 R414; 64 bits). -/
  yieldS : Option Nat
  /-- mailbox of that YIELD_REQ (18 R455; 4 bits). -/
  yieldMb : Option Nat
  /-- mailbox of a registered TASK_STOP (18 R415; 4 bits). -/
  stopMb : Option Nat
  /-- a TASK_STOP is registered or waits for work in flight (18 R415; 1 bits). -/
  stopReg : Bool
  /-- y: schedule beat of the last yield point, or S_start - 1 (18 R412; 64 bits). -/
  lastYield : Nat
  /-- schedule beats run since the first TASK_START (18 Table 18-9; 64 bits). -/
  runBeats : Nat
  /-- schedule beat of the last yield point or ct.end (19 Table 19-6; 64 bits). -/
  captureS : Nat
  /-- flag word of Table 19-5 (19 R442; 8 bits). -/
  flagWord : Nat
  /-- a fault is stopping the task (23 R541; 1 bits). -/
  stopping : Bool
  /-- first consumption: core, address, source, beat, sc (10 R251). -/
  consumed : Option (Nat × Nat × Nat × Nat × Nat)
  /-- consumptions since the last yield point (10 R251; 32 bits). -/
  consumeCount : Nat
  /-- BIND_ID (24 R568; 32 bits). -/
  bindId : Nat
  /-- armed for recording (19 R430; 1 bits). -/
  armed : Bool
  /-- next SEQ of the log (19 R432; 48 bits). -/
  logSeq : Nat
  /-- records left of the log being replayed (19 R435). -/
  replay : Option (List (List (BitVec 8)))
  /-- records that no live item has matched yet (19 R437). -/
  replayLog : List (List (BitVec 8))
  /-- S_end of the replay (19 R435; 64 bits). -/
  replayEnd : Nat
  /-- the first mismatch of the replay is logged (19 R437; 1 bits). -/
  mismatchSeen : Bool
  /-- write digest of the compare interval (22 R519; 64 bits). -/
  writeDigest : BitVec 64
  /-- schedule beat of the last compare point (22 R518; 64 bits). -/
  lastCompare : Nat
  /-- its spill cycles are still to come (18 R418; 1 bits). -/
  spillDue : Bool
  deriving DecidableEq, Repr, Inhabited

/-- Task right after RESET_N is released. -/
def Task.reset : Task where
  state := 0
  level := 0
  beatSc := 0
  contract := 0
  canonical := false
  seed := 0
  cores := []
  spillPage := 0
  program := []
  weight := []
  input := []
  tags := []
  yields := []
  bundles := []
  period := 0
  windows := []
  refresh := []
  plan := []
  startS := none
  startMb := none
  yieldS := none
  yieldMb := none
  stopMb := none
  stopReg := false
  lastYield := 0
  runBeats := 0
  captureS := 0
  flagWord := 0
  stopping := false
  consumed := none
  consumeCount := 0
  bindId := 0
  armed := false
  logSeq := 0
  replay := none
  replayLog := []
  replayEnd := 0
  mismatchSeen := false
  writeDigest := 0
  lastCompare := 0
  spillDue := false

/-- A DRAM stack and its controller. -/
structure Stack where
  /-- W of the last refresh of each group (11 R286). -/
  refreshed : List (Nat × Nat)
  /-- W of a forced refresh (11 R287; 64 bits). -/
  forced : Option Nat
  /-- temperature at the last beat edge (11 R286). -/
  temp : Nat
  /-- next DRAM unit of the scrubber (11 R283; 30 bits). -/
  scrub : Nat
  /-- wall beat of the last scrub (11 R283; 64 bits). -/
  scrubW : Option Nat
  /-- uncorrectable sectors found per 1 MiB block (23 R539; 49,152 bits). -/
  blockUe : List (Nat × Nat)
  /-- retired blocks (23 R539). -/
  retired : List (Nat × Bool)
  /-- stack counters (23 Table 23-8). -/
  counters : List (Nat × BitVec 64)
  /-- taken out of service (23 R548; 1 bits). -/
  absent : Bool
  deriving DecidableEq, Repr, Inhabited

/-- Stack right after RESET_N is released. -/
def Stack.reset : Stack where
  refreshed := []
  forced := none
  temp := 0
  scrub := 0
  scrubW := none
  blockUe := []
  retired := []
  counters := []
  absent := false

/-- The plan of one port. -/
structure PlanEntry where
  /-- period P (13 R327; 5 bits). -/
  p : Nat
  /-- transmit entries, by 224 x phase + position (13 R327). -/
  tx : List (BitVec 64)
  /-- receive entries (13 R327). -/
  rx : List (BitVec 64)
  deriving DecidableEq, Repr, Inhabited

/-- PlanEntry right after RESET_N is released. -/
def PlanEntry.reset : PlanEntry where
  p := 1
  tx := []
  rx := []

/-- A fabric or twin port. -/
structure Port where
  /-- enabled by TOPO_SET (14 R358; 1 bits). -/
  enabled : Bool
  /-- link-up step completed, 0 to 6; 6 is up (13 R342; 3 bits). -/
  step : Nat
  /-- negotiated link version (13 R342; 8 bits). -/
  linkVer : Nat
  /-- declared neighbour device (14 R358; 12 bits). -/
  nbrDev : Nat
  /-- declared neighbour port (14 R358; 6 bits). -/
  nbrPort : Nat
  /-- DEVICE that the neighbour's hello gave (13 R342; 12 bits). -/
  seenDev : Option Nat
  /-- PORT that the neighbour's hello gave (13 R342; 6 bits). -/
  seenPort : Nat
  /-- the own nonce of link-up (13 R342; 384 bits). -/
  nonce : List (BitVec 8)
  /-- the nonce that the neighbour's hello gave (13 R342; 384 bits). -/
  peerNonce : List (BitVec 8)
  /-- the certificate chain that the neighbour's hello gave (13 R342). -/
  peerChain : List (BitVec 8)
  /-- LINK bytes that have arrived of the packet being put together (13 R342). -/
  linkIn : List (BitVec 8)
  /-- next piece of the own LINK bytes to send (13 R342). -/
  linkOut : Nat
  /-- d and θ in ps of the beats of step 6, newest first (13 R342; 02 R49). -/
  delaySamples : List (Int × Int)
  /-- a step failed, and the port stays down (13 R342; 1 bits). -/
  halted : Bool
  /-- the port was up at the last PLAN_START: it carries plan traffic (13 R342; 1 bits). -/
  inPlan : Bool
  /-- next wall beat of the neighbour whose ledger is to be checked (13 R340; 64 bits). -/
  ledgerNext : Option Nat
  /-- wall beats whose control slot arrived good, recent ones (13 R340). -/
  ctlSeen : List Nat
  /-- packets that entered the local-origin FIFO (22 R515). -/
  localNum : Nat
  /-- d measured at link-up (13 R329, R342). -/
  delayPs : Int
  /-- θ measured at link-up (13 R342; 22 Table 22-5). -/
  thetaPs : Int
  /-- consecutive good control slots in framing (13 R342). -/
  goodCtl : Nat
  /-- consecutive failed control slots (13 R342). -/
  badCtl : Nat
  /-- next position to transmit (13 R322; 8 bits). -/
  txPos : Nat
  /-- next position to receive (13 R338; 8 bits). -/
  rxPos : Nat
  /-- neighbour's W of the beat being received (13 R338; 64 bits). -/
  nbrW : Option Nat
  /-- slot last put on the line (13 R322). -/
  txOut : List (BitVec 8)
  /-- non-empty slots sent in this wall beat (13 Table 13-1 LEDGER; 8 bits). -/
  sentNow : Nat
  /-- SENT of past wall beats (13 R340). -/
  sent : List (Nat × Nat)
  /-- re-sends per wall beat (13 Table 13-3). -/
  repairedNow : List (Nat × Nat)
  /-- ABSENT per wall beat (13 Table 13-3). -/
  absentNow : List (Nat × Nat)
  /-- failed slots received per wall beat of the neighbour (13 Table 13-3). -/
  badRx : List (Nat × Nat)
  /-- position, schedule beat, payload, poison (13 R330). -/
  outbox : List (Nat × Nat × List (BitVec 8) × Nat)
  /-- position and schedule beat already made ready (13 R330). -/
  ready : List (Nat × Nat)
  /-- wall beat, position, slot retained (13 R337). -/
  retain : List (Nat × Nat × List (BitVec 8))
  /-- pending NACKs to send: neighbour's wall beat, position (13 R338). -/
  nacks : List (Nat × Nat)
  /-- NACKs sent in this wall beat (13 R338). -/
  nackSent : List (Nat × Nat)
  /-- re-sends pending: wall beat, position (13 R339). -/
  resend : List (Nat × Nat)
  /-- repair positions used: wall beat, position, then wall beat and position of the slot re-sent (13 R339). -/
  resentAt : List (Nat × Nat × Nat × Nat)
  /-- good non-empty positions held: neighbour's wall beat, position (13 R340). -/
  rxGood : List (Nat × Nat)
  /-- failed positions of the beat being received (13 R340; 8 bits). -/
  rxFailedNow : Nat
  /-- good non-empty slots of the beat being received (13 R340; 8 bits). -/
  rxNonEmptyNow : Nat
  /-- SENT(v) as the neighbour's control slots gave it (13 R340). -/
  rxSent : List (Nat × Nat)
  /-- slots of the present and previous wall beat, for FORWARD entries (13 R329). -/
  rxSlots : List (Nat × Nat × List (BitVec 8))
  /-- slots held in the port's slip buffer in hub staging: schedule beat, position (13 R331). -/
  slip : List (Nat × Nat)
  /-- slots with a QUEUE receive entry that have arrived: schedule beat, position, recent ones (13 R332). -/
  queueSeen : List (Nat × Nat)
  /-- good open packets that wait for the repair of an earlier slot, in the order sent (13 R335). -/
  openHeld : List Packet
  /-- packets of the device's own that wait for room in the local-origin FIFO, oldest first (13 R336). -/
  localWait : List Packet
  /-- FIFO of each owner for this outgoing port; owner 63 is the local origin (13 R333). -/
  fifos : List (Nat × List Packet)
  /-- plan in force (13 R327). -/
  plan : PlanEntry
  /-- port counters (23 Table 23-8). -/
  counters : List (Nat × BitVec 64)
  /-- STAMP: arrival of the neighbour's control slot in 10 ps units (13 Table 13-2; 32 bits). -/
  stamp : Int
  /-- STAMP_W (13 Table 13-2; 16 bits). -/
  stampW : Nat
  /-- hop count last received (02 R42; 5 bits). -/
  rxHops : Nat
  /-- drone state last received (02 R43; 3 bits). -/
  rxState : Nat
  /-- TREE last received (02 R63; 1 bits). -/
  rxTree : Bool
  /-- valid drone in the present wall beat (02 R43; 1 bits). -/
  rxValid : Bool
  /-- W last received (02 R36; 64 bits). -/
  rxW : Nat
  /-- S last received (02 R36; 64 bits). -/
  rxS : Nat
  /-- HOLD_BEAT that the neighbour has shown for the own next wall beat, with that beat's number (13 R326). -/
  holdSeen : Option (Nat × Bool)
  deriving DecidableEq, Repr, Inhabited

/-- Port right after RESET_N is released. -/
def Port.reset : Port where
  enabled := false
  step := 0
  linkVer := 0
  nbrDev := 0
  nbrPort := 0
  seenDev := none
  seenPort := 0
  nonce := []
  peerNonce := []
  peerChain := []
  linkIn := []
  linkOut := 0
  delaySamples := []
  halted := false
  inPlan := false
  ledgerNext := none
  ctlSeen := []
  localNum := 0
  delayPs := 0
  thetaPs := 0
  goodCtl := 0
  badCtl := 0
  txPos := 0
  rxPos := 0
  nbrW := none
  txOut := []
  sentNow := 0
  sent := []
  repairedNow := []
  absentNow := []
  badRx := []
  outbox := []
  ready := []
  retain := []
  nacks := []
  nackSent := []
  resend := []
  resentAt := []
  rxGood := []
  rxFailedNow := 0
  rxNonEmptyNow := 0
  rxSent := []
  rxSlots := []
  slip := []
  queueSeen := []
  openHeld := []
  localWait := []
  fifos := []
  plan := PlanEntry.reset
  counters := []
  stamp := 0
  stampW := 0
  rxHops := 0
  rxState := 0
  rxTree := false
  rxValid := false
  rxW := 0
  rxS := 0
  holdSeen := none

/-- Ports, plan and routes. -/
structure Fabric where
  /-- F0 to F31 as 0 to 31, T0 and T1 as 32 and 33 (13 R319; 34 bits). -/
  ports : List (Nat × Port)
  /-- own logical device number from TOPO_SET (14 R358; 12 bits). -/
  device : Option Nat
  /-- manager device (20 R473; 12 bits). -/
  manager : Option Nat
  /-- device map: grade + 1 where present (14 R358). -/
  map : List (Nat × Nat)
  /-- open route table (13 R335). -/
  routes : List (Nat × Nat)
  /-- TOPO_SET has completed OK (21 R499; 1 bits). -/
  topoSet : Bool
  /-- a plan is in force (else the base plan) (20 R467; 1 bits). -/
  planOn : Bool
  /-- plan that PLAN_SET built since the last PLAN_STOP (20 R469). -/
  newPlan : Option (List (Nat × PlanEntry))
  /-- plan that PLAN_STOP stopped (20 R469). -/
  oldPlan : Option (List (Nat × PlanEntry))
  /-- task slots whose fragments the new plan holds (20 R469). -/
  newSlots : List Nat
  /-- task slots whose fragments the stopped plan held (20 R469). -/
  oldSlots : List Nat
  /-- task slots whose fragments are in force (18 R407). -/
  planSlots : List Nat
  /-- registered PLAN_STOP: S_STOP and mailbox (20 R468; 64 bits). -/
  stopS : Option (Nat × Nat)
  /-- the check at the end of S_STOP has been made (20 R468; 1 bits). -/
  stopDone : Bool
  /-- registered PLAN_START: S_START and mailbox (20 R469; 64 bits). -/
  startS : Option (Nat × Nat)
  /-- S_START of the plan in force (20 R469; 64 bits). -/
  localFrom : Nat
  /-- list L of the base plan: 63 is the local origin (20 R467). -/
  base : List Nat
  /-- open packets delivered to this device, oldest first (14 R356). -/
  openIn : List Packet
  /-- packets in the open deferral area: the place of 512 B in it that holds the header and data, and the rest (22 R511). -/
  deferred : List (Nat × Packet)
  /-- bytes landed per source device, core and TAG (the TAG + 65,536 counts bytes read for an answer) (14 R356). -/
  landedTag : List (Nat × Nat × Nat × Nat)
  /-- last packets of copies, and key increments, that wait until every byte of their TAG has landed (14 R356, R357). -/
  lasts : List Packet
  /-- wall beat of the last REMOTE_REFUSED record (14 R350; 64 bits). -/
  refusedW : Option Nat
  deriving DecidableEq, Repr, Inhabited

/-- Fabric right after RESET_N is released. -/
def Fabric.reset : Fabric where
  ports := []
  device := none
  manager := none
  map := []
  routes := []
  topoSet := false
  planOn := false
  newPlan := none
  oldPlan := none
  newSlots := []
  oldSlots := []
  planSlots := []
  stopS := none
  stopDone := false
  startS := none
  localFrom := 0
  base := [63]
  openIn := []
  deferred := []
  landedTag := []
  lasts := []
  refusedW := none

/-- An object of R454 as it stood before a command changed it: the task of a slot; the configuration, as the topology and plan,
the twin role and the power state of the device; or the staged image of the flash. -/
inductive ObjWas where
  | slot (t : Nat) (k : Task)
  | config (f : Fabric) (role device : Nat)
  | flash (staged : Option Nat)
  deriving DecidableEq, Repr, Inhabited

/-- A mailbox or relay window. -/
structure Mbx where
  /-- command area as last written (20 R448). -/
  area : List Host.Cell
  /-- next offset of a command that arrives in pieces (20 R463; 12 bits). -/
  asm : Option Nat
  /-- high half of SUBMIT (20 R450; 32 bits). -/
  submitHi : Nat
  /-- command captured by SUBMIT (20 R450). -/
  cmd : List Host.Cell
  /-- SEQ of MBX_STATUS (20 R457; 32 bits). -/
  seq : Nat
  /-- CODE (20 R457; 8 bits). -/
  code : Nat
  /-- STATE (20 R457; 4 bits). -/
  st : Nat
  /-- STATUS (20 R457; 4 bits). -/
  status : Nat
  /-- TRUNC (20 R457; 1 bits). -/
  trunc : Bool
  /-- DETAIL (20 Table 20-3; 16 bits). -/
  detail : Nat
  /-- RESULT_LEN (20 Table 20-3; 64 bits). -/
  resultLen : Nat
  /-- DONE_W (20 Table 20-3; 64 bits). -/
  doneW : Nat
  /-- result area (20 Table 20-3). -/
  result : List (BitVec 8)
  /-- arrival beat A (20 R450; 64 bits). -/
  arrive : Nat
  /-- stamp beat b (20 R452; 64 bits). -/
  b : Nat
  /-- order of arrival, for R456 (20 R453). -/
  order : Nat
  /-- the started command's own step has run (20 R453; 1 bits). -/
  ran : Bool
  /-- outcome decided and not yet published: status, detail, result (20 R458). -/
  outcome : Option (Nat × Nat × List (BitVec 8))
  /-- objects held: 0 to 7 slots, 8 configuration, 9 flash, 10 configuration shared (20 R454). -/
  held : List Nat
  /-- device that sent a command to mailbox 12 to 14 (20 R463; 12 bits). -/
  source : Option Nat
  /-- the command came in a COMMAND record (22 R508; 1 bits). -/
  twin : Bool
  /-- commands that had arrived when this one started (20 R456). -/
  startNo : Nat
  /-- objects that it needs, as they stood before a command that started after its arrival changed them (20 R456). -/
  was : List ObjWas
  /-- HOST_COPY in progress: bytes done and total (20 R474; 64 bits). -/
  copyLeft : Option (Nat × Nat)
  /-- its DRAM units moved, by 8 x stack + group (11 R282; 20 R474). -/
  copyUnits : List (Nat × Nat)
  /-- marked words that this HOST_COPY delivered (11 R289; 32 bits). -/
  poisonSeen : Nat
  /-- device address of the first of them (11 R289; 64 bits). -/
  poisonAt : Option Nat
  /-- schedule beat of the compare point that a DIGEST_READ waits for (22 R520; 64 bits). -/
  compare : Option Nat
  deriving DecidableEq, Repr, Inhabited

/-- Mbx right after RESET_N is released. -/
def Mbx.reset : Mbx where
  area := []
  asm := none
  submitHi := 0
  cmd := []
  seq := 0
  code := 0
  st := 0
  status := 0
  trunc := false
  detail := 0
  resultLen := 0
  doneW := 0
  result := []
  arrive := 0
  b := 0
  order := 0
  ran := false
  outcome := none
  held := []
  source := none
  twin := false
  startNo := 0
  was := []
  copyLeft := none
  copyUnits := []
  poisonSeen := 0
  poisonAt := none
  compare := none

/-- The completion ring. -/
structure Ring where
  /-- RING_BASE (20 Table 20-4; 64 bits). -/
  base : Nat
  /-- RING_SIZE (20 Table 20-4; 64 bits). -/
  size : Nat
  /-- RING_CTRL ENABLE (20 Table 20-4; 1 bits). -/
  enable : Bool
  /-- RING_HEAD (20 Table 20-4; 17 bits). -/
  head : Nat
  /-- RING_TAIL (20 Table 20-4; 17 bits). -/
  tail : Nat
  /-- entries written and not yet read (20 R459; 17 bits). -/
  used : Nat
  /-- PHASE of the present pass (20 R459; 1 bits). -/
  phase : Bool
  /-- entries held (20 R459). -/
  waiting : List (List (BitVec 8))
  deriving DecidableEq, Repr, Inhabited

/-- Ring right after RESET_N is released. -/
def Ring.reset : Ring where
  base := 0
  size := 0
  enable := false
  head := 0
  tail := 0
  used := 0
  phase := true
  waiting := []

/-- A write to host memory that waits for the host link: the oldest held entry of the completion ring, or the result of a
command of a relay window or of a mailbox (R87). -/
inductive HeldWrite where
  | entry
  | window (w : Nat)
  | command (mb : Nat)
  deriving DecidableEq, Repr, Inhabited

/-- The host link and host memory. -/
structure HostSide where
  /-- host memory (20 R458, R474). -/
  mem : List Host.Cell
  /-- the host link is up (03 R87; 1 bits). -/
  linkUp : Bool
  /-- writes to host memory held while the link is down, oldest first (03 R87). -/
  held : List HeldWrite
  /-- last Block Read data (20 R465). -/
  smbOut : List (BitVec 8)
  deriving DecidableEq, Repr, Inhabited

/-- HostSide right after RESET_N is released. -/
def HostSide.reset : HostSide where
  mem := []
  linkUp := false
  held := []
  smbOut := []

/-- A health record. -/
structure HealthRec where
  /-- INDEX (23 R544; 64 bits). -/
  index : Nat
  /-- W (23 R544; 64 bits). -/
  w : Nat
  /-- S (23 R544; 64 bits). -/
  s : Nat
  /-- CODE (23 R545; 16 bits). -/
  code : Nat
  /-- CLASS (23 R540; 4 bits). -/
  cls : Nat
  /-- CAUSE (23 R544; 4 bits). -/
  cause : Nat
  /-- UNIT_KIND (23 R544; 4 bits). -/
  unitKind : Nat
  /-- UNIT (23 R544; 8 bits). -/
  unit : Nat
  /-- PHYS (23 R544; 8 bits). -/
  phys : Nat
  /-- TSLOT (23 R544; 3 bits). -/
  tslot : Nat
  /-- TASK (23 R544; 1 bits). -/
  task : Bool
  /-- SECONDARY (23 R542; 1 bits). -/
  secondary : Bool
  /-- MASKED (23 R544; 1 bits). -/
  masked : Bool
  /-- SEAT (23 R544; 2 bits). -/
  seat : Nat
  /-- DETAIL[127:64] (23 R544; 64 bits). -/
  dHi : Nat
  /-- DETAIL[63:0] (23 R544; 64 bits). -/
  dLo : Nat
  deriving DecidableEq, Repr, Inhabited

/-- HealthRec right after RESET_N is released. -/
def HealthRec.reset : HealthRec where
  index := 0
  w := 0
  s := 0
  code := 0
  cls := 0
  cause := 0
  unitKind := 0
  unit := 0
  phys := 0xFF
  tslot := 0
  task := false
  secondary := false
  masked := false
  seat := 0
  dHi := 0
  dLo := 0

/-- Health log, parking area, hub counters and mailboxes. -/
structure Hub where
  /-- health log, newest first (23 R546). -/
  health : List HealthRec
  /-- HEALTH_NEXT (23 R547; 64 bits). -/
  healthNext : Nat
  /-- hub counters (23 Table 23-8). -/
  counters : List (Nat × BitVec 64)
  /-- next parking record (12 R315; 18 bits). -/
  parkNext : Nat
  /-- parking records held (12 R315; 18 bits). -/
  parkHeld : Nat
  /-- mailboxes 0 to 15 (20 R446; 16 bits). -/
  mbx : List (Nat × Mbx)
  /-- relay windows for mailboxes 12 and 13 (20 R464; 2 bits). -/
  relay : List (Nat × Mbx)
  /-- offset pointer of mailbox 15 (20 R465; 12 bits). -/
  smbPtr : Nat
  /-- completion ring (20 R459). -/
  ring : Ring
  /-- negotiated version: 0 host driver, 1 domain manager, 2 twin, 3 service (20 R461). -/
  versions : List (Nat × Nat)
  /-- commands submitted so far (20 R453). -/
  arrivals : Nat
  /-- CHANTER_STATUS state (20 Table 20-4; 8 bits). -/
  chanter : Nat
  /-- highest version offered (20 Table 20-4; 8 bits). -/
  ifMax : Nat
  /-- next word of the staging scrubber in each block (10 R257; 20 bits). -/
  scrub : Nat
  /-- wall beat of the last staging scrub (10 R257; 64 bits). -/
  scrubW : Option Nat
  /-- next BIND_ID (24 R568; 32 bits). -/
  bindNext : Nat
  deriving DecidableEq, Repr, Inhabited

/-- Hub right after RESET_N is released. -/
def Hub.reset : Hub where
  health := []
  healthNext := 0
  counters := []
  parkNext := 0
  parkHeld := 0
  mbx := []
  relay := []
  smbPtr := 0
  ring := Ring.reset
  versions := []
  arrivals := 0
  chanter := 0
  ifMax := 0
  scrub := 0
  scrubW := none
  bindNext := 0

/-- The shadows of SNAPSHOT. -/
structure Shadow where
  /-- W_SNAP of the shadows (23 R552; 64 bits). -/
  wSnap : Nat
  /-- W (23 R552; 64 bits). -/
  w : Nat
  /-- H (23 R552; 64 bits). -/
  h : Nat
  /-- S (23 R552; 64 bits). -/
  s : Nat
  /-- counters, by 256 x class + unit (23 R552). -/
  units : List (Nat × List (BitVec 64))
  /-- drone status word (23 R552; 64 bits). -/
  drone : BitVec 64
  /-- hold status word (23 R552; 64 bits). -/
  hold : BitVec 64
  /-- twin status word (23 R552; 64 bits). -/
  twin : BitVec 64
  /-- TASK_STATE (23 R552; 64 bits). -/
  taskState : BitVec 64
  /-- HEALTH_NEXT (23 R552; 64 bits). -/
  healthNext : Nat
  /-- registered SNAPSHOT: W_SNAP and mailbox (20 R470; 64 bits). -/
  reg : Option (Nat × Nat)
  /-- hub counters as they stood before the updates of the latest beat edge, with its W (23 R553). -/
  edgeHub : Option (Nat × List (Nat × BitVec 64))
  deriving DecidableEq, Repr, Inhabited

/-- Shadow right after RESET_N is released. -/
def Shadow.reset : Shadow where
  wSnap := 0
  w := 0
  h := 0
  s := 0
  units := []
  drone := 0
  hold := 0
  twin := 0
  taskState := 0
  healthNext := 0
  reg := none
  edgeHub := none

/-- Policy fields of POWER_POLICY. -/
structure Policy where
  /-- LIMIT_W (24 R565; 16 bits). -/
  limitW : Nat
  /-- RATE_CAP (24 R565; 16 bits). -/
  rateCap : Nat
  /-- VQ_MV (24 R565). -/
  vq : List Nat
  /-- DEEPEST (24 R565; 8 bits). -/
  deepest : Nat
  /-- PARK (24 R565; 1 bits). -/
  park : Bool
  deriving DecidableEq, Repr, Inhabited

/-- Policy right after RESET_N is released. -/
def Policy.reset : Policy where
  limitW := 3400
  rateCap := 2150
  vq := [800, 800, 800, 800]
  deepest := 3
  park := false

/-- Power states of quarters and device, rails and the cap. -/
structure Power where
  /-- policy in force (24 R565). -/
  policy : Policy
  /-- registered policies: W_EFFECT, mailbox, fields (24 R565). -/
  reg : List (Nat × Nat × Policy)
  /-- power cap of the schedule regions (03 R90; 12 bits). -/
  cap : Nat
  /-- quarter states: 0 not in Retain, 3 Retain, 7 waking (24 R567). -/
  quarters : List (Nat × Nat)
  /-- wall beats left of a quarter's wake (24 R562). -/
  qWake : List (Nat × Nat)
  /-- DEVICE of POWER_STATUS (24 R567; 4 bits). -/
  device : Nat
  /-- wall beats left of the wake from Parked (24 R555). -/
  devWake : Nat
  /-- quarters out of service (23 R548). -/
  absentQ : List Nat
  /-- last reading of each rail: rail, mV, mA (25 R593; 26 bits). -/
  rails : List (Nat × Nat × Nat)
  /-- energy of each rail since the last share-out, in units of 10^-9 uJ (25 R593). -/
  energy : List (Nat × Nat)
  /-- consecutive out-of-range readings of each rail (25 R594; 26 bits). -/
  bad : List (Nat × Nat)
  /-- rails whose STATUS_WORD last reported a fault (25 R594). -/
  status : List Nat
  /-- wall beat of the last power cap update (03 R90; 64 bits). -/
  capW : Option Nat
  /-- wall beat of the last share-out of energy (24 R570; 64 bits). -/
  shareW : Option Nat
  /-- wall beat of the last rail readings (25 R593; 64 bits). -/
  railW : Option Nat
  /-- wall beat of the last STATUS_WORD reads (25 R594; 64 bits). -/
  statusW : Option Nat
  /-- POWER_STATUS as of the last wall-beat edge (24 R567; 64 bits). -/
  shown : Nat
  deriving DecidableEq, Repr, Inhabited

/-- Power right after RESET_N is released. -/
def Power.reset : Power where
  policy := Policy.reset
  reg := []
  cap := 2150
  quarters := []
  qWake := []
  device := 0
  devWake := 0
  absentQ := []
  rails := []
  energy := []
  bad := []
  status := []
  capW := none
  shareW := none
  railW := none
  statusW := none
  shown := 0

/-- A ledger entry. -/
structure Ledger where
  /-- EPOCH (24 R568; 32 bits). -/
  epoch : Nat
  /-- BIND_ID (24 R568; 32 bits). -/
  bindId : Nat
  /-- START_W (24 R571; 64 bits). -/
  startW : Nat
  /-- END_W (24 R571; 64 bits). -/
  endW : Nat
  /-- HOST_TIME (24 R571; 64 bits). -/
  hostTime : Nat
  /-- CORE_BEATS (24 R569; 64 bits). -/
  coreBeats : Nat
  /-- DRAM_BYTES (24 R569; 64 bits). -/
  dramBytes : Nat
  /-- FABRIC_BYTES (24 R569; 64 bits). -/
  fabricBytes : Nat
  /-- accumulated uJ (24 R570). -/
  microJ : Nat
  /-- SLOT (24 Table 24-5; 3 bits). -/
  slot : Nat
  /-- OPEN (24 Table 24-5; 1 bits). -/
  isOpen : Bool
  /-- TIME_REGRESS (24 R572; 1 bits). -/
  regress : Bool
  /-- NO_TIME (24 R571; 1 bits). -/
  noTime : Bool
  /-- DEVICE (24 Table 24-5; 1 bits). -/
  device : Bool
  /-- CORE_BEATS on each quarter in the present period (24 R570; 4 bits). -/
  pCore : List (Nat × Nat)
  /-- DRAM units on each stack in the present period (24 R570; 8 bits). -/
  pDram : List (Nat × Nat)
  /-- FABRIC_BYTES in the present period (24 R570). -/
  pFabric : Nat
  /-- its binding has been bound at an edge of the epoch (24 R568; 1 bits). -/
  atEdge : Bool
  /-- its epoch was open at the edge of the present wall beat, whose usage it takes (24 R569; 1 bits). -/
  counts : Bool
  /-- DRAM_BYTES of the present wall beat (24 R569, R574). -/
  nowDram : Nat
  /-- FABRIC_BYTES of the present wall beat (24 R569, R574). -/
  nowFabric : Nat
  /-- DRAM units of the present wall beat on each stack (24 R570; 8 bits). -/
  nowUnits : List (Nat × Nat)
  deriving DecidableEq, Repr, Inhabited

/-- Ledger right after RESET_N is released. -/
def Ledger.reset : Ledger where
  epoch := 0
  bindId := 0xFFFFFFFF
  startW := 0
  endW := 0
  hostTime := 0
  coreBeats := 0
  dramBytes := 0
  fabricBytes := 0
  microJ := 0
  slot := 0
  isOpen := true
  regress := false
  noTime := true
  device := true
  pCore := []
  pDram := []
  pFabric := 0
  atEdge := true
  counts := true
  nowDram := 0
  nowFabric := 0
  nowUnits := []

/-- The replay logger. -/
structure Logger where
  /-- armed ring: physical base and length (19 R430). -/
  ring : Option (Nat × Nat)
  /-- B, bytes written since REPLAY_ARM (19 R433; 64 bits). -/
  written : Nat
  /-- records waiting to be written (19 R434). -/
  buffer : List (List (BitVec 8))
  /-- records lost since the last GAP (19 R434; 64 bits). -/
  lost : Nat
  /-- task slot of the last record lost (19 R434; 3 bits). -/
  gapSlot : Nat
  /-- bytes of the oldest waiting record already written (19 R433). -/
  part : Nat
  deriving DecidableEq, Repr, Inhabited

/-- Logger right after RESET_N is released. -/
def Logger.reset : Logger where
  ring := none
  written := 0
  buffer := []
  lost := 0
  gapSlot := 0
  part := 0

/-- A decision word of DECIDE held for one position. -/
structure Decision where
  /-- port (22 R516; 6 bits). -/
  port : Nat
  /-- wall beat (22 R516; 64 bits). -/
  w : Nat
  /-- position (22 R516; 8 bits). -/
  pos : Nat
  /-- decision word (22 Table 22-6; 64 bits). -/
  word : BitVec 64
  deriving DecidableEq, Repr, Inhabited

/-- Decision right after RESET_N is released. -/
def Decision.reset : Decision where
  port := 0
  w := 0
  pos := 0
  word := 0

/-- Twin pairing. -/
structure Twin where
  /-- ROLE of Table 22-1 (22 R503, R504; 4 bits). -/
  role : Nat
  /-- the start-up seat rule has chosen a role (22 R503; 1 bits). -/
  roleKnown : Bool
  /-- PARTNER_ROLE (22 R504; 4 bits). -/
  partner : Nat
  /-- MUTE_CAUSE (22 R504; 5 bits). -/
  muteCause : Nat
  /-- LAST_COMPARED_S (22 R504; 48 bits). -/
  lastCompared : Nat
  /-- decision words held (22 R516). -/
  decisions : List Decision
  /-- ACKs held: port, wall beat, first position (22 R516). -/
  acks : List (Nat × Nat × Nat)
  /-- READY CRCs held: port, position, schedule beat, CRC (22 R515). -/
  readyIn : List (Nat × Nat × Nat × Nat)
  /-- COMMAND records waiting for their ACK or arrival: mailbox, arrival beat, command area (22 R508). -/
  cmds : List (Nat × Nat × List (BitVec 8))
  /-- HOST_IN writes waiting: schedule beat of application, device address, bytes (22 R510). -/
  hostIn : List (Nat × Nat × List (BitVec 8))
  /-- VALUE records: slot, kind, beat, sc, core, value (22 R513). -/
  values : List (Nat × Nat × Nat × Nat × Nat × Nat)
  /-- own digests waiting for the partner's: slot, beat, digests (22 R520). -/
  digests : List (Nat × Nat × List (BitVec 8))
  /-- partner's digests waiting for the own (22 R520). -/
  peerDigests : List (Nat × Nat × List (BitVec 8))
  /-- partner's fault records awaiting the own: code, slot, beat, sc, last wall beat (22 R521, R522). -/
  faults : List (Nat × Nat × Nat × Nat × Nat)
  /-- wall beats of the partner's package-class records of the last 2^24 (22 R529). -/
  peerPackage : List Nat
  /-- own faults awaiting the partner's record: code, slot, beat, sc, last wall beat (22 R521, R522). -/
  ownFaults : List (Nat × Nat × Nat × Nat × Nat)
  /-- cause of a mute due at the next wall beat edge; 0 none (22 R523; 5 bits). -/
  muteReq : Nat
  /-- last STEER record, by wall beat (22 R517). -/
  steer : List (Nat × List (BitVec 8))
  /-- consecutive wall beats without a good twin control slot (22 R526). -/
  noCtl : Nat
  /-- consecutive DECIDE deadlines missed (22 R526). -/
  missDecide : Nat
  /-- attach: S_JOIN, MAX_STALL, mailbox (22 R531). -/
  attach : Option (Nat × Nat × Nat)
  /-- dirty blocks: 0 scratchpad page (core x 32768 + page), 1 DRAM block, 2 staging block (22 R532). -/
  dirty : List (Nat × Nat)
  /-- state bytes copied so far (22 R532). -/
  copyAt : Nat
  /-- registered TWIN_DETACH: seat and mailbox (22 R535). -/
  detachMb : Option (Nat × Nat)
  /-- last divergence: slot, task beat, port and position + 1 (22 R529). -/
  diverged : Option (Nat × Nat × Nat)
  /-- the partner has shown the own grade and stepping at link-up (22 R531; 1 bits). -/
  partnerSame : Bool
  /-- words awaiting twin repair: memory (0 core spad, 1 staging, 2 DRAM), core, address (22 R530). -/
  repairs : List (Nat × Nat × Nat)
  /-- those of them whose compare point has come (22 R530). -/
  repairDue : List (Nat × Nat × Nat)
  /-- state of the live package received in COPY records, beyond its memories (22 R533). -/
  joinIn : List (BitVec 8)
  /-- records queued for the twin stream (22 R505). -/
  outbox : List (List (BitVec 8))
  deriving DecidableEq, Repr, Inhabited

/-- Twin right after RESET_N is released. -/
def Twin.reset : Twin where
  role := 0
  roleKnown := false
  partner := 0xF
  muteCause := 0
  lastCompared := 0
  decisions := []
  acks := []
  readyIn := []
  cmds := []
  hostIn := []
  values := []
  digests := []
  peerDigests := []
  faults := []
  peerPackage := []
  ownFaults := []
  muteReq := 0
  steer := []
  noCtl := 0
  missDecide := 0
  attach := none
  dirty := []
  copyAt := 0
  detachMb := none
  diverged := none
  partnerSame := false
  repairs := []
  repairDue := []
  joinIn := []
  outbox := []

/-- Start-up. -/
structure Boot where
  /-- phase of start-up (21 R480, R495). -/
  phase : BootPhase
  /-- boot flash, in canonical form over 0xFF (21 R477). -/
  flash : List Host.Cell
  /-- quarters attested (21 R496). -/
  attested : List Nat
  /-- slot being read: 0 A, 1 B, 2 recovery stream (21 R480; 2 bits). -/
  slot : Nat
  /-- slots tried (21 R480). -/
  tried : List Nat
  /-- next frame (21 R485; 15 bits). -/
  frame : Nat
  /-- BOOT of the running image (24 Table 24-7 BOOT; 2 bits). -/
  run : Nat
  /-- header of the running image (21 R482). -/
  header : List (BitVec 8)
  /-- SHA-384 of the running image (24 Table 24-7). -/
  personality : List (BitVec 8)
  /-- configuration stores and code memories, by 8 x KIND + die (21 Table 21-5). -/
  codeMem : List (Nat × List Host.Cell)
  /-- start-up steps run (21 R495; 3 bits). -/
  step : Nat
  /-- order word in force (21 R495; 64 bits). -/
  order : BitVec 64
  /-- PLLs locked (21 R495; 1 bits). -/
  pll : Bool
  /-- OUTPUTS step done (21 R495; 1 bits). -/
  outputs : Bool
  /-- SET_RESET step done (21 R495; 1 bits). -/
  released : Bool
  /-- WRITES step done (21 R495; 1 bits). -/
  writes : Bool
  /-- length of the staged image held in the frame buffer (21 R493; 32 bits). -/
  staged : Option Nat
  /-- start-up records kept by the hub: code, cause, slot, frame (21 R489). -/
  pendingRecs : List (Nat × Nat × Nat × Nat)
  deriving DecidableEq, Repr, Inhabited

/-- Boot right after RESET_N is released. -/
def Boot.reset : Boot where
  phase := .attest
  flash := []
  attested := []
  slot := 0
  tried := []
  frame := 0
  run := 0
  header := []
  personality := []
  codeMem := []
  step := 0
  order := 0
  pll := false
  outputs := false
  released := false
  writes := false
  staged := none
  pendingRecs := []

/-- Everything the part holds. -/
structure Device where
  /-- time base (02). -/
  beat : Beat
  /-- fuses (24). -/
  ident : Ident
  /-- pins (25). -/
  pins : Pins
  /-- drone logic (02). -/
  drone : Drone
  /-- lag and votes (15). -/
  hold : Hold
  /-- progress (15 R361). -/
  gate : Gate
  /-- regions by number (03 R68; 170 bits). -/
  regions : List (Nat × Region)
  /-- logical cores (01 R16; 144 bits). -/
  cores : List (Nat × Core)
  /-- task slots (18 R408; 8 bits). -/
  tasks : List (Nat × Task)
  /-- stacked DRAM, by physical address; marks per 32 B sector (11 R274). -/
  dram : Mem
  /-- stacks (01 R15; 8 bits). -/
  stackRecs : List (Nat × Stack)
  /-- next tick of the wall beat (11 R275; 10 bits). -/
  tick : Nat
  /-- DRAM accesses of open packets waiting for tick user 1 (11 R282). -/
  openReads : List Req
  /-- hub staging (11 R272). -/
  staging : Mem
  /-- ports, plan, routes (13). -/
  fabric : Fabric
  /-- host side (03 R87). -/
  host : HostSide
  /-- hub (20). -/
  hub : Hub
  /-- snapshot shadows (23 R552). -/
  shadow : Shadow
  /-- power (24). -/
  power : Power
  /-- metering ledger: entries held (24 R573). -/
  ledger : List Ledger
  /-- replay logger (19). -/
  logger : Logger
  /-- twin pairing (22). -/
  twin : Twin
  /-- start-up (21). -/
  boot : Boot
  /-- handshake crossings: the items in each queue of Table 3-3, oldest first (03 R80, R81, R83). -/
  cross : List (Nat × List CrossItem)
  /-- arrivals at a core's copy engine so far, by which the order of arrival is kept (10 R244). -/
  crossNum : Nat
  /-- free values drawn so far (00 R7). -/
  free : Nat
  deriving DecidableEq, Repr, Inhabited

/-- Device right after RESET_N is released. -/
def Device.reset : Device where
  beat := Beat.reset
  ident := Ident.reset
  pins := Pins.reset
  drone := Drone.reset
  hold := Hold.reset
  gate := Gate.reset
  regions := []
  cores := []
  tasks := []
  dram := Mem.reset
  stackRecs := []
  tick := 0
  openReads := []
  staging := Mem.reset
  fabric := Fabric.reset
  host := HostSide.reset
  hub := Hub.reset
  shadow := Shadow.reset
  power := Power.reset
  ledger := [Ledger.reset]
  logger := Logger.reset
  twin := Twin.reset
  boot := Boot.reset
  cross := []
  crossNum := 0
  free := 0

/-- The machine: the device and the commands that wait, first in, first out. -/
structure State where
  /-- Everything the part holds. -/
  dev : Device
  /-- The MODEL's own: the commands and events that wait, oldest first. -/
  pending : List Instr
  deriving DecidableEq, Repr, Inhabited

/-- The part right after RESET_N is released (R584), with no command waiting. -/
def State.reset : State where
  dev := Device.reset
  pending := []

/-- The faults of the model. -/
inductive Fault where
  /-- The command names a core, port, region, stack, mailbox or task slot that the part does not have. Every
  meaning that takes such a number raises it. Safe: the spec gives the command no effect there, and the model
  stops. -/
  | noSuchUnit
  deriving DecidableEq, Repr, Inhabited

/-- The refusals of the model. -/
inductive Refusal where
  /-- A command that has no meaning in the model yet. Raised by the arms of exec only. Safe: the model stops. -/
  | notModelled (mnemonic : String)
  deriving DecidableEq, Repr, Inhabited

end Sys2Proof.Machine
end

