-- ==== Sys2Proof/Machine/Ops.lean ====
section
/-! DEFINITION. Machine/Ops.lean: the named operations over the device that the meanings share: how a meaning is lifted
to the machine, the grade's resources, access to cores, tasks, ports, stacks and regions, counters, health records,
the fault of a task, memory with its protection, windows and liveness, the replay log. -/

namespace Sys2Proof.Machine

open Sys2Proof

/-- What a meaning answers. -/
abbrev Res := Host.Outcome State Fault Refusal

/-! ### Lifting a change of the device -/

/-- A command that may not change the time base: the device changes by f, but W, H, S and alignment stay (R36). -/
def lift (f : Device → Device) (s : State) : Res :=
  .next { s with dev := { f s.dev with beat := s.dev.beat } }

/-- A command of the time base. -/
def liftTime (f : Device → Device) (s : State) : Res := .next { s with dev := f s.dev }

/-- A command that names a unit: it stops where the part has no such unit. -/
def onUnit (ok : Device → Bool) (f : Device → Device) (s : State) : Res :=
  if ok s.dev then lift f s else .fault .noSuchUnit

/-! ### The grades (Table 0-1, R3, R15, R17) -/

/-- Logical cores per quarter. -/
def Grade.perQuarter : Grade → Nat
  | .lmx9410 => 36
  | .lmx9408 => 32
  | .lmx9404 => 18

/-- Logical cores. -/
def Grade.cores (g : Grade) : Nat := 4 * g.perQuarter

/-- Does the grade have stack D(k)? -/
def Grade.hasStack (g : Grade) (k : Nat) : Bool :=
  match g with
  | .lmx9410 => k < 8
  | .lmx9408 => k < 8 && k != 5 && k != 7
  | .lmx9404 => k < 8 && k % 2 == 0

/-- Fabric ports enabled by the grade. -/
def Grade.ports : Grade → Nat
  | .lmx9410 => 32
  | .lmx9408 => 24
  | .lmx9404 => 16

/-- Does the grade have the twin ports? -/
def Grade.hasTwin : Grade → Bool
  | .lmx9404 => false
  | _ => true

/-- The code of a grade in IDENT (Table 24-7). -/
def Grade.code : Grade → Nat
  | .lmx9410 => 0
  | .lmx9408 => 1
  | .lmx9404 => 2

/-- The grade of a device map entry: its code + 1 where the device is present. -/
def Grade.ofMap (n : Nat) : Option Grade :=
  match n with
  | 1 => some .lmx9410
  | 2 => some .lmx9408
  | 3 => some .lmx9404
  | _ => none

/-- Does the grade have port p (F0 to F31 as 0 to 31, T0 and T1 as 32 and 33)? -/
def Grade.hasPort (g : Grade) (p : Nat) : Bool := p < g.ports || (g.hasTwin && (p == 32 || p == 33))

/-- The grade of the device. -/
def Device.grade (d : Device) : Grade := d.ident.grade

/-- Is c a logical core of the grade? -/
def Device.hasCore (d : Device) (c : Nat) : Bool := c < d.grade.cores

/-- Is p a port of the grade? -/
def Device.hasPort (d : Device) (p : Nat) : Bool := d.grade.hasPort p

/-- The quarter of a logical core (R3). -/
def Device.quarterOf (d : Device) (c : Nat) : Nat := c / d.grade.perQuarter

/-- The numbers of the schedule regions: cores, then the four copy networks (Table 3-1). -/
def Device.schedRegions (d : Device) : List Nat := List.range d.grade.cores ++ [144, 145, 146, 147]

/-- Is r a region of the grade? -/
def Device.hasRegion (d : Device) (r : Nat) : Bool := r < d.grade.cores || (144 ≤ r && r < 170)

/-- The bytes of one stack (R274). -/
def stackBytes : Nat := 0xC00000000

/-- Is a range of physical DRAM within stacks that the grade has and that are in service (R17, R548)? -/
def Grade.dramIn (g : Grade) (a n : Nat) : Bool :=
  n == 0 || ((List.range ((a + n - 1) / stackBytes + 1 - a / stackBytes)).all
    (fun i => g.hasStack (a / stackBytes + i)) && a + n ≤ 8 * stackBytes)

/-- Do writes to DRAM and task staging run: the four start-up steps are over, and no recovery stream runs (R491, R495)? -/
def Device.writesOn (d : Device) : Bool := d.boot.phase == .running

/-- The stacks that the grade has. -/
def Grade.stacks (g : Grade) : Nat := ((List.range 8).filter g.hasStack).length

/-! ### Access to the units -/

/-- A logical core. -/
def Device.core (d : Device) (c : Nat) : Core := Sparse.get Core.reset d.cores c

/-- Put a logical core. -/
def Device.setCore (d : Device) (c : Nat) (k : Core) : Device := { d with cores := Sparse.set Core.reset d.cores c k }

/-- Change a logical core. -/
def Device.onCore (d : Device) (c : Nat) (f : Core → Core) : Device := d.setCore c (f (d.core c))

/-- A task slot. -/
def Device.task (d : Device) (t : Nat) : Task := Sparse.get Task.reset d.tasks t

/-- Put a task slot. -/
def Device.setTask (d : Device) (t : Nat) (k : Task) : Device := { d with tasks := Sparse.set Task.reset d.tasks t k }

/-- Change a task slot. -/
def Device.onTask (d : Device) (t : Nat) (f : Task → Task) : Device := d.setTask t (f (d.task t))

/-- A stack. -/
def Device.stack (d : Device) (k : Nat) : Stack := Sparse.get Stack.reset d.stackRecs k

/-- Change a stack. -/
def Device.onStack (d : Device) (k : Nat) (f : Stack → Stack) : Device :=
  { d with stackRecs := Sparse.set Stack.reset d.stackRecs k (f (d.stack k)) }

/-- A region. -/
def Device.region (d : Device) (r : Nat) : Region := Sparse.get Region.reset d.regions r

/-- Change a region. -/
def Device.onRegion (d : Device) (r : Nat) (f : Region → Region) : Device :=
  { d with regions := Sparse.set Region.reset d.regions r (f (d.region r)) }

/-- A port. -/
def Device.port (d : Device) (p : Nat) : Port := Sparse.get Port.reset d.fabric.ports p

/-- Change a port. -/
def Device.onPort (d : Device) (p : Nat) (f : Port → Port) : Device :=
  { d with fabric := { d.fabric with ports := Sparse.set Port.reset d.fabric.ports p (f (d.port p)) } }

/-- The ports of the grade. -/
def Device.portNums (d : Device) : List Nat := (List.range 34).filter d.hasPort

/-- Is the port up: has it completed link-up (R342)? -/
def Port.up (p : Port) : Bool := p.step == 6

/-- A mailbox. -/
def Device.mbx (d : Device) (m : Nat) : Mbx := Sparse.get Mbx.reset d.hub.mbx m

/-- Change a mailbox. -/
def Device.onMbx (d : Device) (m : Nat) (f : Mbx → Mbx) : Device :=
  { d with hub := { d.hub with mbx := Sparse.set Mbx.reset d.hub.mbx m (f (d.mbx m)) } }

/-- Change the hub. -/
def Device.onHub (d : Device) (f : Hub → Hub) : Device := { d with hub := f d.hub }

/-- Change the fabric. -/
def Device.onFabric (d : Device) (f : Fabric → Fabric) : Device := { d with fabric := f d.fabric }

/-- Change the twin logic. -/
def Device.onTwin (d : Device) (f : Twin → Twin) : Device := { d with twin := f d.twin }

/-- The running task slot of a core. -/
def Device.runningOn (d : Device) (c : Nat) : Option Nat := (d.core c).running

/-- The own logical device number of R164: that of TOPO_SET, and 0 before it (R579). -/
def Device.devNum (d : Device) : Nat := d.fabric.device.getD 0

/-- Draw one free value (R7). -/
def Device.drawFree (d : Device) : Nat × Device := (Config.freeNat d.free, { d with free := d.free + 1 })

/-! ### Counters (Table 23-8, R161: 64 bits, wrapping) -/

/-- Add to a counter table. -/
def countIn (m : Sparse (BitVec 64)) (i n : Nat) : Sparse (BitVec 64) :=
  Sparse.upd 0 m i (fun v => v + BitVec.ofNat 64 n)

/-- Add n to counter i of core c. -/
def Device.countCore (d : Device) (c i n : Nat) : Device :=
  if n = 0 then d else d.onCore c (fun k => { k with counters := countIn k.counters i n })

/-- Add n to counter i of port p. -/
def Device.countPort (d : Device) (p i n : Nat) : Device :=
  if n = 0 then d else d.onPort p (fun k => { k with counters := countIn k.counters i n })

/-- Add n to counter i of stack k. -/
def Device.countStack (d : Device) (k i n : Nat) : Device :=
  if n = 0 then d else d.onStack k (fun s => { s with counters := countIn s.counters i n })

/-- Add n to hub counter i. -/
def Device.countHub (d : Device) (i n : Nat) : Device :=
  if n = 0 then d else { d with hub := { d.hub with counters := countIn d.hub.counters i n } }

/-! ### Health records (R544 to R547) -/

/-- The physical cores of quarter q that the numbering of R550 uses, ascending. -/
def Device.physOfQuarter (d : Device) (q : Nat) : List Nat :=
  ((List.range 40).map (fun i => 40 * q + i)).filter (fun p => !d.ident.physBuilt.contains p)

/-- The physical core of a logical core (R549, R550). -/
def Device.physOf (d : Device) (c : Nat) : Nat :=
  match (d.core c).phys with
  | some p => p
  | none => nth (d.physOfQuarter (d.quarterOf c)) (c % d.grade.perQuarter) 0xFF

/-- Write a health record; INDEX, W and SEAT are filled in, and PHYS for a core (R544, R546). -/
def Device.log (d : Device) (r : HealthRec) : Device :=
  let r := { r with
    index := d.hub.healthNext, w := d.beat.w, seat := d.pins.twinSeat,
    phys := if r.unitKind = 1 then d.physOf r.unit else 0xFF }
  let d := if d.hub.health.length < 65536 then d else d.countHub 17 1
  { d with hub := { d.hub with
      health := (r :: d.hub.health).take 65536, healthNext := d.hub.healthNext + 1 } }

/-- A record of an event: S is S at W (R544). -/
def Device.event (d : Device) (code cause unitKind unit dHi dLo : Nat) : Device :=
  d.log { HealthRec.reset with
    s := d.beat.s, code := code, cls := 0, cause := cause, unitKind := unitKind, unit := unit, dHi := dHi, dLo := dLo }

/-- The class that a code carries (Table 23-4): its high byte. -/
def classOf (code : Nat) : Nat := code / 256

/-- Is the package a member of a formed pair (Table 22-1)? -/
def Device.inPair (d : Device) : Bool := d.twin.role == 4 || d.twin.role == 5

/-- The twin status word (Table 22-3). -/
def Device.twinWord (d : Device) : Nat :=
  d.twin.role % 16 * 2 ^ 60 + d.twin.partner % 16 * 2 ^ 56 + b2n (d.port 33).up * 2 ^ 55 + b2n (d.port 32).up * 2 ^ 54
    + b2n d.pins.peerAlive * 2 ^ 53 + d.twin.muteCause % 32 * 2 ^ 48 + d.twin.lastCompared % 2 ^ 48

/-- Queue a record of the twin stream: KIND, BEAT, SC, CORE, AUX and payload (Table 22-4). -/
def Device.twinSend (d : Device) (kind beat sc core aux : Nat) (data : List (BitVec 8)) : Device :=
  let h := aux % 2 ^ 25 + core % 256 * 2 ^ 25 + sc % 2048 * 2 ^ 33 + beat % 2 ^ 64 * 2 ^ 44 + data.length % 4096 * 2 ^ 108
    + kind % 256 * 2 ^ 120
  d.onTwin (fun t => { t with outbox := t.outbox ++ [leBytes 16 h ++ data] })

/-- A health record as its 48 bytes (Table 23-3). -/
def HealthRec.bytes (r : HealthRec) : List (BitVec 8) :=
  leBytes 16 (r.dHi % 2 ^ 64 * 2 ^ 64 + r.dLo % 2 ^ 64)
    ++ leBytes 8 (r.seat % 4 * 2 ^ 12 + b2n r.masked * 2 ^ 14 + b2n r.secondary * 2 ^ 15 + b2n r.task * 2 ^ 16
      + r.tslot % 8 * 2 ^ 17 + r.phys % 256 * 2 ^ 20 + r.unit % 256 * 2 ^ 28 + r.unitKind % 16 * 2 ^ 36
      + r.cause % 16 * 2 ^ 40 + r.cls % 16 * 2 ^ 44 + r.code % 2 ^ 16 * 2 ^ 48)
    ++ leBytes 8 r.s ++ leBytes 8 r.w ++ leBytes 8 r.index

/-! ### The fault of a task (R28, R541, R542) -/

/-- Is the scrub cycle of core c due in this schedule beat (R254)? Pages are scrubbed in Active and Gated. -/
def Device.scrubDue (d : Device) (c : Nat) : Bool :=
  let k := d.core c
  d.beat.aligned && d.gate.e % 512 == 0 && k.scrubS != d.gate.e + 1 && k.power.state ≤ 1 && !k.absent

/-- A core on which nothing runs any more has finished the schedule beat: at once, or once its scrub cycle ends (R79). -/
def Device.restRegion (d : Device) (c : Nat) : Device := d.onRegion c (fun r => { r with finished := !d.scrubDue c })

/-- Stop a task: none of its cores issues a further bundle, and their regions count as finished (R541). -/
def Device.stopTask (d : Device) (t : Nat) : Device :=
  let d := d.onTask t (fun k => { k with stopping := true })
  (d.task t).cores.foldl (fun d c =>
    if (d.core c).running == some t then
      (d.onCore c (fun k => { k with stopped := true, fill := none, wait := none })).restRegion c
    else d) d

/-- A fault of the own and the partner's record of the same code, task, beat and sc agree: it is the fault of both, and a common
fault shows MASKED = 0 (R521, R522). -/
def Device.matchFaults (d : Device) (t beat sc : Nat) : Device :=
  match d.twin.ownFaults.find? (fun f => f.2.1 == t && f.2.2.1 == beat && f.2.2.2.1 == sc),
    d.twin.faults.find? (fun f => f.2.1 == t && f.2.2.1 == beat && f.2.2.2.1 == sc) with
  | some a, some b =>
    if a.1 == b.1 then
      let d := d.onTwin (fun w => { w with ownFaults := w.ownFaults.erase a, faults := w.faults.erase b })
      d.onHub (fun h => { h with health := h.health.map (fun r =>
        if r.code == a.1 && r.task && r.tslot == t && r.s == beat then { r with masked := false } else r) })
    else d
  | _, _ => d

/-- Record a fault of task t and stop it. In a pair the record goes to the partner as FAULT: one of class 1 or 2 awaits the
partner's, one of class 3 stops the task there too (R28, R521, R522). -/
def Device.fault (d : Device) (t : Nat) (code cause unitKind unit sc dHi dLo : Nat) : Device :=
  let k := d.task t
  let sec := k.stopping || k.state == 5
  let pair := d.inPair
  let r : HealthRec := { HealthRec.reset with
    s := d.gate.e, code := code, cls := classOf code, cause := cause, unitKind := unitKind, unit := unit, tslot := t,
    task := true, secondary := sec, masked := pair && classOf code == 2, dHi := dHi, dLo := dLo }
  let d := d.log r
  if sec then d
  else
    let d := d.stopTask t
    if pair && classOf code == 3 then d.twinSend 0x0A d.gate.e sc unit code r.bytes
    else if pair && (classOf code == 1 || classOf code == 2) then
      let d := d.twinSend 0x0A d.gate.e sc unit code r.bytes
      (d.onTwin (fun w => { w with ownFaults := w.ownFaults ++ [(code, t, d.gate.e, sc, d.beat.w + 1)] })).matchFaults t d.gate.e sc
    else d

/-- The bundle that a core is issuing, or issued last: its index in the task's window. -/
def Core.bundleNow (k : Core) : Nat :=
  match k.issue with
  | some i => i.index
  | none => k.pc

/-- A fault of the running task of core c in its present sc, with UNIT_KIND core. -/
def Device.coreFault (d : Device) (c t code cause dHi dLo : Nat) : Device :=
  d.fault t code cause 1 c (d.core c).lastSc dHi dLo

/-- The detail of BOUND_VIOLATION (Table 23-5): bundle, sc, slot and window in the high half. -/
def boundDetail (bundle sc slot window : Nat) : Nat :=
  bundle % 2 ^ 14 * 2 ^ 50 + sc % 2 ^ 11 * 2 ^ 39 + slot % 8 * 2 ^ 36 + window % 16 * 2 ^ 32

/-! ### Windows (R163, R164) -/

/-- A field of a base-and-bound set. -/
def bset (b : BitVec 256) (lo w : Nat) : Nat := bits b.toNat lo w

/-- The base-and-bound set of task slot t on core c. -/
def Core.bound (k : Core) (t : Nat) : BitVec 256 := Sparse.get 0 k.bounds t

/-- INSTR_BASE. -/
def instrBase (b : BitVec 256) : Nat := bset b 242 14
/-- INSTR_COUNT. -/
def instrCount (b : BitVec 256) : Nat := bset b 228 14
/-- SP_BASE, in pages. -/
def spBase (b : BitVec 256) : Nat := bset b 213 15
/-- SP_LEN, in pages. -/
def spLen (b : BitVec 256) : Nat := bset b 198 15
/-- DRAM_BASE, in MiB. -/
def dramBase (b : BitVec 256) : Nat := bset b 179 19
/-- DRAM_LEN, in MiB. -/
def dramLen (b : BitVec 256) : Nat := bset b 160 19
/-- STAGE_BASE, in 64 KiB. -/
def stageBase (b : BitVec 256) : Nat := bset b 148 12
/-- STAGE_LEN, in 64 KiB. -/
def stageLen (b : BitVec 256) : Nat := bset b 135 13
/-- HALL_DEV_LO. -/
def hallLo (b : BitVec 256) : Nat := bset b 123 12
/-- HALL_DEV_HI. -/
def hallHi (b : BitVec 256) : Nat := bset b 111 12
/-- HALL_SPACES. -/
def hallSpaces (b : BitVec 256) : Nat := bset b 105 6
/-- Q_BASE. -/
def qBase (b : BitVec 256) : Nat := bset b 98 7
/-- Q_COUNT. -/
def qCount (b : BitVec 256) : Nat := bset b 90 8
/-- K_BASE. -/
def kBase (b : BitVec 256) : Nat := bset b 84 6
/-- K_COUNT. -/
def kCount (b : BitVec 256) : Nat := bset b 78 6

/-- Does an access of n bytes at a pass the scratchpad window (R164)? -/
def spadOk (b : BitVec 256) (a n : Nat) : Bool := a + n ≤ spLen b * 4096

/-- The physical scratchpad address of a task-relative one. -/
def spadPa (b : BitVec 256) (a : Nat) : Nat := spBase b * 4096 + a

/-- Is task slot t bound (Table 18-8)? State 0 is UNBOUND. -/
def Device.isBound (d : Device) (t : Nat) : Bool := (d.task t).state != 0

/-- The bound task slots. -/
def Device.boundSlots (d : Device) : List Nat := (List.range 8).filter d.isBound

/-- Is any task bound? -/
def Device.anyBound (d : Device) : Bool := d.boundSlots != []

/-- The task slots bound on core c. -/
def Device.slotsOn (d : Device) (c : Nat) : List Nat := d.boundSlots.filter (fun t => (d.task t).cores.contains c)

/-- Is a range of physical scratchpad in the window of a task slot bound on core c? -/
def Device.inSpadWindow (d : Device) (c a n : Nat) : Bool :=
  (d.slotsOn c).any (fun t =>
    let b := (d.core c).bound t
    spBase b * 4096 ≤ a && a + n ≤ (spBase b + spLen b) * 4096)

/-- The slots whose DRAM window on some core holds a range (R349). -/
def Device.dramWindowSlots (d : Device) (a n : Nat) : List Nat :=
  d.boundSlots.filter (fun t => (d.task t).cores.any (fun c =>
    let b := (d.core c).bound t
    dramBase b * 2 ^ 20 ≤ a && a + n ≤ (dramBase b + dramLen b) * 2 ^ 20))

/-- The slots whose staging window on some core holds a range (R349). -/
def Device.stageWindowSlots (d : Device) (a n : Nat) : List Nat :=
  d.boundSlots.filter (fun t => (d.task t).cores.any (fun c =>
    let b := (d.core c).bound t
    stageBase b * 65536 ≤ a && a + n ≤ (stageBase b + stageLen b) * 65536))

/-- The slots bound on core c whose scratchpad window holds a range. -/
def Device.spadWindowSlots (d : Device) (c a n : Nat) : List Nat :=
  (d.slotsOn c).filter (fun t =>
    let b := (d.core c).bound t
    spBase b * 4096 ≤ a && a + n ≤ (spBase b + spLen b) * 4096)

/-! ### Protected memories (R248 to R253, R288) -/

/-- What a read found: the bytes with their marks, words with a correctable error, words with an uncorrectable error,
and words that delivered marked data without error. -/
structure ReadOut where
  /-- Bytes and marks. -/
  data : List (BitVec 8 × Bool)
  /-- The memory after the read. -/
  mem : Mem
  /-- Addresses of words with a correctable error. -/
  ce : List Nat
  /-- Addresses of words with an uncorrectable error. -/
  ue : List Nat
  /-- Addresses of words that were poisoned already. -/
  marked : List Nat

/-- The units of u bytes that a range of n bytes at a touches, by number. -/
def unitsOf (u a n : Nat) : List Nat :=
  if n = 0 then [] else (List.range ((a + n - 1) / u + 1 - a / u)).map (fun i => a / u + i)

/-- Read n bytes at a from a memory protected in units of u bytes (Table 10-3, R288). -/
def Mem.read (m : Mem) (u a n : Nat) : ReadOut :=
  let us := unitsOf u a n
  let ce := us.filter (fun i => Sparse.get 0 m.ecc i == 1)
  let ue := us.filter (fun i => Sparse.get 0 m.ecc i == 2)
  let marked := us.filter (fun i => Sparse.get 0 m.ecc i == 0 && Sparse.get false m.poison i)
  let m2 : Mem := { m with
    poison := ue.foldl (fun p i => Sparse.set false p i true) m.poison,
    ecc := ue.foldl (fun e i => Sparse.set 0 e i 0) m.ecc }
  { data := (List.range n).map (fun i =>
      (Sparse.get 0 m.bytes (a + i), Sparse.get false m2.poison ((a + i) / u))),
    mem := m2, ce := ce.map (· * u), ue := ue.map (· * u), marked := marked.map (· * u) }

/-- What a write found: words with a correctable or an uncorrectable error under a partial write. -/
structure WriteOut where
  /-- The memory after the write. -/
  mem : Mem
  /-- Addresses of words with a correctable error. -/
  ce : List Nat
  /-- Addresses of words with an uncorrectable error. -/
  ue : List Nat

/-- Write bytes with marks at a (R250, R253, Table 10-6, R288). -/
def Mem.write (m : Mem) (u a : Nat) (data : List (BitVec 8 × Bool)) : WriteOut :=
  let n := data.length
  let us := unitsOf u a n
  let full := fun i => a ≤ i * u && i * u + u ≤ a + n
  let markIn := fun i => (List.range u).any (fun j =>
    let x := i * u + j
    a ≤ x && x < a + n && (nth data (x - a) (0, false)).2)
  let part := us.filter (fun i => !full i)
  let ce := part.filter (fun i => Sparse.get 0 m.ecc i == 1)
  let ue := part.filter (fun i => Sparse.get 0 m.ecc i == 2)
  let poison := us.foldl (fun p i =>
    let old := !full i && (Sparse.get false m.poison i || Sparse.get 0 m.ecc i == 2)
    Sparse.set false p i (markIn i || old)) m.poison
  { mem := { bytes := Sparse.setMany 0 m.bytes a (data.map (·.1)), poison := poison,
             ecc := us.foldl (fun e i => Sparse.set 0 e i 0) m.ecc },
    ce := ce.map (· * u), ue := ue.map (· * u) }

/-- Bytes without marks. -/
def unmarked (bs : List (BitVec 8)) : List (BitVec 8 × Bool) := bs.map (fun b => (b, false))

/-- Is a page of core c live (R255)? -/
def Device.livePage (d : Device) (c g : Nat) : Bool :=
  (d.slotsOn c).any (fun t =>
    let b := (d.core c).bound t
    spBase b ≤ g && g < spBase b + spLen b)

/-- Retire page g of core c; the sixteenth retired page marks the core (R256, R549). -/
def Device.retirePage (d : Device) (c g : Nat) : Device :=
  if Sparse.get false (d.core c).retired g then d
  else
    let d := d.onCore c (fun k => { k with retired := Sparse.set false k.retired g true })
    let d := d.onCore c (fun k => { k with marked := k.marked || 16 ≤ k.retired.length })
    (d.countCore c 19 1).event 0x0005 0 1 c (g * 4096) 0

/-- Count an uncorrectable error in a scratchpad word, record MEM_UE with its cause, and retire the page at the third
while it is not live (R256, R545). -/
def Device.spadUe (d : Device) (c a cause : Nat) : Device :=
  let g := a / 4096
  let n := Sparse.get 0 (d.core c).pageUe g + 1
  let d := d.onCore c (fun k => { k with pageUe := Sparse.set 0 k.pageUe g n })
  let d := d.event 0x0004 cause 1 c a n
  if 3 ≤ n && !d.livePage c g then d.retirePage c g else d

/-- Read the scratchpad of core c, with counts and records (R249). -/
def Device.spadRead (d : Device) (c a n : Nat) : List (BitVec 8 × Bool) × Device :=
  let r := (d.core c).spad.read 8 a n
  let d := d.onCore c (fun k => { k with spad := r.mem })
  let d := (d.countCore c 11 r.ce.length).countCore c 14 r.ue.length
  let d := d.countCore c 18 r.marked.length
  (r.data, r.ue.foldl (fun d x => d.spadUe c x 0) d)

/-- Add a write to the write digests of the task slots it belongs to (R519). -/
def Device.digestWrite (d : Device) (slots : List Nat) (pa : Nat) (bs : List (BitVec 8)) : Device :=
  if d.inPair then
    let h := BitVec.ofNat 64 (crc64 (leBytes 8 pa ++ bs))
    slots.foldl (fun d t => d.onTask t (fun k => { k with writeDigest := k.writeDigest + h })) d
  else d

/-- The dirty unit of an attach (R532): a 4 KiB scratchpad page, or a 64 KiB block of DRAM (1) or staging (2). -/
def Device.markDirty (d : Device) (kind k : Nat) : Device :=
  if d.twin.role == 2 then
    d.onTwin (fun t => { t with dirty := if t.dirty.contains (kind, k) then t.dirty else t.dirty ++ [(kind, k)] })
  else d

/-- Write the scratchpad of core c, with counts and records (R253). -/
def Device.spadWrite (d : Device) (c a : Nat) (data : List (BitVec 8 × Bool)) : Device :=
  let r := (d.core c).spad.write 8 a data
  let d := d.onCore c (fun k => { k with spad := r.mem })
  let d := (d.countCore c 12 r.ce.length).countCore c 15 r.ue.length
  let d := r.ue.foldl (fun d x => d.spadUe c x 1) d
  let d := d.digestWrite (d.spadWindowSlots c a data.length) a (data.map (·.1))
  (unitsOf 4096 a data.length).foldl (fun d g => d.markDirty 0 (c * 32768 + g)) d

/-- Read hub staging (R257). -/
def Device.stageRead (d : Device) (a n : Nat) : List (BitVec 8 × Bool) × Device :=
  let r := d.staging.read 8 a n
  let d := { d with staging := r.mem }
  let d := ((d.countHub 0 r.ce.length).countHub 3 r.ue.length).countHub 7 r.marked.length
  (r.data, r.ue.foldl (fun d x => d.event 0x0004 0 4 0 x 0) d)

/-- Write the part's own areas of hub staging: slip buffers, parked messages and deferred packets (Table 11-5). -/
def Device.stagePut (d : Device) (a : Nat) (data : List (BitVec 8 × Bool)) : Device :=
  let r := d.staging.write 8 a data
  let d := { d with staging := r.mem }
  let d := (d.countHub 1 r.ce.length).countHub 4 r.ue.length
  let d := r.ue.foldl (fun d x => d.event 0x0004 1 4 0 x 0) d
  (unitsOf 65536 a data.length).foldl (fun d g => d.markDirty 2 g) d

/-- Write hub staging (R253, R257). -/
def Device.stageWrite (d : Device) (a : Nat) (data : List (BitVec 8 × Bool)) : Device :=
  (d.digestWrite (d.stageWindowSlots a data.length) a (data.map (·.1))).stagePut a data

/-- Is a physical DRAM block of 1 MiB live: in a bound task's DRAM window or the armed replay ring (R538)? -/
def Device.liveDram (d : Device) (a n : Nat) : Bool :=
  d.boundSlots.any (fun t => (d.task t).cores.any (fun c =>
    let b := (d.core c).bound t
    overlaps (dramBase b * 2 ^ 20) (dramLen b * 2 ^ 20) a n))
  || (match d.logger.ring with
      | some (r, l) => overlaps r l a n
      | none => false)

/-- Retire DRAM block b, counted from physical address 0 (R539). -/
def Device.retireBlock (d : Device) (b : Nat) : Device :=
  let k := b * 2 ^ 20 / stackBytes
  let i := b - k * (stackBytes / 2 ^ 20)
  if Sparse.get false (d.stack k).retired i then d
  else
    let d := d.onStack k (fun s => { s with retired := Sparse.set false s.retired i true })
    (d.countStack k 3 1).event 0x0005 1 3 k (b * 2 ^ 20) 0

/-- Count an uncorrectable sector and record MEM_UE with its cause (R288, R538, R539). -/
def Device.dramUe (d : Device) (a cause : Nat) : Device :=
  let k := a / stackBytes
  let i := a % stackBytes / 2 ^ 20
  let n := Sparse.get 0 (d.stack k).blockUe i + 1
  let d := d.onStack k (fun s => { s with blockUe := Sparse.set 0 s.blockUe i n })
  let d := (d.countStack k 2 1).event 0x0004 cause 3 k a n
  if 3 ≤ n && !d.liveDram (a / 2 ^ 20 * 2 ^ 20) (2 ^ 20) then d.retireBlock (a / 2 ^ 20) else d

/-- Read physical DRAM (R288). -/
def Device.dramRead (d : Device) (a n : Nat) : List (BitVec 8 × Bool) × Device :=
  let r := d.dram.read 32 a n
  let d := { d with dram := r.mem }
  let d := r.ce.foldl (fun d x => d.countStack (x / stackBytes) 1 1) d
  (r.data, r.ue.foldl (fun d x => d.dramUe x 6) d)

/-- Write physical DRAM (R288). -/
def Device.dramWrite (d : Device) (a : Nat) (data : List (BitVec 8 × Bool)) : Device :=
  let r := d.dram.write 32 a data
  let d := { d with dram := r.mem }
  let d := r.ce.foldl (fun d x => d.countStack (x / stackBytes) 1 1) d
  let d := r.ue.foldl (fun d x => d.dramUe x 7) d
  let d := d.digestWrite (d.dramWindowSlots a data.length) a (data.map (·.1))
  (unitsOf 65536 a data.length).foldl (fun d g => d.markDirty 1 g) d

/-- Record a consumption of marked data by task t of core c (R251): the address of the word, and its source code of
Table 10-5. -/
def Device.consume (d : Device) (t c addr source n : Nat) : Device :=
  if n = 0 then d
  else d.onTask t (fun k => { k with
    consumed := match k.consumed with
      | some x => some x
      | none => some (c, addr, source, d.gate.e, (d.core c).lastSc),
    consumeCount := min 0xFFFFFFFF (k.consumeCount + n) })

/-- The first marked byte of what was read, and how many words hold marks, in units of u bytes from address a. -/
def markedWords (u a : Nat) (data : List (BitVec 8 × Bool)) : List Nat :=
  (unitsOf u a data.length).filter (fun i => (List.range u).any (fun j =>
    let x := i * u + j
    a ≤ x && x < a + data.length && (nth data (x - a) (0, false)).2))

/-! ### Host memory (R87, R458) -/

/-- Post a write to host memory. Every caller does so while the host link is up (R87). -/
def Device.hostWrite (d : Device) (a : Nat) (bs : List (BitVec 8)) : Device :=
  { d with host := { d.host with mem := Sparse.setMany 0 d.host.mem a bs } }

/-- A write waits for the host link, once (R87). -/
def Device.holdWrite (d : Device) (x : HeldWrite) : Device :=
  if d.host.held.contains x && x != .entry then d else { d with host := { d.host with held := d.host.held ++ [x] } }

/-- Writes that wait no longer. -/
def Device.dropHeld (d : Device) (x : HeldWrite) : Device :=
  { d with host := { d.host with held := d.host.held.filter (· != x) } }

/-- Read host memory. -/
def Device.hostRead (d : Device) (a n : Nat) : List (BitVec 8) := Sparse.getMany 0 d.host.mem a n

/-! ### Command outcomes, the replay log and the write digest -/

/-- Decide the outcome of the command in mailbox mb; COMMAND_COMPLETE publishes it (R458, R612). -/
def Device.outcome (d : Device) (mb status detail : Nat) (result : List (BitVec 8)) : Device :=
  d.onMbx mb (fun m => { m with outcome := some (status, detail, result) })

/-- The task beat T of R431: schedule beats that the task has completed. -/
def Device.taskBeat (d : Device) (t : Nat) : Nat := (d.task t).runBeats

/-- The position of core c in the core map of task t, or 0xFF. -/
def Device.imageCore (d : Device) (t c : Nat) : Nat :=
  match (d.task t).cores.findIdx? (· == c) with
  | some i => i
  | none => 0xFF

/-- The least count, within the beat, among the cores of task t, as an sc (R361, R431): a core that has finished the beat
counts as one past its last. -/
def Device.leastSc (d : Device) (t : Nat) : Nat :=
  min 1599 (minOr 0 ((d.task t).cores.map (fun c => if (d.region c).finished then 1600 else (d.region c).count)))

/-- The point of an event of task t (R431): T, sc and image core. An event on a core names it; one in DRAM or staging
names none. Before a core has issued in its beat, the sc is 0. -/
def Device.point (d : Device) (t : Nat) (core : Option Nat) : Nat × Nat × Nat :=
  let k := d.task t
  if k.state = 2 then
    match core with
    | some c => (k.runBeats, if (d.region c).count = 0 then 0 else (d.core c).lastSc, d.imageCore t c)
    | none => (k.runBeats, d.leastSc t, 0xFF)
  else
    match core with
    | some c => (k.runBeats, 0, d.imageCore t c)
    | none => (k.runBeats, 0, 0xFF)

/-- Give the logger a record of task t (R432, R434, Table 19-2). -/
def Device.logRecord (d : Device) (t kind : Nat) (core : Option Nat) (detail : Nat) (payload : List (BitVec 8)) : Device :=
  let k := d.task t
  let (tb, sc, ic) := d.point t core
  let sc := if kind = 2 then 1599 else sc
  let hd := leBytes 32 (detail % 2 ^ 64 + payload.length % 2 ^ 13 * 2 ^ 101 + kind % 256 * 2 ^ 114 + t % 8 * 2 ^ 122
    + ic % 256 * 2 ^ 125 + sc % 2048 * 2 ^ 133 + tb % 2 ^ 64 * 2 ^ 144 + k.logSeq % 2 ^ 48 * 2 ^ 208)
  let rec_ := hd ++ payload ++ List.replicate (roundUp payload.length 32 - payload.length) 0
  let d := d.onTask t (fun k => { k with logSeq := k.logSeq + 1 })
  let held := (d.logger.buffer.map List.length).foldl (· + ·) 0
  if 0x200000 < held + rec_.length then
    { d with logger := { d.logger with lost := d.logger.lost + 1, gapSlot := t } }
  else { d with logger := { d.logger with buffer := d.logger.buffer ++ [rec_] } }

/-- Give the logger a record of task t, if the slot is armed (R432). -/
def Device.logEvent (d : Device) (t kind : Nat) (core : Option Nat) (detail : Nat) (payload : List (BitVec 8)) : Device :=
  if (d.task t).armed then d.logRecord t kind core detail payload else d

end Sys2Proof.Machine
end

