-- ==== Sys2Proof/Machine/Entries.lean ====
section
/-! DEFINITION. Machine/Entries.lean: the entries of slot plans (R327, R328, R467, Tables 13-4 and 13-5). -/

namespace Sys2Proof.Machine

open Sys2Proof

/-! ### Plan entries (Tables 13-4 and 13-5) -/

/-- KIND of an entry. -/
def peKind (e : Nat) : Nat := bits e 62 2
/-- PORT of a transmit entry. -/
def pePort (e : Nat) : Nat := bits e 56 6
/-- SLOT of a transmit entry. -/
def peSlot (e : Nat) : Nat := bits e 48 8
/-- CORE of an entry. -/
def peCore (e : Nat) : Nat := bits e 40 8
/-- READY_SC of a transmit entry. -/
def peReady (e : Nat) : Nat := bits e 29 11
/-- ADDR of an entry, in bytes. -/
def peAddr (e : Nat) : Nat := bits e 0 29 * 32
/-- KEY of a receive entry. -/
def peKey (e : Nat) : Nat := bits e 56 6
/-- KEY_EN of a receive entry. -/
def peKeyEn (e : Nat) : Bool := bitAt e 55

/-- A transmit entry of a plan for schedule beat s (R328). -/
def PlanEntry.txAt (p : PlanEntry) (s k : Nat) : Nat := (nth p.tx (224 * (s % max 1 p.p) + k) 0).toNat

/-- A receive entry of a plan for schedule beat s. -/
def PlanEntry.rxAt (p : PlanEntry) (s k : Nat) : Nat := (nth p.rx (224 * (s % max 1 p.p) + k) 0).toNat

/-- The transmit entry of position k of port p in schedule beat s: that of the plan in force, or of the base plan (R467). -/
def Device.txEntry (d : Device) (p s k : Nat) : Nat :=
  if k < 9 || 32 ≤ p then 0
  else if d.fabric.planOn then (if (d.port p).inPlan then (d.port p).plan.txAt s k else 0)
  else 3 * 2 ^ 62 + nth d.fabric.base ((k - 9) % max 1 d.fabric.base.length) 63 * 2 ^ 56

/-- The receive entry of position k of port p in schedule beat s. -/
def Device.rxEntry (d : Device) (p s k : Nat) : Nat :=
  if k < 9 || 32 ≤ p then 0
  else if d.fabric.planOn then (if (d.port p).inPlan then (d.port p).plan.rxAt s k else 0)
  else 3 * 2 ^ 62

/-- The task slot whose recorded fragment holds a LOCAL or QUEUE entry of port p at position k of schedule beat s. -/
def Device.planOwner (d : Device) (tx : Bool) (p s k : Nat) : Option Nat :=
  d.fabric.planSlots.find? (fun t => (d.task t).plan.any (fun f =>
    f.1 == p && peKind ((nth (if tx then f.2.2.1 else f.2.2.2) (224 * (s % max 1 f.2.1) + k) 0).toNat) != 0))

end Sys2Proof.Machine
end

