-- ==== Sys2Proof/Machine/Exact.lean ====
section
/-! DEFINITION. Machine/Exact.lean: exact values and the one rounding step that every unit uses (R106 to R112), with
division, square roots, 2^x and log2 carried to as many bits as a single rounding needs. -/

namespace Sys2Proof.Machine

/-- An exact value: (-1)^neg × (mag + δ) × 2^exp, where δ is 0, or lies strictly between 0 and 1 when sticky is set. -/
structure Ex where
  /-- The sign. -/
  neg : Bool
  /-- The magnitude in units of 2^exp, rounded down. -/
  mag : Nat
  /-- The weight of one unit. -/
  exp : Int
  /-- Something below one unit was cut off. -/
  sticky : Bool
  deriving DecidableEq, Repr

/-- Zero. -/
def Ex.zero : Ex := ⟨false, 0, 0, false⟩

/-- An integer as an exact value. -/
def Ex.ofInt (x : Int) : Ex := ⟨decide (x < 0), x.natAbs, 0, false⟩

/-- Is the value 0? -/
def Ex.isZero (a : Ex) : Bool := a.mag == 0 && !a.sticky

/-- The value with its sign turned. -/
def Ex.negate (a : Ex) : Ex := { a with neg := !a.neg }

/-- The value times 2^k. -/
def Ex.scale (a : Ex) (k : Int) : Ex := { a with exp := a.exp + k }

/-- The signed integer that a value without sticky part is in units of 2^e, where e is at most its exponent. -/
def Ex.units (a : Ex) (e : Int) : Int :=
  let m : Int := (a.mag * 2 ^ (a.exp - e).toNat : Nat)
  if a.neg then -m else m

/-- The exact sum of two values without sticky part. -/
def Ex.add (a b : Ex) : Ex :=
  if a.mag = 0 then b
  else if b.mag = 0 then a
  else
    let e := min a.exp b.exp
    let s := a.units e + b.units e
    ⟨decide (s < 0), s.natAbs, e, false⟩

/-- The exact difference. -/
def Ex.sub (a b : Ex) : Ex := a.add b.negate

/-- The exact product. -/
def Ex.mul (a b : Ex) : Ex := ⟨a.neg != b.neg, a.mag * b.mag, a.exp + b.exp, false⟩

/-- The quotient of a by a non-zero b, to at least 64 bits. -/
def Ex.div (a b : Ex) : Ex :=
  let s := 64 + bitLen b.mag
  let n := a.mag * 2 ^ s
  ⟨a.neg != b.neg, n / b.mag, a.exp - b.exp - (s : Int), n % b.mag != 0⟩

/-- One bit of the integer square root: with n bits to go, the root so far and what it leaves of the radicand. -/
def isqrtAux (x : Nat) : Nat → Nat → Nat
  | 0, r => r
  | n + 1, r =>
    let t := r + 2 ^ n
    if t * t ≤ x then isqrtAux x n t else isqrtAux x n r

/-- The integer square root, rounded down. -/
def isqrt (x : Nat) : Nat := isqrtAux x (bitLen x / 2 + 1) 0

/-- The square root of a value that is not negative, to at least 64 bits. -/
def Ex.sqrt (a : Ex) : Ex :=
  let s : Nat := 130 + (if (a.exp - 130) % 2 = 0 then 0 else 1)
  let n := a.mag * 2 ^ s
  let r := isqrt n
  ⟨false, r, (a.exp - (s : Int)) / 2, r * r != n⟩

/-- 1 over the square root of a positive value, to at least 64 bits. -/
def Ex.rsqrt (a : Ex) : Ex :=
  let b := 130 + bitLen a.mag
  let s : Nat := b + (if (a.exp + (b : Int)) % 2 = 0 then 0 else 1)
  let r := isqrt (2 ^ s / a.mag)
  ⟨false, r, (-a.exp - (s : Int)) / 2, r * r * a.mag != 2 ^ s⟩

/-- Compare two values without sticky part: is a below b? -/
def Ex.lt (a b : Ex) : Bool :=
  let e := min a.exp b.exp
  decide (a.units e < b.units e)

/-- Are two values without sticky part equal? -/
def Ex.eqv (a b : Ex) : Bool :=
  let e := min a.exp b.exp
  decide (a.units e = b.units e)

/-! ### Rounding -/

/-- The rounding of one step: to nearest with ties to even, or stochastic with its 16-bit draw r (R106, R113). -/
inductive Rnd where
  /-- Round to nearest, ties to even (R108). -/
  | near
  /-- Seeded stochastic rounding with draw r (R112). -/
  | stoch (r : Nat)
  deriving DecidableEq, Repr

/-- Cut the low k bits off a magnitude by R108 or R112: the rounded magnitude, and whether it differs from the exact
one. -/
def roundOff (mag k : Nat) (sticky : Bool) (r : Rnd) : Nat × Bool :=
  let q := mag / 2 ^ k
  let rem := mag % 2 ^ k
  let inexact := rem != 0 || sticky
  let up :=
    match r with
    | .near => decide (2 ^ k < rem * 2) || (decide (rem * 2 = 2 ^ k) && k != 0 && (sticky || q % 2 == 1))
    | .stoch d => inexact && decide (65536 ≤ rem * 65536 / 2 ^ k + d)
  (if up then q + 1 else q, inexact)

/-- The nearest integer of a value by R121: the signed integer, and whether it differs from the exact value. -/
def Ex.toIntRnd (a : Ex) (r : Rnd) : Int × Bool :=
  let (m, ix) :=
    if 0 ≤ a.exp then (a.mag * 2 ^ a.exp.toNat, a.sticky) else roundOff a.mag (-a.exp).toNat a.sticky r
  (if a.neg then -(m : Int) else m, ix)

/-- Round a value to p significand bits with the exponent unbounded (step 2 of R107): the rounded value and whether
it differs. -/
def Ex.roundSig (a : Ex) (p : Nat) (r : Rnd) : Ex × Bool :=
  let l := bitLen a.mag
  if l ≤ p then ({ a with sticky := false }, a.sticky)
  else
    let (q, ix) := roundOff a.mag (l - p) a.sticky r
    (⟨a.neg, q, a.exp + ((l - p : Nat) : Int), false⟩, ix)

/-! ### 2^x and log2 -/

/-- Terms y^k / k! of e^y in units of 2^-n, from term t of index k, for a number of steps. -/
def expTerms (n y : Nat) : Nat → Nat → Nat → Nat
  | 0, _, _ => 0
  | f + 1, k, t => t + expTerms n y f (k + 1) (t * y / 2 ^ n / (k + 1))

/-- Terms of 2 × atanh(1/3) = ln 2 in units of 2^-n. -/
def ln2Terms : Nat → Nat → Nat → Nat
  | 0, _, _ => 0
  | f + 1, k, p => 2 * p / (2 * k + 1) + ln2Terms f (k + 1) (p / 9)

/-- ln 2 in units of 2^-n, low by at most n units. -/
def ln2Fix (n : Nat) : Nat := ln2Terms (n / 3 + 4) 0 (2 ^ n / 3)

/-- 2^(f / 2^b) for 0 < f < 2^b, at n bits, rounded down to 128 bits, if n bits decide it. -/
def exp2Frac (n f b : Nat) : Option Nat :=
  let y := ln2Fix n * f / 2 ^ b
  let t := expTerms n y (n / 2) 0 (2 ^ n)
  let g := n - 128
  let lo := t / 2 ^ g
  if lo = (t + 8 * n) / 2 ^ g then some lo else none

/-- 2^x of an exact value without sticky part. It is irrational unless x is an integer. -/
def Ex.exp2 (x : Ex) : Ex :=
  if x.mag = 0 then ⟨false, 1, 0, false⟩
  else if 0 ≤ x.exp then
    let m := if 12 ≤ x.exp then 4096 else min 4096 (x.mag * 2 ^ x.exp.toNat)
    ⟨false, 1, if x.neg then -(m : Int) else m, false⟩
  else
    let b := (-x.exp).toNat
    let i := x.mag / 2 ^ b
    if 4096 ≤ i then ⟨false, 1, if x.neg then -4096 else 4096, false⟩
    else if x.mag % 2 ^ b = 0 then ⟨false, 1, if x.neg then -(i : Int) else i, false⟩
    else if i = 0 && decide (bitLen x.mag + 120 ≤ b) then
      -- |x| below 2^-120: 1 + something, or 1 - something
      if x.neg then ⟨false, 2 ^ 128 - 1, -128, true⟩ else ⟨false, 2 ^ 127, -127, true⟩
    else
      let fl : Int := if x.neg then -(i : Int) - 1 else i
      let f := if x.neg then 2 ^ b - x.mag % 2 ^ b else x.mag % 2 ^ b
      let v := match exp2Frac 320 f b with
        | some v => v
        | none => (exp2Frac 1024 f b).getD 0
      ⟨false, v, fl - 128, true⟩

/-- The next k bits of log2 y, y in [1, 2) held between lo and hi in units of 2^-n; none where n bits do not decide
them. -/
def log2Bits (n : Nat) : Nat → Nat → Nat → Nat → Option Nat
  | 0, _, _, acc => some acc
  | k + 1, lo, hi, acc =>
    let l := lo * lo / 2 ^ n
    let h := hi * hi / 2 ^ n + 1
    if 2 ^ (n + 1) ≤ l then log2Bits n k (l / 2) (h / 2 + 1) (acc * 2 + 1)
    else if h < 2 ^ (n + 1) then log2Bits n k l h (acc * 2)
    else none

/-- log2 of a positive value without sticky part. It is irrational unless the value is a power of 2. -/
def Ex.log2 (x : Ex) : Ex :=
  let l := bitLen x.mag
  let e : Int := x.exp + (l : Int) - 1
  if x.mag = 2 ^ (l - 1) then Ex.ofInt e
  else
    let go := fun n => log2Bits n 160 (x.mag * 2 ^ n / 2 ^ (l - 1)) (x.mag * 2 ^ n / 2 ^ (l - 1) + 1) 0
    let f := match go 480 with
      | some f => f
      | none => (go 1200).getD 0
    -- log2 x lies strictly between t and t + 1 units of 2^-160
    let t : Int := e * (2 ^ 160 : Nat) + (f : Int)
    if 0 ≤ t then ⟨false, t.toNat, -160, true⟩ else ⟨true, (-t - 1).toNat, -160, true⟩

end Sys2Proof.Machine
end

