-- ==== Sys2Proof/Machine/Formats.lean ====
section
/-! DEFINITION. Machine/Formats.lean: the eight number formats (R92 to R99), rounding into them (R107 to R113), and
conversions between them (R120 to R123). -/

namespace Sys2Proof.Machine

/-- The eight formats, in the order of their codes (Table 4-1). -/
inductive Fmt where
  | pc4
  | ff8
  | sh8
  | oc8
  | ob16
  | bn16
  | tb32
  | hn32
  deriving DecidableEq, Repr

/-- The width of a code in bits (Table 4-1). -/
def Fmt.width : Fmt → Nat
  | .pc4 => 4
  | .ff8 => 8
  | .sh8 => 8
  | .oc8 => 8
  | .ob16 => 16
  | .bn16 => 16
  | .tb32 => 32
  | .hn32 => 32

/-- The width of the exponent field; 0 for the integer formats (Table 4-1). -/
def Fmt.eBits : Fmt → Nat
  | .pc4 => 2
  | .ff8 => 4
  | .sh8 => 5
  | .oc8 => 0
  | .ob16 => 6
  | .bn16 => 8
  | .tb32 => 9
  | .hn32 => 0

/-- The width of the mantissa field (Table 4-1). -/
def Fmt.mBits : Fmt → Nat
  | .pc4 => 1
  | .ff8 => 3
  | .sh8 => 2
  | .oc8 => 0
  | .ob16 => 9
  | .bn16 => 7
  | .tb32 => 22
  | .hn32 => 0

/-- The exponent bias (Table 4-1). -/
def Fmt.bias : Fmt → Nat
  | .pc4 => 1
  | .ff8 => 7
  | .sh8 => 15
  | .oc8 => 0
  | .ob16 => 31
  | .bn16 => 127
  | .tb32 => 255
  | .hn32 => 0

/-- Is the format a two's-complement integer? -/
def Fmt.isInt : Fmt → Bool
  | .oc8 => true
  | .hn32 => true
  | _ => false

/-- Does the format reserve void (R96)? -/
def Fmt.hasVoid : Fmt → Bool
  | .ob16 => true
  | .bn16 => true
  | .tb32 => true
  | _ => false

/-- The void code, written with s = 0 (R96). -/
def Fmt.voidCode (f : Fmt) : Nat := 2 ^ (f.width - 1) - 1

/-- The largest finite code with s = 0 (Table 4-2). -/
def Fmt.maxCode (f : Fmt) : Nat := if f.hasVoid then 2 ^ (f.width - 1) - 2 else 2 ^ (f.width - 1) - 1

/-- A value read from a code: none is void. -/
abbrev Num := Option Ex

/-- The value of a code (R93, R94, R96; integers in two's complement). -/
def Fmt.read (f : Fmt) (c : Nat) : Num :=
  if f.isInt then some (Ex.ofInt (toSigned c f.width))
  else
    let s := bitAt c (f.width - 1)
    let e := bits c f.mBits f.eBits
    let m := bits c 0 f.mBits
    if e = 0 then some Ex.zero
    else if f.hasVoid && e == 2 ^ f.eBits - 1 && m == 2 ^ f.mBits - 1 then none
    else some ⟨s, 2 ^ f.mBits + m, (e : Int) - f.bias - f.mBits, false⟩

/-! Flags, as bits of the numeric status word (Table 4-4). -/

/-- OVF. -/
def flagOvf : Nat := 1
/-- TINY. -/
def flagTiny : Nat := 2
/-- INV. -/
def flagInv : Nat := 4
/-- DIVZ. -/
def flagDivz : Nat := 8
/-- INEX. -/
def flagInex : Nat := 16

/-- The largest finite value with a sign (R109). -/
def Fmt.signedMax (f : Fmt) (neg : Bool) : Nat := f.maxCode + (if neg then 2 ^ (f.width - 1) else 0)

/-- Round an exact value into a floating format: steps 2 to 5 of R107, with the flags. -/
def Fmt.roundFloat (f : Fmt) (a : Ex) (r : Rnd) : Nat × Nat :=
  if a.isZero then (0, 0)
  else
    let p := f.mBits + 1
    let (b, ix) := a.roundSig p r
    let l := bitLen b.mag
    -- the value lies in [2^top, 2^(top + 1))
    let top : Int := b.exp + (l : Int) - 1
    let e : Int := top + f.bias
    let m := if l ≤ p then b.mag * 2 ^ (p - l) else b.mag / 2 ^ (l - p)
    if e < 1 then (0, flagTiny + flagInex)
    else
      let c := e.toNat * 2 ^ f.mBits + (m - 2 ^ f.mBits)
      if f.maxCode < c then (f.signedMax a.neg, flagOvf + flagInex)
      else (c + (if a.neg then 2 ^ (f.width - 1) else 0), if ix then flagInex else 0)

/-- Round an exact value into an integer format (R121, R122). -/
def Fmt.roundInt (f : Fmt) (a : Ex) (r : Rnd) : Nat × Nat :=
  let (v, ix) := a.toIntRnd r
  let lim : Int := (2 ^ (f.width - 1) : Nat)
  if v < -lim then (ofSigned (-lim) f.width, flagOvf + flagInex)
  else if lim ≤ v then (ofSigned (lim - 1) f.width, flagOvf + flagInex)
  else (ofSigned v f.width, if ix then flagInex else 0)

/-- Round a value into a format; a void result delivers void, or +0 with INV where the format has none (R101, R103,
R107). -/
def Fmt.round (f : Fmt) (a : Num) (r : Rnd) : Nat × Nat :=
  match a with
  | none => if f.hasVoid then (f.voidCode, 0) else (0, flagInv)
  | some x => if f.isInt then f.roundInt x r else f.roundFloat x r

/-- The conversion of a code (R120 to R123). -/
def convert (src dst : Fmt) (c : Nat) (r : Rnd) : Nat × Nat := dst.round (src.read c) r

/-- The 16-bit draw of R113. -/
def draw (seed core buffer pos : Nat) : Nat :=
  let m := 2 ^ 64
  let x := Nat.xor (Nat.xor (Nat.xor (seed % m) (core % 2 ^ 16 * 2 ^ 48)) (buffer % 2 ^ 16 * 2 ^ 32)) (pos % 2 ^ 32)
  let x := x * 0x9E3779B97F4A7C15 % m
  let x := Nat.xor x (x / 2 ^ 30) * 0xBF58476D1CE4E5B9 % m
  let x := Nat.xor x (x / 2 ^ 27) * 0x94D049BB133111EB % m
  let x := Nat.xor x (x / 2 ^ 31)
  x / 2 ^ 48

/-- Compare two values in an order that R105 uses: void counts as the greatest. -/
def numLt (a b : Num) : Bool :=
  match a, b with
  | some x, some y => x.lt y
  | some _, none => true
  | none, _ => false

end Sys2Proof.Machine
end

