-- ==== Sys2Proof/Machine/Flags.lean ====
section
/-! DEFINITION. Machine/Flags.lean: the numeric status words (R115 to R117, R168). -/

namespace Sys2Proof.Machine

/-! ### Numeric status (R115, R116) -/

/-- Raise flags in the numeric status word of task slot t on core c. -/
def Device.raise (d : Device) (c t flags : Nat) : Device :=
  if flags = 0 then d
  else d.onCore c (fun k => { k with
    flags := Sparse.upd 0 k.flags t (fun v => v ||| BitVec.ofNat 32 (flags % 32)) })

/-- Clear the flags of a mask, but for those that are raised in the same sc (R116, R168). -/
def Device.clearFlags (d : Device) (c t mask : Nat) : Device :=
  d.onCore c (fun k => { k with flags := Sparse.upd 0 k.flags t (fun v => v &&& ~~~ BitVec.ofNat 32 (mask % 32)) })

/-- The numeric status word of task slot t on core c (R168). -/
def Device.flagWord (d : Device) (c t : Nat) : BitVec 32 := Sparse.get 0 (d.core c).flags t

/-- Clear the whole word at TASK_START (R115). -/
def Device.resetFlags (d : Device) (c t : Nat) : Device :=
  d.onCore c (fun k => { k with flags := Sparse.set 0 k.flags t 0 })

end Sys2Proof.Machine
end

