-- ==== Sys2Proof/Machine/Stops.lean ====
section
/-! DEFINITION. Machine/Stops.lean: pieces of split operands (R124 to R126), the sweeps of each stop (Tables 5-1 and
5-2), the error-free transforms (R136) and the exact accumulator (R138 to R141). -/

namespace Sys2Proof.Machine

/-- The hi piece of a Tuba32 value: rounded to 12 significand bits, ties to even, exponent unbounded (R124). -/
def pieceHi (a : Ex) : Ex := if a.mag = 0 then Ex.zero else (a.roundSig 12 .near).1

/-- The lo piece: a less its hi piece, exactly (R124). -/
def pieceLo (a : Ex) : Ex := a.sub (pieceHi a)

/-- A piece of a Tuba32 operand: 1 hi, 0 lo; void splits into void pieces (R125). -/
def pieceTb (i : Nat) (a : Num) : Num := a.map (fun x => if i = 1 then pieceHi x else pieceLo x)

/-- A piece of a Horn32 operand (R126). -/
def pieceHn (i : Nat) (c : Nat) : Int :=
  if i = 0 then (bits c 0 11 : Nat) else if i = 1 then (bits c 11 11 : Nat) else toSigned (bits c 22 10) 10

/-- The sweeps of a Tuba32 stop: stationary piece and streamed piece, 1 for hi and 0 for lo (Table 5-1). -/
def sweepsTb (stop : Nat) : List (Nat × Nat) :=
  if stop = 1 then [(1, 1)] else if stop = 2 then [(0, 1), (1, 0), (1, 1)] else [(0, 0), (0, 1), (1, 0), (1, 1)]

/-- The sweeps of a Horn32 stop: stationary piece and streamed piece (Table 5-2). -/
def sweepsHn (stop : Nat) : List (Nat × Nat) :=
  if stop = 1 then [(2, 2)]
  else if stop = 2 then [(1, 2), (2, 1), (2, 2)]
  else [(0, 2), (1, 1), (2, 0), (1, 2), (2, 1), (2, 2)]

/-- The sweeps of a pass; one for a format that is not split (R128). -/
def sweepsOf (f : Fmt) (stop : Nat) : List (Nat × Nat) :=
  match f with
  | .tb32 => sweepsTb stop
  | .hn32 => sweepsHn stop
  | _ => [(1, 1)]

/-- Two-sum: s and t with their flags (R136, R137). -/
def twoSum (a b : Nat) : (Nat × Nat) × (Nat × Nat) :=
  match Fmt.tb32.read a, Fmt.tb32.read b with
  | some x, some y =>
    let s := Fmt.tb32.round (some (x.add y)) .near
    match Fmt.tb32.read s.1 with
    | some v => (s, Fmt.tb32.round (some ((x.add y).sub v)) .near)
    | none => (s, (Fmt.tb32.voidCode, 0))
  | _, _ => ((Fmt.tb32.voidCode, 0), (Fmt.tb32.voidCode, 0))

/-- Two-product: p and e with their flags (R136, R137). -/
def twoProd (a b : Nat) : (Nat × Nat) × (Nat × Nat) :=
  match Fmt.tb32.read a, Fmt.tb32.read b with
  | some x, some y =>
    let p := Fmt.tb32.round (some (x.mul y)) .near
    match Fmt.tb32.read p.1 with
    | some v => (p, Fmt.tb32.round (some ((x.mul y).sub v)) .near)
    | none => (p, (Fmt.tb32.voidCode, 0))
  | _, _ => ((Fmt.tb32.voidCode, 0), (Fmt.tb32.voidCode, 0))

/-! ### The exact accumulator -/

/-- What an add brings to an accumulator: a value in units of 2^-276, VOID, RANGE_LOST and the poison mark. -/
abbrev XAdd := Int × Bool × Bool × Bool

/-- Add to an accumulator (R139, R141). -/
def XAcc.addX (x : XAcc) (a : XAdd) : XAcc :=
  let e := x.v.toInt + a.1
  let lim : Int := (2 ^ 575 : Nat)
  { v := BitVec.ofInt 576 e, void := x.void || a.2.1,
    lost := x.lost || a.2.2.1 || decide (e < -lim) || decide (lim ≤ e), poison := x.poison || a.2.2.2 }

/-- The add of one value, times 2^w (R139). -/
def xaddOf (n : Num) (w : Nat) (mark : Bool) : XAdd :=
  match n with
  | none => (0, true, false, mark)
  | some x => ((x.scale w).units (-276), false, false, mark)

/-- The add of many values, such as the lanes of one `v.xadd`. DESIGN CHOICE (log 89): RANGE_LOST is judged on their exact sum, as one
add; R139 does not say whether each lane is judged. -/
def xaddSum (l : List XAdd) : XAdd :=
  l.foldl (fun a b => (a.1 + b.1, a.2.1 || b.2.1, a.2.2.1 || b.2.2.1, a.2.2.2 || b.2.2.2)) (0, false, false, false)

/-- The value that an accumulator reads out: void, void with INV, or V (R140). -/
def XAcc.value (x : XAcc) : Num × Nat :=
  if x.void then (none, 0)
  else if x.lost then (none, flagInv)
  else (some ⟨decide (x.v.toInt < 0), x.v.toInt.natAbs, -276, false⟩, 0)

/-- Read out into a format (R140). -/
def XAcc.readOut (x : XAcc) (f : Fmt) (r : Rnd) : Nat × Nat :=
  let (n, fl) := x.value
  let (c, fl2) := f.round n r
  (c, Nat.lor fl fl2)

/-- The 80 B image (Table 5-6). -/
def XAcc.image (x : XAcc) : List (BitVec 8) :=
  leBytes 80 (x.v.toNat + b2n x.void * 2 ^ 576 + b2n x.lost * 2 ^ 577 + 2 ^ 584)

/-- The add that an image brings (R141). -/
def imageAdd (bs : List (BitVec 8)) (mark : Bool) : XAdd :=
  let n := leNat bs
  if bits n 584 8 = 1 then (toSigned (bits n 0 576) 576, bitAt n 576, bitAt n 577, mark)
  else (0, true, false, mark)

/-- An accumulator from its image, for CTX_RESTORE. -/
def XAcc.ofImage (bs : List (BitVec 8)) : XAcc :=
  let n := leNat bs
  { v := BitVec.ofNat 576 n, void := bitAt n 576, lost := bitAt n 577, poison := false }

end Sys2Proof.Machine
end

