-- ==== Sys2Proof/Machine/Operands.lean ====
section
/-! DEFINITION. Machine/Operands.lean: the slots of a bundle and their fields (Tables 6-1, 9-2, 9-3, 11-1, 12-3, 12-4,
16-4, 16-5, 17-3), the operation table of the vector slots (Tables 9-6 and 17-2) with the encoding checks, and the banks
that a scratchpad access takes (R240 to R246). -/

namespace Sys2Proof.Machine

open Sys2Proof

/-! ### The bundle -/

/-- Slot k of a bundle, 1 CT to 6 QK (Table 6-1). -/
def slotOf (w : BitVec 384) (k : Nat) : Nat := bits w.toNat (64 * (k - 1)) 64

/-- The opcode of a slot (R147). -/
def opc (s : Nat) : Nat := bits s 56 8

/-- The format of a TY code (Table 9-2). -/
def fmtOfTy (t : Nat) : Fmt :=
  match t with
  | 0 => .tb32
  | 1 => .hn32
  | 2 => .ob16
  | 3 => .bn16
  | 4 => .ff8
  | 5 => .sh8
  | 6 => .oc8
  | _ => .pc4

/-- What is wrong with a slot: code, cause, window and reference (R165, Table 23-5). -/
structure Bad where
  /-- Fault code. -/
  code : Nat
  /-- CAUSE. -/
  cause : Nat
  /-- Window. -/
  window : Nat
  /-- The reference as the task named it. -/
  ref : Nat
  deriving DecidableEq, Repr

/-- A field, encoding or state rule of a slot is broken, and no reference is concerned: BOUND_VIOLATION with cause 1,
window 0 (log 16). -/
def badField : Bad := ⟨0x0102, 1, 0, 0⟩

/-- A field rule of a descriptor or send block is broken: BOUND_VIOLATION with cause 1, window 8 (log 16). -/
def badDesc (v : Nat) : Bad := ⟨0x0102, 1, 8, v⟩

/-- A reference outside its window: BOUND_VIOLATION with cause 0. -/
def badRef (window ref : Nat) : Bad := ⟨0x0102, 0, window, ref⟩

/-! ### Vector slots -/

/-- The destination of a vector operation: D, vD, pDP or none (Table 17-2). -/
inductive DestKind where
  | d
  | vd
  | pdp
  | none
  deriving DecidableEq, Repr

/-- One row of the vector operation table: what it uses and its latency. -/
structure VOp where
  /-- TY codes that it allows. -/
  tys : List Nat
  /-- Destination. -/
  dest : DestKind
  /-- Registers that it writes or updates from vD. -/
  nregs : Nat
  /-- Uses operand A: 0 no, 1 any kind, 2 only kind SPAD. -/
  useA : Nat
  /-- Uses operand B. -/
  useB : Bool
  /-- Uses field C. -/
  useC : Bool
  /-- Uses RND. -/
  useRnd : Bool
  /-- Uses SAT. -/
  useSat : Bool
  /-- Mask of the IMM bits that it uses. -/
  imm : Nat
  /-- Writes a single lane. -/
  single : Bool
  /-- Latency for TY 0, and for TY 1. -/
  lat : Nat × Nat
  /-- Contract level. -/
  level : Nat
  deriving DecidableEq, Repr

/-- The rows of Table 9-6 with the fields of Table 17-2. -/
def vopOf (op : Nat) : Option VOp :=
  let arith : VOp := ⟨[0, 1], .d, 1, 1, true, false, true, true, 0, false, (4, 1), 1⟩
  let un0 : VOp := ⟨[0], .d, 1, 1, false, false, false, false, 0, false, (10, 10), 1⟩
  let logic : VOp := ⟨[1], .d, 1, 1, true, false, false, false, 0, false, (1, 1), 1⟩
  let all := [0, 1, 2, 3, 4, 5, 6, 7]
  match op with
  | 0x00 => some ⟨[0], .none, 0, 0, false, false, false, false, 0, false, (1, 1), 1⟩
  | 0x01 => some arith
  | 0x02 => some arith
  | 0x03 => some { arith with lat := (4, 3) }
  | 0x04 => some { arith with tys := [0], useC := true, useSat := false, lat := (4, 4) }
  | 0x05 => some { arith with lat := (14, 14) }
  | 0x06 => some { un0 with useRnd := true, lat := (14, 14) }
  | 0x07 => some { arith with useRnd := false, useSat := false, lat := (2, 2) }
  | 0x08 => some { arith with useRnd := false, useSat := false, lat := (2, 2) }
  | 0x09 => some { arith with useRnd := false, useSat := false, imm := 7, lat := (2, 2) }
  | 0x0A => some { arith with useRnd := false, useSat := false, useC := true, lat := (1, 1) }
  | 0x0B => some { arith with useB := false, useRnd := false, lat := (1, 1) }
  | 0x0C => some ⟨[0], .vd, 2, 1, true, false, false, false, 0, false, (4, 4), 1⟩
  | 0x0D => some ⟨[0], .vd, 2, 1, true, false, false, false, 0, false, (4, 4), 1⟩
  | 0x10 => some un0
  | 0x11 => some un0
  | 0x12 => some un0
  | 0x13 => some un0
  | 0x18 => some logic
  | 0x19 => some logic
  | 0x1A => some logic
  | 0x1B => some logic
  | 0x1C => some logic
  | 0x1D => some logic
  | 0x20 => some { arith with useB := false, useRnd := false, useSat := false, lat := (1, 1) }
  | 0x21 => some { arith with useRnd := false, useSat := false, lat := (3, 3) }
  | 0x22 => some { arith with useRnd := false, useSat := false, imm := 0x77F, lat := (2, 2) }
  | 0x23 => some { arith with useB := false, useSat := false, imm := 1, lat := (2, 2) }
  | 0x24 => some ⟨all, .vd, 1, 2, false, false, false, false, 0, false, (3, 3), 1⟩
  | 0x25 => some ⟨all, .pdp, 0, 1, false, false, true, false, 1, false, (3, 3), 1⟩
  | 0x26 => some ⟨[0, 1], .vd, 3, 1, true, true, false, false, 0, false, (3, 3), 2⟩
  | 0x27 => some ⟨[0, 1], .vd, 1, 1, true, true, false, false, 0, false, (3, 3), 2⟩
  | 0x28 => some ⟨[1], .vd, 1, 1, true, true, true, false, 0, false, (5, 5), 2⟩
  | 0x30 => some ⟨[0, 1], .vd, 1, 1, false, false, true, true, 0, true, (9, 9), 1⟩
  | 0x31 => some ⟨[0, 1], .vd, 1, 1, false, false, false, false, 0, true, (3, 3), 1⟩
  | 0x32 => some ⟨[0, 1], .vd, 1, 1, false, false, false, false, 0, true, (3, 3), 1⟩
  | 0x38 => some ⟨[0, 1], .none, 0, 1, false, false, false, false, 0x1FF, false, (12, 12), 2⟩
  | 0x39 => some ⟨[0, 1], .vd, 1, 0, false, false, true, false, 7, true, (6, 6), 2⟩
  | 0x3A => some ⟨[0], .none, 0, 0, false, false, false, false, 7, false, (1, 1), 2⟩
  | 0x3B => some ⟨[0], .pdp, 0, 0, false, false, false, false, 7, false, (6, 6), 2⟩
  | 0x3C => some ⟨[0], .none, 0, 2, false, false, false, false, 7, false, (12, 12), 2⟩
  | 0x40 => some ⟨[0], .vd, 4, 0, false, false, false, false, 0, false, (1, 1), 1⟩
  | 0x41 => some ⟨[0], .vd, 4, 1, true, false, false, false, 1, false, (1, 1), 1⟩
  | 0x42 => some ⟨[0], .vd, 4, 0, false, true, false, false, 0, false, (3, 3), 1⟩
  | 0x43 => some ⟨[0], .vd, 4, 1, true, true, false, false, 1, false, (11, 11), 1⟩
  | 0x44 => some ⟨[0], .vd, 4, 0, false, true, true, false, 0, false, (14, 14), 1⟩
  | 0x48 => some ⟨[0], .none, 0, 0, false, false, false, false, 0, false, (1, 1), 1⟩
  | 0x49 => some ⟨[0], .none, 0, 0, false, false, false, false, 0, false, (1, 1), 1⟩
  | 0x4A => some ⟨[0], .none, 0, 0, false, false, false, false, 0, false, (1, 1), 1⟩
  | _ => none

/-- The fields of a vector slot (Table 9-2). -/
structure VF where
  /-- Opcode. -/
  op : Nat
  /-- D. -/
  d : Nat
  /-- DK. -/
  dk : Nat
  /-- DP. -/
  dp : Nat
  /-- AK. -/
  ak : Nat
  /-- A. -/
  a : Nat
  /-- BK. -/
  bk : Nat
  /-- B. -/
  b : Nat
  /-- C. -/
  c : Nat
  /-- TY. -/
  ty : Nat
  /-- RND. -/
  rnd : Bool
  /-- SAT. -/
  sat : Bool
  /-- REL. -/
  rel : Bool
  /-- IDX. -/
  idx : Nat
  /-- IMM. -/
  imm : Nat
  deriving DecidableEq, Repr

/-- The fields of a vector slot. -/
def vf (s : Nat) : VF :=
  { op := opc s, d := bits s 51 5, dk := bits s 48 3, dp := bits s 45 3, ak := bits s 42 3, a := bits s 37 5,
    bk := bits s 34 3, b := bits s 29 5, c := bits s 24 5, ty := bits s 21 3, rnd := bitAt s 20, sat := bitAt s 19,
    rel := bitAt s 18, idx := bits s 11 7, imm := bits s 0 11 }

/-- Is the slot a pointer set (Table 9-3)? -/
def VF.isPset (f : VF) : Bool := f.op == 0x48 || f.op == 0x49

/-- Does the slot name operand A? -/
def VF.hasA (f : VF) (o : VOp) : Bool := o.useA != 0 && !f.isPset

/-- The source format in which the operation reads its 4 B operands (R212). -/
def VF.srcFmt (f : VF) : Fmt :=
  if f.op = 0x23 || f.op = 0x25 then (if f.imm % 2 = 1 then .hn32 else .tb32)
  else if f.ty = 1 then .hn32 else .tb32

/-- The encoding checks of a vector slot that its own bits decide (R147, R206, R217, R222, R394 to R396). -/
def vEncBad (s : Nat) (level : Nat) (vb : Bool) : Bool :=
  let f := vf s
  match vopOf f.op with
  | none => true
  | some o =>
    if level = 1 && (o.level == 2 || (vb && s != 0)) then true
    else if level = 1 && !f.isPset && (f.ty == 2 || f.ty == 7) then true
    else if f.isPset then
      bits s 48 5 != 0 || (f.op == 0x48 && (bits s 32 16 % 64 != 0 || bits s 0 32 % 64 != 0))
    else
      let kindBad := fun (k v : Nat) => decide (4 ≤ k) || (k == 1 && 8 ≤ v)
      !o.tys.contains f.ty
      || (match o.dest with
          | .d => decide (2 ≤ f.dk)
          | .vd => f.dk != 0 || f.dp != 0
          | .pdp => f.dk != 1 || f.d != 0
          | .none => f.d != 0 || f.dk != 0 || f.dp != 0)
      || (if o.useA = 0 then f.ak != 0 || f.a != 0 else kindBad f.ak f.a || (o.useA == 2 && f.ak != 1))
      || (if o.useB then kindBad f.bk f.b else f.bk != 0 || f.b != 0)
      || (!o.useC && f.c != 0)
      || (!o.useRnd && f.rnd) || (!o.useSat && f.sat)
      || Nat.land f.imm (2047 - o.imm) != 0
      || (f.op == 0x4A && f.rel)
      || (f.idx != 0 && !o.single
          && !(o.useA != 0 && (f.ak == 2 || f.ak == 3)) && !(o.useB && (f.bk == 2 || f.bk == 3)))
      || (o.dest == .vd && 32 < f.d + o.nregs)
      || (f.op == 0x09 && 6 ≤ f.imm % 8)
      || (f.op == 0x22 && (5 ≤ bits f.imm 8 3 || (bits f.imm 8 3 == 0 && 6 < bits f.imm 0 7)))
      || (f.op == 0x38 && (44 < bits f.imm 3 6 || (f.ty == 0 && bits f.imm 3 6 != 0)))

/-- The bytes that operand A covers at a pointer: 128 elements of its type, or an 80 B image. -/
def VF.aBytes (f : VF) : Nat := if f.op = 0x3C then 80 else if f.op = 0x24 then 16 * (fmtOfTy f.ty).width else 512

/-- The bytes that a scratchpad destination covers. -/
def VF.dBytes (f : VF) : Nat := if f.op = 0x3B then 80 else if f.op = 0x25 then 16 * (fmtOfTy f.ty).width else 512

/-- The pointers that a vector slot names. -/
def VF.pointers (f : VF) : List Nat :=
  match vopOf f.op with
  | none => []
  | some o =>
    if f.isPset then []
    else (if o.useA != 0 && f.ak == 1 then [f.a] else []) ++ (if o.useB && f.bk == 1 then [f.b] else [])
      ++ (if (o.dest == .d || o.dest == .pdp) && f.dk == 1 then [f.dp] else [])

/-- ADDR of a pointer register (Table 9-1). -/
def ptrAddr (p : BitVec 96) : Nat := bits p.toNat 0 32
/-- STEP, signed. -/
def ptrStepOf (p : BitVec 96) : Int := toSigned (bits p.toNat 32 16) 16
/-- BUF. -/
def ptrBuf (p : BitVec 96) : Nat := bits p.toNat 48 16
/-- POS. -/
def ptrPos (p : BitVec 96) : Nat := bits p.toNat 64 32

/-- A pointer register from its fields. -/
def mkPtr (addr step buf pos : Nat) : BitVec 96 :=
  BitVec.ofNat 96 (addr % 2 ^ 32 + step % 2 ^ 16 * 2 ^ 32 + buf % 2 ^ 16 * 2 ^ 48 + pos % 2 ^ 32 * 2 ^ 64)

/-- The scratchpad ranges, task-relative, that a vector slot reads at issue. -/
def VF.reads (f : VF) (ptr : Nat → BitVec 96) : List (Nat × Nat) :=
  match vopOf f.op with
  | none => []
  | some o =>
    if f.isPset then []
    else (if o.useA != 0 && f.ak == 1 then [(ptrAddr (ptr f.a), f.aBytes)] else [])
      ++ (if o.useB && f.bk == 1 then [(ptrAddr (ptr f.b), 512)] else [])

/-- The scratchpad ranges, task-relative, that a vector slot writes. -/
def VF.writes (f : VF) (ptr : Nat → BitVec 96) : List (Nat × Nat) :=
  match vopOf f.op with
  | none => []
  | some o =>
    if f.isPset then []
    else if (o.dest == .d || o.dest == .pdp) && f.dk == 1 then [(ptrAddr (ptr f.dp), f.dBytes)] else []

/-- Does a vector slot read the bell queue head? -/
def VF.bell (f : VF) : Bool :=
  match vopOf f.op with
  | none => false
  | some o => !f.isPset && ((o.useA != 0 && f.ak == 2) || (o.useB && f.bk == 2))

/-- Does a vector slot release the head (R213)? -/
def VF.releases (f : VF) : Bool := f.op == 0x4A || (f.rel && !f.isPset)

/-! ### Banks -/

/-- The rotation of a page: ROT of its page map entry (Table 10-1). -/
def Core.pageRot (k : Core) (g : Nat) : Nat := bits (Sparse.get 0 k.pageMap g).toNat 0 6

/-- The bank of the bank word at physical address pa (R240). -/
def Core.bankOf (k : Core) (pa : Nat) : Nat := (pa / 64 % 64 + k.pageRot (pa / 4096)) % 64

/-- The bank words of an access: address of each, ascending. -/
def bankWords (pa n : Nat) : List Nat := (unitsOf 64 pa n).map (· * 64)

/-- Is a bank in the copy group of the sc numbered n (R242)? -/
def inGroup (n b : Nat) : Bool := b / 4 == n % 16

/-- The first bank word of an access that meets a bank again, with its bank: the lowest bank met twice (R246). -/
def Core.selfMeet (k : Core) (pa n : Nat) : Option (Nat × Nat) :=
  let ws := bankWords pa n
  let bs := ws.map k.bankOf
  let twice := (List.range 64).find? (fun b => 2 ≤ (bs.filter (· == b)).length)
  twice.map (fun b => (b, (ws.find? (fun w => k.bankOf w == b)).getD pa))

/-- The detail of BANK_CONFLICT (Table 10-2) as its two halves. -/
def conflictDetail (supp perf row bank perfU suppU : Nat) (perfW suppW : Bool) (sc bundle : Nat) : Nat × Nat :=
  let lo := bundle % 2 ^ 14 * 2 ^ 10 + sc % 2 ^ 11 * 2 ^ 24 + b2n suppW * 2 ^ 35 + b2n perfW * 2 ^ 36
    + suppU % 8 * 2 ^ 37 + perfU % 8 * 2 ^ 40 + bank % 64 * 2 ^ 43 + row % 2 ^ 15 * 2 ^ 49
  (supp % 2 ^ 32 * 2 ^ 32 + perf % 2 ^ 32, lo)

/-- Claim the banks of one access of a bundle unit in the present sc (R245 to R247): the issue record after it, and
whether the access goes ahead. The unit code is that of Table 10-2; the address is task-relative. -/
def Core.claim (k : Core) (i : Issue) (unit addr n : Nat) (write : Bool) : Issue × Bool :=
  let pa := spadPa (k.bound i.slot) addr
  let fail := fun (perf row bank perfU : Nat) (perfW : Bool) =>
    ({ i with conflict := match i.conflict with
        | some x => some x
        | none => some (conflictDetail addr perf row bank perfU unit perfW write k.lastSc i.index) }, false)
  match k.selfMeet pa n with
  | some (b, w) => fail addr (w / 4096) b unit write
  | none =>
    let ws := bankWords pa n
    let meets := fun w => inGroup k.lastSc (k.bankOf w) || i.taken.any (fun t => t.1 == k.bankOf w)
    let hits := ((List.range 64).filter (fun b => ws.any (fun w => k.bankOf w == b && meets w)))
    match hits with
    | [] => ({ i with taken := i.taken ++ ws.map (fun w => (k.bankOf w, unit, addr, write)) }, true)
    | b :: _ =>
      let w := (ws.find? (fun w => k.bankOf w == b)).getD pa
      if inGroup k.lastSc b then fail 0 (w / 4096) b 0 false
      else
        match i.taken.find? (fun t => t.1 == b) with
        | some t => fail t.2.2.1 (w / 4096) b t.2.1 t.2.2.2
        | none => fail 0 (w / 4096) b 0 false

end Sys2Proof.Machine
end

