-- ==== Sys2Proof/Machine/Keys.lean ====
section
/-! DEFINITION. Machine/Keys.lean: keys (R291 to R298) and the wake that an arrival forces on a lowered unit (R559). -/

namespace Sys2Proof.Machine

/-- Wake time of a core state in wall beats (Table 24-1). -/
def wakeBeats (state : Nat) : Nat := if state = 1 then 1 else if state = 2 then 64 else 1954

/-- Start the wake of quarter q from Retain (R559, R562). -/
def Device.wakeQuarter (d : Device) (q : Nat) : Device :=
  if Sparse.get 0 d.power.quarters q = 3 then
    { d with power := { d.power with
      quarters := Sparse.set 0 d.power.quarters q 7, qWake := Sparse.set 0 d.power.qWake q 1954 } }
  else d

/-- Start the wake of a core: that of its quarter from Retain (R562). -/
def Device.startWake (d : Device) (c : Nat) : Device :=
  let p := (d.core c).power
  if p.state = 0 then d
  else if p.state = 3 then d.wakeQuarter (d.quarterOf c)
  else d.onCore c (fun k => { k with power := { k.power with waking := match k.power.waking with
    | some n => some n
    | none => some (wakeBeats k.power.state) } })

/-- Start the wake of a core below Active for an arrival, with its record at most once per 1,024 wall beats (R559).
The spec gives that record no code: it is a free value (log 2). -/
def Device.forceWake (d : Device) (c source : Nat) : Device :=
  let p := (d.core c).power
  if p.state = 0 then d
  else
    let d := d.startWake c
    let due := match p.forcedW with
      | some w => decide (w + 1024 ≤ d.beat.w)
      | none => true
    if due then
      let (code, d) := d.drawFree
      let d := d.onCore c (fun k => { k with power := { k.power with forcedW := some d.beat.w } })
      d.event (code % 2 ^ 16) 0 1 c d.beat.w source
    else d

/-- The count of physical key k of core c. -/
def Device.keyCount (d : Device) (c k : Nat) : Nat := Sparse.get 0 (d.core c).keys k

/-- Put the count of a key. -/
def Device.setKey (d : Device) (c k n : Nat) : Device :=
  d.onCore c (fun x => { x with keys := Sparse.set 0 x.keys k n })

/-- The bound task slot whose key window holds physical key k of core c: one whose task has ended holds none (R298). State 4
is ENDED. -/
def Device.keyHolder (d : Device) (c k : Nat) : Option Nat :=
  (d.slotsOn c).find? (fun t =>
    let b := (d.core c).bound t
    (d.task t).state != 4 && kBase b ≤ k && k < kBase b + kCount b)

/-- The key map entry of task-relative key r of slot t on core c. -/
def Device.keyEntry (d : Device) (c t r : Nat) : Nat := (Sparse.get 0 (d.core c).keyMap (64 * t + r)).toNat

/-- CAPACITY of a key map entry (Table 12-1). -/
def keyCap (e : Nat) : Nat := bits e 48 16
/-- START. -/
def keyStart (e : Nat) : Nat := bits e 32 16
/-- END. -/
def keyEnd (e : Nat) : Nat := bits e 16 16
/-- END_CHECK. -/
def keyCheck (e : Nat) : Bool := bitAt e 15

/-- The detail of a key fault (Table 12-8) as its two halves. -/
def keyDetail (phys rel count amount limit cause sc : Nat) : Nat × Nat :=
  (cause % 16 + limit % 2 ^ 16 * 2 ^ 4 + min amount 0xFFFF * 2 ^ 20 + count % 2 ^ 16 * 2 ^ 36 + rel % 64 * 2 ^ 52
    + phys % 64 * 2 ^ 58, sc % 2 ^ 11 * 2 ^ 53)

/-- An increment by n of physical key k of core c that no bound task holds: it is discarded and counted, and recorded against
the most recent task that held the key (R298), with its task-relative key and END. -/
def Device.lateKey (d : Device) (c k n : Nat) : Device :=
  let d := d.countCore c 28 1
  let (past, r, last) := Sparse.get (0, 0, 0) (d.core c).keyOwner k
  if past = 0 then d
  else
    let t := past - 1
    let (hi, lo) := keyDetail k r (d.keyCount c k) n last 4 (d.core c).lastSc
    d.log { HealthRec.reset with
      s := d.beat.s, code := 0x0106, cls := 0, cause := 4, unitKind := 1, unit := c, tslot := t, task := true,
      dHi := hi, dLo := lo }

/-- What one local cycle of core c does to physical key k: less what a wait or take subtracts, plus every increment that lands.
A count above CAPACITY leaves the key as it was and faults its task (R294, R295). -/
def Device.turnKey (d : Device) (c k sub : Nat) (incs : List (Nat × Bool)) : Device :=
  let sum := incs.foldl (fun n x => n + x.1) 0
  match d.keyHolder c k with
  | none => if sub = 0 then incs.foldl (fun d x => d.lateKey c k x.1) d else d.setKey c k (d.keyCount c k - sub)
  | some t =>
    let r := k - kBase ((d.core c).bound t)
    let cap := keyCap (d.keyEntry c t r)
    let cnt := d.keyCount c k
    if cap + sub < cnt + sum then
      let cause := if incs.any (·.2) then 0 else 2
      let (hi, lo) := keyDetail k r cnt (sum - sub) cap cause (d.core c).lastSc
      d.coreFault c t 0x0104 cause hi lo
    else d.setKey c k (cnt - sub + sum)

/-- The end of a local cycle of core c for its keys, with what its sc has gathered (R294). -/
def Device.turnKeys (d : Device) (c : Nat) (i : Issue) : Device :=
  let ks := (i.keySub.map (·.1) ++ i.keyInc.map (·.1)).eraseDups
  ks.foldl (fun d k => d.turnKey c k ((i.keySub.filter (·.1 == k)).foldl (fun n x => n + x.2) 0)
    ((i.keyInc.filter (·.1 == k)).map (·.2))) d

/-- An increment by n of physical key k of core c, by `key.add` or by a completion or arrival. It lands at the end of the sc that
the core has open, with all others of that sc; while none is open it makes a local cycle of its own (R294, R295, R298). -/
def Device.addKey (d : Device) (c k n : Nat) (isAdd : Bool) : Device :=
  if n = 0 then d
  else
    match (d.core c).issue with
    | some i => d.onCore c (fun x => { x with issue := some { i with keyInc := i.keyInc ++ [(k, n, isAdd)] } })
    | none => d.turnKey c k 0 [(n, isAdd)]

/-- Subtract n from a key at the end of the present sc; the caller has checked that it holds n (R293). -/
def Device.subKey (d : Device) (c k n : Nat) : Device :=
  d.onCore c (fun x => { x with issue := x.issue.map (fun i => { i with keySub := i.keySub ++ [(k, n)] }) })

/-- The first key of slot t on core c whose END_CHECK fails (R297): its task-relative number. -/
def Device.endMismatch (d : Device) (c t : Nat) : Option Nat :=
  let b := (d.core c).bound t
  (List.range (kCount b)).find? (fun r =>
    let e := d.keyEntry c t r
    keyCheck e && d.keyCount c (kBase b + r) != keyEnd e)

/-- The keys of a task take their START values at TASK_START (R292). -/
def Device.startKeys (d : Device) (c t : Nat) : Device :=
  let b := (d.core c).bound t
  (List.range (kCount b)).foldl (fun d r => d.setKey c (kBase b + r) (keyStart (d.keyEntry c t r))) d

end Sys2Proof.Machine
end

