-- ==== Sys2Proof/Machine/Vector.lean ====
section
/-! DEFINITION. Machine/Vector.lean: what each vector operation computes from its operands (R214 to R233): pure
functions of lanes, each lane a code with its poison mark. The reading of operands and the landing of results are in
Machine/Bundle.lean. -/

namespace Sys2Proof.Machine

open Sys2Proof

/-- 128 lane values with their poison marks. -/
abbrev Vec := List (BitVec 32 × Bool)

/-- Lane i of an operand. -/
def lane (v : Vec) (i : Nat) : Nat := (nth v i (0, false)).1.toNat

/-- The mark of lane i. -/
def mark (v : Vec) (i : Nat) : Bool := (nth v i (0, false)).2

/-- Build 128 lanes. -/
def lanes (f : Nat → Nat × Bool) : Vec := (List.range 128).map (fun i => (BitVec.ofNat 32 (f i).1, (f i).2))

/-- What an operation needs besides its operands: the rounding of each lane, SAT, IDX, IMM, Canonical mode. -/
structure VEnv where
  /-- The slot's fields. -/
  f : VF
  /-- The task runs in Canonical mode. -/
  canonical : Bool
  /-- Task seed. -/
  seed : Nat
  /-- Core field of the draw (R113, R143). -/
  coreField : Nat
  /-- BUF of the destination pointer, or 0xFFFF (R214). -/
  buffer : Nat
  /-- POS of the destination pointer, or 128 × IDX (R214). -/
  pos : Nat

/-- The rounding of lane i in the mode of RND (R106, R113, R214). -/
def VEnv.rnd (e : VEnv) (i : Nat) : Rnd :=
  if e.f.rnd then .stoch (draw e.seed e.coreField e.buffer (e.pos + i)) else .near

/-- The 4 B format of the operation's TY. -/
def VEnv.fmt (e : VEnv) : Fmt := if e.f.ty = 1 then .hn32 else .tb32

/-- What an operation delivers: writes of registers from vD and vC (register, lane, code, mark), bytes for a scratchpad
destination as 128 codes with marks, flags, and an add to an accumulator. -/
structure VOut where
  /-- Register writes: register offset from vD, or 100 for vC; lane; value; mark. -/
  regs : List (Nat × Nat × Nat × Bool)
  /-- Flags. -/
  flags : Nat

/-- All lanes of one result register. -/
def outVec (off : Nat) (v : Vec) : List (Nat × Nat × Nat × Bool) :=
  (List.range 128).map (fun i => (off, i, lane v i, mark v i))

/-- OR of the flags of many results. -/
def orFlags (l : List Nat) : Nat := l.foldl Nat.lor 0

/-- A lanewise operation: codes and flags by lane, marked where an operand lane is. -/
def lanewise (ops : List Vec) (g : Nat → Nat × Nat) : Vec × Nat :=
  let r := (List.range 128).map (fun i => (g i, ops.any (fun v => mark v i)))
  (r.map (fun x => (BitVec.ofNat 32 x.1.1, x.2)), orFlags (r.map (fun x => x.1.2)))

/-- An integer result of width 32: wrapped or saturated with OVF (Table 4-5). -/
def hnResult (sat : Bool) (x : Int) : Nat × Nat :=
  let lim : Int := (2 ^ 31 : Nat)
  if x < -lim then (if sat then ofSigned (-lim) 32 else ofSigned x 32, flagOvf)
  else if lim ≤ x then (if sat then ofSigned (lim - 1) 32 else ofSigned x 32, flagOvf)
  else (ofSigned x 32, 0)

/-- A TB32 operation on values that are not void; void gives void (R101). -/
def tb2 (a b : Nat) (r : Rnd) (g : Ex → Ex → Ex) : Nat × Nat :=
  match Fmt.tb32.read a, Fmt.tb32.read b with
  | some x, some y => Fmt.tb32.round (some (g x y)) r
  | _, _ => (Fmt.tb32.voidCode, 0)

/-- `v.add`, `v.sub` (R215). -/
def opAdd (e : VEnv) (neg : Bool) (i a b : Nat) : Nat × Nat :=
  if e.f.ty = 1 then
    hnResult e.f.sat (if neg then toSigned a 32 - toSigned b 32 else toSigned a 32 + toSigned b 32)
  else tb2 a b (e.rnd i) (fun x y => if neg then x.sub y else x.add y)

/-- `v.mul` (R215). -/
def opMul (e : VEnv) (i a b : Nat) : Nat × Nat :=
  if e.f.ty = 1 then hnResult e.f.sat (toSigned a 32 * toSigned b 32)
  else tb2 a b (e.rnd i) Ex.mul

/-- `v.fma`: one rounding (R215). -/
def opFma (e : VEnv) (i a b c : Nat) : Nat × Nat :=
  match Fmt.tb32.read a, Fmt.tb32.read b, Fmt.tb32.read c with
  | some x, some y, some z => Fmt.tb32.round (some ((x.mul y).add z)) (e.rnd i)
  | _, _, _ => (Fmt.tb32.voidCode, 0)

/-- The quotient of Table 4-5. -/
def hnDiv (sat : Bool) (a b : Nat) : Nat × Nat :=
  let x := toSigned a 32
  let y := toSigned b 32
  if y = 0 then (0, flagDivz) else hnResult sat (x.tdiv y)

/-- `v.div` (R100, R102, R223). -/
def opDiv (e : VEnv) (i a b : Nat) : Nat × Nat :=
  if e.f.ty = 1 then hnDiv e.f.sat a b
  else
    match Fmt.tb32.read a, Fmt.tb32.read b with
    | some x, some y =>
      if y.isZero then
        if x.isZero then (Fmt.tb32.voidCode, flagInv) else (Fmt.tb32.signedMax x.neg, flagDivz)
      else if x.isZero then (0, 0)
      else Fmt.tb32.round (some (x.div y)) (e.rnd i)
    | _, _ => (Fmt.tb32.voidCode, 0)

/-- `v.sqrt` (R100, R223). -/
def opSqrt (e : VEnv) (i a : Nat) : Nat × Nat :=
  match Fmt.tb32.read a with
  | some x =>
    if x.isZero then (0, 0)
    else if x.neg then (Fmt.tb32.voidCode, flagInv)
    else Fmt.tb32.round (some x.sqrt) (e.rnd i)
  | none => (Fmt.tb32.voidCode, 0)

/-- The canonical code of a value of the type (R95, R96). -/
def canon (f : Fmt) (c : Nat) : Nat := (f.round (f.read c) .near).1

/-- The greater of two codes; void wins (R105). -/
def maxCodeOf (f : Fmt) (a b : Nat) : Nat := canon f (if numLt (f.read a) (f.read b) then b else a)

/-- The lesser of two codes; void loses (R105). -/
def minCodeOf (f : Fmt) (a b : Nat) : Nat := canon f (if numLt (f.read b) (f.read a) then b else a)

/-- `v.cmp` (R104). -/
def opCmp (e : VEnv) (a b : Nat) : Nat :=
  let r : Bool := match e.fmt.read a, e.fmt.read b with
    | some x, some y =>
      match e.f.imm % 8 with
      | 0 => x.eqv y
      | 1 => !x.eqv y
      | 2 => x.lt y
      | 3 => !y.lt x
      | 4 => y.lt x
      | _ => !x.lt y
    | _, _ => e.f.imm % 8 == 1
  b2n r

/-- `v.neg` (Table 9-6). -/
def opNeg (e : VEnv) (a : Nat) : Nat × Nat :=
  if e.f.ty = 1 then hnResult e.f.sat (-(toSigned a 32))
  else match Fmt.tb32.read a with
    | some x => Fmt.tb32.round (some x.negate) .near
    | none => (Fmt.tb32.voidCode, 0)

/-- The transcendentals (R226, Table 9-9). -/
def opTrans (op a : Nat) : Nat × Nat :=
  match Fmt.tb32.read a with
  | none => (Fmt.tb32.voidCode, 0)
  | some x =>
    match op with
    | 0x10 => Fmt.tb32.round (some x.exp2) .near
    | 0x11 =>
      if x.isZero then (Fmt.tb32.signedMax true, flagDivz)
      else if x.neg then (Fmt.tb32.voidCode, flagInv)
      else Fmt.tb32.round (some x.log2) .near
    | 0x12 =>
      if x.isZero then (Fmt.tb32.maxCode, flagDivz)
      else Fmt.tb32.round (some ((Ex.ofInt 1).div x)) .near
    | _ =>
      if x.isZero then (Fmt.tb32.maxCode, flagDivz)
      else if x.neg then (Fmt.tb32.voidCode, flagInv)
      else Fmt.tb32.round (some x.rsqrt) .near

/-- The logical operations and shifts (R119). -/
def opLogic (op a b : Nat) : Nat :=
  match op with
  | 0x18 => Nat.land a b
  | 0x19 => Nat.lor a b
  | 0x1A => Nat.xor a b
  | 0x1B => if 32 ≤ b then 0 else a * 2 ^ b % 2 ^ 32
  | 0x1C => if 32 ≤ b then 0 else a / 2 ^ b
  | _ => ofSigned (toSigned a 32 / (2 ^ min b 31 : Nat)) 32

/-- `v.perm` (R216, R250). -/
def opPerm (a b : Vec) : Vec :=
  let any := (List.range 128).any (mark b)
  lanes (fun j =>
    let ix := lane b j
    if ix < 128 then (lane a ix, mark a ix || any) else (0, any))

/-- The source lane of `v.shuf`: true for B (Table 9-7). -/
def shufSrc (pat k j : Nat) : Bool × Nat :=
  match pat with
  | 0 => (false, Nat.xor j (2 ^ k))
  | 1 => (false, (j + k) % 128)
  | 2 => (j % 2 == 1, j / 2)
  | 3 => (j % 2 == 1, 64 + j / 2)
  | _ => if j < 64 then (false, 2 * j) else (true, 2 * (j - 64) + 1)

/-- `v.shuf` (R217). -/
def opShuf (e : VEnv) (a b : Vec) : Vec :=
  lanes (fun j =>
    let (fromB, ix) := shufSrc (bits e.f.imm 8 3) (bits e.f.imm 0 7) j
    if fromB then (lane b ix, mark b ix) else (lane a ix, mark a ix))

/-- `v.cmpr` (R218, R250). -/
def opCmpr (a b c : Vec) : VOut :=
  let act := (List.range 128).filter (fun i => lane b i != 0)
  let p := lane c 0 % 2 ^ 22
  let all := (List.range 128).any (mark b) || mark c 0
  let v0 := lanes (fun i => match act[i]? with
    | some x => (lane a x, mark a x || all)
    | none => (0, all))
  let v1 := lanes (fun i => match act[i]? with
    | some x => ((p + x) % 2 ^ 22, all)
    | none => (0xFFFFFFFF, all))
  { regs := outVec 0 v0 ++ outVec 1 v1 ++ [(2, 0, act.length, all)],
    flags := if act.any (fun x => 2 ^ 22 ≤ p + x) then flagOvf else 0 }

/-- `v.expd` (R219, R250). -/
def opExpd (a b c : Vec) : Vec :=
  let p := lane c 0 % 2 ^ 22
  let all := (List.range 128).any (mark b) || mark c 0
  lanes (fun k =>
    match (List.range 128).find? (fun i => lane b i != 0xFFFFFFFF && lane b i == p + k) with
    | some i => (lane a i, mark a i || all)
    | none => (0, all))

/-- `v.bcomb` (R224). -/
def opBcomb (e : VEnv) (i a b c : Nat) : Nat × Nat :=
  let x : Int := toSigned a 32 * (2 ^ 44 : Nat) + toSigned b 32 * (2 ^ 33 : Nat) + toSigned c 32 * (2 ^ 22 : Nat)
  Fmt.tb32.round (some (Ex.ofInt x)) (e.rnd i)

/-- One level of the reduction tree of R220: adjacent pairs, with flags. -/
def treeLevel (e : VEnv) : List Nat → List Nat × Nat
  | a :: b :: r =>
    let n := if e.f.ty = 1 then hnResult e.f.sat (toSigned a 32 + toSigned b 32) else tb2 a b .near Ex.add
    let (l, f) := treeLevel e r
    (n.1 :: l, Nat.lor n.2 f)
  | l => (l, 0)

/-- The seven levels of R220. -/
def treeSum (e : VEnv) : Nat → List Nat → Nat → Nat × Nat
  | 0, l, f => (nth l 0 0, f)
  | n + 1, l, f =>
    let (l2, f2) := treeLevel e l
    treeSum e n l2 (Nat.lor f f2)

/-- `v.rsum` (R220, R221). -/
def opRsum (e : VEnv) (a : Vec) : Nat × Nat :=
  if e.canonical then
    let adds := (List.range 128).map (fun i => xaddOf (e.fmt.read (lane a i)) 0 false)
    let x := (XAcc.reset).addX (xaddSum adds)
    x.readOut e.fmt (e.rnd e.f.idx)
  else treeSum e 7 ((List.range 128).map (lane a)) 0

/-- `v.rmax`, `v.rmin` (R105). -/
def opRext (e : VEnv) (max : Bool) (a : Vec) : Nat :=
  (List.range 127).foldl (fun m i =>
    if max then maxCodeOf e.fmt m (lane a (i + 1)) else minCodeOf e.fmt m (lane a (i + 1)))
    (canon e.fmt (lane a 0))

/-! ### The attention state (R227 to R233) -/

/-- -(largest finite) of TB32. -/
def negMax : Nat := Fmt.tb32.signedMax true

/-- 1.0 of TB32. -/
def tbOne : Nat := 0x3FC00000

/-- The least integer not below a value, as a TB32 code (R230). -/
def ceilTb (c : Nat) : Nat :=
  match Fmt.tb32.read c with
  | none => Fmt.tb32.voidCode
  | some x =>
    if 0 ≤ x.exp then canon .tb32 c
    else
      let k := (-x.exp).toNat
      let q := x.mag / 2 ^ k
      let m := if !x.neg && x.mag % 2 ^ k != 0 then q + 1 else q
      (Fmt.tb32.round (some ⟨x.neg && m != 0, m, 0, false⟩) .near).1

/-- Keep only OVF, as the attention operations do (R232). -/
def onlyOvf (f : Nat) : Nat := Nat.land f flagOvf

/-- `v.smr` on one lane: M, Lh, Ll, Mb to the new state and α (R230). -/
def smrLane (m lh ll mb : Nat) : (Nat × Nat × Nat × Nat) × Nat × Nat :=
  let mn := maxCodeOf .tb32 m (ceilTb mb)
  let v := Fmt.tb32.voidCode
  match Fmt.tb32.read m, Fmt.tb32.read mn with
  | some x, some y =>
    let zero := canon .tb32 lh == 0 && canon .tb32 ll == 0
    let alpha := if zero then (tbOne, 0) else
      let (a, f) := Fmt.tb32.round (some (x.sub y).exp2) .near
      (a, onlyOvf f)
    let p := tb2 lh alpha.1 .near Ex.mul
    let q := tb2 ll alpha.1 .near Ex.mul
    ((mn, p.1, q.1, negMax), alpha.1, onlyOvf (orFlags [alpha.2, p.2, q.2]))
  | _, _ => ((v, v, v, negMax), v, 0)

/-- `v.sm2` on one lane that is not masked: p and the new pair (R231). -/
def sm2Lane (m lh ll a : Nat) : Nat × (Nat × Nat) × Nat :=
  let p := match Fmt.tb32.read a, Fmt.tb32.read m with
    | some x, some y => Fmt.tb32.round (some (x.sub y).exp2) .near
    | _, _ => (Fmt.tb32.voidCode, 0)
  let ((s, f1), (t, _)) := twoSum lh p.1
  let u := tb2 ll t .near Ex.add
  (p.1, (s, u.1), onlyOvf (orFlags [p.2, f1, u.2]))

/-- `v.smn` on one lane (R232). -/
def smnLane (e : VEnv) (i lh ll : Nat) : Nat × Nat :=
  match Fmt.tb32.read lh, Fmt.tb32.read ll with
  | some x, some y =>
    let s := x.add y
    if s.isZero then (Fmt.tb32.maxCode, flagDivz) else Fmt.tb32.round (some ((Ex.ofInt 1).div s)) (e.rnd i)
  | _, _ => (Fmt.tb32.voidCode, 0)

/-- The result of a vector operation that writes registers or 128 codes (all but the accumulator, pointer and release
operations). `st` gives the registers of the attention state, M, Lh, Ll and Mb. Every single lane that is written takes
the marks of every lane read (R250). -/
def vCompute (e : VEnv) (a b c : Vec) (st : List Vec) : VOut :=
  let f := e.f
  let one := fun (r : Vec × Nat) => ({ regs := outVec 0 r.1, flags := r.2 } : VOut)
  let anyA := (List.range 128).any (mark a)
  let m := nth st 0 []
  let lh := nth st 1 []
  let ll := nth st 2 []
  let mb := nth st 3 []
  match f.op with
  | 0x01 => one (lanewise [a, b] (fun i => opAdd e false i (lane a i) (lane b i)))
  | 0x02 => one (lanewise [a, b] (fun i => opAdd e true i (lane a i) (lane b i)))
  | 0x03 => one (lanewise [a, b] (fun i => opMul e i (lane a i) (lane b i)))
  | 0x04 => one (lanewise [a, b, c] (fun i => opFma e i (lane a i) (lane b i) (lane c i)))
  | 0x05 => one (lanewise [a, b] (fun i => opDiv e i (lane a i) (lane b i)))
  | 0x06 => one (lanewise [a] (fun i => opSqrt e i (lane a i)))
  | 0x07 => one (lanewise [a, b] (fun i => (maxCodeOf e.fmt (lane a i) (lane b i), 0)))
  | 0x08 => one (lanewise [a, b] (fun i => (minCodeOf e.fmt (lane a i) (lane b i), 0)))
  | 0x09 => one (lanewise [a, b] (fun i => (opCmp e (lane a i) (lane b i), 0)))
  | 0x0A => one (lanewise [a, b, c] (fun i => (if lane c i != 0 then lane a i else lane b i, 0)))
  | 0x0B => one (lanewise [a] (fun i => opNeg e (lane a i)))
  | 0x0C =>
    let s := lanewise [a, b] (fun i => (twoSum (lane a i) (lane b i)).1)
    let t := lanewise [a, b] (fun i => (twoSum (lane a i) (lane b i)).2)
    { regs := outVec 0 s.1 ++ outVec 1 t.1, flags := Nat.lor s.2 t.2 }
  | 0x0D =>
    let s := lanewise [a, b] (fun i => (twoProd (lane a i) (lane b i)).1)
    let t := lanewise [a, b] (fun i => (twoProd (lane a i) (lane b i)).2)
    { regs := outVec 0 s.1 ++ outVec 1 t.1, flags := Nat.lor s.2 t.2 }
  | 0x10 => one (lanewise [a] (fun i => opTrans 0x10 (lane a i)))
  | 0x11 => one (lanewise [a] (fun i => opTrans 0x11 (lane a i)))
  | 0x12 => one (lanewise [a] (fun i => opTrans 0x12 (lane a i)))
  | 0x13 => one (lanewise [a] (fun i => opTrans 0x13 (lane a i)))
  | 0x18 => one (lanewise [a, b] (fun i => (opLogic 0x18 (lane a i) (lane b i), 0)))
  | 0x19 => one (lanewise [a, b] (fun i => (opLogic 0x19 (lane a i) (lane b i), 0)))
  | 0x1A => one (lanewise [a, b] (fun i => (opLogic 0x1A (lane a i) (lane b i), 0)))
  | 0x1B => one (lanewise [a, b] (fun i => (opLogic 0x1B (lane a i) (lane b i), 0)))
  | 0x1C => one (lanewise [a, b] (fun i => (opLogic 0x1C (lane a i) (lane b i), 0)))
  | 0x1D => one (lanewise [a, b] (fun i => (opLogic 0x1D (lane a i) (lane b i), 0)))
  | 0x20 => one (a, 0)
  | 0x21 => one (opPerm a b, 0)
  | 0x22 => one (opShuf e a b, 0)
  | 0x23 => one (lanewise [a] (fun i => convert f.srcFmt e.fmt (lane a i) (e.rnd i)))
  | 0x25 => one (lanewise [a] (fun i => convert f.srcFmt (fmtOfTy f.ty) (lane a i) (e.rnd i)))
  | 0x26 => opCmpr a b c
  | 0x27 => one (opExpd a b c, 0)
  | 0x28 => one (lanewise [a, b, c] (fun i => opBcomb e i (lane a i) (lane b i) (lane c i)))
  | 0x30 => let r := opRsum e a; { regs := [(0, f.idx, r.1, anyA)], flags := r.2 }
  | 0x31 => { regs := [(0, f.idx, opRext e true a, anyA)], flags := 0 }
  | 0x32 => { regs := [(0, f.idx, opRext e false a, anyA)], flags := 0 }
  | 0x40 =>
    let z := lanes (fun _ => (negMax, false))
    { regs := outVec 0 z ++ outVec 1 (lanes (fun _ => (0, false))) ++ outVec 2 (lanes (fun _ => (0, false)))
        ++ outVec 3 z, flags := 0 }
  | 0x41 =>
    let act := (List.range 128).filter (fun i => f.imm % 2 == 0 || lane b i != 0)
    { regs := act.map (fun i => (3, i, maxCodeOf .tb32 (lane mb i) (lane a i),
        mark mb i || mark a i || (f.imm % 2 == 1 && mark b i))), flags := 0 }
  | 0x42 =>
    let r := (List.range 128).map (fun i =>
      (i, smrLane (lane m i) (lane lh i) (lane ll i) (lane mb i), mark m i || mark lh i || mark ll i || mark mb i))
    { regs := r.flatMap (fun x =>
        [(0, x.1, x.2.1.1.1, x.2.2), (1, x.1, x.2.1.1.2.1, x.2.2), (2, x.1, x.2.1.1.2.2.1, x.2.2),
         (3, x.1, x.2.1.1.2.2.2, x.2.2), (100, x.1, x.2.1.2.1, x.2.2)]),
      flags := orFlags (r.map (fun x => x.2.1.2.2)) }
  | 0x43 =>
    let r := (List.range 128).map (fun i =>
      (i, f.imm % 2 == 1 && lane b i == 0, sm2Lane (lane m i) (lane lh i) (lane ll i) (lane a i),
        mark m i || mark lh i || mark ll i || mark a i || (f.imm % 2 == 1 && mark b i)))
    { regs := r.flatMap (fun x =>
        if x.2.1 then [(100, x.1, 0, x.2.2.2)]
        else [(1, x.1, x.2.2.1.2.1.1, x.2.2.2), (2, x.1, x.2.2.1.2.1.2, x.2.2.2), (100, x.1, x.2.2.1.1, x.2.2.2)]),
      flags := orFlags (r.map (fun x => if x.2.1 then 0 else x.2.2.1.2.2)) }
  | 0x44 =>
    let r := (List.range 128).map (fun i => (i, smnLane e i (lane lh i) (lane ll i), mark lh i || mark ll i))
    { regs := r.map (fun x => (100, x.1, x.2.1.1, x.2.2)), flags := orFlags (r.map (fun x => x.2.1.2)) }
  | _ => { regs := [], flags := 0 }

/-- Elements of a format packed into bytes (R97), each byte marked when an element in it is. -/
def packBytes (f : Fmt) (v : Vec) : List (BitVec 8 × Bool) :=
  if f.width = 4 then
    (List.range (v.length / 2)).map (fun i =>
      (BitVec.ofNat 8 (lane v (2 * i) % 16 + lane v (2 * i + 1) % 16 * 16), mark v (2 * i) || mark v (2 * i + 1)))
  else
    v.flatMap (fun x => (leBytes (f.width / 8) x.1.toNat).map (fun b => (b, x.2)))

/-- Element i of a buffer in a format (R97), with its mark. -/
def unpackAt (f : Fmt) (bs : List (BitVec 8 × Bool)) (i : Nat) : Nat × Bool :=
  if f.width = 4 then
    let x := nth bs (i / 2) (0, false)
    (bits x.1.toNat (4 * (i % 2)) 4, x.2)
  else
    let n := f.width / 8
    let x := (bs.drop (i * n)).take n
    (leNat (x.map (·.1)), x.any (·.2))

/-- The elements of `v.unpk`: into TB32, or into HN32 from OC8 and HN32 (Table 9-6). -/
def opUnpk (f : Fmt) (bs : List (BitVec 8 × Bool)) : Vec :=
  lanes (fun i =>
    let (c, m) := unpackAt f bs i
    ((convert f (if f.isInt then .hn32 else .tb32) c .near).1, m))

end Sys2Proof.Machine
end

