-- ==== Sys2Proof/Machine/Mx.lean ====
section
/-! DEFINITION. Machine/Mx.lean: the matrix feed and array (R169 to R201, R387): the passes, their timing, the column
sums, and the bell queue's producer side. Times are counts of the core's issued sc (R178). -/

namespace Sys2Proof.Machine

open Sys2Proof

/-! ### Formats and shapes -/

/-- Values per PE (Table 7-1). -/
def perPe (f : Fmt) : Nat :=
  match f with
  | .pc4 => 4
  | .ff8 => 2
  | .sh8 => 2
  | .oc8 => 2
  | _ => 1

/-- Is the column sum a Horn32 (Table 7-1)? -/
def hornSum (f : Fmt) : Bool := f.isInt

/-- Is the format split into pieces (R127)? -/
def isSplit (f : Fmt) : Bool := f == .tb32 || f == .hn32

/-- Bytes per stored tile row (Table 7-1). -/
def rowBytes71 (f : Fmt) : Nat := if isSplit f then 512 else 256

/-- Bytes per weight vector (Table 7-1). -/
def vecBytes71 (f : Fmt) : Nat := 16 * f.width

/-- Bytes per stored tile row that a shape reads (Table 8-3). -/
def rowBytes (f : Fmt) (shape : Nat) : Nat := if shape = 2 then rowBytes71 f / 2 else rowBytes71 f

/-- Bytes per weight read that a shape reads (Table 8-3). -/
def readBytes (f : Fmt) (shape : Nat) : Nat :=
  if shape = 2 then 2 * vecBytes71 f else if shape = 4 then 256 else vecBytes71 f

/-- Stored tile rows (Table 8-3). -/
def tileRows (shape : Nat) : Nat := if shape = 1 then 64 else 128

/-- Block height R_b (Table 8-2). -/
def blockHeight (shape : Nat) : Nat := if shape = 1 then 64 else if shape = 3 then 32 else 128

/-- Greatest timing column (R194). -/
def kappaMax (shape : Nat) : Nat := if shape = 2 then 63 else 127

/-- The pass latency: 257 in shape 0 (R177, R194). -/
def passLatency (shape : Nat) : Nat := blockHeight shape + kappaMax shape + 2

/-- Rows per read (R200). -/
def rowsPerRead (shape : Nat) : Nat := if shape = 1 then 2 else if shape = 3 then 4 else 1

/-- Tiles that a read fills together (R186, R197); shape 4 adds its two lanes into one sum (R195). -/
def tilesPerRead (f : Fmt) (shape : Nat) : Nat := if shape = 4 then 1 else perPe f

/-! ### A pass -/

/-- The format of a pass. -/
def Pass.format (p : Pass) : Fmt := fmtOfTy p.fmt

/-- Its sweeps (Tables 5-1, 5-2). -/
def Pass.sweeps (p : Pass) : List (Nat × Nat) := sweepsOf p.format p.stop

/-- First weight read of sweep k, from 0 (R183). -/
def Pass.sweepStart (p : Pass) (k : Nat) : Nat := p.s1 + 128 * k

/-- First weight read of its last sweep. -/
def Pass.lastSweep (p : Pass) : Nat := p.sweepStart (p.sweeps.length - 1)

/-- sc of its last weight read. -/
def Pass.lastRead (p : Pass) : Nat := p.lastSweep + p.count - 1

/-- The sweep and weight vector that the pass reads in sc n, if any (R179, R183). -/
def Pass.weightAt (p : Pass) (n : Nat) : Option (Nat × Nat) :=
  ((List.range p.sweeps.length).find? (fun k => p.sweepStart k ≤ n && n < p.sweepStart k + p.count)).map
    (fun k => (k, n - p.sweepStart k))

/-- The stored row that the pass reads in sc n, if any: before its first weight read unless KEEP, and during sweep k for
a sweep k + 1 whose stationary piece differs (R179, R183). -/
def Pass.tileAt (p : Pass) (n : Nat) : Option Nat :=
  if !p.keep && p.s1 ≤ n + 128 && n < p.s1 then some (n + 128 - p.s1)
  else
    ((List.range (p.sweeps.length - 1)).find? (fun k =>
      p.sweepStart k ≤ n && n < p.sweepStart k + 128
        && (nth p.sweeps k (0, 0)).1 != (nth p.sweeps (k + 1) (0, 0)).1)).map (fun k => n - p.sweepStart k)

/-- The key of R181. -/
def Pass.key (p : Pass) : Nat × Bool × Nat × Bool := (p.fmt, p.trans, p.shape, p.sweeps.length == 1)

/-- The fields of an MX slot (Table 16-5). -/
structure MF where
  /-- Opcode. -/
  op : Nat
  /-- FMT. -/
  fmt : Nat
  /-- STOP. -/
  stop : Nat
  /-- SHAPE. -/
  shape : Nat
  /-- TRANS. -/
  trans : Bool
  /-- KEEP. -/
  keep : Bool
  /-- RST. -/
  rst : Bool
  /-- NOADV. -/
  noadv : Bool
  /-- MD. -/
  md : Nat
  /-- Reserved. -/
  rsv : Nat

/-- The fields of an MX slot. -/
def mf (s : Nat) : MF :=
  { op := opc s, fmt := bits s 53 3, stop := bits s 51 2, shape := bits s 48 3, trans := bitAt s 47, keep := bitAt s 46,
    rst := bitAt s 45, noadv := bitAt s 44, md := bits s 38 6, rsv := bits s 0 38 }

/-- The MX descriptor that a slot uses, after any RST (R383, Table 16-6). -/
def Core.mxDescAt (k : Core) (t : Nat) (f : MF) : Nat :=
  let d := (Sparse.get 0 k.mxDesc (64 * t + f.md)).toNat
  let g := (Sparse.get 0 k.mxDescImg (64 * t + f.md)).toNat
  if f.rst then setBits (setBits d 160 32 (bits g 160 32)) 128 32 (bits g 128 32) else d

/-- The pass that a slot starts in sc q, before its timing. -/
def Core.mkPass (k : Core) (t : Nat) (level1 : Bool) (f : MF) (bundle scIdx beat q : Nat) : Pass :=
  let d := k.mxDescAt t f
  { Pass.reset with
    slot := t, fmt := f.fmt, stop := f.stop, shape := f.shape, trans := f.trans, keep := f.keep,
    xAddr := bits d 160 32, wAddr := bits d 128 32, xStride := 64 * bits d 112 16, wStride := 64 * bits d 96 16,
    count := bits d 79 17, level1 := level1, q := q, bundle := bundle, scIdx := scIdx, beat := beat }

/-- The current and next pass at the start of sc n: a next pass becomes current in the sc after the last weight read of
the current one (R173). DESIGN CHOICE (log 86): where there is no next pass, R173 does not say whether the current one
stays current after its last weight read. Here it leaves the feed, and its times are kept for L. -/
def Mx.promote (m : Mx) (n : Nat) : Mx :=
  match m.cur with
  | some p =>
    if p.lastRead < n then
      { m with cur := m.nxt, nxt := none, gone := some (p.lastRead, p.lastSweep, p.shape) }
    else m
  | none => m

/-- The pass that a newly issued one follows: e, s0 and the SHAPE of the current pass, else of the pass that was current
last (R179; DEDUCED, log 86, from the Why of R199 and from Table 16-2: a tile is loaded into a drained array). -/
def Mx.follows (m : Mx) : Option (Nat × Nat × Nat) :=
  match m.cur with
  | some c => some (c.lastRead, c.lastSweep, c.shape)
  | none => m.gone

/-- sc L of the first tile read of a pass with KEEP = 0 issued into a feed that holds m (R179, R199, R387). -/
def tileStart (m : Mx) (p : Pass) : Nat :=
  match m.follows with
  | none => p.q + 1
  | some (e, s0, shape) =>
    let base := if p.level1 then max (p.q + 1) (e + passLatency shape + 1) else max (p.q + 1) (max (e - 127) s0)
    if shape != p.shape then max base (max (e + 128) (s0 + 256)) else base

/-- sc of the first weight read of a pass issued into a feed that holds m (R179, R181). -/
def passStart (m : Mx) (p : Pass) : Nat :=
  if p.keep then (match m.follows with
    | some (e, _) => max (p.q + 1) (e + 1)
    | none => p.q + 1)
  else tileStart m p + 128

/-- Does the slot break Table 7-2, Table 8-1, R173, R181, R382 or R394? -/
def mxBad (f : MF) (p : Pass) (m : Mx) (desc : Nat) (level1 : Bool) : Bool :=
  let fm := p.format
  f.rsv != 0
  || (level1 && (f.fmt < 3 || 6 < f.fmt || f.stop != 0 || f.trans))
  || (isSplit fm && (f.stop == 0 || 128 < p.count))
  || 4 < f.shape
  || (isSplit fm && f.shape != 0)
  || (f.shape == 4 && !(fm == .ff8 || fm == .sh8 || fm == .oc8))
  || (f.trans && (f.shape != 0 || !(fm == .ob16 || fm == .bn16 || isSplit fm)))
  || p.xAddr % 64 != 0 || p.wAddr % 64 != 0
  || p.xStride < rowBytes71 fm || p.wStride < vecBytes71 fm
  || p.count == 0 || 65536 < p.count
  || bits desc 224 32 % 64 != 0 || bits desc 192 32 % 64 != 0
  || m.nxt != none
  || (p.keep && (match m.lastKey with
      | some k => k != p.key || p.sweeps.length != 1 || !k.2.2.2
      | none => true))

/-- The span of stored tile rows (R175, R196). DESIGN CHOICE (log 86): R175 checks the whole span and R196 exactly the
bytes that the shape reads; where a stride leaves gaps between rows, the one range from the first byte read to the last is
checked, gaps and all. -/
def Pass.xSpan (p : Pass) : Nat × Nat :=
  (p.xAddr, (tileRows p.shape - 1) * p.xStride + rowBytes p.format p.shape)

/-- The span of weight vectors (R175, R196): one range, as for the tile (log 86). -/
def Pass.wSpan (p : Pass) : Nat × Nat := (p.wAddr, (p.count - 1) * p.wStride + readBytes p.format p.shape)

/-! ### The slide front -/

/-- The timing row ρ of PE row r (Table 8-2). -/
def timingRow (shape r : Nat) : Nat := if shape = 1 then r % 64 else if shape = 3 then r % 32 else r

/-- The timing column κ of PE column c (Table 8-2). -/
def timingCol (shape c : Nat) : Nat := if shape = 2 then c % 64 else c

/-- Does PE(r, c) hold the front's tile in sc n (R180, R198)? -/
def Front.reached (f : Front) (n r c : Nat) : Bool := f.start + 1 + timingRow f.shape r + timingCol f.shape c ≤ n

/-- Has the front left the array by sc n: does every PE hold its tile (Table 7-4)? -/
def Front.across (f : Front) (n : Nat) : Bool := f.start + blockHeight f.shape + kappaMax f.shape ≤ n

/-- The stationary value that lane l of PE(r, c) uses in sc n: that of the newest front that has reached it (R180). -/
def Mx.peAt (m : Mx) (n l r c : Nat) : BitVec 32 :=
  Sparse.get 0 (match m.fronts.reverse.find? (fun f => f.reached n r c) with
    | some f => f.tile
    | none => m.active) (l * 16384 + r * 128 + c)

/-- The tile that a weight vector read now meets in every PE, and its mark: that of the newest front, since vector and
front cross the array side by side (R177, R180). -/
def Mx.newest (m : Mx) : Sparse (BitVec 32) × Bool :=
  match m.fronts.getLast? with
  | some f => (f.tile, f.poison)
  | none => (m.active, m.activePoison)

/-- Fronts that have left the array by sc n are its active values (R180). -/
def Mx.settle (m : Mx) (n : Nat) : Mx :=
  m.fronts.foldl (fun m f =>
    if f.across n then { m with active := f.tile, activePoison := f.poison, fronts := m.fronts.erase f } else m) m

/-- Do the shadow registers of column c hold all of the pass's tile in sc n: are they filled by the end of an earlier sc
(R179, R198)? -/
def Pass.shadowFull (p : Pass) (n c : Nat) : Bool := !p.keep && p.s1 + timingCol p.shape c < n

/-! ### The column sums -/

/-- The PE position that element i of stored row j takes, as lane × 16384 + row × 128 + column; rows of shape 1 are
written to both halves by two reads (R170, R185, Table 8-3, R197). -/
def pePos (f : Fmt) (shape : Nat) (trans : Bool) (j lane col : Nat) : Nat × Nat :=
  -- (position, element of the stored row) for PE lane `lane` of PE row or column j
  let k := perPe f
  if trans then (lane * 16384 + col * 128 + j, col)
  else if shape = 2 then (lane * 16384 + j * 128 + col, col % 64 + 64 * lane)
  else if shape = 3 then (lane * 16384 + j * 128 + col, col / 32 * (32 * k) + col % 32 + 32 * lane)
  else (lane * 16384 + j * 128 + col, col + 128 * lane)

/-- The stationary values after stored row bytes have been read into PE row (or column) j. -/
def loadRow (f : Fmt) (shape : Nat) (trans : Bool) (j : Nat) (bs : List (BitVec 8 × Bool))
    (tile : Sparse (BitVec 32)) : Sparse (BitVec 32) :=
  (List.range (perPe f)).foldl (fun tl lane =>
    (List.range 128).foldl (fun tl col =>
      let (pos, el) := pePos f shape trans j lane col
      Sparse.set 0 tl pos (BitVec.ofNat 32 (unpackAt f bs el).1)) tl) tile

/-- The weight element that PE(r, c) multiplies in lane l (Table 8-2). -/
def weightIndex (shape r c l : Nat) : Nat :=
  if shape = 2 then 128 * (c / 64) + r else if shape = 4 then r + 128 * l else r

/-- A running column sum: its code or value, flags OVF and TINY so far, and the exact sum of the products. -/
structure ColSum where
  /-- The Tuba32 or Horn32 code. -/
  code : Nat
  /-- Flags. -/
  flags : Nat
  /-- Exact sum in units of 2^-600. -/
  exact : Int

/-- One PE addition of an exact product to a Tuba32 sum (R129, R171). -/
def addTb (s : ColSum) (p : Num) : ColSum :=
  match Fmt.tb32.read s.code, p with
  | some x, some y =>
    let (c, fl) := Fmt.tb32.round (some (x.add y)) .near
    { code := c, flags := Nat.lor s.flags (Nat.land fl (flagOvf + flagTiny)), exact := s.exact + y.units (-600) }
  | _, _ => { s with code := Fmt.tb32.voidCode }

/-- The exact product of two values; void when either is. -/
def numMul (a b : Num) : Num :=
  match a, b with
  | some x, some y => some (x.mul y)
  | _, _ => none

/-- The exact sum of two values. -/
def numAdd (a b : Num) : Num :=
  match a, b with
  | some x, some y => some (x.add y)
  | _, _ => none

/-- The column sum of one block column for one weight read: rows r0 to r0 + n - 1 of lane l and column c, from an
arriving sum (R169, R171, R193, R195). -/
def columnSum (p : Pass) (sweep : Nat × Nat) (tile : Sparse (BitVec 32)) (w : List (BitVec 8 × Bool))
    (l r0 n c : Nat) (s0 : ColSum) : ColSum :=
  let f := p.format
  let xAt := fun (lane r : Nat) => (Sparse.get 0 tile (lane * 16384 + r * 128 + c)).toNat
  let wAt := fun (lane r : Nat) => (unpackAt f w (weightIndex p.shape r c lane)).1
  (List.range n).foldl (fun s i =>
    let r := r0 + i
    match f with
    | .hn32 => { s with code := ofSigned (toSigned s.code 32 + pieceHn sweep.1 (xAt l r) * pieceHn sweep.2 (wAt l r)) 32 }
    | .tb32 => addTb s (numMul (pieceTb sweep.1 (f.read (xAt l r))) (pieceTb sweep.2 (f.read (wAt l r))))
    | .oc8 =>
      let t := if p.shape = 4 then
          toSigned (xAt 0 r) 8 * toSigned (wAt 0 r) 8 + toSigned (xAt 1 r) 8 * toSigned (wAt 1 r) 8
        else toSigned (xAt l r) 8 * toSigned (wAt l r) 8
      { s with code := ofSigned (toSigned s.code 32 + t) 32 }
    | _ =>
      if p.shape = 4 then
        addTb s (numAdd (numMul (f.read (xAt 0 r)) (f.read (wAt 0 r))) (numMul (f.read (xAt 1 r)) (f.read (wAt 1 r))))
      else addTb s (numMul (f.read (xAt l r)) (f.read (wAt l r)))) s0

/-- The flags of a delivered sum: OVF and TINY of its additions, and INEX when it differs from the exact sum of the
products (R131). -/
def sumFlags (horn : Bool) (s : ColSum) : Nat :=
  if horn then 0
  else match Fmt.tb32.read s.code with
    | none => s.flags
    | some x => Nat.lor s.flags (if x.units (-600) = s.exact then 0 else flagInex)

/-- All column sums of one weight read: by (tile × rows per read + row) × 128 + column. -/
def readSums (p : Pass) (sweep : Nat × Nat) (tile : Sparse (BitVec 32)) (w : List (BitVec 8 × Bool))
    (arrive : Nat → ColSum) : List (Nat × ColSum) :=
  let per := rowsPerRead p.shape
  let h := blockHeight p.shape
  (List.range (tilesPerRead p.format p.shape)).flatMap (fun j =>
    (List.range per).flatMap (fun i =>
      (List.range 128).map (fun c =>
        ((j * per + i) * 128 + c, columnSum p sweep tile w j (i * h) h c (arrive c)))))

/-- Is the sweep after k in another band, or is k the last sweep (R132, R184)? -/
def bandEnds (ss : List (Nat × Nat)) (k : Nat) : Bool :=
  k + 1 == ss.length || (nth ss k (0, 0)).1 + (nth ss k (0, 0)).2 != (nth ss (k + 1) (0, 0)).1 + (nth ss (k + 1) (0, 0)).2

/-- The effect of the weight read of vector t in sweep k, in sc n, on the feed and array: sums go into the re-entry
buffer or out toward the bell queue (R177, R184, R194). -/
def weightRead (m : Mx) (p : Pass) (k t n : Nat) (w : List (BitVec 8 × Bool)) : Mx × Pass :=
  let ss := p.sweeps
  let sweep := nth ss k (1, 1)
  -- the first weight vector of a tile starts its slide front, which takes the shadow values into use (R180)
  let fresh := t == 0 && (if k = 0 then !p.keep else (nth ss (k - 1) (0, 0)).1 != sweep.1)
  let m := if fresh then
      { m with fronts := m.fronts ++ [{ start := n, shape := p.shape, tile := p.tile, poison := p.tilePoison }] }
    else m
  let (active, aPoison) := m.newest
  let horn := hornSum p.format
  let starts := k == 0 || (horn && bandEnds ss (k - 1))
  let arrive := fun c =>
    if starts then ({ code := 0, flags := 0, exact := 0 } : ColSum)
    else { code := (Sparse.get 0 p.sums (128 * t + c)).toNat, flags := Sparse.get 0 p.sumFlags t,
           exact := Sparse.get 0 p.sumExact (128 * t + c) }
  let sums := readSums p sweep active w arrive
  let poison := aPoison || w.any (·.2) || (!starts && Sparse.get false p.sumPoison t)
  let delivers := if isSplit p.format then (if horn then bandEnds ss k else k + 1 == ss.length) else true
  let p := { p with wDone := p.wDone + 1 }
  if delivers then
    let last := t + 1 == p.count
    let out : Landing := { Landing.reset with
      due := n + passLatency p.shape, slot := p.slot, passQ := p.q, read := t, last := last, horn := horn,
      perRead := rowsPerRead p.shape, tiles := tilesPerRead p.format p.shape,
      rowsOf := sums.map (fun x => (x.1, BitVec.ofNat 32 x.2.code)),
      flags := orFlags (sums.map (fun x => sumFlags horn x.2)), poison := poison, bundle := p.bundle, scIdx := p.scIdx,
      beat := p.beat, closes := last && k + 1 == ss.length }
    ({ m with out := m.out ++ [out] }, p)
  else
    (m, { p with
      sums := sums.foldl (fun s x => Sparse.set 0 s (128 * t + x.1) (BitVec.ofNat 32 x.2.code)) p.sums,
      sumExact := sums.foldl (fun s x => Sparse.set 0 s (128 * t + x.1) x.2.exact) p.sumExact,
      sumFlags := Sparse.set 0 p.sumFlags t (orFlags (sums.map (fun x => x.2.flags))),
      sumPoison := Sparse.set false p.sumPoison t poison })

/-! ### The bell queue -/

/-- Put the rows of one read into the tiles that take them: the last tiles of the queue (R186, R200). -/
def landRows (bell : List BellTile) (l : Landing) : List BellTile :=
  let base := bell.length - l.tiles
  let rows := l.perRead * l.read
  (List.range bell.length).map (fun i =>
    let b := nth bell i BellTile.reset
    if i < base then b
    else
      let j := i - base
      let rs := (List.range l.perRead).map (fun x => (rows + x) % 128)
      { b with
        rows := (List.range l.perRead).foldl (fun m x =>
          (List.range 128).foldl (fun m c =>
            Sparse.set 0 m ((rows + x) % 128 * 128 + c)
              (Sparse.get 0 l.rowsOf ((j * l.perRead + x) * 128 + c))) m) b.rows,
        landed := b.landed ++ rs,
        poison := if l.poison then b.poison ++ rs else b.poison,
        complete := b.complete || l.last || (rows + l.perRead) % 128 == 0 })

/-- A result vector lands at the end of the present sc (R177, R186, R187, R194): a new tile is allocated when its first
row lands; too few free entries fault the task. -/
def Device.land (d : Device) (c : Nat) (l : Landing) : Device :=
  let k := d.core c
  let mx := { k.mx with out := k.mx.out.erase l, passesOpen := if l.closes then k.mx.passesOpen - 1 else k.mx.passesOpen }
  let alloc := l.perRead * l.read % 128 == 0
  let free := 8 - k.bell.length
  if alloc && free < l.tiles then
    let d := d.onCore c (fun k => { k with mx := mx })
    d.coreFault c l.slot 0x0108 0
      (free % 16 * 2 ^ 31 + l.tiles % 16 * 2 ^ 35 + l.scIdx % 2 ^ 11 * 2 ^ 39 + l.bundle % 2 ^ 14 * 2 ^ 50)
      (k.lastSc % 2 ^ 11 + l.beat % 2 ^ 53 * 2 ^ 11)
  else
    let bell := if alloc then k.bell ++ List.replicate l.tiles { BellTile.reset with horn := l.horn } else k.bell
    let d := d.onCore c (fun k => { k with mx := mx, bell := landRows bell l })
    d.raise c l.slot l.flags

/-- Discard what R189 names on core c. -/
def Device.dropArray (d : Device) (c : Nat) : Device := d.onCore c (fun k => { k with mx := Mx.reset, bell := [] })

end Sys2Proof.Machine
end

