-- ==== Sys2Proof/Machine/Meter.lean ====
section
/-! DEFINITION. Machine/Meter.lean: usage in the metering ledger (R568, R569). -/

namespace Sys2Proof.Machine

/-- Does the epoch that was open at the last edge hold an entry of a binding? -/
def Device.hasEntry (d : Device) (bind : Nat) : Bool :=
  d.ledger.any (fun e => e.counts && !e.device && e.bindId == bind)

/-- Change the entry that usage of a task slot belongs to: in the epoch open at the edge of the present wall beat, that of its
binding, or the device entry (R569, R573). -/
def Device.meter (d : Device) (t : Option Nat) (f : Ledger → Ledger) : Device :=
  let bind := match t with
    | some t => if d.isBound t && d.hasEntry (d.task t).bindId then some (d.task t).bindId else none
    | none => none
  { d with ledger := d.ledger.map (fun e =>
      if e.counts && (match bind with
        | some b => !e.device && e.bindId == b
        | none => e.device) then f e else e) }

/-- Meter bytes of the fabric, in the present wall beat. -/
def Device.meterFabric (d : Device) (t : Option Nat) (n : Nat) : Device :=
  d.meter t (fun e => { e with nowFabric := e.nowFabric + n })

/-- Meter bytes of stacked DRAM, in the present wall beat: units served for the energy of stack k. -/
def Device.meterDram (d : Device) (t : Option Nat) (k bytes units : Nat) : Device :=
  d.meter t (fun e => { e with nowDram := e.nowDram + bytes, nowUnits := Sparse.upd 0 e.nowUnits k (fun v => v + units) })

/-- The task slot of the binding that an access to a range of DRAM belongs to. -/
def Device.dramSlot (d : Device) (a n : Nat) : Option Nat := (d.dramWindowSlots a n).head?

/-- The sum of two tables of counts. -/
def addCounts (a b : List (Nat × Nat)) : List (Nat × Nat) := b.foldl (fun m e => Sparse.upd 0 m e.1 (fun v => v + e.2)) a

/-- Entries of bindings that were bound at no edge of their epoch are none (R568): their usage is the device entry's. -/
def Device.dropEntries (d : Device) (gone : Ledger → Bool) : Device :=
  let drop := fun (e : Ledger) => gone e && !e.device
  let lost := d.ledger.filter drop
  let sum := fun (f : Ledger → Nat) => lost.foldl (fun a e => a + f e) 0
  { d with ledger := (d.ledger.filter (fun e => !drop e)).map (fun e =>
      if e.counts && e.device then { e with
        nowDram := e.nowDram + sum Ledger.nowDram, nowFabric := e.nowFabric + sum Ledger.nowFabric,
        nowUnits := lost.foldl (fun m x => addCounts m x.nowUnits) e.nowUnits }
      else e) }

/-- The edge of a wall beat in the ledger: the usage of the beat that ends shows in the entries that it belongs to, counts for the
energy of the open entry of the same binding, and that of the new beat belongs to the open epoch (R569, R570, R574). -/
def Device.meterEdge (d : Device) : Device :=
  let old := d.ledger.filter (fun e => e.counts)
  let same := fun (e : Ledger) => old.find? (fun x => x.device == e.device && x.bindId == e.bindId)
  { d with ledger := d.ledger.map (fun e =>
      let e := { e with dramBytes := e.dramBytes + e.nowDram, fabricBytes := e.fabricBytes + e.nowFabric }
      let e := match (if e.isOpen then same e else none) with
        | some x => { e with pDram := addCounts e.pDram x.nowUnits, pFabric := e.pFabric + x.nowFabric }
        | none => e
      { e with counts := e.isOpen, nowDram := 0, nowFabric := 0, nowUnits := [] }) }

end Sys2Proof.Machine
end

