-- ==== Sys2Proof/Machine/Copies.lean ====
section
/-! DEFINITION. Machine/Copies.lean: copies (R259 to R271, R346 to R348, R355): the descriptor, the checks at issue, the
pieces in which a copy's bytes move, and the open packets of a remote copy. -/

namespace Sys2Proof.Machine

open Sys2Proof

/-! ### Rinaz addresses (Tables 14-1, 14-2) -/

/-- DEVICE. -/
def rzDev (a : Nat) : Nat := bits a 52 12
/-- SPACE. -/
def rzSpace (a : Nat) : Nat := bits a 48 4
/-- OFFSET. -/
def rzOff (a : Nat) : Nat := bits a 0 48
/-- The core of an offset in space 0x0, 0x3, 0x4 or 0xF. -/
def rzCore (a : Nat) : Nat := bits a 40 8
/-- The core offset. -/
def rzCoreOff (a : Nat) : Nat := bits a 0 40
/-- A Rinaz address from its fields. -/
def rzMake (dev space off : Nat) : Nat := dev % 4096 * 2 ^ 52 + space % 16 * 2 ^ 48 + off % 2 ^ 48

/-- Scratchpad bytes of a core (R235). -/
def spadBytes : Nat := 0x7000000

/-- Is the space code listed in Table 14-2? -/
def spaceListed (s : Nat) : Bool := s ≤ 4 || s == 15

/-- The grade of a logical device: the own one, or that of the device map (R348, R358). -/
def Device.gradeOfDev (d : Device) (n : Nat) : Option Grade :=
  if n = d.devNum then some d.grade else Grade.ofMap (Sparse.get 0 d.fabric.map n)

/-- Does a Rinaz address name an instruction store? -/
def inIstore (a : Nat) : Bool := (rzSpace a == 0 || rzSpace a == 15) && bitAt a 39

/-- Is every byte of [a, a + n) at a valid offset of its space on a grade (R345)? -/
def rzValid (g : Grade) (a n : Nat) : Bool :=
  match rzSpace a with
  | 1 => g.dramIn (rzOff a) n && decide (rzOff a + n ≤ g.stacks * stackBytes)
  | 2 => rzOff a + n ≤ 0x9000000
  | 3 => decide (rzCore a < g.cores) && bits a 7 33 == 0
  | 4 => decide (rzCore a < g.cores) && bits a 6 34 == 0 && decide (bits a 0 6 < 48)
  | _ => decide (rzCore a < g.cores) && (decide (rzCoreOff a + n ≤ spadBytes)
      || (decide (0x8000000000 ≤ rzCoreOff a) && decide (rzCoreOff a + n ≤ 0x8000080000)))

/-- The device number on which a hall check of R164 is made: space 0xF takes the acting device's own number. -/
def Device.hallDev (d : Device) (a : Nat) : Nat := if rzSpace a = 15 then d.devNum else rzDev a

/-- The hall check of R164. -/
def Device.hallOk (d : Device) (b : BitVec 256) (a : Nat) : Bool :=
  let n := d.hallDev a
  let bit := if rzSpace a = 15 then 5 else rzSpace a
  decide (hallLo b ≤ n) && decide (n ≤ hallHi b) && bitAt (hallSpaces b) bit

/-! ### The descriptor (Table 11-2) -/

/-- A copy descriptor. -/
structure CD where
  /-- DST_ADDR. -/
  dst : Nat
  /-- SRC_ADDR. -/
  src : Nat
  /-- DST_PITCH. -/
  dstPitch : Int
  /-- SRC_PITCH. -/
  srcPitch : Int
  /-- POS. -/
  pos : Nat
  /-- BUF. -/
  buf : Nat
  /-- ROW_LEN. -/
  rowLen : Nat
  /-- ROWS. -/
  rows : Nat
  /-- KEY_N. -/
  keyN : Nat
  /-- KEY_NUM. -/
  keyNum : Nat
  /-- KEY_KIND. -/
  keyKind : Nat
  /-- DST_KIND. -/
  dstKind : Nat
  /-- SRC_KIND. -/
  srcKind : Nat
  /-- DST_FMT. -/
  dstFmt : Nat
  /-- SRC_FMT. -/
  srcFmt : Nat
  /-- CVT. -/
  cvt : Bool
  /-- RND. -/
  rnd : Bool

/-- The fields of a descriptor. -/
def cd (x : Nat) : CD :=
  { dst := bits x 448 64, src := bits x 384 64, dstPitch := toSigned (bits x 352 32) 32,
    srcPitch := toSigned (bits x 320 32) 32, pos := bits x 224 32, buf := bits x 208 16, rowLen := bits x 184 24,
    rows := bits x 168 16, keyN := bits x 160 8, keyNum := bits x 154 6, keyKind := bits x 152 2,
    dstKind := bits x 149 3, srcKind := bits x 146 3, dstFmt := bits x 143 3, srcFmt := bits x 140 3,
    cvt := bitAt x 139, rnd := bitAt x 138 }

/-- Elements of one row: of the formats when CVT = 1, else bytes (R266, R267). -/
def CD.elems (c : CD) : Nat := if c.cvt then c.rowLen * 8 / (fmtOfTy c.srcFmt).width else c.rowLen

/-- Destination bytes of one row (R267). -/
def CD.dstRow (c : CD) : Nat := if c.cvt then c.elems * (fmtOfTy c.dstFmt).width / 8 else c.rowLen

/-- Does CVT = 1 break R267, or R375 at level 1? -/
def CD.cvtBad (c : CD) (level : Nat) : Bool :=
  c.cvt && (c.rowLen * 8 % (fmtOfTy c.srcFmt).width != 0 || c.elems * (fmtOfTy c.dstFmt).width % 8 != 0
    || (level == 1 && (c.srcFmt == 2 || c.srcFmt == 7 || c.dstFmt == 2 || c.dstFmt == 7)))

/-- The lowest byte and the length of the span of an endpoint (R263). -/
def spanOf (base : Nat) (pitch : Int) (rows len : Nat) : Int × Nat :=
  let far := pitch * ((rows - 1 : Nat) : Int)
  ((base : Int) + min 0 far, far.natAbs + len)

/-- The span of the source. -/
def CD.srcSpan (c : CD) : Int × Nat := spanOf c.src c.srcPitch c.rows c.rowLen

/-- The span of the destination. -/
def CD.dstSpan (c : CD) : Int × Nat := spanOf c.dst c.dstPitch c.rows c.dstRow

/-- The descriptor that a CU slot uses, after any RST (Table 11-1, R261). -/
def Core.copyDescAt (k : Core) (t slot : Nat) : Nat :=
  let n := 256 * t + bits slot 48 8
  let x := (Sparse.get 0 k.copyDesc n).toNat
  let g := (Sparse.get 0 k.copyDescImg n).toNat
  if bitAt slot 47 then setBits (setBits (setBits x 448 64 (bits g 448 64)) 384 64 (bits g 384 64)) 224 32 (bits g 224 32)
  else x

/-- The descriptor after issue: advanced when NOADV = 0 (R266). -/
def advanceDesc (x slot : Nat) : Nat :=
  if bitAt slot 46 then x
  else
    let c := cd x
    let dst := (c.dst + ofSigned (toSigned (bits x 288 32) 32) 64) % 2 ^ 64
    let src := (c.src + ofSigned (toSigned (bits x 256 32) 32) 64) % 2 ^ 64
    let pos := (c.pos + c.elems * c.rows) % 2 ^ 32
    setBits (setBits (setBits x 448 64 dst) 384 64 src) 224 32 pos

/-! ### Windows of DRAM (Table 11-6) -/

/-- CORE of a window entry. -/
def weCore (e : Nat) : Nat := bits e 56 8
/-- STACK. -/
def weStack (e : Nat) : Nat := bits e 53 3
/-- GROUPS. -/
def weGroups (e : Nat) : Nat := bits e 45 8
/-- DIR. -/
def weWrite (e : Nat) : Bool := bitAt e 44
/-- FIRST. -/
def weFirst (e : Nat) : Nat := bits e 34 10
/-- COUNT. -/
def weCount (e : Nat) : Nat := bits e 24 10
/-- STRIDE. -/
def weStride (e : Nat) : Nat := bits e 19 5
/-- PHASE. -/
def wePhase (e : Nat) : Nat := bits e 15 4

/-- The window entries of every bound task, each with its table's period (R276). -/
def Device.windowEntries (d : Device) : List (Nat × Nat) :=
  d.boundSlots.flatMap (fun t => (d.task t).windows.map (fun e => ((d.task t).period, e.toNat)))

/-- Stack and group of a DRAM unit numbered from physical address 0 (R274). -/
def unitStack (u : Nat) : Nat := u * 256 / stackBytes
/-- The group of a DRAM unit. -/
def unitGroup (u : Nat) : Nat := u * 256 % stackBytes / 256 % 8

/-- Does some entry of core c, in any phase, cover the stack and group of unit u in a direction (R280)? -/
def Device.covered (d : Device) (c u : Nat) (write : Bool) : Bool :=
  d.windowEntries.any (fun e => weCore e.2 == c && weStack e.2 == unitStack u && bitAt (weGroups e.2) (unitGroup u)
    && weWrite e.2 == write)

/-! ### The checks at issue -/

/-- The rows of an endpoint as address and length. -/
def rowsAt (base : Nat) (pitch : Int) (rows len : Nat) : List (Nat × Nat) :=
  (List.range rows).map (fun (i : Nat) => (((base : Int) + pitch * (i : Int)).toNat, len))

/-- Does a span lie within [0, size)? -/
def spanIn (s : Int × Nat) (size : Nat) : Bool := decide (0 ≤ s.1) && decide (s.1 + (s.2 : Int) ≤ (size : Int))

/-- What is wrong with a hall endpoint: its space, its device, its hall check, its offsets (R151, R164, R264, R345, R346,
R348). `isOpen` is the kind HALL_OPEN. DESIGN CHOICE (log 87): where a destination in an instruction store breaks another check
too, the spec does not say which fault it is; the checks run in the order written, and INSTR_WRITE comes last. -/
def Device.hallBad (d : Device) (b : BitVec 256) (isOpen write : Bool) (a : Nat) (span : Int × Nat) : Option Bad :=
  let sp := rzSpace a
  let own := d.devNum
  if !spaceListed sp then some ⟨0x0109, 0, 5, a⟩
  else if isOpen && (sp == 3 || sp == 4 || sp == 15) then some ⟨0x0102, 1, 5, a⟩
  else if !isOpen && !(sp == 0 || sp == 15) then some ⟨0x0102, 1, 5, a⟩
  else if sp == 15 && rzDev a != 0 then some (badRef 5 a)
  else if !isOpen && sp == 0 && rzDev a != own then some ⟨0x0102, 1, 5, a⟩
  else if isOpen && rzDev a == own then some ⟨0x0102, 1, 5, a⟩
  else if !d.hallOk b a then some (badRef 5 a)
  else
    match d.gradeOfDev (d.hallDev a) with
    | none => some (badRef 5 a)
    | some g =>
      let hi : Nat := a / 2 ^ 40 * 2 ^ 40
      let lo : Nat := a / 2 ^ 48 * 2 ^ 48
      let inCore := sp == 1 || sp == 2 || (decide ((hi : Int) ≤ span.1) && decide (span.1 + (span.2 : Int) ≤ (hi : Int) + 1099511627776))
      let inSpace := decide ((lo : Int) ≤ span.1)
      if !inCore || !inSpace || !rzValid g span.1.toNat span.2 then some (badRef 5 a)
      else if inIstore a then some (if write then ⟨0x0103, 0, 5, a⟩ else badRef 5 a)
      else if !isOpen && (d.core (rzCore a)).absent then some (badRef 5 a)
      else none

/-- What is wrong with one endpoint of a copy (Table 11-3, R164, R280, R548). -/
def Device.endBad (d : Device) (c : Nat) (b : BitVec 256) (write : Bool) (kind a : Nat) (pitch : Int) (rows len : Nat) :
    Option Bad :=
  let span := spanOf a pitch rows len
  match kind with
  | 0 => if spanIn span (spLen b * 4096) then none else some (badRef 2 a)
  | 1 =>
    if !spanIn span (dramLen b * 2 ^ 20) then some (badRef 3 a)
    else
      let us := (rowsAt (dramBase b * 2 ^ 20 + a) pitch rows len).flatMap (fun r => unitsOf 256 r.1 r.2)
      if us.all (fun u => d.covered c u write && !(d.stack (unitStack u)).absent) then none else some (badRef 3 a)
  | 2 => if spanIn span (stageLen b * 65536) then none else some (badRef 4 a)
  | 3 => d.hallBad b false write a span
  | 4 => d.hallBad b true write a span
  | _ => some (badDesc 0)

/-- The kind and physical or Rinaz address of row 0 of an endpoint: a HALL address that names the issuing core is LOCAL
(R263). -/
def endAt (c : Nat) (b : BitVec 256) (kind a : Nat) : Nat × Nat :=
  match kind with
  | 0 => (0, spadPa b a)
  | 1 => (1, dramBase b * 2 ^ 20 + a)
  | 2 => (2, stageBase b * 65536 + a)
  | 3 => if rzCore a = c then (0, rzCoreOff a) else (3, a)
  | _ => (kind, a)

/-- A Rinaz address with space 0xF replaced by what it names: space 0x0 of the acting device (R346). -/
def Device.named (d : Device) (a : Nat) : Nat := if rzSpace a = 15 then rzMake d.devNum 0 (rzOff a) else a

/-- Do both endpoints, with addresses by the names of `named`, lie in the same memory (R264, R346)? -/
def sameMemory (s t : Nat × Nat) : Bool :=
  s.1 == t.1 && (decide (s.1 < 3) || s.2 / 2 ^ 48 == t.2 / 2 ^ 48 && (rzSpace s.2 != 0 || rzCore s.2 == rzCore t.2))

/-- What is wrong with a `cu.copy` (R264, R270, R348), in the order of Table 11-2's checks. -/
def Device.copyBad (d : Device) (c t level slot : Nat) : Option Bad :=
  let k := d.core c
  let b := k.bound t
  let x := cd (k.copyDescAt t slot)
  if bits slot 0 46 != 0 then some badField
  else if 5 ≤ x.srcKind || 5 ≤ x.dstKind || x.keyKind == 3 || x.rows == 0 || x.rowLen == 0 || x.cvtBad level then
    some (badDesc 0)
  else if x.keyKind == 2 && !((x.dstKind == 3 || x.dstKind == 4) && rzSpace x.dst == 0) then
    some ⟨0x0102, 1, 7, x.keyNum⟩
  else if x.keyKind == 2 && 48 ≤ x.keyNum then some ⟨0x0102, 1, 7, x.keyNum⟩
  else
    match d.endBad c b false x.srcKind x.src x.srcPitch x.rows x.rowLen with
    | some e => some e
    | none =>
      match d.endBad c b true x.dstKind x.dst x.dstPitch x.rows x.dstRow with
      | some e => some e
      | none =>
        let plain := fun (y : Nat × Nat) => if y.1 = 3 then (y.1, d.named y.2) else y
        let s := plain (endAt c b x.srcKind x.src)
        let e := plain (endAt c b x.dstKind x.dst)
        let ss := spanOf s.2 x.srcPitch x.rows x.rowLen
        let es := spanOf e.2 x.dstPitch x.rows x.dstRow
        if x.keyKind == 1 && kCount b ≤ x.keyNum then some (badRef 7 x.keyNum)
        else if x.keyKind == 2 && !bitAt (hallSpaces b) 4 then some (badRef 7 x.keyNum)
        else if x.cvt && x.srcKind == 4 && x.dstKind == 4 then some (badRef 5 x.dst)
        else if sameMemory s e && overlaps ss.1.toNat ss.2 es.1.toNat es.2 then
          some ⟨0x0102, 1, if x.dstKind = 0 then 2 else x.dstKind + 2, x.dst⟩
        else none

/-- The ranges of own scratchpad that a `cu.copy` reads and writes, as lowest byte and length (R156). -/
def Core.copyRanges (k : Core) (c t slot : Nat) : List (Nat × Nat) × List (Nat × Nat) :=
  let b := k.bound t
  let x := cd (k.copyDescAt t slot)
  let s := endAt c b x.srcKind x.src
  let e := endAt c b x.dstKind x.dst
  let ss := spanOf s.2 x.srcPitch x.rows x.rowLen
  let es := spanOf e.2 x.dstPitch x.rows x.dstRow
  (if s.1 = 0 then [(ss.1.toNat, ss.2)] else [], if e.1 = 0 then [(es.1.toNat, es.2)] else [])

/-! ### Pieces -/

/-- Cut a run of n bytes at address a into pieces that cross no multiple of u: offset in the stream, address, length. -/
def cutAt (u off a n : Nat) : List (Nat × Nat × Nat) :=
  (unitsOf u a n).map (fun i =>
    let lo := max a (i * u)
    let hi := min (a + n) (i * u + u)
    (off + (lo - a), lo, hi - lo))

/-- Cut a run of n bytes into pieces of 448 B from its first byte (R355). -/
def cut448 (off a n : Nat) : List (Nat × Nat × Nat) :=
  (List.range ((n + 447) / 448)).map (fun i => (off + 448 * i, a + 448 * i, min 448 (n - 448 * i)))

/-- The pieces of a row in a memory of a kind (R243, R274, R355). -/
def cutKind (kind off a n : Nat) : List (Nat × Nat × Nat) :=
  match kind with
  | 1 => cutAt 256 off a n
  | 4 => cut448 off a n
  | _ => cutAt 64 off a n

/-- The source pieces of a copy, in the order in which the engine makes them. -/
def Copy.srcPieces (k : Copy) : List (Nat × Nat × Nat) :=
  let x := cd k.desc.toNat
  if k.readBytes = 0 then []
  else if k.receive then cutKind k.srcKind 0 k.srcBase k.readBytes
  else (List.range x.rows).flatMap (fun (i : Nat) =>
    cutKind k.srcKind (i * x.rowLen) ((k.srcBase : Int) + x.srcPitch * (i : Int)).toNat x.rowLen)

/-- The destination pieces of a copy, in the order in which the engine makes them. The bytes of each READ_DATA packet are
cut on their own, unless they convert. -/
def Copy.dstPieces (k : Copy) : List (Nat × Nat × Nat) :=
  let x := cd k.desc.toNat
  if k.receive then
    if k.srcKind = 4 then
      cutKind k.dstKind 0 k.dstBase 32
        ++ k.srcPieces.flatMap (fun p => cutKind k.dstKind (32 + p.1) (k.dstBase + 32 + p.1) p.2.2)
    else cutKind k.dstKind 0 k.dstBase k.writeBytes
  else if k.srcKind = 4 && !x.cvt && k.dstKind != 4 then
    k.srcPieces.flatMap (fun p =>
      cutKind k.dstKind p.1
        (((k.dstBase : Int) + x.dstPitch * ((p.1 / x.rowLen : Nat) : Int)).toNat + p.1 % x.rowLen) p.2.2)
  else (List.range x.rows).flatMap (fun (i : Nat) =>
    cutKind k.dstKind (i * x.dstRow) ((k.dstBase : Int) + x.dstPitch * (i : Int)).toNat x.dstRow)

/-- Has the source piece at an offset been read? -/
def Copy.hasGot (k : Copy) (off : Nat) : Bool := k.got.any (fun g => g.1 == off)

/-- Has the destination piece at an offset been written or sent? -/
def Copy.hasPut (k : Copy) (off : Nat) : Bool := k.put.any (fun p => p.1 == off)

/-- Source bytes read. -/
def Copy.gotBytes (k : Copy) : Nat := k.got.foldl (fun a g => a + g.2.1) 0

/-- Destination bytes written or sent. -/
def Copy.putBytes (k : Copy) : Nat := k.put.foldl (fun a p => a + p.2) 0

/-- The source bytes that a run of destination bytes takes: offset and length. -/
def Copy.needs (k : Copy) (off n : Nat) : Nat × Nat :=
  let x := cd k.desc.toNat
  if k.receive then (off - 32, off + n - 32 - (off - 32))
  else if x.cvt then
    let r := off / x.dstRow
    let y := off % x.dstRow
    let wd := (fmtOfTy x.dstFmt).width
    let ws := (fmtOfTy x.srcFmt).width
    let e0 := y * 8 / wd
    let e1 := ((y + n) * 8 + wd - 1) / wd
    let s0 := e0 * ws / 8
    (r * x.rowLen + s0, (e1 * ws + 7) / 8 - s0)
  else (off, n)

/-- The local cycle in which a destination piece became ready: that of the last source byte it needs, once all are read. -/
def Copy.readyAt (k : Copy) (off n : Nat) : Option Nat :=
  let (s, m) := k.needs off n
  let need := k.srcPieces.filter (fun p => overlaps p.1 p.2.2 s m)
  if need.all (fun p => k.hasGot p.1) then
    some ((k.got.filter (fun g => overlaps g.1 g.2.1 s m)).foldl (fun a g => max a g.2.2) k.ready)
  else none

/-- Source bytes with their marks. -/
def Copy.srcBytes (k : Copy) (off n : Nat) : List (BitVec 8 × Bool) := Sparse.getMany (0, false) k.data off n

/-- A run of destination bytes with marks, and the flags of the conversions that form it (R250, R267, R268). -/
def Copy.dstBytes (k : Copy) (seed coreField off n : Nat) : List (BitVec 8 × Bool) × Nat :=
  let x := cd k.desc.toNat
  if k.receive then
    (((List.range n).map (fun i =>
      if off + i < 32 then (nth k.head (off + i) 0, false)
      else Sparse.get (0, false) k.data (off + i - 32))), 0)
  else if x.cvt then
    let fs := fmtOfTy x.srcFmt
    let fd := fmtOfTy x.dstFmt
    let r := off / x.dstRow
    let y := off % x.dstRow
    let e0 := y * 8 / fd.width
    let e1 := ((y + n) * 8 + fd.width - 1) / fd.width
    let row := k.srcBytes (r * x.rowLen + e0 * fs.width / 8) ((e1 * fs.width + 7) / 8 - e0 * fs.width / 8)
    let skip := e0 - e0 * fs.width / 8 * 8 / fs.width
    let es := (List.range (e1 - e0)).map (fun i =>
      let (c, m) := unpackAt fs row (skip + i)
      let rnd := if x.rnd then Rnd.stoch (draw seed coreField x.buf (x.pos + r * x.elems + e0 + i)) else Rnd.near
      (convert fs fd c rnd, m))
    let packed := packBytes fd (es.map (fun z => (BitVec.ofNat 32 z.1.1, z.2)))
    let drop := y - e0 * fd.width / 8
    ((packed.drop drop).take n, orFlags (es.map (fun z => z.1.2)))
  else (k.srcBytes off n, 0)

/-- The Rinaz address to which the piece of a remote source at an offset returns (R355). For a destination of kind DRAM or
STAGE it is the address in space 0x1 or 0x2 (log 26). -/
def Copy.returnTo (k : Copy) (dev c off : Nat) : Nat :=
  let x := cd k.desc.toNat
  let base := match k.dstKind with
    | 0 => rzMake dev 0 (c * 2 ^ 40 + k.dstBase % 2 ^ 40)
    | 1 => rzMake dev 1 k.dstBase
    | 2 => rzMake dev 2 k.dstBase
    | 3 => rzMake dev 0 (rzOff k.dstBase)
    | _ => k.dstBase
  if k.receive then base + 32 + off
  else
    let r := off / max 1 x.rowLen
    let y := off - r * x.rowLen
    let z := if x.cvt then y * 8 / (fmtOfTy x.srcFmt).width * (fmtOfTy x.dstFmt).width / 8 else y
    ((base : Int) + x.dstPitch * (r : Int) + (z : Int)).toNat

/-- The destination bytes that n source bytes from an offset form, within a row (R267, R349). -/
def Copy.formed (k : Copy) (off n : Nat) : Nat :=
  let x := cd k.desc.toNat
  if k.receive || !x.cvt then n
  else
    let y := off % max 1 x.rowLen
    let at_ := fun (b : Nat) => b * 8 / (fmtOfTy x.srcFmt).width * (fmtOfTy x.dstFmt).width / 8
    at_ (y + n) - at_ y

/-- Is the copy complete (Table 11-4)? An open destination completes with its notice. -/
def Copy.complete (k : Copy) : Bool :=
  if k.dstKind = 4 then k.notice.isSome else k.putBytes + k.lost == k.writeBytes

/-- Destination bytes that landed, as the copy's completion counts them (R350). -/
def Copy.landedBytes (k : Copy) : Nat := k.notice.getD k.putBytes

/-! ### Crossings (Table 3-3, R80, R81, R83)

A copy's bytes pass from the region that reads them to the one that writes them through handshake queues: out of a core to its
copy network, over a side link or the two hub links of R19, to a DRAM controller interface or into a core. Each run of source
pieces that begin in the same 256 B of the copy's source bytes is one item. It takes its place in the first queue with the
first of its bytes, moves on when it is whole and the next queue has room, and leaves the last queue when the bytes formed from
it are written (log 80). -/

/-- A copy of a core by its identity. -/
def Core.copyOf (k : Core) (id : Nat) : Option Copy := k.copies.find? (fun x => x.id == id)

/-- The queue of core c toward its copy network. -/
def coreOut (c : Nat) : Nat := c
/-- The queue of the copy network toward core c. -/
def coreIn (c : Nat) : Nat := 256 + c
/-- The queue of a copy network toward the controller interface of stack k. -/
def stackOut (k : Nat) : Nat := 512 + k
/-- The queue of that interface toward its copy network. -/
def stackBack (k : Nat) : Nat := 528 + k
/-- The side link from quarter a to quarter b. -/
def sideLink (a b : Nat) : Nat := 544 + 4 * a + b
/-- The hub link of quarter q toward the hub. -/
def hubUp (q : Nat) : Nat := 576 + q
/-- The hub link of the hub toward quarter q. -/
def hubDown (q : Nat) : Nat := 580 + q

/-- Does a queue hold items of 64 B; any other holds items of 256 B (Table 3-3). -/
def crossSmall (q : Nat) : Bool := 512 ≤ q && q < 544

/-- The depth of a queue (Table 3-3). -/
def crossDepth (q : Nat) : Nat := if q < 512 then 8 else if crossSmall q then 32 else 64

/-- The places that n bytes take in a queue. -/
def crossTakes (q n : Nat) : Nat := if crossSmall q then (n + 63) / 64 else 1

/-- The items in a queue, oldest first. -/
def Device.crossQueue (d : Device) (q : Nat) : List CrossItem := Sparse.get [] d.cross q

/-- Has a queue room for n bytes more? -/
def Device.crossFits (d : Device) (q n : Nat) : Bool :=
  ((d.crossQueue q).foldl (fun s x => s + crossTakes q x.size) 0) + crossTakes q n ≤ crossDepth q

/-- The links between the quarters of two ends (R18, R19); none is the hub. -/
def crossLinks (a b : Option Nat) : List Nat :=
  match a, b with
  | some a, some b => if a = b then [] else if (a + b) % 2 = 1 then [sideLink a b] else [hubUp a, hubDown b]
  | some a, none => [hubUp a]
  | none, some b => [hubDown b]
  | none, none => []

/-- An end of a copy of core c at an address: its own queue, and its quarter. -/
def Device.crossEnd (d : Device) (c kind a : Nat) (out : Bool) : List Nat × Option Nat :=
  match kind with
  | 0 => ([if out then coreOut c else coreIn c], some (d.quarterOf c))
  | 1 => ([if out then stackBack (a / stackBytes) else stackOut (a / stackBytes)], some (a / stackBytes / 2))
  | 3 => ([if out then coreOut (rzCore a) else coreIn (rzCore a)], some (d.quarterOf (rzCore a)))
  | _ => ([], none)

/-- The source pieces of block b of a copy. -/
def Copy.blockOf (k : Copy) (b : Nat) : List (Nat × Nat × Nat) := k.srcPieces.filter (fun p => p.1 / 256 == b)

/-- The destination pieces that take bytes of a source piece. -/
def Copy.takers (k : Copy) (p : Nat × Nat × Nat) : List (Nat × Nat × Nat) :=
  k.dstPieces.filter (fun z => let n := k.needs z.1 z.2.2; overlaps n.1 n.2 p.1 p.2.2)

/-- The queues that block b of copy x of core c passes, in order: none within one scratchpad or within the hub, and none for
what comes from another device in open packets. -/
def Device.crossPath (d : Device) (c : Nat) (x : Copy) (b : Nat) : List Nat :=
  if x.srcKind = 4 || (x.srcKind = 0 && x.dstKind = 0) then []
  else
    match x.blockOf b with
    | [] => []
    | p :: _ =>
      let f := d.crossEnd c x.srcKind p.2.1 true
      let t := d.crossEnd c x.dstKind ((((x.takers p).head?).map (fun z => z.2.1)).getD x.dstBase) false
      f.1 ++ crossLinks f.2 t.2 ++ t.1

/-- Is an item that of block b of copy id of core c? -/
def CrossItem.isOf (i : CrossItem) (c id b : Nat) : Bool := i.core == c && i.copy == id && i.block == b

/-- May the source piece at an offset be read: is its item in a crossing already, or does the first queue have room (R81, R278)? -/
def Device.crossRoom (d : Device) (c : Nat) (x : Copy) (off : Nat) : Bool :=
  let b := off / 256
  match d.crossPath c x b with
  | [] => true
  | q :: r => (q :: r).any (fun j => (d.crossQueue j).any (fun i => i.isOf c x.id b))
      || d.crossFits q ((x.blockOf b).foldl (fun s p => s + p.2.2) 0)

/-- Put an item at the end of a queue; one that comes to a core is numbered, with the core's local cycle (R244). -/
def Device.crossAdd (d : Device) (q : Nat) (i : CrossItem) : Device :=
  let j := { i with cyc := if 256 ≤ q && q < 512 then (d.core (q - 256)).cyc else 0, num := d.crossNum }
  { d with cross := Sparse.upd [] d.cross q (fun l => l ++ [j]), crossNum := d.crossNum + 1 }

/-- The oldest item of a queue moves on, once it is whole and the next queue has room. -/
def Device.crossMove (d : Device) (q : Nat) : Device :=
  match d.crossQueue q with
  | [] => d
  | i :: r =>
    let rest := { d with cross := Sparse.set [] d.cross q r }
    match (d.core i.core).copyOf i.copy with
    | none => rest
    | some x =>
      match ((d.crossPath i.core x i.block).dropWhile (· != q)).drop 1 with
      | [] => d
      | n :: _ => if (x.blockOf i.block).all (fun p => x.hasGot p.1) && d.crossFits n i.size then rest.crossAdd n i else d

/-- Items move on as far as there is room. -/
def Device.crossFlow (d : Device) : Device :=
  (List.range (4 * d.cross.foldl (fun n e => n + e.2.length) 0)).foldl (fun d _ =>
    d.cross.foldl (fun d e => d.crossMove e.1) d) d

/-- The source piece at an offset has been read: its item is in the first queue (R80). -/
def Device.crossPush (d : Device) (c id off : Nat) : Device :=
  match (d.core c).copyOf id with
  | none => d
  | some x =>
    let b := off / 256
    match d.crossPath c x b with
    | [] => d
    | q :: r =>
      let d := if (q :: r).any (fun j => (d.crossQueue j).any (fun i => i.isOf c id b)) then d
        else d.crossAdd q { CrossItem.reset with
          core := c, copy := id, block := b, size := (x.blockOf b).foldl (fun s p => s + p.2.2) 0 }
      d.crossFlow

/-- The items that a run of destination bytes takes, as they stand in the last queue; none where one is not there yet. -/
def Device.crossItems (d : Device) (c : Nat) (x : Copy) (off n : Nat) : Option (List CrossItem) :=
  let m := x.needs off n
  let bs := ((x.srcPieces.filter (fun p => overlaps p.1 p.2.2 m.1 m.2)).map (fun p => p.1 / 256)).eraseDups
  bs.foldl (fun l b =>
    match l, (d.crossPath c x b).getLast? with
    | some l, some q => ((d.crossQueue q).find? (fun i => i.isOf c x.id b)).map (fun i => l ++ [i])
    | l, none => l
    | none, _ => none) (some [])

/-- The local cycle of the writing core, and the number of the arrival, with which a run of destination bytes is ready; none
while its bytes are still to be read or to arrive (R80, R244). -/
def Device.arrivedAt (d : Device) (c : Nat) (x : Copy) (off n : Nat) : Option (Nat × Nat) :=
  match x.readyAt off n, d.crossItems c x off n with
  | some r, some [] => some (r, 0)
  | some _, some l => some (l.foldl (fun a i => (max a.1 i.cyc, max a.2 i.num)) (0, 0))
  | _, _ => none

/-- The items of copy id of core c whose bytes are all written or sent leave the crossings (R81). -/
def Device.crossTake (d : Device) (c id : Nat) : Device :=
  match (d.core c).copyOf id with
  | none => d
  | some x =>
    let gone := fun (b : Nat) => (x.blockOf b).all (fun p => (x.takers p).all (fun z => x.hasPut z.1))
    { d with cross := Sparse.mapVals [] d.cross (fun l =>
        l.filter (fun i => !(i.core == c && i.copy == id && gone i.block))) }.crossFlow

/-! ### Open packets (Table 13-6) -/

/-- The header of an open packet, as 32 B. -/
def mkHdr (dest aux srcDev srcCore op len tag : Nat) (last : Bool) (key keyN hops : Nat) : List (BitVec 8) :=
  leBytes 32 (hops % 32 * 2 ^ 59 + keyN % 256 * 2 ^ 64 + key % 64 * 2 ^ 72 + b2n last * 2 ^ 78 + tag % 2 ^ 16 * 2 ^ 79
    + len % 512 * 2 ^ 95 + op % 16 * 2 ^ 104 + srcCore % 256 * 2 ^ 108 + srcDev % 4096 * 2 ^ 116 + aux % 2 ^ 64 * 2 ^ 128
    + dest % 2 ^ 64 * 2 ^ 192)

/-- DEST of a packet. -/
def Packet.dest (p : Packet) : Nat := bits (leNat p.hdr) 192 64
/-- AUX. -/
def Packet.aux (p : Packet) : Nat := bits (leNat p.hdr) 128 64
/-- SRC_DEV. -/
def Packet.srcDev (p : Packet) : Nat := bits (leNat p.hdr) 116 12
/-- SRC_CORE. -/
def Packet.srcCore (p : Packet) : Nat := bits (leNat p.hdr) 108 8
/-- OP. -/
def Packet.op (p : Packet) : Nat := bits (leNat p.hdr) 104 4
/-- LEN. -/
def Packet.len (p : Packet) : Nat := bits (leNat p.hdr) 95 9
/-- TAG. -/
def Packet.tag (p : Packet) : Nat := bits (leNat p.hdr) 79 16
/-- LAST. -/
def Packet.last (p : Packet) : Bool := bitAt (leNat p.hdr) 78
/-- KEY. -/
def Packet.key (p : Packet) : Nat := bits (leNat p.hdr) 72 6
/-- KEY_N. -/
def Packet.keyN (p : Packet) : Nat := bits (leNat p.hdr) 64 8
/-- HOPS_LEFT. -/
def Packet.hops (p : Packet) : Nat := bits (leNat p.hdr) 59 5

/-- The poison mask of data in an open packet: bit i for the i-th aligned 8 B of the payload, whose first 32 B are the
header (R289, Table 13-1). -/
def poisonMask (data : List (BitVec 8 × Bool)) : Nat :=
  maskOf 60 (fun i => decide (4 ≤ i) && (List.range 8).any (fun j => (nth data (8 * i + j - 32) (0, false)).2))

/-- The poison mask of a slot's payload: bit i for its i-th 8 B (Table 13-1). -/
def payloadMask (data : List (BitVec 8 × Bool)) : Nat :=
  maskOf 60 (fun i => (List.range 8).any (fun j => (nth data (8 * i + j) (0, false)).2))

/-- The data of a packet with its marks. -/
def Packet.marked (p : Packet) : List (BitVec 8 × Bool) :=
  (List.range p.data.length).map (fun i => (nth p.data i 0, bitAt p.poison ((32 + i) / 8)))

/-- Has the local-origin FIFO of the port toward a device room for a packet (R333, R336)? -/
def Device.roomFor (d : Device) (dev : Nat) : Bool :=
  let p := Sparse.get 0 d.fabric.routes dev
  dev == d.devNum || decide ((Sparse.get [] (d.port p).fifos 63).length < 32)

/-- The 480 B payload of an open slot (R334). -/
def Packet.payload (p : Packet) : List (BitVec 8) := slice (p.hdr ++ p.data) 0 480

/-- The packets that wait enter the local-origin FIFO, oldest first, as far as its 32 places reach (R333, R336). -/
def Port.feed (p : Port) : Port :=
  let room := 32 - (Sparse.get [] p.fifos 63).length
  if p.localWait.isEmpty || room = 0 then p
  else { p with fifos := Sparse.upd [] p.fifos 63 (fun l => l ++ p.localWait.take room), localWait := p.localWait.drop room }

/-- Put a packet of the device's own into the local-origin FIFO of the port that the route table names, or, while that is full,
behind those that wait for it (R333, R335, R336). One
that names the device itself is delivered there. A shadow sends READY for it, by its number in that FIFO and with plan
position 0 (R515, log 33). -/
def Device.sendPacket (d : Device) (dev : Nat) (pk : Packet) : Device :=
  if dev = d.devNum then { d with fabric := { d.fabric with openIn := d.fabric.openIn ++ [{ pk with port := 63 }] } }
  else
    let r := Sparse.get 0 d.fabric.routes dev
    let n := (d.port r).localNum
    let pk := { pk with port := 63, beat := d.gate.e, v := n }
    let d := d.onPort r (fun p => { p with localWait := p.localWait ++ [pk], localNum := n + 1 }.feed)
    if d.twin.role = 5 then d.twinSend 3 n 0 0xFF r (leBytes 4 (crc32c (pk.payload ++ leBytes 8 pk.poison))) else d

/-- A packet that a core of task t originates, with its bytes in the ledger (R569). -/
def Device.originate (d : Device) (t dev : Nat) (pk : Packet) : Device :=
  (d.meterFabric (some t) (32 + pk.data.length)).sendPacket dev pk

/-! ### Effects -/

/-- Change one copy of a core. -/
def Device.onCopy (d : Device) (c id : Nat) (f : Copy → Copy) : Device :=
  d.onCore c (fun k => { k with copies := k.copies.map (fun x => if x.id = id then f x else x) })

/-- The seed and core field of draws that a copy of core c makes (R113, R143). -/
def Device.drawKey (d : Device) (c t : Nat) : Nat × Nat :=
  ((d.task t).seed.toNat, if (d.task t).canonical then 0 else c)

/-- Clear the read-pending range of a copy whose last source byte has been read (R158, R269). -/
def Device.clearSource (d : Device) (c id : Nat) : Device :=
  match (d.core c).copyOf id with
  | none => d
  | some x =>
    if !x.srcClear && x.gotBytes == x.readBytes then
      (d.onCopy c id (fun x => { x with srcClear := true })).onCore c (fun k => { k with
        scoreboard := k.scoreboard.filter (fun r => !(r.copy == id && !r.write)) })
    else d

/-- Source bytes of a copy arrive: at an offset, in the present local cycle of the issuing core, with the source code
and address of Table 10-5 (R251). -/
def Device.copyGot (d : Device) (c id off : Nat) (data : List (BitVec 8 × Bool)) (source addr : Nat) : Device :=
  match (d.core c).copyOf id with
  | none => d
  | some x =>
    let d := d.onCopy c id (fun x => { x with
      data := Sparse.setMany (0, false) x.data off data,
      got := x.got ++ [(off, data.length, (d.core c).cyc)] })
    let d := d.countCore c 22 data.length
    let d := match (List.range data.length).find? (fun i => (nth data i (0, false)).2) with
      | some i => d.consume x.slot c ((addr + i) / 8 * 8) source 1
      | none => d
    (d.clearSource c id).crossPush c id off

/-- The address of a source piece as Table 10-5 names it: task-relative, or the Rinaz offset. -/
def Device.sourceRef (d : Device) (c : Nat) (x : Copy) (a : Nat) : Nat × Nat :=
  let b := (d.core c).bound x.slot
  match x.srcKind with
  | 0 => (0, a - spBase b * 4096)
  | 1 => (1, a - dramBase b * 2 ^ 20)
  | 2 => (2, a - stageBase b * 65536)
  | _ => (3, rzOff a)

/-- Flags that a copy of core c raises: with those of the sc that the core has open, after any clear of it (R116, R168). -/
def Device.raiseCopy (d : Device) (c t flags : Nat) : Device :=
  match (d.core c).issue with
  | none => d.raise c t flags
  | some i =>
    if flags = 0 || i.done.contains 9 then d.raise c t flags
    else d.onCore c (fun k => { k with issue := some { i with late := i.late ++ [(t, flags)] } })

/-- A destination piece of a copy has been formed: its bytes, and the flags that accrue (R116). -/
def Device.copyForm (d : Device) (c : Nat) (x : Copy) (off n : Nat) : List (BitVec 8 × Bool) × Device :=
  let (seed, cf) := d.drawKey c x.slot
  let (bs, fl) := x.dstBytes seed cf off n
  (bs, ((d.raiseCopy c x.slot fl).onCopy c x.id (fun y => { y with put := y.put ++ [(off, n)] })).crossTake c x.id)

/-- Move what waits for no bank and no tick: bytes from and to hub staging, and open packets while the local-origin FIFO
has room (R355). -/
def Device.copyFlow (d : Device) (c id : Nat) : Device :=
  match (d.core c).copyOf id with
  | none => d
  | some x =>
    let key := cd x.desc.toNat
    let tag := id
    -- reads of hub staging
    let d := if x.srcKind = 2 then
        x.srcPieces.foldl (fun d p =>
          if x.hasGot p.1 || !d.crossRoom c x p.1 then d
          else
            let (bs, d) := d.stageRead p.2.1 p.2.2
            let (s, a) := d.sourceRef c x p.2.1
            d.copyGot c id p.1 bs s a) d
      else d
    -- requests to a remote source
    let d := if x.srcKind = 4 then
        let ps := x.srcPieces
        ps.foldl (fun d p =>
          match (d.core c).copyOf id with
          | none => d
          | some y =>
            if y.asked.contains p.1 || !d.roomFor (rzDev x.srcBase) then d
            else
              let last := p.1 + p.2.2 == x.readBytes
              let dst := x.returnTo d.devNum c p.1
              let keyed := last && !x.receive && key.keyKind == 2 && key.keyN != 0
              let h := mkHdr p.2.1 dst d.devNum c 1 p.2.2 tag last (if keyed then key.keyNum else 0)
                (if keyed then key.keyN else 0) 16
              (d.originate x.slot (rzDev x.srcBase) { Packet.reset with hdr := h }).onCopy c id (fun z => { z with
                asked := z.asked ++ [p.1] })) d
      else d
    -- writes to hub staging, and packets to a remote destination
    if x.dstKind = 2 then
      x.dstPieces.foldl (fun d p =>
        match (d.core c).copyOf id with
        | none => d
        | some y =>
          if y.hasPut p.1 || (d.arrivedAt c y p.1 p.2.2).isNone then d
          else
            let (bs, d) := d.copyForm c y p.1 p.2.2
            d.stageWrite p.2.1 bs) d
    else if x.dstKind = 4 && x.srcKind != 4 then
      x.dstPieces.foldl (fun d p =>
        match (d.core c).copyOf id with
        | none => d
        | some y =>
          let before := y.dstPieces.takeWhile (fun q => q.1 != p.1)
          if y.hasPut p.1 || (d.arrivedAt c y p.1 p.2.2).isNone || !(before.all (fun q => y.hasPut q.1))
              || !d.roomFor (rzDev x.dstBase) then d
          else
            let (bs, d) := d.copyForm c y p.1 p.2.2
            let last := p.1 + p.2.2 == x.writeBytes
            let keyed := last && key.keyKind == 2 && key.keyN != 0
            let h := mkHdr p.2.1 0 d.devNum c 0 p.2.2 tag last (if keyed then key.keyNum else 0)
              (if keyed then key.keyN else 0) 16
            d.originate x.slot (rzDev x.dstBase)
              { Packet.reset with hdr := h, data := bs.map (·.1), poison := poisonMask bs }) d
    else d

/-- What copies could not move for want of room may move now. -/
def Device.flowAll (d : Device) : Device :=
  d.cores.foldl (fun d e => e.2.copies.foldl (fun d x => d.copyFlow e.1 x.id) d) d

/-- Does copy x of core j read the scratchpad of core c? -/
def Copy.readsOn (x : Copy) (c j : Nat) : Bool := if c = j then x.srcKind == 0 else x.srcKind == 3 && rzCore x.srcBase == c

/-- Is a transfer of core c held back: a read of its scratchpad by a full crossing (R81), or a packet of one of its copies by a
full local-origin FIFO (R336)? -/
def Device.crossHeld (d : Device) (c : Nat) : Bool :=
  d.cores.any (fun e => e.2.copies.any (fun x => x.readsOn c e.1
    && x.srcPieces.any (fun p => !x.hasGot p.1 && !d.crossRoom e.1 x p.1)))
  || (d.core c).copies.any (fun x =>
    (x.srcKind == 4 && decide (x.asked.length < x.srcPieces.length) && !d.roomFor (rzDev x.srcBase))
    || (x.dstKind == 4 && x.srcKind != 4 && !d.roomFor (rzDev x.dstBase)
      && x.dstPieces.any (fun p => !x.hasPut p.1 && (d.arrivedAt c x p.1 p.2.2).isSome)))

/-- Take a copy into flight: its record, its scoreboard ranges and its first movements (R156, R259). Its request reaches the
core that holds its source, where that is another, in that core's present local cycle (R244). -/
def Device.startCopy (d : Device) (c : Nat) (x : Copy) (ranges : List (Nat × Nat × Bool)) : Device :=
  let id := (d.core c).nextCopy
  let far := (d.core (rzCore x.srcBase)).cyc
  let num := d.crossNum
  let d := { d with crossNum := num + 1 }
  let d := d.onCore c (fun k => { k with
    nextCopy := (id + 1) % 2 ^ 16,
    copies := k.copies ++ [{ x with id := id, ready := k.cyc, farAt := far, farNum := num }],
    scoreboard := k.scoreboard ++ ranges.map (fun r => ⟨r.1, r.1 + r.2.1 - 1, r.2.2, id⟩) })
  d.copyFlow c id

/-- The issue of a `cu.copy` (R260 to R266). -/
def Device.issueCopy (d : Device) (c t slot bundle scIdx : Nat) : Device :=
  let k := d.core c
  let b := k.bound t
  let desc := k.copyDescAt t slot
  let x := cd desc
  let s := endAt c b x.srcKind x.src
  let e := endAt c b x.dstKind x.dst
  let (rs, ws) := k.copyRanges c t slot
  let d := d.onCore c (fun k => { k with
    copyDesc := Sparse.set 0 k.copyDesc (256 * t + bits slot 48 8) (BitVec.ofNat 512 (advanceDesc desc slot)) })
  let d := d.countCore c 21 1
  d.startCopy c { Copy.reset with
      slot := t, desc := BitVec.ofNat 512 desc, srcKind := s.1, dstKind := e.1, srcBase := s.2, dstBase := e.2,
      readBytes := x.rowLen * x.rows, writeBytes := x.dstRow * x.rows, issueBundle := bundle, issueSc := scIdx }
    (rs.map (fun r => (r.1, r.2, false)) ++ ws.map (fun r => (r.1, r.2, true)))

end Sys2Proof.Machine
end

