-- ==== Sys2Proof/Machine/Mailbox.lean ====
section
/-! DEFINITION. Machine/Mailbox.lean: mailboxes and relay windows (R446 to R464): the header, the capture of a command, its
status, its result, and the completion ring. -/

namespace Sys2Proof.Machine

open Sys2Proof

/-! ### The command header and body (Table 20-5) -/

/-- The captured header as one number. -/
def Mbx.hdr (m : Mbx) : Nat := leNat (Sparse.getMany 0 m.cmd 0 64)
/-- STAMP_BEAT. -/
def Mbx.stampBeat (m : Mbx) : Nat := bits m.hdr 450 62
/-- RANK. -/
def Mbx.rank (m : Mbx) : Nat := bits m.hdr 448 2
/-- SEQ. -/
def Mbx.hSeq (m : Mbx) : Nat := bits m.hdr 416 32
/-- CODE. -/
def Mbx.hCode (m : Mbx) : Nat := bits m.hdr 408 8
/-- IF_VER. -/
def Mbx.ifVer (m : Mbx) : Nat := bits m.hdr 400 8
/-- TARGET. -/
def Mbx.target (m : Mbx) : Nat := bits m.hdr 388 12
/-- RING. -/
def Mbx.ringBit (m : Mbx) : Bool := bitAt m.hdr 387
/-- BODY_LEN. -/
def Mbx.bodyLen (m : Mbx) : Nat := bits m.hdr 372 12
/-- RESULT_ADDR. -/
def Mbx.resultAddr (m : Mbx) : Nat := bits m.hdr 256 64
/-- RESULT_MAX. -/
def Mbx.resultMax (m : Mbx) : Nat := bits m.hdr 224 32
/-- Is a reserved bit of the header set (R12, R451)? -/
def Mbx.hdrReserved (m : Mbx) : Bool := bits m.hdr 384 3 != 0 || bits m.hdr 320 52 != 0 || bits m.hdr 0 224 != 0

/-- A field of n bytes of the captured body. -/
def Mbx.body (m : Mbx) (off n : Nat) : Nat := leNat (Sparse.getMany 0 m.cmd (0x40 + off) n)

/-- Are the bytes of the body from off to off + n all 0? -/
def Mbx.bodyZero (m : Mbx) (off n : Nat) : Bool := m.body off n == 0

/-- MBX_STATUS (Table 20-6). -/
def Mbx.statusWord (m : Mbx) : Nat :=
  b2n m.trunc * 2 ^ 15 + m.status % 16 * 2 ^ 16 + m.st % 16 * 2 ^ 20 + m.code % 256 * 2 ^ 24 + m.seq % 2 ^ 32 * 2 ^ 32

/-- Bytes 0x808 to 0x827: status, DETAIL, RESULT_LEN and DONE_W. -/
def Mbx.statusBytes (m : Mbx) : List (BitVec 8) :=
  leBytes 8 m.statusWord ++ leBytes 8 m.detail ++ leBytes 8 m.resultLen ++ leBytes 8 m.doneW

/-- The task slot that a body names. -/
def Mbx.slot (m : Mbx) : Nat := m.body 0 1

/-- Does a CODE take a task slot in byte 0 of its body, 0 to 7? -/
def slotCode (code : Nat) : Bool := [0x20, 0x21, 0x22, 0x23, 0x24, 0x25, 0x43, 0x44, 0x45].contains code

/-- The objects that a command holds: slots 0 to 7, 8 the configuration, 9 the flash, 10 the configuration shared (Table 20-12). -/
def Mbx.needs (m : Mbx) : List Nat :=
  let c := m.hCode
  (if slotCode c then [m.slot] else [])
    ++ (if [0x03, 0x04, 0x30, 0x31, 0x32, 0x50, 0x60, 0x61].contains c then [8] else [])
    ++ (if c = 0x10 || c = 0x11 then [9] else [])
    ++ (if [0x20, 0x21, 0x25, 0x45].contains c then [10] else [])

/-- Is a mailbox PENDING or STARTED? -/
def Mbx.busy (m : Mbx) : Bool := m.st == 1 || m.st == 2

/-- The rank of a mailbox (Table 20-1). -/
def rankOf (mb : Nat) : Nat := if mb < 12 then 2 else if mb < 14 then 1 else if mb = 14 then 0 else 3

/-- A relay window. -/
def Device.window (d : Device) (w : Nat) : Mbx := Sparse.get Mbx.reset d.hub.relay w

/-- Change a relay window. -/
def Device.onWindow (d : Device) (w : Nat) (f : Mbx → Mbx) : Device :=
  d.onHub (fun h => { h with relay := Sparse.upd Mbx.reset h.relay w f })

/-! ### The completion ring (R459, R460) -/

/-- A ring entry without PHASE (Table 20-9). -/
def Mbx.ringEntry (m : Mbx) (mb : Nat) : List (BitVec 8) :=
  leBytes 32 (b2n m.trunc * 2 ^ 30 + m.status % 16 * 2 ^ 32 + mb % 16 * 2 ^ 36 + m.code % 256 * 2 ^ 40
    + m.detail % 2 ^ 16 * 2 ^ 48 + m.resultLen % 2 ^ 32 * 2 ^ 64 + m.seq % 2 ^ 32 * 2 ^ 96
    + (m.rank + m.b * 4) % 2 ^ 64 * 2 ^ 128 + m.doneW % 2 ^ 64 * 2 ^ 192)

/-- Write the oldest held ring entry, when there is one, the ring has room and the host link is up (R459, R87). -/
def Device.ringFlush (d : Device) : Device :=
  let r := d.hub.ring
  match r.waiting with
  | [] => d
  | e :: rest =>
    if r.enable && decide (r.used < r.size) && d.host.linkUp then
      let bs := leBytes 32 (leNat e + b2n r.phase * 2 ^ 31)
      let next := (r.tail + 1) % max 1 r.size
      let d := d.hostWrite (r.base + 32 * r.tail) bs
      d.onHub (fun h => { h with ring := { h.ring with
        waiting := rest, tail := next, used := r.used + 1, phase := if next = 0 then !r.phase else r.phase } })
    else d

/-- Give the ring an entry: written at once unless entries are held, or the host link is down (R459, R87). A shadow writes nothing
to host memory (R509). -/
def Device.ringPut (d : Device) (e : List (BitVec 8)) : Device :=
  if !d.hub.ring.enable || d.twin.role == 5 then d
  else
    let first := d.hub.ring.waiting == []
    let d := d.onHub (fun h => { h with ring := { h.ring with waiting := h.ring.waiting ++ [e] } })
    if !d.host.linkUp then d.holdWrite .entry else if first then d.ringFlush else d

/-! ### Pieces between Chanters (R463, R464) -/

/-- An MGMT packet to a mailbox of a device. -/
def Device.mgmtSend (d : Device) (dev mb : Nat) (response : Bool) (off : Nat) (data : List (BitVec 8)) (last : Bool) : Device :=
  let h := mkHdr (rzMake dev 0 mb) (off + b2n response * 2 ^ 63) d.devNum 0xFF 6 data.length 0 last 0 0 16
  (d.meterFabric none (32 + data.length)).sendPacket dev { Packet.reset with hdr := h, data := data }

/-- Send bytes in pieces of at most 448 B in ascending offset order. -/
def Device.mgmtPieces (d : Device) (dev mb : Nat) (response : Bool) (off : Nat) (data : List (BitVec 8)) : Device :=
  let n := (data.length + 447) / 448
  (List.range n).foldl (fun d i =>
    d.mgmtSend dev mb response (off + 448 * i) (slice data (448 * i) (min 448 (data.length - 448 * i))) (i + 1 == n)) d

/-- A piece for the partner's mailbox 14 (R463): AUX holds the offset, LAST in bit 12 and the response bit in bit 24
(log 31). -/
def Device.mbx14Send (d : Device) (response : Bool) (off : Nat) (data : List (BitVec 8)) (last : Bool) : Device :=
  d.twinSend 0x0D d.beat.w 0 0xFF (off % 4096 + b2n last * 2 ^ 12 + b2n response * 2 ^ 24) data

/-- The command of a relay window is done: its result goes to host memory when RESULT_ADDR names it, and the ring gets its
entry (R458, R464). The window shows DONE only once that write has been posted (R87). -/
def Device.windowDone (d : Device) (w : Nat) : Device :=
  let m := d.window w
  let toHost := m.resultAddr != 0 && d.twin.role != 5
  let bs := m.result.take m.resultMax
  if toHost && bs != [] && !d.host.linkUp then d.holdWrite (.window w)
  else
    let d := if toHost && bs != [] then d.hostWrite m.resultAddr bs else d
    let d := d.onWindow w (fun m =>
      if m.resultAddr = 0 then { m with st := 3 }
      else { m with
        st := 3, trunc := m.trunc || decide (m.resultMax < m.result.length), resultLen := bs.length, result := [] })
    if m.ringBit then d.ringPut ((d.window w).ringEntry w) else d

/-- A response piece for a relay window: the status bytes at offset 0x808, the result from 0x840 (R463, R464). A piece for
another SEQ than the window's, or for a window that is not busy, is discarded. -/
def Device.windowPiece (d : Device) (w off : Nat) (data : List (BitVec 8)) (last : Bool) : Device :=
  let m := d.window w
  if !m.busy then d
  else if off = 0x808 then
    let s := fieldLe data 0 8
    if bits s 32 32 != m.seq then d
    else
      let st := bits s 20 4
      let n := fieldLe data 16 8
      let d := d.onWindow w (fun m => { m with
        code := bits s 24 8, status := bits s 16 4, trunc := bitAt s 15, detail := bits (fieldLe data 8 8) 0 16,
        resultLen := n, doneW := fieldLe data 24 8, result := [], st := if st = 3 then 2 else st, ran := st == 3 })
      if st = 3 && n = 0 then d.windowDone w else d
  else if m.ran then
    let d := d.onWindow w (fun m => { m with result := slice m.result 0 (off - 0x840) ++ data })
    if last then d.windowDone w else d
  else d

/-- The mailbox tells a remote issuer of a change of STATE, with the result at DONE (R463). -/
def Device.reply (d : Device) (mb : Nat) : Device :=
  let m := d.mbx mb
  let done := m.st == 3 && m.result != []
  if mb = 12 || mb = 13 then
    match m.source with
    | none => d
    | some src =>
      if src = d.devNum then
        let d := d.windowPiece mb 0x808 m.statusBytes (!done)
        if done then d.windowPiece mb 0x840 m.result true else d
      else
        let d := d.mgmtSend src mb true 0x808 m.statusBytes (!done)
        if done then d.mgmtPieces src mb true 0x840 m.result else d
  else if mb = 14 then
    let d := d.mbx14Send true 0x808 m.statusBytes (!done)
    if done then d.mbx14Send true 0x840 m.result true else d
  else d

/-! ### Completion (R457, R458) -/

/-- Publish the outcome of the command in mailbox mb: result, RESULT_LEN, DETAIL and DONE_W, then DONE; its holds end, and a
ring entry follows when the header asks for one. -/
def Device.publish (d : Device) (mb : Nat) : Device :=
  let m := d.mbx mb
  match m.outcome with
  | none => d
  | some (status, detail, res) =>
    let toHost := decide (mb < 12) && m.resultAddr != 0
    let room := if toHost then m.resultMax else 1984
    let bs := res.take room
    let d := if toHost && bs != [] && d.twin.role != 5 then d.hostWrite m.resultAddr bs else d
    let d := d.onMbx mb (fun m => { m with
      st := 3, status := status, detail := detail, trunc := decide (room < res.length), resultLen := bs.length,
      doneW := d.beat.w, result := if toHost then [] else bs, outcome := none, held := [], copyLeft := none, copyUnits := [] })
    let d := d.reply mb
    if m.ringBit && mb < 12 then d.ringPut ((d.mbx mb).ringEntry mb) else d

/-- Must a command wait for the host link before it completes: it has result bytes for RESULT_ADDR, and the link is down (R87,
R458)? The data of a HOST_COPY has been posted before its outcome is decided. -/
def Device.publishWaits (d : Device) (mb : Nat) : Bool :=
  let m := d.mbx mb
  let data := match m.outcome with
    | some (_, _, res) => mb < 12 && m.resultAddr != 0 && res.take m.resultMax != [] && d.twin.role != 5
    | none => false
  data && !d.host.linkUp

/-- A decided command completes now, or as soon as the host link lets its result go (R87, R612). -/
def Device.complete (d : Device) (mb : Nat) : Device :=
  if d.publishWaits mb then d.holdWrite (.command mb) else d.publish mb

/-- A command is decided and completes (R612). -/
def Device.finish (d : Device) (mb status detail : Nat) (result : List (BitVec 8)) : Device :=
  (d.outcome mb status detail result).complete mb

/-- One held write, now that the host link is up (R87): the oldest held ring entry, or a result, with which its command
completes. -/
def Device.postHeld (d : Device) (x : HeldWrite) : Device :=
  match x with
  | .entry => d.ringFlush
  | .window w => if (d.window w).st = 2 && (d.window w).ran then d.windowDone w else d
  | .command mb => if (d.mbx mb).st = 2 && (d.mbx mb).outcome.isSome then d.publish mb else d

/-! ### Commands that change what others need (R456) -/

/-- An object as it stands. -/
def Device.objNow (d : Device) (o : Nat) : ObjWas :=
  if o < 8 then .slot o (d.task o)
  else if o = 8 then .config d.fabric d.twin.role d.power.device
  else .flash d.boot.staged

/-- The number of an object. -/
def ObjWas.obj : ObjWas → Nat
  | .slot t _ => t
  | .config _ _ _ => 8
  | .flash _ => 9

/-- The command in mailbox mb, if there is one, is about to change object o: every command that waits, had arrived before that
one started and needs o, notes how o stood (R456). -/
def Device.changing (d : Device) (mb : Option Nat) (o : Nat) : Device :=
  match mb with
  | none => d
  | some c =>
    let was := d.objNow o
    (List.range 16).foldl (fun e x =>
      let m := e.mbx x
      if m.st = 1 && m.order < (d.mbx c).startNo && (m.needs.contains o || (o == 8 && m.needs.contains 10))
          && !m.was.any (fun y => y.obj == o) then
        e.onMbx x (fun m => { m with was := m.was ++ [was] })
      else e) d

/-- The device with an object as it was. -/
def ObjWas.put (d : Device) : ObjWas → Device
  | .slot t k => d.setTask t k
  | .config f role device => { d with
      fabric := f, twin := { d.twin with role := role }, power := { d.power with device := device } }
  | .flash staged => { d with boot := { d.boot with staged := staged } }

/-- A command fails a check of its rules: SUPERSEDED when the check would have passed before the changes that commands started
after its arrival have made, else REJECTED_STATE with DETAIL RULE (R456). -/
def Device.refuse (d : Device) (mb : Nat) (bad : Device → Bool) : Device :=
  if bad ((d.mbx mb).was.foldl ObjWas.put d) then d.finish mb 3 9 [] else d.finish mb 2 0 []

/-! ### Arrival (R450, R508) -/

/-- The arrival beat of a command that reaches the Chanter now: the next wall beat, or 0 before alignment (R450, R452). -/
def Device.arrivalBeat (d : Device) : Nat := if d.beat.aligned then d.beat.w + 1 else 0

/-- A command captured in mailbox mb is PENDING with arrival beat a. -/
def Device.pend (d : Device) (mb a : Nat) : Device :=
  let n := d.hub.arrivals
  let d := d.onHub (fun h => { h with arrivals := n + 1 })
  let d := d.onMbx mb (fun m => { m with
    seq := m.hSeq, code := m.hCode, st := 1, status := 0, trunc := false, detail := 0, resultLen := 0, doneW := 0,
    result := [], arrive := a, b := if d.beat.aligned then (if m.stampBeat = 0 then a else m.stampBeat) else 0, order := n,
    ran := false, outcome := none, held := [], startNo := 0, was := [], copyLeft := none, copyUnits := [], poisonSeen := 0, poisonAt := none,
    compare := none })
  d.reply mb

/-- A command reaches mailbox mb. In a primary it goes to the shadow as a COMMAND record, and its arrival beat follows the
shadow's ACK (R508). -/
def Device.accept (d : Device) (mb : Nat) (bytes : List Host.Cell) (source : Option Nat) : Device :=
  let d := d.onMbx mb (fun m => { m with cmd := bytes, source := source, twin := false })
  let d := d.pend mb d.arrivalBeat
  if d.twin.role = 4 then
    let raw := Sparse.getMany 0 bytes 0 2048
    let d := d.twinSend 4 (d.beat.w + 1) 0 0xFF mb (raw.take (0x40 + min 1984 (d.mbx mb).bodyLen))
    d.onTwin (fun t => { t with cmds := t.cmds ++ [(mb, d.beat.w + 1, [])] })
  else d

/-- A command whose SUBMIT and header SEQ differ completes REJECTED_STATE with DETAIL TORN (R450). -/
def Device.torn (d : Device) (mb : Nat) (bytes : List Host.Cell) : Device :=
  ((d.onMbx mb (fun m => { m with cmd := bytes, source := none, twin := false })).pend mb d.arrivalBeat).finish mb 3 8 []

end Sys2Proof.Machine
end

