-- ==== Sys2Proof/Machine/Queues.lean ====
section
/-! DEFINITION. Machine/Queues.lean: message queues (R299 to R317): the queue map, the checks and effects of sends and
receives, arrivals, parking, and the writing of ring entries. -/

namespace Sys2Proof.Machine

open Sys2Proof

/-! ### Queue map entries (Table 12-5) -/

/-- CAPACITY. -/
def qCap (e : Nat) : Nat := bits e 112 16
/-- AKEY. -/
def qAkey (e : Nat) : Nat := bits e 106 6
/-- AKEY_EN. -/
def qAkeyEn (e : Nat) : Bool := bitAt e 105
/-- OPEN. -/
def qOpen (e : Nat) : Bool := bitAt e 104
/-- DATA_MAX. -/
def qDataMax (e : Nat) : Nat := bits e 64 24
/-- RING. -/
def qRing (e : Nat) : Nat := bits e 32 32

/-- The queue map entry of task-relative queue r of slot t. -/
def Core.qEntry (k : Core) (t r : Nat) : Nat := (Sparse.get 0 k.queueMap (128 * t + r)).toNat

/-- The state of a physical queue. -/
def Core.qState (k : Core) (mq : Nat) : QState := Sparse.get QState.reset k.queues mq

/-- Change the state of a physical queue. -/
def Core.onQueue (k : Core) (mq : Nat) (f : QState → QState) : Core :=
  { k with queues := Sparse.upd QState.reset k.queues mq f }

/-- The bound task slot whose queue window holds a physical queue of core c. -/
def Device.queueHolder (d : Device) (c mq : Nat) : Option Nat :=
  (d.slotsOn c).find? (fun t =>
    let b := (d.core c).bound t
    qBase b ≤ mq && mq < qBase b + qCount b)

/-- The physical scratchpad address of ring entry i (R301). -/
def ringPa (b : BitVec 256) (e i : Nat) : Nat := spadPa b (qRing e + 32 * i)

/-! ### Descriptors (Table 12-6) -/

/-- ADDR. -/
def mdAddr (x : Nat) : Nat := bits x 0 64
/-- LENGTH. -/
def mdLen (x : Nat) : Nat := bits x 64 32
/-- SEQ. -/
def mdSeq (x : Nat) : Nat := bits x 144 16
/-- The descriptor with SENDER and SEQ written by the part (R302). -/
def stampDesc (bs : List (BitVec 8)) (sender seq : Nat) : List (BitVec 8) :=
  leBytes 32 (setBits (setBits (leNat (slice bs 0 32)) 128 16 sender) 144 16 seq)

/-! ### Faults of the QK slot that concern poison (R251, R252) -/

/-- The detail of POISON_CONSUMED (Table 10-5) for task t at the present beat. -/
def Device.poisonDetail (d : Device) (t : Nat) : Nat × Nat :=
  let k := d.task t
  match k.consumed with
  | none => (0, 0)
  | some (_, addr, src, beat, sc) =>
    let x := sc % 2 ^ 11 + (min 4096 (d.gate.e - beat)) * 2 ^ 11 + k.consumeCount * 2 ^ 32 + src * 2 ^ 76
      + addr % 2 ^ 48 * 2 ^ 80
    (x / 2 ^ 64, x % 2 ^ 64)

/-- Fault task t on core c with POISON_CONSUMED. -/
def Device.poisonFault (d : Device) (c t sc : Nat) : Device :=
  let (hi, lo) := d.poisonDetail t
  d.fault t 0x0203 0 1 c sc hi lo

/-! ### Sending (R303 to R306) -/

/-- The fields of a QK slot (Tables 12-3 and 12-4). -/
structure QF where
  /-- OPC. -/
  op : Nat
  /-- K. -/
  key : Nat
  /-- N. -/
  n : Nat
  /-- D of the key layout. -/
  kd : Nat
  /-- LANE of the key layout. -/
  klane : Nat
  /-- Reserved bits of the key layout. -/
  krsv : Nat
  /-- Q. -/
  q : Nat
  /-- MASK. -/
  mask : Nat
  /-- ROT. -/
  rot : Bool
  /-- D of the queue layout. -/
  qd : Nat
  /-- LANE of the queue layout. -/
  qlane : Nat
  /-- ADDR, in 32 B units. -/
  addr : Nat
  /-- Reserved bits of the queue layout. -/
  qrsv : Nat

/-- The fields of a QK slot. -/
def qf (s : Nat) : QF :=
  { op := opc s, key := bits s 50 6, n := bits s 34 16, kd := bits s 29 5, klane := bits s 22 7, krsv := bits s 0 22,
    q := bits s 49 7, mask := bits s 41 8, rot := bitAt s 40, qd := bits s 35 5, qlane := bits s 28 7, addr := bits s 6 22,
    qrsv := bits s 0 6 }

/-- The send block of a `q.send` (R303), as it stands in the scratchpad. -/
def Core.sendBlock (k : Core) (t addr : Nat) : List (BitVec 8) :=
  Sparse.getMany 0 k.spad.bytes (spadPa (k.bound t) (addr * 32)) 64

/-- The destination queue address of a send block. -/
def sendDest (blk : List (BitVec 8)) : Nat := fieldLe blk 32 8

/-- What is wrong with a `q.send` (R299, R304, R348). -/
def Device.sendBad (d : Device) (c t : Nat) (f : QF) : Option Bad :=
  let k := d.core c
  let b := k.bound t
  if f.q != 0 || f.mask != 0 || f.rot || f.qd != 0 || f.qlane != 0 || f.qrsv != 0 then some badField
  else if f.addr % 2 != 0 then some ⟨0x0102, 1, 2, f.addr * 32⟩
  else if !spadOk b (f.addr * 32) 64 then some (badRef 2 (f.addr * 32))
  else
    let blk := k.sendBlock t f.addr
    let a := sendDest blk
    if !spaceListed (rzSpace a) then some ⟨0x0109, 0, 8, a⟩
    else if inIstore a then some ⟨0x0103, 0, 8, a⟩
    else if rzSpace a != 3 || bits a 7 33 != 0 then some (badDesc a)
    else if !allZero (slice blk 40 24) then some (badDesc a)
    else if !d.hallOk b a then some (badRef 5 a)
    else
      match d.gradeOfDev (rzDev a) with
      | none => some (badRef 5 a)
      | some g =>
        if !rzValid g a 1 || (rzDev a == d.devNum && (d.core (rzCore a)).absent) then some (badRef 5 a) else none

/-- The effect of a `q.send` that issues: the message leaves with SENDER and SEQ, to a core of the device or as a QMSG
packet (R302, R304, R305). The marks of the descriptor's words go with it (R250). -/
def Device.send (d : Device) (c t : Nat) (block : List (BitVec 8 × Bool)) : Device :=
  let k := d.core c
  let blk := block.map (·.1)
  let marks := maskOf 4 (fun i => ((block.drop (8 * i)).take 8).any (·.2))
  let seq := (Sparse.get 0 k.sendCtr t).toNat
  let desc := stampDesc blk c seq
  let a := sendDest blk
  let id := k.nextCopy
  let d := d.onCore c (fun k => { k with
    sendCtr := Sparse.upd 0 k.sendCtr t (fun v => v + 1),
    nextCopy := (id + 1) % 2 ^ 16,
    sends := k.sends ++ [id] })
  if rzDev a = d.devNum then
    d.onCore (rzCore a) (fun k => { k with msgIn := k.msgIn ++ [{ Msg.reset with
      desc := desc, dev := d.devNum, core := c, mq := bits a 0 7, sendS := d.gate.e, sendId := id + 1,
      poison := marks }] })
  else
    d.originate t (rzDev a) { Packet.reset with
      hdr := mkHdr a 0 d.devNum c 4 32 id true 0 0 16, data := desc, poison := marks * 16 }

/-! ### Receiving (R309 to R311) -/

/-- The descriptor at the head of a physical queue, as it stands in its ring entry. -/
def Core.headDesc (k : Core) (t r : Nat) : List (BitVec 8) :=
  let e := k.qEntry t r
  let b := k.bound t
  Sparse.getMany 0 k.spad.bytes (ringPa b e (k.qState (qBase b + r)).head) 32

/-- The data bytes m that a receive copies: the lesser of LENGTH and DATA_MAX (R309). -/
def Core.recvLen (k : Core) (t r : Nat) : Nat := min (mdLen (leNat (k.headDesc t r))) (qDataMax (k.qEntry t r))

/-- The queue that a `q.select` chooses, task-relative: the lowest with a visible head, or the next in rotation (R311). -/
def Core.choose (k : Core) (t : Nat) (f : QF) : Option Nat :=
  let b := k.bound t
  let ready := fun j => bitAt f.mask j && decide (f.q + j < qCount b) && decide (0 < (k.qState (qBase b + f.q + j)).visible)
  let r := k.rot.toNat
  let last := bits r 0 7
  let start := if f.rot && bitAt r 7 && f.q ≤ last && last ≤ f.q + 7 then last - f.q + 1 else 0
  ((List.range 8).map (fun i => (start + i) % 8)).find? ready |>.map (fun j => f.q + j)

/-- The task-relative queue that a receive takes its message from, once one is visible. -/
def Core.recvQueue (k : Core) (t : Nat) (f : QF) : Option Nat :=
  if f.op = 0x12 then k.choose t f
  else if 0 < (k.qState (qBase (k.bound t) + f.q)).visible then some f.q else none

/-- Do the fields of a `q.recv` or `q.select` break R299, R375 or R394? -/
def recvFieldBad (b : BitVec 256) (level : Nat) (f : QF) : Bool :=
  f.qrsv != 0
  || (f.op == 0x11 && (f.mask != 0 || f.rot || f.qd != 0 || f.qlane != 0))
  || (f.op == 0x12 && (level == 1 || f.mask == 0
      || (List.range 8).any (fun j => bitAt f.mask j && decide (qCount b ≤ f.q + j))))

/-- What is wrong with a receive from task-relative queue r (R299, R310). -/
def Device.recvBad (d : Device) (c t level : Nat) (f : QF) : Option Bad :=
  let k := d.core c
  let b := k.bound t
  if recvFieldBad b level f then some ⟨0x0102, 1, 6, f.q⟩
  else if f.op == 0x11 && qCount b ≤ f.q then some (badRef 6 f.q)
  else
    match k.recvQueue t f with
    | none => none
    | some r =>
      let m := k.recvLen t r
      let a := mdAddr (leNat (k.headDesc t r))
      if !spadOk b (f.addr * 32) (32 + m) then some (badRef 2 (f.addr * 32))
      else if m = 0 then none
      else
        let remote := rzSpace a != 15 && rzDev a != d.devNum
        d.hallBad b remote false a ((a : Int), m)

/-- Does a receive wait for a visible head (R309, R311)? A queue outside the window, or a field that faults, waits for
nothing. -/
def Core.recvWaits (k : Core) (t level : Nat) (f : QF) : Bool :=
  let n := qCount (k.bound t)
  let valid := if f.op = 0x12 then decide (level ≠ 1) && (List.range 8).any (fun j => bitAt f.mask j && decide (f.q + j < n))
    else decide (f.q < n)
  valid && (k.recvQueue t f).isNone

/-- The effect of a receive from task-relative queue r: the head entry is freed and the copy of descriptor and data
starts (R309). -/
def Device.receive (d : Device) (c t r addr bundle scIdx : Nat) (desc : List (BitVec 8)) : Device :=
  let k := d.core c
  let b := k.bound t
  let e := k.qEntry t r
  let m := min (mdLen (leNat desc)) (qDataMax e)
  let a := mdAddr (leNat desc)
  let d := d.onCore c (fun k => k.onQueue (qBase b + r) (fun q => { q with
    head := (q.head + 1) % max 1 (qCap e), count := q.count - 1, visible := q.visible - 1 }))
  let d := d.onCore c (fun k => { k with issue := k.issue.map (fun i => { i with freed := some (qBase b + r) }) })
  let own := rzSpace a == 15 || rzDev a == d.devNum
  let (sk, sb) := if m = 0 then (0, 0) else if own then (if rzCore a = c then (0, rzCoreOff a) else (3, a)) else (4, a)
  let dst := spadPa b (addr * 32)
  d.startCopy c { Copy.reset with
      slot := t, srcKind := sk, dstKind := 0, srcBase := sb, dstBase := dst, head := desc, readBytes := m,
      writeBytes := 32 + m, receive := true, issueBundle := bundle, issueSc := scIdx }
    [(dst, 32 + m, true)]

/-! ### Arrival and parking (R307, R313 to R317) -/

/-- Parking records (R315). -/
def parkRecords : Nat := 147456

/-- The descriptor of a message with the marks of its words (R250). -/
def Msg.marked (m : Msg) : List (BitVec 8 × Bool) :=
  (List.range 32).map (fun i => (nth m.desc i 0, bitAt m.poison (i / 8)))

/-- Write a message to the next parking record, or discard it when every record is held: the record's index, or 0x3FFFF
(R315, R316). -/
def Device.parkMsg (d : Device) (c : Nat) (m : Msg) (cause : Nat) : Nat × Device :=
  let seq := mdSeq (leNat m.desc)
  let who := c % 256 * 2 ^ 20 + m.mq * 2 ^ 13 + seq * 2 ^ 28 + m.core % 256 * 2 ^ 44 + m.dev % 4096 * 2 ^ 52
  if parkRecords ≤ d.hub.parkHeld then
    (0x3FFFF, (d.countHub 9 1).event 0x0008 4 1 c (0x3FFFF * 2 ^ 46) who)
  else
    let i := d.hub.parkNext
    let h := leBytes 32 (2 ^ 90 + cause % 4 * 2 ^ 91 + m.mq % 128 * 2 ^ 93 + c % 256 * 2 ^ 100 + m.core % 256 * 2 ^ 108
      + m.dev % 4096 * 2 ^ 116 + m.sendS % 2 ^ 64 * 2 ^ 128 + d.beat.w % 2 ^ 64 * 2 ^ 192)
    let d := d.stagePut (0x9700000 + 64 * i) (m.marked ++ unmarked h)
    let d := d.onHub (fun x => { x with parkNext := (i + 1) % parkRecords, parkHeld := x.parkHeld + 1 })
    let d := d.countCore c 29 1
    (i, if cause = 3 then d.event 0x0008 3 1 c (i * 2 ^ 46) who else d)

/-- A send to a core of the own device is no longer in flight (R305). -/
def Device.sendDone (d : Device) (m : Msg) : Device :=
  if m.sendId = 0 then d
  else d.onCore m.core (fun k => { k with sends := k.sends.filter (fun i => i + 1 != m.sendId) })

/-- Accept a message into the ring of its queue; one that came in an open packet sets OPEN_IN (R307, R442). -/
def Device.acceptMsg (d : Device) (c t : Nat) (m : Msg) (e : Nat) : Device :=
  let d := d.onCore c (fun k => k.onQueue m.mq (fun q => { q with
    tail := (q.tail + 1) % max 1 (qCap e), count := q.count + 1,
    wait := q.wait ++ [(q.tail, m.marked, false, k.cyc)] }))
  let d := if m.openSlot then d.onTask t (fun k => { k with flagWord := Nat.lor k.flagWord 16 }) else d
  if qOpen e then d.logEvent t 5 (some c) m.mq m.desc else d

/-- A message that is not accepted: parked, with the fault of its queue's task (R313, R314). -/
def Device.parkArrival (d : Device) (c : Nat) (holder : Option Nat) (m : Msg) (e cause : Nat) : Device :=
  let (i, d) := d.parkMsg c m cause
  match holder with
  | none => d
  | some t =>
    if cause = 3 then d
    else
      let x := (d.core c).lastSc % 2 ^ 11 * 2 ^ 38 + i % 2 ^ 18 * 2 ^ 49 + mdSeq (leNat m.desc) * 2 ^ 67
        + m.core % 256 * 2 ^ 83 + m.dev % 4096 * 2 ^ 91 + qCap e * 2 ^ 103 + cause % 4 * 2 ^ 119 + m.mq % 128 * 2 ^ 121
      let d := d.onCore c (fun k => k.onQueue m.mq (fun q => { q with overflowed := true }))
      d.coreFault c t 0x0107 cause (x / 2 ^ 64) (x % 2 ^ 64)

/-- COUNT of a physical queue at the start of the present cycle, with the messages accepted in it: a head that a receive frees
in the same cycle still counts (R307). -/
def Core.countNow (k : Core) (mq : Nat) : Nat :=
  (k.qState mq).count + b2n ((k.issue.bind (·.freed)) == some mq)

/-- A message arrives at core c and is accepted or parked, for the first cause that applies (R307, R313). -/
def Device.arrive (d : Device) (c : Nat) (m : Msg) : Device :=
  let k := d.core c
  let holder := d.queueHolder c m.mq
  let e := match holder with
    | some t => k.qEntry t (m.mq - qBase (k.bound t))
    | none => 0
  let q := k.qState m.mq
  let d := d.sendDone m
  if qCap e = 0 then d.parkArrival c none m e 3
  else if q.overflowed then d.parkArrival c holder m e 2
  else if m.openSlot && !qOpen e then d.parkArrival c holder m e 1
  else if qCap e ≤ k.countNow m.mq then d.parkArrival c holder m e 0
  else match holder with
    | some t => d.acceptMsg c t m e
    | none => d

/-! ### Ring entries (R308) -/

/-- The accepted messages of a physical queue that wait for their write: physical address, ready cycle, index. -/
def Device.ringWaits (d : Device) (c mq : Nat) : List (Nat × Nat × Nat) :=
  match d.queueHolder c mq with
  | none => []
  | some t =>
    let k := d.core c
    let b := k.bound t
    let e := k.qEntry t (mq - qBase b)
    let ws := (k.qState mq).wait
    (List.range ws.length).filterMap (fun i =>
      let w := nth ws i (0, [], true, 0)
      if w.2.2.1 then none else some (ringPa b e w.1, w.2.2.2, i))

/-- The leading messages of a queue that have been written become visible and raise the arrival key (R308). -/
def Device.showMessages (d : Device) (c mq : Nat) : Device :=
  let k := d.core c
  let q := k.qState mq
  let lead := (q.wait.takeWhile (fun w => w.2.2.1)).length
  if lead = 0 then d
  else
    let d := d.onCore c (fun k => k.onQueue mq (fun q => { q with visible := q.visible + lead, wait := q.wait.drop lead }))
    match d.queueHolder c mq with
    | none => d
    | some t =>
      let b := k.bound t
      let e := k.qEntry t (mq - qBase b)
      if qAkeyEn e then d.addKey c (kBase b + qAkey e) lead false else d

/-- At the end of a cycle, what has been written in it becomes visible in every queue of core c (R308). -/
def Device.showAll (d : Device) (c : Nat) : Device := (d.core c).queues.foldl (fun d e => d.showMessages c e.1) d

/-- One access writes every waiting entry of a queue that lies in one bank word (R241, R308). What it completes becomes visible
at the end of the sc that the core has open, or of this cycle. -/
def Device.ringWrite (d : Device) (c mq word : Nat) : Device :=
  let here := (d.ringWaits c mq).filter (fun w => w.1 / 64 * 64 == word)
  let d := here.foldl (fun d w =>
    let desc := (nth ((d.core c).qState mq).wait w.2.2 (0, [], true, 0)).2.1
    let d := d.spadWrite c w.1 desc
    d.onCore c (fun k => k.onQueue mq (fun q => { q with
      wait := setNth q.wait w.2.2 (let x := nth q.wait w.2.2 (0, [], true, 0); (x.1, x.2.1, true, x.2.2.2)) }))) d
  if (d.core c).issue.isSome then d else d.showMessages c mq

end Sys2Proof.Machine
end

