-- ==== Sys2Proof/Machine/Bundle.lean ====
section
/-! DEFINITION. Machine/Bundle.lean: one schedule cycle of a core (R146 to R162, R205 to R213, R240 to R253): what makes
a bundle wait, the checks at issue, the phases of an sc in the order of R245, and what its end brings. The CT row opens an
sc; every other row of the core runs the phases up to its own; the next CT row closes what is left (log 9). -/

namespace Sys2Proof.Machine

open Sys2Proof

/-! ### What a bundle reads and writes -/

/-- The contract level of a task slot. -/
def Device.levelOf (d : Device) (t : Nat) : Nat := (d.task t).level

/-- Work per beat of core c: BEAT_SC of a running level-1 task, else 1,600 (R74, R377). -/
def Device.workSc (d : Device) (c : Nat) : Nat :=
  match (d.core c).running with
  | some t => if (d.task t).level = 1 then (d.task t).beatSc else 1600
  | none => 1600

/-- The pass that the MX slot of a bundle starts in the sc numbered n, with the feed that it meets. -/
def Device.mxAt (d : Device) (c t : Nat) (w : BitVec 384) (index n : Nat) : Option (MF × Pass × Mx) :=
  let s := slotOf w 3
  if opc s = 1 then
    let k := d.core c
    let m := k.mx.promote n
    let f := mf s
    let p := k.mkPass t (d.levelOf t == 1) f index (d.region c).count d.gate.e n
    some (f, { p with s1 := passStart m p }, m)
  else none

/-- The pointers of a core. -/
def Core.ptr (k : Core) (p : Nat) : BitVec 96 := Sparse.get 0 k.ptrs p

/-- The physical ranges that a bundle reads at issue (R157): copy sources, pass spans, vector operands, the send block and
the head entry of a receive. -/
def Device.bundleReads (d : Device) (c t : Nat) (w : BitVec 384) (index n : Nat) : List (Nat × Nat) :=
  let k := d.core c
  let b := k.bound t
  let phys := fun (r : Nat × Nat) => (spadPa b r.1, r.2)
  let q := qf (slotOf w 6)
  (if opc (slotOf w 2) = 1 then (k.copyRanges c t (slotOf w 2)).1 else [])
  ++ (match d.mxAt c t w index n with
      | some (_, p, _) => (if p.keep then [] else [phys p.xSpan]) ++ [phys p.wSpan]
      | none => [])
  ++ ((vf (slotOf w 4)).reads k.ptr ++ (vf (slotOf w 5)).reads k.ptr).map phys
  ++ (if q.op = 0x10 then [phys (q.addr * 32, 64)] else [])
  ++ (if q.op = 0x11 || q.op = 0x12 then
        match k.recvQueue t q with
        | some r => [(ringPa b (k.qEntry t r) (k.qState (qBase b + r)).head, 32)]
        | none => []
      else [])

/-- The physical ranges that a bundle writes or registers as write-pending. -/
def Device.bundleWrites (d : Device) (c t : Nat) (w : BitVec 384) : List (Nat × Nat) :=
  let k := d.core c
  let b := k.bound t
  let q := qf (slotOf w 6)
  (if opc (slotOf w 2) = 1 then (k.copyRanges c t (slotOf w 2)).2 else [])
  ++ ((vf (slotOf w 4)).writes k.ptr ++ (vf (slotOf w 5)).writes k.ptr).map (fun r => (spadPa b r.1, r.2))
  ++ (if q.op = 0x11 || q.op = 0x12 then
        match k.recvQueue t q with
        | some r => [(spadPa b (q.addr * 32), 32 + k.recvLen t r)]
        | none => []
      else [])

/-- Does the bundle take a copy slot in its CU slot, in its QK slot? -/
def copySlots (w : BitVec 384) : Nat :=
  b2n (opc (slotOf w 2) == 1) + b2n (opc (slotOf w 6) == 0x11 || opc (slotOf w 6) == 0x12)

/-- The scoreboard entries that the bundle registers. -/
def Core.registers (k : Core) (c t : Nat) (w : BitVec 384) : Nat :=
  (if opc (slotOf w 2) = 1 then
    (k.copyRanges c t (slotOf w 2)).1.length + (k.copyRanges c t (slotOf w 2)).2.length else 0)
  + b2n (opc (slotOf w 6) == 0x11 || opc (slotOf w 6) == 0x12)

/-- The VALUE record that a shadow holds for a point: the value (R513). -/
def Device.heldValue (d : Device) (t kind beat sc c : Nat) : Option Nat :=
  (d.twin.values.find? (fun v => v.1 == t && v.2.1 == kind && v.2.2.1 == beat && v.2.2.2.1 == sc && v.2.2.2.2.1 == c)).map
    (fun v => v.2.2.2.2.2)

/-- The record kind of a varying instruction (Table 19-3): ENT, TIME or CNT. -/
def varKind (op : Nat) : Nat := if op = 0x20 then 6 else if op = 0x21 then 7 else 8

/-! ### Waits (R157, R160, R211, R259, R293, R309, R311) -/

/-- Does a scoreboard range hold back the bundle, or are too few entries free (R157)? -/
def Device.boardWaits (d : Device) (c t : Nat) (w : BitVec 384) (index n : Nat) : Bool :=
  let k := d.core c
  let meets := fun (r : Range) (x : Nat × Nat) => overlaps r.lo (r.hi + 1 - r.lo) x.1 x.2
  (d.bundleReads c t w index n).any (fun x => k.scoreboard.any (fun r => r.write && meets r x))
  || (d.bundleWrites c t w).any (fun x => k.scoreboard.any (fun r => meets r x))
  || decide (64 < k.scoreboard.length + k.registers c t w)

/-- Does a `key.wait` hold back the bundle (R293)? -/
def Device.keyWaits (d : Device) (c t : Nat) (w : BitVec 384) : Bool :=
  let q := qf (slotOf w 6)
  let b := (d.core c).bound t
  q.op == 0x02 && decide (q.key < kCount b) && decide (q.n ≤ keyCap (d.keyEntry c t q.key))
    && decide (d.keyCount c (kBase b + q.key) < q.n)

/-- Does a vector slot wait for the bell queue head (R211)? -/
def Core.bellWaits (k : Core) (s : Nat) : Bool :=
  let f := vf s
  f.bell && (match k.bell with
    | [] => true
    | h :: _ => !h.landed.contains f.idx && !h.complete)

/-- Does a full handshake queue hold back the bundle: a send toward a full crossing or a full local-origin FIFO (R81, R336), or in
a shadow an instruction whose VALUE record has not come (R513)? -/
def Device.crossWaits (d : Device) (c t : Nat) (w : BitVec 384) : Bool :=
  let q := qf (slotOf w 6)
  let a := sendDest ((d.core c).sendBlock t q.addr)
  (q.op == 0x10 && (!d.crossFits (coreOut c) 64 || (rzDev a != d.devNum && !d.roomFor (rzDev a))))
  || ((q.op == 0x20 || q.op == 0x21 || q.op == 0x22) && d.twin.role == 5
      && (d.heldValue t (varKind q.op) d.gate.e (d.region c).count c).isNone)

/-- The kind of wait of a bundle, in the codes of Table 23-5; the first that applies of scoreboard, key, queue, bell, copy
slots and crossing (log 17). -/
def Device.waitKind (d : Device) (c t : Nat) (w : BitVec 384) (index n : Nat) : Option Nat :=
  let k := d.core c
  let q := qf (slotOf w 6)
  if d.boardWaits c t w index n then some 0
  else if d.keyWaits c t w then some 1
  else if (q.op == 0x11 || q.op == 0x12) && k.recvWaits t (d.levelOf t) q then some 2
  else if k.bellWaits (slotOf w 4) || k.bellWaits (slotOf w 5) then some 3
  else if 16 < k.copies.length + copySlots w && 0 < copySlots w then some 4
  else if opc (slotOf w 1) = 0x08 && !(k.copies.isEmpty && k.sends.isEmpty) then some 4
  else if d.crossWaits c t w then some 5
  else none

/-! ### Checks at issue -/

/-- What is wrong with the CT slot of the bundle at an index (R147, R154, R164, R381, R397). -/
def Device.ctBad (d : Device) (c t index s : Nat) : Option Bad :=
  let k := d.core c
  let n := instrCount (k.bound t)
  match opc s with
  | 0x00 | 0x03 | 0x04 | 0x06 | 0x08 => if bits s 0 56 = 0 then none else some badField
  | 0x01 =>
    let len := bits s 19 13
    if bits s 0 19 != 0 then some badField
    else if len = 0 || 4096 < len || 4 ≤ k.loops.length || n < index + 1 + len then some ⟨0x0102, 1, 1, index⟩
    else none
  | 0x02 =>
    if bits s 19 37 != 0 || bits s 0 5 != 0 then some badField
    else if bits s 5 14 < n then none else some (badRef 1 (bits s 5 14))
  | 0x05 => if d.levelOf t = 1 || bits s 0 29 != 0 || 4 ≤ bits s 29 3 then some badField else none
  | 0x07 => if bits s 5 51 = 0 then none else some badField
  | _ => some badField

/-- Is a pass of the task open, or does the bell queue hold a tile (R190)? -/
def Core.matrixBusy (k : Core) : Bool := decide (0 < k.mx.passesOpen) || k.bell != []

/-- Does a bundle find a pass open, one that it issues itself among them (R174, R190)? -/
def Core.passOpen (k : Core) (w : BitVec 384) : Bool := k.matrixBusy || opc (slotOf w 3) == 0x01

/-- Does a bundle find a copy, send or receive of the core in flight, one that it issues itself among them (R259, R305, R411)? -/
def Core.inFlightWith (k : Core) (w : BitVec 384) : Bool :=
  !(k.copies.isEmpty && k.sends.isEmpty) || decide (0 < copySlots w) || opc (slotOf w 6) == 0x10

/-- What is wrong with the MX slot. -/
def Device.mxSlotBad (d : Device) (c t : Nat) (w : BitVec 384) (index n : Nat) : Option Bad :=
  let s := slotOf w 3
  let k := d.core c
  let b := k.bound t
  match opc s with
  | 0x00 => if bits s 0 56 = 0 then none else some badField
  | 0x01 =>
    match d.mxAt c t w index n with
    | none => none
    | some (f, p, m) =>
      if mxBad f p m (k.mxDescAt t f) (d.levelOf t == 1) then some badField
      else if !p.keep && !spadOk b p.xSpan.1 p.xSpan.2 then some (badRef 2 p.xAddr)
      else if !spadOk b p.wSpan.1 p.wSpan.2 then some (badRef 2 p.wAddr)
      else none
  | _ => some badField

/-- What is wrong with a vector slot (R164, R206, R212, R213, R375, R380, R394 to R396). -/
def Device.vSlotBad (d : Device) (c t s : Nat) (vb : Bool) : Option Bad :=
  let k := d.core c
  let b := k.bound t
  let f := vf s
  if vEncBad s (d.levelOf t) vb then some badField
  else
    match (f.reads k.ptr ++ f.writes k.ptr).find? (fun r => !spadOk b r.1 r.2) with
    | some r => some (badRef 2 r.1)
    | none =>
      match k.bell with
      | [] => if f.releases then some badField else none
      | h :: _ =>
        if f.bell && (h.horn != (f.srcFmt == .hn32)) then some badField
        else if f.releases && !h.complete then some badField
        else none

/-- What is wrong with the QK slot (R147, R164, R293, R299, R304, R310, R385, R394). -/
def Device.qkBad (d : Device) (c t s : Nat) : Option Bad :=
  let k := d.core c
  let b := k.bound t
  let f := qf s
  match f.op with
  | 0x00 => if bits s 0 56 = 0 then none else some badField
  | 0x01 | 0x02 | 0x03 =>
    if bits s 0 34 != 0 then some badField
    else if kCount b ≤ f.key then some (badRef 7 f.key)
    else if f.op = 0x02 && keyCap (d.keyEntry c t f.key) < f.n then some ⟨0x0102, 1, 7, f.key⟩
    else none
  | 0x04 =>
    if f.n != 0 || f.krsv != 0 then some badField
    else if kCount b ≤ f.key then some (badRef 7 f.key) else none
  | 0x10 => d.sendBad c t f
  | 0x11 => d.recvBad c t (d.levelOf t) f
  | 0x12 => if d.levelOf t = 1 then some badField else d.recvBad c t (d.levelOf t) f
  | 0x20 => if f.key != 0 || f.n != 0 || f.krsv != 0 then some badField else none
  | 0x21 => if f.key != 0 || 1 < f.n || f.krsv != 0 then some badField else none
  | 0x22 => if f.key != 0 || 10 < f.n || f.krsv != 0 then some badField else none
  | _ => some badField

/-- The faults of a bundle at issue, in the fixed unit order: slot, and what is wrong (R149, R165). DESIGN CHOICE (log 75): of a
slot that breaks several rules, only the first in the model's own order of checks is named. -/
def Device.bundleBad (d : Device) (c t : Nat) (w : BitVec 384) (index n : Nat) : List (Nat × Bad) :=
  let k := d.core c
  let ct := slotOf w 1
  let one := fun (s : Nat) (o : Option Bad) => match o with
    | some x => [(s, x)]
    | none => []
  let cu := slotOf w 2
  one 1 (d.ctBad c t index ct)
  ++ (if (opc ct == 0x04 || opc ct == 0x08) && (k.passOpen w || (opc ct == 0x04 && k.inFlightWith w))
      then [(1, ⟨0x0102, 3, 0, 0⟩)] else [])
  ++ (if (opc ct == 0x04 || opc ct == 0x08) && (d.task t).consumed.isSome then [(1, ⟨0x0203, 0, 0, 0⟩)] else [])
  ++ (match opc cu with
      | 0x00 => if bits cu 0 56 = 0 then [] else [(2, badField)]
      | 0x01 => one 2 (d.copyBad c t (d.levelOf t) cu)
      | _ => [(2, badField)])
  ++ one 3 (d.mxSlotBad c t w index n)
  ++ one 4 (d.vSlotBad c t (slotOf w 4) false)
  ++ one 5 (d.vSlotBad c t (slotOf w 5) true)
  ++ one 6 (d.qkBad c t (slotOf w 6))

/-- Record the fault of one slot of a bundle at the sc that it would have issued (R148, R165). -/
def Device.slotFault (d : Device) (c t index sc : Nat) (x : Nat × Bad) : Device :=
  if x.2.code = 0x0203 then d.poisonFault c t sc
  else d.fault t x.2.code x.2.cause 1 c sc (boundDetail index sc x.1 x.2.window) (x.2.ref % 2 ^ 64)

/-! ### The phases of an sc -/

/-- Change the bundle that a core is issuing. -/
def Device.onIssue (d : Device) (c : Nat) (f : Issue → Issue) : Device :=
  d.onCore c (fun k => { k with issue := k.issue.map f })

/-- A scratchpad read of a bundle unit: the bytes, unless the access is suppressed (R245 to R247, R249, R251). The unit
code is that of Table 10-2. -/
def Device.unitRead (d : Device) (c slot unit addr n : Nat) : Option (List (BitVec 8 × Bool)) × Device :=
  let k := d.core c
  match k.issue with
  | none => (none, d)
  | some i =>
    let (j, ok) := k.claim { i with slot := slot } unit addr n false
    let d := d.onIssue c (fun _ => { j with slot := i.slot })
    if ok then
      let (bs, d) := d.spadRead c (spadPa (k.bound slot) addr) n
      let d := match (List.range n).find? (fun x => (nth bs x (0, false)).2) with
        | some x => d.consume slot c ((addr + x) / 8 * 8) 0 1
        | none => d
      (some bs, d)
    else (none, d.countCore c 20 1)

/-- A scratchpad write of a bundle unit, unless it is suppressed. -/
def Device.unitWrite (d : Device) (c slot unit addr : Nat) (data : List (BitVec 8 × Bool)) : Device :=
  let k := d.core c
  match k.issue with
  | none => d
  | some i =>
    let (j, ok) := k.claim { i with slot := slot } unit addr data.length true
    let d := d.onIssue c (fun _ => { j with slot := i.slot })
    if ok then d.spadWrite c (spadPa (k.bound slot) addr) data else d.countCore c 20 1

/-- A result is on its way. -/
def Device.fly (d : Device) (c : Nat) (f : Flight) : Device := d.onCore c (fun k => { k with flights := k.flights ++ [f] })

/-- The CU slot issues. -/
def Device.phaseCu (d : Device) (c : Nat) : Device :=
  let k := d.core c
  match k.issue with
  | none => d
  | some i =>
    let s := slotOf i.word 2
    if opc s = 1 then d.issueCopy c i.slot s i.index k.lastSc else d

/-- The MX slot issues: the pass enters the feed, and its descriptor advances (R172, R173, R383). -/
def Device.phaseMx (d : Device) (c : Nat) : Device :=
  let k := d.core c
  match k.issue with
  | none => d
  | some i =>
    let s := slotOf i.word 3
    if opc s = 1 then
      let f := mf s
      let p0 := k.mkPass i.slot (d.levelOf i.slot == 1) f i.index k.lastSc d.gate.e k.sc
      let m := k.mx
      let p := { p0 with s1 := passStart m p0 }
      let m := match m.cur with
        | none => { m with cur := some p }
        | some _ => { m with nxt := some p }
      let desc := k.mxDescAt i.slot f
      let x := (p.xAddr + bits desc 224 32) % 2 ^ 32
      let y := (p.wAddr + bits desc 192 32) % 2 ^ 32
      let desc2 := if f.noadv then desc else setBits (setBits desc 160 32 x) 128 32 y
      d.onCore c (fun k => { k with
        mx := { m with lastKey := some p.key, passesOpen := m.passesOpen + 1 },
        mxDesc := Sparse.set 0 k.mxDesc (64 * i.slot + f.md) (BitVec.ofNat 256 desc2) })
    else d

/-- The feed reads a weight vector (R176, R179, R183). -/
def Device.feedWeight (d : Device) (c : Nat) : Device :=
  let k := d.core c
  match k.mx.cur with
  | none => d
  | some p =>
    match p.weightAt k.sc with
    | none => d
    | some (sweep, v) =>
      match d.unitRead c p.slot 1 (p.wAddr + v * p.wStride) (readBytes p.format p.shape) with
      | (none, d) => d
      | (some bs, d) =>
        let m := (d.core c).mx
        let (m, p2) := weightRead m p sweep v k.sc bs
        d.onCore c (fun k => { k with mx := { m with cur := some p2 } })

/-- The feed reads a stored tile row for a pass, the current one or the next (R179, R183, R185). -/
def Device.feedTile (d : Device) (c : Nat) (next : Bool) : Device :=
  let k := d.core c
  match (if next then k.mx.nxt else k.mx.cur) with
  | none => d
  | some p =>
    match p.tileAt k.sc with
    | none => d
    | some j =>
      match d.unitRead c p.slot 2 (p.xAddr + j % tileRows p.shape * p.xStride) (rowBytes p.format p.shape) with
      | (none, d) => d
      | (some bs, d) =>
        let p2 := { p with
          tile := loadRow p.format p.shape p.trans j bs p.tile,
          tilePoison := (j != 0 && p.tilePoison) || bs.any (·.2), readsDone := p.readsDone + 1 }
        d.onCore c (fun k => { k with
          mx := if next then { k.mx with nxt := some p2 } else { k.mx with cur := some p2 } })

/-- Does the feed of core c read anything in the present sc? -/
def Core.feedDue (k : Core) : Bool :=
  (match k.mx.cur with
    | some p => (p.weightAt k.sc).isSome || (p.tileAt k.sc).isSome
    | none => false)
  || (match k.mx.nxt with
    | some p => (p.tileAt k.sc).isSome
    | none => false)

/-- The feed's reads of the sc: the weight read before the tile read (R176). -/
def Device.phaseFeed (d : Device) (c : Nat) : Device := ((d.feedWeight c).feedTile c false).feedTile c true

/-! ### Vector operations -/

/-- A vector register. -/
def Core.vreg (k : Core) (n : Nat) : Vec :=
  (List.range 128).map (fun i => (Sparse.get 0 k.lanes (128 * n + i), Sparse.get false k.laneMarks (128 * n + i)))

/-- The registers of an attention state that a chained operation updates: Mb by `v.sm1`, Lh and Ll by `v.sm2` (R229, R231). -/
def chainRegs (chain base : Nat) : List Nat :=
  match chain with
  | 1 => [base + 3]
  | 2 => [base + 1, base + 2]
  | _ => []

/-- Does a vector slot send its result to the scratchpad? -/
def VF.toPad (f : VF) (o : VOp) : Bool := (o.dest == .d || o.dest == .pdp) && f.dk == 1

/-- The chain of attention operations that a result belongs to (R233). -/
def VF.chain (f : VF) : Nat := if f.op = 0x41 then 1 else if f.op = 0x43 then 2 else 0

/-- The lane registers that a vector slot reads or writes. -/
def VF.laneRegs (f : VF) : List Nat :=
  match vopOf f.op with
  | none => []
  | some o =>
    if f.isPset then []
    else (if o.useA != 0 && (f.ak == 0 || f.ak == 3) then [f.a] else [])
      ++ (if o.useB && (f.bk == 0 || f.bk == 3) then [f.b] else []) ++ (if o.useC then [f.c] else [])
      ++ (if f.toPad o || o.dest == .none || o.dest == .pdp then [] else (List.range o.nregs).map (fun i => f.d + i))

/-- An operation that is none of a run, and reads or writes a register of its state, ends the run: what is in flight of it no longer
chains (R233). -/
def Core.endRuns (k : Core) (chain base : Nat) (regs : List Nat) : Core :=
  { k with flights := k.flights.map (fun f =>
      if f.chain != 0 && !(f.chain == chain && f.chainBase == base)
          && regs.any (fun r => decide (f.chainBase ≤ r) && decide (r ≤ f.chainBase + 3)) then { f with chain := 0 }
      else f) }

/-- A register of an attention state as a chained operation finds it: the operations of the run that are still in flight
have acted on it (R233). -/
def Core.vregChained (k : Core) (chain base n : Nat) : Vec :=
  let fl := k.flights.filter (fun f => f.chain == chain && f.chainBase == base)
  fl.foldl (fun v f => (f.regs.filter (fun w => w.1 / 128 == n)).foldl (fun v w => v.set (w.1 % 128) (w.2.1, w.2.2)) v)
    (k.vreg n)

/-- Lanes read from bytes of a 4 B format. -/
def vecOfBytes (bs : List (BitVec 8 × Bool)) : Vec := lanes (fun i => unpackAt .hn32 bs i)

/-- Row IDX of the bell queue head (R186, R211): a row past the row count of a short tile holds +0. -/
def Core.bellRow (k : Core) (r : Nat) : Vec :=
  match k.bell with
  | [] => Sys2Proof.Machine.lanes (fun _ => (0, false))
  | h :: _ => Sys2Proof.Machine.lanes (fun i => ((Sparse.get 0 h.rows (128 * r + i)).toNat, h.poison.contains r))

/-- An operand of a vector slot in the 4 B types; none when its read is suppressed (Table 9-4, R208). -/
def Device.operand (d : Device) (c slot unit kind v idx : Nat) (ptr : Nat → BitVec 96) : Option Vec × Device :=
  let k := d.core c
  match kind with
  | 1 =>
    let (o, d) := d.unitRead c slot unit (ptrAddr (ptr v)) 512
    (o.map vecOfBytes, d)
  | 2 => (some (k.bellRow idx), d)
  | 3 => let r := k.vreg v; (some (lanes (fun _ => (lane r idx, mark r idx))), d)
  | _ => (some (k.vreg v), d)

/-- Latency of a vector operation (Table 9-6). -/
def vLatency (o : VOp) (f : VF) (canonical : Bool) : Nat :=
  if f.op = 0x30 && canonical then 12 else if f.ty = 1 then o.lat.2 else o.lat.1

/-- The attention state registers that an operation reads: M, Lh, Ll and Mb (R227, R233). -/
def Core.state (k : Core) (f : VF) : List Vec :=
  if 0x40 ≤ f.op && f.op ≤ 0x44 then
    match f.op with
    | 0x41 => [k.vreg f.d, k.vreg (f.d + 1), k.vreg (f.d + 2), k.vregChained 1 f.d (f.d + 3)]
    | 0x43 => [k.vreg f.d, k.vregChained 2 f.d (f.d + 1), k.vregChained 2 f.d (f.d + 2), k.vreg (f.d + 3)]
    | _ => [k.vreg f.d, k.vreg (f.d + 1), k.vreg (f.d + 2), k.vreg (f.d + 3)]
  else []

/-- `v.pset` and `v.pbuf`: the fields that they set; a set of VB to a pointer that VA sets is dropped (R207). -/
def Device.pointerSet (d : Device) (c s : Nat) (i : Issue) : Device :=
  let p := bits s 53 3
  let hi := bits s 32 16
  let lo := bits s 0 32
  if i.ptrSet.contains (2 * p) || i.ptrSet.contains (2 * p + 1) then d.countCore c 10 1
  else
    let isAddr := opc s == 0x48
    let d := d.onIssue c (fun i => { i with ptrSet := i.ptrSet ++ [if isAddr then 2 * p else 2 * p + 1] })
    d.onCore c (fun k =>
      let o := k.ptr p
      let n := if isAddr then mkPtr lo hi (ptrBuf o) (ptrPos o) else mkPtr (ptrAddr o) (bits o.toNat 32 16) hi lo
      { k with ptrs := Sparse.set 0 k.ptrs p n })

/-- The lane writes of a result, with vC as the register of offset 100. -/
def regWrites (f : VF) (r : List (Nat × Nat × Nat × Bool)) : List (Nat × BitVec 32 × Bool) :=
  r.map (fun x => (128 * (if x.1 = 100 then f.c else f.d + x.1) + x.2.1, BitVec.ofNat 32 x.2.2.1, x.2.2.2))

/-- The codes of a result in lane order. -/
def outCodes (r : List (Nat × Nat × Nat × Bool)) : Vec := r.map (fun x => (BitVec.ofNat 32 x.2.2.1, x.2.2.2))

/-- A vector slot enters its phase: it may release the head, and the pointers it names will step (R207, R213). -/
def Device.vEnter (d : Device) (c : Nat) (f : VF) : Device :=
  let d := if f.releases then d.onIssue c (fun i => { i with rel := true }) else d
  d.onIssue c (fun i => { i with ptrStep := f.pointers.foldl (fun l p => insertNew p l) i.ptrStep })

/-- What the operation of a vector slot needs besides its operands; the pointers are those before the bundle. -/
def Device.vEnvOf (d : Device) (c : Nat) (i : Issue) (o : VOp) (f : VF) : VEnv :=
  let dest := Sparse.get 0 i.ptr0 f.dp
  { f := f, canonical := (d.task i.slot).canonical, seed := (d.task i.slot).seed.toNat,
    coreField := if (d.task i.slot).canonical then 0 else c,
    buffer := if f.toPad o then ptrBuf dest else 0xFFFF, pos := if f.toPad o then ptrPos dest else 128 * f.idx }

/-- The result of a vector slot on its way, still empty: it lands at the end of sc s + L - 1 (R208). -/
def Device.vFlight (d : Device) (c unit : Nat) (i : Issue) (o : VOp) (f : VF) : Flight :=
  { Flight.reset with
    due := (d.core c).sc + vLatency o f (d.task i.slot).canonical - 1, unit := unit, issued := (d.core c).sc, slot := i.slot }

/-- A computed result flies: to the scratchpad, packed, or to registers. -/
def vResult (base : Flight) (f : VF) (o : VOp) (dest : BitVec 96) (out : VOut) : Flight :=
  if f.toPad o then
    let bytes := packBytes (if f.op = 0x25 then fmtOfTy f.ty else .hn32) (outCodes out.regs)
    { base with addr := ptrAddr dest, data := bytes.map (·.1), marks := bytes.map (·.2), flags := out.flags }
  else { base with regs := regWrites f out.regs, flags := out.flags, chain := f.chain, chainBase := f.d }

/-- One vector slot issues: its operands are read in this sc, and its results fly to the end of sc s + L - 1 (R208). The
unit is 4 for VA and 5 for VB. -/
def Device.phaseV (d : Device) (c unit : Nat) : Device :=
  let k := d.core c
  match k.issue with
  | none => d
  | some i =>
    let s := slotOf i.word unit
    let f := vf s
    let t := i.slot
    match vopOf f.op with
    | none => d
    | some o =>
      let ptr := fun p => Sparse.get 0 i.ptr0 p
      let bank := unit - 1
      let base := d.vFlight c unit i o f
      let env := d.vEnvOf c i o f
      let dest := ptr f.dp
      let acc := Sparse.get XAcc.reset k.xa (f.imm % 8)
      let d := (d.vEnter c f).onCore c (fun k => k.endRuns f.chain f.d f.laneRegs)
      match f.op with
      | 0x00 | 0x4A => d
      | 0x48 | 0x49 => d.pointerSet c s ((d.core c).issue.getD i)
      | 0x24 =>
        match d.unitRead c t bank (ptrAddr (ptr f.a)) f.aBytes with
        | (none, d) => d
        | (some bs, d) => d.fly c { base with regs := regWrites f (outVec 0 (opUnpk (fmtOfTy f.ty) bs)) }
      | 0x38 =>
        match d.operand c t bank f.ak f.a f.idx ptr with
        | (none, d) => d
        | (some a, d) =>
          let w := bits f.imm 3 6
          d.fly c { base with
            xaIdx := f.imm % 8,
            xaAdd := some (xaddSum ((List.range 128).map (fun j => xaddOf (env.fmt.read (lane a j)) w (mark a j)))) }
      | 0x39 =>
        let (code, fl) := acc.readOut env.fmt (env.rnd f.idx)
        d.fly c { base with regs := regWrites f [(0, f.idx, code, acc.poison)], flags := fl }
      | 0x3A => d.fly c { base with xaIdx := f.imm % 8, xaClr := true }
      | 0x3B =>
        let img := acc.image
        d.fly c { base with addr := ptrAddr dest, data := img, marks := img.map (fun _ => acc.poison) }
      | 0x3C =>
        match d.unitRead c t bank (ptrAddr (ptr f.a)) 80 with
        | (none, d) => d
        | (some bs, d) =>
          d.fly c { base with xaIdx := f.imm % 8, xaAdd := some (imageAdd (bs.map (·.1)) (bs.any (·.2))) }
      | _ =>
        match (if o.useA = 0 then (some [], d) else d.operand c t bank f.ak f.a f.idx ptr) with
        | (none, d) => if o.useB && f.bk == 1 then (d.operand c t bank 1 f.b f.idx ptr).2 else d
        | (some a, d) =>
          match (if o.useB then d.operand c t bank f.bk f.b f.idx ptr else (some [], d)) with
          | (none, d) => d
          | (some b, d) =>
            let out := vCompute env a b (if o.useC then k.vreg f.c else []) ((d.core c).state f)
            d.fly c (vResult base f o dest out)

/-- The scratchpad writes of one vector slot that land in this sc (R208, R245). -/
def Device.phaseVw (d : Device) (c unit : Nat) : Device :=
  let k := d.core c
  (k.flights.filter (fun f => f.due == k.sc && f.unit == unit && f.data != [])).foldl (fun d f =>
    d.unitWrite c f.slot (unit - 1) f.addr ((List.range f.data.length).map (fun i =>
      (nth f.data i 0, nth f.marks i false)))) d

/-! ### The QK slot -/

/-- The record of the log that an instruction of a replay takes: the first of its kind at its point (R436). -/
def Device.replayTake (d : Device) (t kind c : Nat) : Option Nat × Device :=
  match (d.task t).replay with
  | none => (none, d)
  | some l =>
    let hit := fun (r : List (BitVec 8)) =>
      let h := leNat (slice r 0 32)
      bits h 114 8 == kind && bits h 144 64 == (d.task t).runBeats && bits h 133 11 == (d.core c).lastSc
        && bits h 125 8 == d.imageCore t c
    match l.find? hit with
    | some r =>
      (some (bits (leNat (slice r 0 8)) 0 64),
        (d.onTask t (fun k => { k with replay := some (l.erase r) })).countHub 15 1)
    | none => (none, d)

/-- Count a live item or instruction of a replay that matches no record; the first of the replay is entered in the health
log (R437). The detail holds the task beat and sc, and the source with the SEQ of the nearest record: of those that no live item
has matched, the one whose point is nearest, the earlier at a tie (log 18). -/
def Device.replayMiss (d : Device) (t kind source : Nat) (core : Option Nat) : Device :=
  let d := d.countHub 16 1
  if (d.task t).mismatchSeen then d
  else
    let (tb, sc, _) := d.point t core
    let at_ := fun (r : List (BitVec 8)) => bits (fieldLe r 0 32) 144 64 * 2048 + bits (fieldLe r 0 32) 133 11
    let far := fun (r : List (BitVec 8)) => (at_ r - (tb * 2048 + sc)) + ((tb * 2048 + sc) - at_ r)
    let seq := match (d.task t).replayLog with
      | [] => 0
      | r :: rest => bits (fieldLe (rest.foldl (fun a x => if far x < far a then x else a) r) 0 32) 208 48
    let d := d.onTask t (fun k => { k with mismatchSeen := true })
    d.log { HealthRec.reset with
      s := d.beat.s, code := 0x000C, cls := 0, cause := kind % 16, unitKind := if core.isSome then 1 else 0,
      unit := core.getD 0, tslot := t, task := true, dHi := tb % 2 ^ 53 * 2 ^ 11 + sc % 2 ^ 11,
      dLo := source % 2 ^ 16 * 2 ^ 48 + seq }

/-- The value that a varying instruction delivers: the log's in a replay, the primary's VALUE in a shadow, else the live
one; with VARIED, the log record and the VALUE record (R429, R432, R436, R437, R513). -/
def Device.varying (d : Device) (c t kind n : Nat) (live : Nat) : Nat × Device :=
  let sc := (d.core c).lastSc
  let d := d.onTask t (fun k => { k with flagWord := Nat.lor k.flagWord 1 })
  let (v, d) :=
    if (d.task t).replay.isSome then
      match d.replayTake t kind c with
      | (some x, d) => (bits x 0 32, d)
      | (none, d) => (live, d.replayMiss t kind 0 (some c))
    else
      match (if d.twin.role = 5 then d.heldValue t kind d.gate.e sc c else none) with
      | some x => (x, d.onTwin (fun w => { w with
          values := w.values.filter (fun y => !(y.1 == t && y.2.1 == kind && y.2.2.1 == d.gate.e && y.2.2.2.1 == sc
            && y.2.2.2.2.1 == c)) }))
      | none => (live, d)
  let detail := if kind = 7 then v + n * 2 ^ 32 else if kind = 8 then v + n * 2 ^ 32 else v
  let d := d.logEvent t kind (some c) detail []
  let d := if d.twin.role = 4 then d.twinSend 6 d.gate.e sc c (t + kind * 8) (leBytes 4 v) else d
  (v, d)

/-- A single-lane result of the QK unit, readable from sc s + 2. -/
def Device.qkLane (d : Device) (c t reg ln v : Nat) : Device :=
  let k := d.core c
  (d.onCore c (fun k => k.endRuns 0 0 [reg])).fly c { Flight.reset with
    due := k.sc + 1, unit := 6, issued := k.sc, slot := t, regs := [(128 * reg + ln, BitVec.ofNat 32 v, false)] }

/-- Does a receive that issues set VARIED: a `q.recv` on a queue marked OPEN, or a `q.select` whose MASK names one (R429)? -/
def Core.recvVaries (k : Core) (t : Nat) (f : QF) : Bool :=
  if f.op = 0x12 then (List.range 8).any (fun j => bitAt f.mask j && qOpen (k.qEntry t (f.q + j))) else qOpen (k.qEntry t f.q)

/-- The receive of the QK slot: it is counted and may set VARIED at its issue; one access reads the head entry of the queue that
was chosen at the start of the sc, and its poison faults at once (R252, R309, R311, R318, R429). -/
def Device.qkReceive (d : Device) (c t : Nat) (f : QF) (i : Issue) : Device :=
  let k := d.core c
  let b := k.bound t
  let d := d.countCore c 27 1
  let d := if k.recvVaries t f then d.onTask t (fun x => { x with flagWord := Nat.lor x.flagWord 1 }) else d
  match i.choice with
  | none => d
  | some r =>
    let e := k.qEntry t r
    match d.unitRead c t 5 (qRing e + 32 * (k.qState (qBase b + r)).head) 32 with
    | (none, d) => d
    | (some bs, d) =>
      if bs.any (·.2) then d.poisonFault c t k.lastSc
      else
        let d := if f.op = 0x12 && f.rot then d.onCore c (fun k => { k with rot := BitVec.ofNat 8 (128 + r) }) else d
        let d := if f.op = 0x12 then d.qkLane c t f.qd f.qlane r else d
        d.receive c t r f.addr i.index k.lastSc (bs.map (·.1))

/-- The QK slot acts. -/
def Device.phaseQk (d : Device) (c : Nat) : Device :=
  let k := d.core c
  match k.issue with
  | none => d
  | some i =>
    let f := qf (slotOf i.word 6)
    let t := i.slot
    let b := k.bound t
    let phys := kBase b + f.key
    -- a wait, a take and a read see the count at the start of the cycle (R293, R294)
    let cnt := Sparse.get 0 i.keys0 phys
    match f.op with
    | 0x01 => d.addKey c phys f.n true
    | 0x02 => d.subKey c phys f.n
    | 0x03 =>
      if cnt < f.n then
        let (hi, lo) := keyDetail phys f.key cnt f.n (keyCap (d.keyEntry c t f.key)) 1 k.lastSc
        d.coreFault c t 0x0105 1 hi lo
      else d.subKey c phys f.n
    | 0x04 => d.qkLane c t f.kd f.klane cnt
    | 0x10 =>
      match (d.countCore c 26 1).unitRead c t 5 (f.addr * 32) 64 with
      | (none, d) => d
      | (some bs, d) => d.send c t bs
    | 0x11 => d.qkReceive c t f i
    | 0x12 => d.qkReceive c t f i
    | 0x20 =>
      let (x, d) := d.drawFree
      let (v, d) := d.varying c t 6 0 (x % 2 ^ 32)
      d.qkLane c t f.kd f.klane v
    | 0x21 =>
      let (v, d) := d.varying c t 7 f.n (bits i.w (32 * f.n) 32)
      d.qkLane c t f.kd f.klane v
    | 0x22 =>
      let (v, d) := d.varying c t 8 f.n ((Sparse.get 0 k.counters f.n).toNat % 2 ^ 32)
      d.qkLane c t f.kd f.klane v
    | _ => d

/-! ### What the end of an sc brings -/

/-- The lane writes of one result against those that landed before it in this sc: the writes kept, with the operation that
made each, and the number of registers in which some were dropped (R149, R210). In the registers that a run updates, a chained
operation of the run takes the place of its predecessor (R233). -/
def landLanes (seen : List (Nat × Nat × Nat)) (f : Flight) :
    List (Nat × BitVec 32 × Bool) × List (Nat × Nat × Nat) × Nat :=
  let free := fun (w : Nat × BitVec 32 × Bool) =>
    !(seen.any (fun x => x.1 == w.1 && !(f.chain != 0 && x.2.1 == f.chain && x.2.2 == f.chainBase
      && (chainRegs f.chain f.chainBase).contains (w.1 / 128))))
  let kept := f.regs.filter free
  let lost := (f.regs.filter (fun w => !free w)).map (fun w => w.1 / 128)
  (kept, seen ++ kept.map (fun w => (w.1, f.chain, f.chainBase)), (lost.foldl (fun l r => insertNew r l) []).length)

/-- Insert a result in the order of unit, then of issue. -/
def insertFlight (f : Flight) : List Flight → List Flight
  | [] => [f]
  | g :: r => if f.unit < g.unit || (f.unit == g.unit && f.issued < g.issued) then f :: g :: r else g :: insertFlight f r

/-- Write lane registers with their marks. -/
def Core.putLanes (k : Core) (ws : List (Nat × BitVec 32 × Bool)) : Core :=
  ws.foldl (fun k w => { k with
    lanes := Sparse.set 0 k.lanes w.1 w.2.1, laneMarks := Sparse.set false k.laneMarks w.1 w.2.2 }) k

/-- The exact accumulators after the sc: any clear, then every add that lands (R225). DESIGN CHOICE (log 89): where adds of VA and
VB land in one sc, RANGE_LOST is judged after each in turn, VA first; the spec does not say (R139). -/
def Core.landAccs (k : Core) (due : List Flight) : Core :=
  let k := (due.filter (·.xaClr)).foldl (fun k f => { k with xa := Sparse.set XAcc.reset k.xa f.xaIdx XAcc.reset }) k
  due.foldl (fun k f => match f.xaAdd with
    | some a => { k with xa := Sparse.upd XAcc.reset k.xa f.xaIdx (fun x => x.addX a) }
    | none => k) k

/-- The fixed-latency results of this sc land: registers, accumulators, flags after any clear (R116, R168, R208). -/
def Device.phaseLand (d : Device) (c : Nat) : Device :=
  let k := d.core c
  let due := (k.flights.filter (fun f => f.due == k.sc)).foldl (fun l f => insertFlight f l) []
  let d := match k.issue with
    | some i =>
      let d := if i.flagClr = 0 then d else d.clearFlags c i.slot i.flagClr
      (i.late.foldl (fun d x => d.raise c x.1 x.2) d).onIssue c (fun i => { i with late := [] })
    | none => d
  let r := due.foldl (fun (a : Device × List (Nat × Nat × Nat)) f =>
    let (kept, seen, lost) := landLanes a.2 f
    (((a.1.onCore c (fun k => k.putLanes kept)).countCore c 10 lost).raise c f.slot f.flags, seen)) (d, [])
  r.1.onCore c (fun k => { k.landAccs due with flights := k.flights.filter (fun f => f.due != k.sc) })

/-- The array results of this sc land (R177). -/
def Device.phasePass (d : Device) (c : Nat) : Device :=
  let k := d.core c
  (k.mx.out.filter (fun l => l.due == k.sc)).foldl (fun d l => d.land c l) d

/-- The pointers of a core after the steps of an sc (R207). -/
def Core.stepPtrs (k : Core) (i : Issue) : Core :=
  i.ptrStep.foldl (fun k p =>
    let o := Sparse.get 0 i.ptr0 p
    let n := k.ptr p
    let addr := if i.ptrSet.contains (2 * p) then ptrAddr n
      else ofSigned ((ptrAddr o : Int) + ptrStepOf o) 32
    let pos := if i.ptrSet.contains (2 * p + 1) then ptrPos n else ptrPos o + 128
    { k with ptrs := Sparse.set 0 k.ptrs p (mkPtr addr (bits n.toNat 32 16) (ptrBuf n) pos) }) k

/-- The end of the sc: pointers step, the head is released, what was written becomes visible in its queues, the keys take their
new counts, a suppressed access faults the task, and the keys of a `ct.end` are compared (R207, R213, R247, R294, R297, R308). -/
def Device.phaseClose (d : Device) (c : Nat) : Device :=
  let k := d.core c
  match k.issue with
  | none => d
  | some i =>
    let d := d.onCore c (fun k => { k.stepPtrs i with bell := if i.rel then k.bell.drop 1 else k.bell })
    let d := d.showAll c
    let d := d.turnKeys c (((d.core c).issue).getD i)
    let d := match i.conflict with
      | some (hi, lo) => d.fault i.slot 0x0101 0 1 c k.lastSc hi lo
      | none => d
    if i.ends then
      match d.endMismatch c i.slot with
      | some r =>
        let b := k.bound i.slot
        let (hi, lo) := keyDetail (kBase b + r) r (d.keyCount c (kBase b + r)) 0 (keyEnd (d.keyEntry c i.slot r)) 3 k.lastSc
        d.coreFault c i.slot 0x0106 3 hi lo
      | none => d
    else d

/-- One phase of an sc, by number: 1 CU, 2 MX, 3 feed, 4 VA, 5 writes of VA, 6 VB, 7 writes of VB, 8 QK, 9 results, 10 array
results, 11 end. -/
def Device.runPhase (d : Device) (c p : Nat) : Device :=
  match p with
  | 1 => d.phaseCu c
  | 2 => d.phaseMx c
  | 3 => d.phaseFeed c
  | 4 => d.phaseV c 4
  | 5 => d.phaseVw c 4
  | 6 => d.phaseV c 5
  | 7 => d.phaseVw c 5
  | 8 => d.phaseQk c
  | 9 => d.phaseLand c
  | 10 => d.phasePass c
  | _ => d.phaseClose c

/-- Is phase p of the present sc of core c still to come? -/
def Core.awaits (k : Core) (p : Nat) : Bool :=
  match k.issue with
  | some i => !i.done.contains p
  | none => false

/-- Run phase p of the present sc, once. -/
def Device.phase (d : Device) (c p : Nat) : Device :=
  if (d.core c).awaits p then
    (d.onIssue c (fun i => { i with done := i.done ++ [p] })).runPhase c p
  else d

/-- Run the phases 1 to p of the present sc that are still to come. -/
def Device.phasesTo (d : Device) (c p : Nat) : Device :=
  (List.range p).foldl (fun d i => d.phase c (i + 1)) d

/-- End the present sc of core c. -/
def Device.closeSc (d : Device) (c : Nat) : Device :=
  if (d.core c).issue.isSome then (d.phasesTo c 11).onCore c (fun k => { k with issue := none }) else d

end Sys2Proof.Machine
end

