-- ==== Sys2Proof/Machine/Sha.lean ====
section
/-! DEFINITION. Machine/Sha.lean: SHA-384, the hash of every digest of the part (R400, R441, R443, R519, R579), as its
standard defines it. Its constants are computed from what they are: 64 bits of the fractional parts of the cube roots of the
first 80 primes, and of the square roots of the ninth to the sixteenth. -/

namespace Sys2Proof.Machine

/-! ### The constants -/

/-- Is n a prime number, n at least 2? -/
def primeNat (n : Nat) : Bool := (List.range (n - 2)).all (fun i => n % (i + 2) != 0)

/-- The first 80 primes: those up to 409. -/
def shaPrimes : List Nat := ((List.range 408).map (· + 2)).filter primeNat

/-- The greatest r below 2^bits whose k-th power is at most x, found bit by bit from the top. -/
def rootBits (k x : Nat) : Nat → Nat → Nat
  | 0, r => r
  | b + 1, r => rootBits k x b (if (r + 2 ^ b) ^ k ≤ x then r + 2 ^ b else r)

/-- 64 bits of the fractional part of the k-th root of p, for p below 512. -/
def rootFraction (k p : Nat) : BitVec 64 := BitVec.ofNat 64 (rootBits k (p * 2 ^ (64 * k)) 70 0)

/-- The constant of each of the 80 rounds. -/
def shaRoundConstants : List (BitVec 64) := shaPrimes.map (rootFraction 3)

/-- The hash value before the first block. -/
def sha384Start : List (BitVec 64) := ((shaPrimes.drop 8).take 8).map (rootFraction 2)

/-! ### The rounds -/

/-- A word turned right by each of some distances, the results added without carry. -/
def turned (x : BitVec 64) (distances : List Nat) : BitVec 64 := distances.foldl (fun s n => s ^^^ x.rotateRight n) 0

/-- The words of a block, each new word put before the older ones, until 64 have been made from the first 16. -/
def shaExpand : Nat → List (BitVec 64) → List (BitVec 64)
  | 0, ws => ws
  | n + 1, ws =>
    let late := nth ws 1 0
    let early := nth ws 14 0
    let mixed := [nth ws 6 0, nth ws 15 0, turned late [19, 61] ^^^ late >>> 6, turned early [1, 8] ^^^ early >>> 7]
    shaExpand n (mixed.foldl (· + ·) 0 :: ws)

/-- Where the first word has a 1 the second, elsewhere the third. -/
def chosen (sel x y : BitVec 64) : BitVec 64 := y ^^^ sel &&& (x ^^^ y)

/-- The bits that most of three words have. -/
def majority (x y z : BitVec 64) : BitVec 64 := chosen (x ^^^ y) z x

/-- A round: the eight variables move by one place; the sum that leaves the last is added to the fourth, and starts the new first
one. -/
def shaStep (vars : List (BitVec 64)) (term : BitVec 64) : List (BitVec 64) :=
  let v := fun (i : Nat) => nth vars i 0
  let leaving := [v 7, turned (v 4) [14, 18, 41], chosen (v 4) (v 5) (v 6)].foldl (· + ·) term
  let entering := leaving + turned (v 0) [28, 34, 39] + majority (v 0) (v 1) (v 2)
  [entering, v 0, v 1, v 2, v 3 + leaving, v 4, v 5, v 6]

/-- The hash value after a block of 128 bytes. -/
def shaBlock (hash : List (BitVec 64)) (block : List (BitVec 8)) : List (BitVec 64) :=
  let first := (chunks 8 block).map (fun b => BitVec.ofNat 64 (beNat b))
  let terms := List.zipWith (· + ·) shaRoundConstants (shaExpand 64 first.reverse).reverse
  List.zipWith (· + ·) hash (terms.foldl shaStep hash)

/-- A message with its padding: a one bit, zeros, and its length in bits as the last 16 bytes of a block. -/
def shaPad (msg : List (BitVec 8)) : List (BitVec 8) :=
  msg ++ 0x80#8 :: List.replicate ((239 - msg.length % 128) % 128) 0 ++ beBytes 16 (8 * msg.length)

/-- The SHA-384 digest of a byte string, 48 bytes in standard order. -/
def sha384 (msg : List (BitVec 8)) : List (BitVec 8) :=
  (((chunks 128 (shaPad msg)).foldl shaBlock sha384Start).take 6).flatMap (fun w => beBytes 8 w.toNat)

end Sys2Proof.Machine
end

