-- ==== Sys2Proof/Machine/Context.lean ====
section
/-! DEFINITION. Machine/Context.lean: the switched state of a core, its spill area, and the context record
(R417 to R420, Tables 18-9 and 18-10). -/

namespace Sys2Proof.Machine

open Sys2Proof

/-- Little-endian words of 4 bytes with their marks; a tail of fewer bytes is dropped. -/
def words4 : List (BitVec 8 × Bool) → List (BitVec 32 × Bool)
  | a :: b :: c :: d :: r =>
    (BitVec.ofNat 32 (leNat [a.1, b.1, c.1, d.1]), a.2 || b.2 || c.2 || d.2) :: words4 r
  | _ => []

/-- n bytes 0, unmarked. -/
def zeros (n : Nat) : List (BitVec 8 × Bool) := List.replicate n (0, false)

/-! ### The switched state as bytes -/

/-- Bytes 0x0000 to 0x003F of a core block: resume index, loop depth, rotation, send counter, status word, loop levels with
the outermost as level 1. -/
def headBytes (resume : Nat) (loops : List Loop) (rot send nsw : Nat) : List (BitVec 8 × Bool) :=
  let ls := loops.reverse
  unmarked (leBytes 8 (resume % 2 ^ 14 + ls.length % 8 * 2 ^ 16 + rot % 2 ^ 8 * 2 ^ 20 + send % 2 ^ 16 * 2 ^ 32
      + nsw % 2 ^ 16 * 2 ^ 48) ++ leBytes 8 0
    ++ (List.range 4).flatMap (fun i =>
      let l := nth ls i Loop.reset
      leBytes 8 (l.left % 2 ^ 24 + l.start % 2 ^ 14 * 2 ^ 24 + l.len % 2 ^ 13 * 2 ^ 38))
    ++ leBytes 16 0)

/-- The loops that a head holds, innermost first. -/
def headLoops (h : List (BitVec 8)) : List Loop :=
  ((List.range (min 4 (bits (fieldLe h 0 8) 16 3))).map (fun i =>
    let x := fieldLe h (16 + 8 * i) 8
    { left := bits x 0 24, start := bits x 24 14, len := bits x 38 13 })).reverse

/-- The rotation state that a head holds. -/
def headRot (h : List (BitVec 8)) : Nat := bits (fieldLe h 0 8) 20 8

/-- Bytes 0x5800 to 0x9FFF of a core block from the core itself: pointers, accumulators, lane registers. -/
def Core.tailBytes (k : Core) (level1 : Bool) : List (BitVec 8 × Bool) :=
  unmarked ((List.range 8).flatMap (fun p => leBytes 16 (Sparse.get 0 k.ptrs p).toNat))
  ++ (List.range 8).flatMap (fun i =>
    let x := Sparse.get XAcc.reset k.xa i
    if level1 then zeros 80 else x.image.map (fun b => (b, x.poison)))
  ++ zeros 0x500
  ++ (List.range 4096).flatMap (fun j =>
    (leBytes 4 (Sparse.get 0 k.lanes j).toNat).map (fun b => (b, Sparse.get false k.laneMarks j)))

/-- The spill image of a core: what its spill area holds (R417). -/
def Core.spillBytes (k : Core) (t : Nat) (level1 : Bool) : List (BitVec 8 × Bool) :=
  k.tailBytes level1
    ++ headBytes (Sparse.get 0 k.resume t) k.loops (if level1 then 0 else k.rot.toNat) (Sparse.get 0 k.sendCtr t).toNat
      (Sparse.get 0 k.flags t).toNat

/-- Bytes of a spill image. -/
def spillLen : Nat := 0x4840

/-- A core with the registers that the tail of a block holds. In a level-1 task accumulators and rotation keep their
TASK_START values (R391, R418). -/
def Core.loadTail (k : Core) (level1 : Bool) (bs : List (BitVec 8 × Bool)) : Core :=
  let raw := bs.map (·.1)
  let ws := words4 (bs.drop 0x800)
  { k with
    ptrs := (List.range 8).foldl (fun m p => Sparse.set 0 m p (BitVec.ofNat 96 (fieldLe raw (16 * p) 16))) [],
    xa := if level1 then [] else (List.range 8).foldl (fun m i =>
      Sparse.set XAcc.reset m i { XAcc.ofImage (slice raw (0x80 + 80 * i) 80) with
        poison := ((bs.drop (0x80 + 80 * i)).take 80).any (·.2) }) [],
    lanes := Sparse.setMany 0 [] 0 (ws.map (·.1)),
    laneMarks := Sparse.setMany false [] 0 (ws.map (·.2)) }

/-- The physical address of the spill area of task t on core c. -/
def Device.spillPa (d : Device) (t c : Nat) : Nat := spadPa ((d.core c).bound t) ((d.task t).spillPage * 4096)

/-- The spill cycles of a core: its switched state goes to the spill area (R418). -/
def Device.spillCore (d : Device) (t c : Nat) : Device :=
  let k := d.core c
  let bs := k.spillBytes t (d.levelOf t == 1)
  (d.spadWrite c (d.spillPa t c) bs).onCore c (fun k => { k with cyc := k.cyc + 6 })

/-- The restore cycles of a core: its switched state comes from the spill area; a cycle that reads a marked word consumes it
(R418). -/
def Device.unspillCore (d : Device) (t c : Nat) : Device :=
  let lv := d.levelOf t == 1
  let base := (d.task t).spillPage * 4096
  let (bs, d) := d.spadRead c (d.spillPa t c) spillLen
  let d := (List.range 5).foldl (fun d i =>
    let part := (bs.drop (4096 * i)).take 4096
    match (List.range part.length).find? (fun j => (nth part j (0, false)).2) with
    | some j => d.consume t c ((base + 4096 * i + j) / 8 * 8) 0 1
    | none => d) d
  let h := (bs.drop 0x4800).map (·.1)
  d.onCore c (fun k => { k.loadTail lv bs with
    loops := headLoops h, rot := if lv then 0 else BitVec.ofNat 8 (headRot h), cyc := k.cyc + 6 })

/-! ### The context record (Tables 18-9, 18-10) -/

/-- The head of a core block with the marks of the spilled words that its rotation state and loop levels come from. -/
def markedHead (head src : List (BitVec 8 × Bool)) : List (BitVec 8 × Bool) :=
  (List.range head.length).map (fun i =>
    let w := i / 8
    let y := (w == 0 || (2 ≤ w && w < 6)) && ((src.drop (0x4800 + 8 * w)).take 8).any (·.2)
    ((nth head i (0, false)).1, y))

/-- The core block of task t on logical core c, with its switched state from a spill image. -/
def Device.coreBlock (d : Device) (t c : Nat) (src : List (BitVec 8 × Bool)) : List (BitVec 8 × Bool) :=
  let k := d.core c
  let b := k.bound t
  let lv := d.levelOf t == 1
  let h := (src.drop 0x4800).map (·.1)
  markedHead (headBytes (Sparse.get 0 k.resume t) (headLoops h) (if lv then 0 else headRot h) (Sparse.get 0 k.sendCtr t).toNat
      (Sparse.get 0 k.flags t).toNat) src
  ++ unmarked ((List.range 48).flatMap (fun r => leBytes 2 (if r < kCount b then Sparse.get 0 k.keys (kBase b + r) else 0)))
  ++ zeros 0x360
  ++ unmarked ((List.range 128).flatMap (fun r =>
    let q := if r < qCount b then k.qState (qBase b + r) else QState.reset
    leBytes 8 (q.head % 2 ^ 16 + q.tail % 2 ^ 16 * 2 ^ 16 + q.count % 2 ^ 16 * 2 ^ 32 + b2n q.overflowed * 2 ^ 48)))
  ++ zeros 0x800
  ++ unmarked ((List.range 256).flatMap (fun i => leBytes 64 (Sparse.get 0 k.copyDesc (256 * t + i)).toNat)
    ++ (List.range 64).flatMap (fun i => leBytes 32 (Sparse.get 0 k.mxDesc (64 * t + i)).toNat))
  ++ src.take 0x4800

/-- The header of a context record. -/
def Device.recordHead (d : Device) (t : Nat) : List (BitVec 8) :=
  let k := d.task t
  leBytes 50 0 ++ leBytes 8 k.runBeats ++ leBytes 8 k.captureS ++ [if k.state = 5 then 2 else 1]
    ++ [BitVec.ofNat 8 k.cores.length] ++ slice k.program 0 48 ++ leBytes 8 k.contract ++ leBytes 4 0xC7A50E71
    ++ List.replicate 3968 0

/-- The whole record of task t: the switched state of a FAULTED task, and of a YIELDED one before its spill cycles, is in
its cores, and is read from the spill areas otherwise (R249, R419). -/
def Device.contextRecord (d : Device) (t : Nat) : List (BitVec 8 × Bool) × Device :=
  let live := (d.task t).state == 5 || (d.task t).spillDue
  (d.task t).cores.foldl (fun (x : List (BitVec 8 × Bool) × Device) c =>
    let (src, e) := if live then ((x.2.core c).spillBytes t (x.2.levelOf t == 1), x.2)
      else x.2.spadRead c (x.2.spillPa t c) spillLen
    (x.1 ++ e.coreBlock t c src, e)) (unmarked (d.recordHead t), d)

/-- The keys, queues, status word and switched state of a core as a compare point covers them (R519); the order is that of
the core block (log 24). -/
def Device.compareBytes (d : Device) (t c : Nat) : List (BitVec 8) :=
  let b := (d.coreBlock t c ((d.core c).spillBytes t (d.levelOf t == 1))).map (·.1)
  b.take 0x1000 ++ b.drop 0x5800

end Sys2Proof.Machine
end

