-- ==== Sys2Proof/Machine/Tasks.lean ====
section
/-! DEFINITION. Machine/Tasks.lean: what ends, stops and yields a task (R408 to R418), its compare points (R518 to R520), and
a divergence of a pair (R527 to R529). -/

namespace Sys2Proof.Machine

open Sys2Proof

/-- A registered command completes, if there is one (R455). -/
def Device.settle (d : Device) (mb : Option Nat) (status : Nat) : Device :=
  match mb with
  | some m => d.finish m status (if status = 3 then 9 else 0) []
  | none => d

/-! ### Divergence (R527 to R529) -/

/-- Package-class records in the last 2^24 wall beats. -/
def Device.packageRecords (d : Device) : Nat :=
  (d.hub.health.filter (fun r => r.cls == 2 && decide (d.beat.w < r.w + 2 ^ 24))).length

/-- A divergence of task t in task beat tb at a position + 1, or 0 at a compare point: TWIN_DIVERGE is recorded and the task
stops, unless a replay has diverged again at the same place: then the package with more package-class records mutes itself,
and a shadow at a tie; the partner's records are those of its FAULT records (R528, R529, log 25). -/
def Device.diverge (d : Device) (t beat tb pos : Nat) : Device :=
  let d := d.log { HealthRec.reset with
    s := beat, code := 0x0401, cls := 4, tslot := t, task := true, dHi := beat, dLo := pos }
  if d.twin.diverged = some (t, tb, pos) then
    let own := d.packageRecords
    let peer := (d.twin.peerPackage.filter (fun w => decide (d.beat.w < w + 2 ^ 24))).length
    if peer < own || (own == peer && d.twin.role == 5) then d.onTwin (fun w => { w with muteReq := 4 }) else d
  else
    (d.onTwin (fun w => { w with diverged := some (t, tb, pos) })).stopTask t

/-! ### Compare points (R518 to R520) -/

/-- Compare the own and the partner's digests of slot t and a schedule beat, once both are held. -/
def Device.compareDigests (d : Device) (t beat : Nat) : Device :=
  let here := fun (x : Nat × Nat × List (BitVec 8)) => x.1 == t && x.2.1 == beat
  match d.twin.digests.find? here, d.twin.peerDigests.find? here with
  | some a, some b =>
    let d := d.onTwin (fun w => { w with
      digests := w.digests.filter (fun x => !here x), peerDigests := w.peerDigests.filter (fun x => !here x) })
    if a.2.2 == b.2.2 then d.onTwin (fun w => { w with lastCompared := beat % 2 ^ 48 })
    else d.diverge t beat (d.taskBeat t) 0
  | _, _ => d

/-- Words of the task's windows whose twin repair falls at this compare point (R530). -/
def Device.repairsOf (d : Device) (t : Nat) : List (Nat × Nat × Nat) :=
  d.twin.repairs.filter (fun r =>
    match r.1 with
    | 0 => (d.spadWindowSlots r.2.1 r.2.2 8).contains t
    | 1 => (d.stageWindowSlots r.2.2 8).contains t
    | _ => (d.dramWindowSlots r.2.2 32).contains t)

/-- A compare point of task t at a schedule beat: in a pair its digests go to the partner, and a new interval begins. -/
def Device.comparePoint (d : Device) (t beat : Nat) : Device :=
  let k := d.task t
  let d :=
    if d.inPair then
      let x := leBytes 8 k.writeDigest.toNat ++ sha384 (k.cores.flatMap (fun c => d.compareBytes t c))
      let d := d.twinSend 0x09 beat 0 0xFF t x
      (d.onTwin (fun w => { w with digests := w.digests ++ [(t, beat, x)] })).compareDigests t beat
    else d
  let d := d.onTwin (fun w => { w with repairDue := w.repairDue ++ d.repairsOf t })
  d.onTask t (fun k => { k with writeDigest := 0, lastCompare := beat })

/-! ### Work in flight and unbinding (R415) -/

/-- Is a copy, send or receive of task t in flight? -/
def Device.inFlight (d : Device) (t : Nat) : Bool :=
  (d.task t).cores.any (fun c =>
    let k := d.core c
    k.copies.any (fun x => x.slot == t) || (k.running == some t && k.sends != []))

/-- The entries of a table by 2^w x slot + n that belong to other slots. -/
def otherSlots {α : Type} (m : Sparse α) (w t : Nat) : Sparse α := m.filter (fun e => e.1 / 2 ^ w != t)

/-- A core with the base-and-bound set, page map entries, descriptor files and maps of slot t cleared, and without its
results on their way (R415). -/
def Core.clearSlot (k : Core) (t : Nat) : Core :=
  let b := k.bound t
  { k with
    bounds := Sparse.set 0 k.bounds t 0,
    pageMap := k.pageMap.filter (fun e => !(spBase b ≤ e.1 && e.1 < spBase b + spLen b)),
    copyDesc := otherSlots k.copyDesc 8 t, copyDescImg := otherSlots k.copyDescImg 8 t,
    mxDesc := otherSlots k.mxDesc 6 t, mxDescImg := otherSlots k.mxDescImg 6 t,
    keyMap := otherSlots k.keyMap 6 t, queueMap := otherSlots k.queueMap 7 t,
    resume := Sparse.set 0 k.resume t 0,
    ended := k.ended.filter (· != t),
    flights := k.flights.filter (fun f => f.slot != t),
    power := { k.power with
      hint := k.power.hint.filter (fun h => h.1 != t), hintNew := k.power.hintNew.filter (fun h => h.1 != t) },
    running := if k.running == some t then none else k.running,
    issue := if k.running == some t then none else k.issue,
    stopped := if k.running == some t then false else k.stopped,
    fill := if k.running == some t then none else k.fill,
    yielded := if k.running == some t then false else k.yielded,
    wait := if k.running == some t then none else k.wait }

/-- Retire the pages and blocks whose third error came while they were live and that no window covers now (R256, R539). -/
def Device.retireDue (d : Device) (cores : List Nat) : Device :=
  let d := cores.foldl (fun d c =>
    ((d.core c).pageUe.filter (fun e => 3 ≤ e.2)).foldl (fun d e => if d.livePage c e.1 then d else d.retirePage c e.1) d) d
  (List.range 8).foldl (fun d k =>
    ((d.stack k).blockUe.filter (fun e => 3 ≤ e.2)).foldl (fun d e =>
      let a := k * stackBytes + e.1 * 2 ^ 20
      if d.liveDram a (2 ^ 20) then d else d.retireBlock (a / 2 ^ 20)) d) d

/-- The ring is armed until no slot is armed and the logger's buffer is empty (R430, R433). -/
def Device.freeRing (d : Device) : Device :=
  if d.boundSlots.any (fun t => (d.task t).armed) || d.logger.buffer != [] || d.logger.lost != 0 then d
  else { d with logger := { d.logger with ring := none } }

/-- The slot becomes UNBOUND: the commands that wait for the task are moot, a registered TASK_STOP completes OK (R415,
R456). -/
def Device.unbind (d : Device) (t : Nat) : Device :=
  let k := d.task t
  let d := (((d.changing k.stopMb t).settle k.startMb 2).settle k.yieldMb 2).settle k.stopMb 0
  let d := k.cores.foldl (fun d c => d.onCore c (fun x => x.clearSlot t)) d
  let d := d.setTask t Task.reset
  let f := d.fabric
  let d := d.dropEntries (fun e => e.isOpen && !e.atEdge && e.bindId == k.bindId)
  let d := { d with fabric := { f with
    planSlots := f.planSlots.filter (· != t), newSlots := f.newSlots.filter (· != t), oldSlots := f.oldSlots.filter (· != t) } }
  d.freeRing.retireDue k.cores

/-- A registered TASK_STOP of a task that is not RUNNING acts once nothing of it is in flight (R415). -/
def Device.tryStop (d : Device) (t : Nat) : Device :=
  let k := d.task t
  if k.stopReg && k.state != 2 && k.state != 0 && !k.stopping && !d.inFlight t then d.unbind t else d

/-! ### Ends, yields and faults -/

/-- Task t leaves its cores; the sc that one of them still has open ends. -/
def Device.leaveCores (d : Device) (t : Nat) : Device :=
  (d.task t).cores.foldl (fun d c =>
    if (d.core c).running == some t then
      ((d.closeSc c).onCore c (fun k => { k with
        running := none, issue := none, stopped := false, fill := none, yielded := false, wait := none })).restRegion c
    else d) d

/-- Every core of task t has issued `ct.end` (R414, R415, R518, Table 18-8). -/
def Device.endTask (d : Device) (t : Nat) : Device :=
  let d := d.logEvent t 0x0A none 0 []
  let d := d.comparePoint t d.gate.e
  let d := d.settle (d.task t).yieldMb 2
  let d := d.leaveCores t
  let d := d.onTask t (fun k => { k with
    state := 4, captureS := d.gate.e, yieldS := none, yieldMb := none, replay := none })
  d.tryStop t

/-- Has task t a yield point now, or an unequal set of yields: the end of a beat in which one of its cores issued
`ct.yield`? -/
def Device.yieldDue (d : Device) (t : Nat) : Bool :=
  let k := d.task t
  k.state == 2 && !k.stopping && k.cores.any (fun c => (d.core c).yielded)
    && k.cores.all (fun c => (d.region c).finished)

/-- Does a yield point at beat s make the task YIELDED: a YIELD_REQ at or before s, or the end of its replay (R414, R435)? -/
def Task.yieldsAt (k : Task) (s : Nat) : Bool :=
  (match k.yieldS with
   | some q => decide (q ≤ s)
   | none => false)
  || (k.replay.isSome && decide (k.replayEnd ≤ s))

/-- The task becomes YIELDED: each core keeps the index that follows its `ct.yield` (R414, R418). -/
def Device.yieldTask (d : Device) (t : Nat) : Device :=
  let d := d.changing (d.task t).yieldMb t
  let d := (d.task t).cores.foldl (fun d c => d.onCore c (fun k => { k with resume := Sparse.set 0 k.resume t k.pc })) d
  let d := d.settle (d.task t).yieldMb 0
  let d := d.onTask t (fun k => { k with
    state := 3, runBeats := k.runBeats + 1, yieldS := none, yieldMb := none, replay := none, spillDue := true })
  d.leaveCores t

/-- The end of a beat in which cores of task t issued `ct.yield` (R411, R414, R415, R432, R518). -/
def Device.yieldPoint (d : Device) (t : Nat) : Device :=
  if d.yieldDue t then
    let s := d.gate.e
    let k := d.task t
    match (List.range 144).find? (fun c => k.cores.contains c && !(d.core c).yielded) with
    | some c => d.fault t 0x0102 2 1 c 0 0 0
    | none =>
      let d := d.logEvent t 0x02 none s []
      let d := d.onTask t (fun k => { k with lastYield := s, captureS := s, consumed := none, consumeCount := 0 })
      let d := k.cores.foldl (fun d c => d.onCore c (fun x => { x with yielded := false, mx := { x.mx with lastKey := none } })) d
      let stop := k.stopReg
      let yield := k.yieldsAt s
      let d := if d.inPair && (yield || k.lastCompare + 4096 ≤ s) then d.comparePoint t s else d
      if stop then
        let d := (d.changing k.stopMb t).settle k.yieldMb 2
        let d := d.onTask t (fun k => { k with yieldMb := none, state := 3 })
        (d.leaveCores t).tryStop t
      else if yield then d.yieldTask t
      else d.onTask t (fun k => { k with lastCompare := if k.lastCompare + 4096 ≤ s then s else k.lastCompare })
  else d

/-- Is a fault for want of a yield point due: no yield point in 4,096 schedule beats (R412)? -/
def Device.overdue (d : Device) (t : Nat) : Bool :=
  let k := d.task t
  k.state == 2 && !k.stopping && decide (k.lastYield + 4096 ≤ d.gate.e) && k.cores.all (fun c => (d.region c).finished)

/-- A stopping task with nothing in flight becomes FAULTED, and its registered commands complete (R416, R541). The array
of each of its cores is discarded (R189). -/
def Device.faultTask (d : Device) (t : Nat) : Device :=
  let k := d.task t
  let d := d.logEvent t 0x0A none 1 []
  let d := (d.settle k.startMb 6).settle k.yieldMb 6
  let d := k.cores.foldl (fun d c =>
    if (d.core c).running == some t then
      (d.dropArray c).onCore c (fun x => { x with flights := x.flights.filter (fun f => f.slot != t) })
    else d) d
  let d := d.leaveCores t
  let d := d.onTask t (fun k => { k with
    state := 5, stopping := false, startS := none, startMb := none, yieldS := none, yieldMb := none, replay := none })
  d.tryStop t

end Sys2Proof.Machine
end

