-- ==== Sys2Proof/Machine/Open.lean ====
section
/-! DEFINITION. Machine/Open.lean: what arriving open packets do (R349, R350, R356, R357), host writes (R422, R432), and the
input of a replay (R436, R437). -/

namespace Sys2Proof.Machine

open Sys2Proof

/-! ### Windows that a range meets -/

/-- The DRAM (1) or staging (2) window of task t on core c: its first byte and its length (R163). -/
def Device.windowOf (d : Device) (kind t c : Nat) : Nat × Nat :=
  let b := (d.core c).bound t
  if kind = 1 then (dramBase b * 2 ^ 20, dramLen b * 2 ^ 20) else (stageBase b * 65536, stageLen b * 65536)

/-- Put a window into a list in ascending order of first byte. -/
def insertWindow (w : Nat × Nat) (l : List (Nat × Nat)) : List (Nat × Nat) :=
  l.takeWhile (fun x => x.1 ≤ w.1) ++ [w] ++ l.dropWhile (fun x => x.1 ≤ w.1)

/-- The runs of a range [a, a + n) of DRAM (1) or staging (2) that lie in windows of task t, each byte once: address and bytes,
ascending. -/
def Device.windowRuns (d : Device) (kind t a n : Nat) : List (Nat × Nat) :=
  let ws := ((d.task t).cores.map (d.windowOf kind t)).filter (fun w => overlaps w.1 w.2 a n)
  let ws := ws.eraseDups.foldl (fun l w => insertWindow w l) []
  (ws.foldl (fun (l : List (Nat × Nat)) w =>
    let from_ := match l with
      | [] => a
      | x :: _ => x.1 + x.2
    let lo := max from_ w.1
    let hi := min (a + n) (w.1 + w.2)
    if hi ≤ lo then l
    else match l with
      | [] => [(lo, hi - lo)]
      | x :: r => if lo = x.1 + x.2 then (x.1, hi - x.1) :: r else (lo, hi - lo) :: l) []).reverse

/-- Does a range of DRAM (1) or staging (2) meet a window of a task in replay, or DRAM the armed ring (R474)? -/
def Device.hostBarred (d : Device) (kind a n : Nat) : Bool :=
  d.boundSlots.any (fun t => (d.task t).replay.isSome && !(d.windowRuns kind t a n).isEmpty)
  || (kind == 1 && match d.logger.ring with
      | some (r, l) => overlaps r l a n
      | none => false)

/-- The byte from which the HOST records of task t count in DRAM (1) or staging (2): the first of the window of image core 0. The
windows of other image cores keep their distance from it (DESIGN CHOICE, log 27). -/
def Device.hostBase (d : Device) (kind t : Nat) : Nat := (d.windowOf kind t (nth (d.task t).cores 0 0)).1

/-- A host write has landed in DRAM (1) or staging (2): each task one of whose windows it meets has HOST_IN set, and records of
those bytes in the log (R422, R432, R442). -/
def Device.hostLanded (d : Device) (kind a : Nat) (bs : List (BitVec 8)) : Device :=
  d.boundSlots.foldl (fun d t =>
    (d.windowRuns kind t a bs.length).foldl (fun d w =>
      let d := d.onTask t (fun k => { k with flagWord := Nat.lor k.flagWord 2 })
      let rel := w.1 + 2 ^ 48 - d.hostBase kind t
      (List.range ((w.2 + 4095) / 4096)).foldl (fun d i =>
        let o := 4096 * i
        d.logEvent t 3 none (kind * 2 ^ 62 + (rel + o) % 2 ^ 48) (slice bs (w.1 - a + o) (min 4096 (w.2 - o)))) d) d) d

/-! ### The bytes of a TAG that have landed -/

/-- Device, core and TAG of a packet's copy. -/
def Packet.who (p : Packet) : Nat × Nat × Nat := (p.srcDev, p.srcCore, p.tag)

/-- Bytes counted for a TAG. -/
def Device.landedOf (d : Device) (w : Nat × Nat × Nat) : Option Nat :=
  (d.fabric.landedTag.find? (fun x => (x.1, x.2.1, x.2.2.1) == w)).map (fun x => x.2.2.2)

/-- Count bytes for a TAG. -/
def Device.addLanded (d : Device) (w : Nat × Nat × Nat) (n : Nat) : Device :=
  let l := d.fabric.landedTag
  let rest := l.filter (fun x => (x.1, x.2.1, x.2.2.1) != w)
  { d with fabric := { d.fabric with landedTag := rest ++ [(w.1, w.2.1, w.2.2, (d.landedOf w).getD 0 + n)] } }

/-- Forget the count of a TAG. -/
def Device.dropLanded (d : Device) (w : Nat × Nat × Nat) : Device :=
  { d with fabric := { d.fabric with landedTag := d.fabric.landedTag.filter (fun x => (x.1, x.2.1, x.2.2.1) != w) } }

/-- The counter of the bytes that a responder has read for a TAG. -/
def readWho (w : Nat × Nat × Nat) : Nat × Nat × Nat := (w.1, w.2.1, w.2.2 + 65536)

/-- Is an access for a TAG outstanding: a request at a core or in DRAM, or, for a key increment at the origin, the copy
itself (R356)? -/
def Device.outstanding (d : Device) (p : Packet) : Bool :=
  d.cores.any (fun e => e.2.reqs.any (fun r => r.slip.isNone && r.pk.who == p.who))
  || d.openReads.any (fun r => r.pk.who == p.who)
  || (p.op == 3 && p.srcDev == d.devNum && match (d.core p.srcCore).copyOf p.tag with
      | some x => !x.complete
      | none => false)

/-- A packet that answers another packet: it carries the origin's SRC_DEV, SRC_CORE and TAG, and its bytes belong to no
binding (R356, log 28). -/
def Device.answer (d : Device) (p : Packet) (dest aux op : Nat) (last : Bool) (data : List (BitVec 8 × Bool)) : Device :=
  let h := mkHdr dest aux p.srcDev p.srcCore op data.length p.tag last (if last then p.key else 0)
    (if last then p.keyN else 0) 16
  (d.meterFabric none (32 + data.length)).sendPacket (rzDev dest)
    { Packet.reset with hdr := h, data := data.map (·.1), poison := poisonMask data }

/-- Has every byte of a request been accessed, in units of u bytes? -/
def Req.whole (u : Nat) (r : Req) : Bool := (cutAt u 0 r.addr r.len).all (fun p => r.done.contains p.1)

/-- The reads of a list that answer now, and the rest of the list: a read answers once it is whole and no earlier read of the same
copy is left, so that its READ_DATA packets leave in the order of its requests (R335, R356). -/
def readyReads (u : Nat) : List (Nat × Nat × Nat) → List Req → List Req × List Req
  | _, [] => ([], [])
  | seen, r :: l =>
    if r.write then
      let x := readyReads u seen l
      (x.1, r :: x.2)
    else if r.whole u && !seen.contains r.pk.who then
      let x := readyReads u seen l
      (r :: x.1, x.2)
    else
      let x := readyReads u (r.pk.who :: seen) l
      (x.1, r :: x.2)

/-- The READ_DATA of a read. -/
def Device.answerRead (d : Device) (r : Req) : Device :=
  (d.addLanded (readWho r.pk.who) r.len).answer r.pk r.pk.aux 0 2 r.pk.last (Sparse.getMany (0, false) r.got 0 r.len)

/-- The reads at a core, or those of DRAM, that may answer do so, and what waited for them is looked at again. -/
def Device.answerReads (d : Device) (core : Option Nat) : Device :=
  let u := if core.isSome then 64 else 256
  let l := match core with
    | some c => (d.core c).reqs
    | none => d.openReads
  let x := readyReads u [] l
  match x.1 with
  | [] => d
  | rs =>
    let d := match core with
      | some c => d.onCore c (fun k => { k with reqs := x.2 })
      | none => { d with openReads := x.2 }
    rs.foldl (fun d r => d.answerRead r) d

/-- Add a key that an open packet names (R270, R294, R298, R357). -/
def Device.openKey (d : Device) (p : Packet) : Device :=
  let c := rzCore p.dest
  let none_ := d.landedOf p.who == some 0
  let d := d.dropLanded p.who
  if none_ then d else d.addKey c (bits p.dest 0 6) p.keyN false

/-- What follows the last packet of a TAG, once every byte of it has landed: the KEY_ADD, then the DONE (R356, R357). A
core below Active holds a key increment until it is awake (R559). -/
def Device.settleLast (d : Device) (p : Packet) : Device :=
  let here := rzCore p.dest
  let key := if p.op = 1 then rzMake (rzDev p.aux) 4 (rzCore p.aux * 2 ^ 40 + p.key)
    else rzMake (rzDev p.dest) 4 (here * 2 ^ 40 + p.key)
  let keep := { d with fabric := { d.fabric with lasts := d.fabric.lasts ++ [p] } }
  let back := rzMake p.srcDev 0 (p.srcCore * 2 ^ 40)
  if d.outstanding p then keep
  else match p.op with
    | 3 =>
      if (d.core here).power.state = 0 then d.openKey p else (d.forceWake here p.srcDev).onFabric (fun _ => keep.fabric)
    | 1 =>
      if !d.roomFor (rzDev p.aux) then keep
      else
        let n := (d.landedOf (readWho p.who)).getD 0
        let d := d.dropLanded (readWho p.who)
        if p.keyN = 0 || n = 0 then d else d.answer p key 0 3 true []
    | _ =>
      if !d.roomFor p.srcDev then keep
      else
        let n := (d.landedOf p.who).getD 0
        let d := if p.op = 2 && p.keyN != 0 then d else d.dropLanded p.who
        let d := if p.op = 2 || p.keyN = 0 || n = 0 then d else d.answer p key 0 3 true []
        d.answer p back n 5 true []

/-- Look again at every last packet that waits. -/
def Device.settleTags (d : Device) : Device :=
  let l := d.fabric.lasts
  l.foldl (fun d p => d.settleLast p) { d with fabric := { d.fabric with lasts := [] } }

/-! ### Records of what arrives -/

/-- A refusal is counted, and the first of a wall beat recorded with the address, and the sender and TAG (R350). -/
def Device.refuseOpen (d : Device) (p : Packet) : Device :=
  let d := d.countHub 12 1
  if d.fabric.refusedW == some d.beat.w then d
  else
    { d with fabric := { d.fabric with refusedW := some d.beat.w } }.event 0x000A 0 4 0 p.dest
      (p.srcDev * 2 ^ 24 + p.srcCore * 2 ^ 16 + p.tag)

/-- The payload of an OPEN record of the log (Table 19-3): header, poison mask of the data words, data. -/
def Packet.record (p : Packet) : List (BitVec 8) := p.hdr ++ leBytes 7 (p.poison / 16) ++ leBytes 25 0 ++ p.data

/-- The packet that an OPEN record holds. -/
def Packet.ofRecord (bs : List (BitVec 8)) : Packet :=
  { Packet.reset with hdr := slice bs 0 32, poison := fieldLe bs 32 7 * 16, data := bs.drop 64, port := 63 }

/-- Do two packets agree in operation, DEST, source, TAG and data (R437)? -/
def Packet.same (p q : Packet) : Bool :=
  p.op == q.op && p.dest == q.dest && p.srcDev == q.srcDev && p.srcCore == q.srcCore && p.tag == q.tag && p.data == q.data

/-- An open packet is applied to task t: OPEN_IN, the log and the ledger (R432, R442, R569). -/
def Device.openApplied (d : Device) (t : Nat) (core : Option Nat) (p : Packet) : Device :=
  let d := d.onTask t (fun k => { k with flagWord := Nat.lor k.flagWord 16 })
  (d.logEvent t 4 core p.dest p.record).meterFabric (some t) (32 + p.data.length)

/-- The payload of a record of the log. -/
def recPay (r : List (BitVec 8)) : List (BitVec 8) := slice (r.drop 32) 0 (bits (fieldLe r 0 32) 101 13)

/-- Compare a live item of a replay of task t with the log: one matching record is used up, or the miss is counted (R437). -/
def Device.replayCompare (d : Device) (t kind source : Nat) (core : Option Nat) (hit : List (BitVec 8) → Bool) : Device :=
  let l := (d.task t).replayLog
  match l.find? (fun r => bits (fieldLe r 0 32) 114 8 == kind && hit r) with
  | some r => d.onTask t (fun k => { k with replayLog := k.replayLog.erase r })
  | none => d.replayMiss t kind source core

/-! ### Where packets act -/

/-- Is a core, or a stack of a range of DRAM, out of service, or off while the device is not out of Parked (R548, R564)? -/
def Device.targetGone (d : Device) (a n : Nat) : Bool :=
  (rzSpace a ≤ 1 && d.power.device != 0)
    || (rzSpace a == 0 && (d.core (rzCore a)).absent)
    || (rzSpace a == 1 && (unitsOf stackBytes (rzOff a) n).any (fun k => (d.stack k).absent))

/-- The task slots whose windows hold the whole of a range that a packet names (R349); none where it names what is out of
service. -/
def Device.openSlots (d : Device) (a n : Nat) : List Nat :=
  if d.targetGone a n then []
  else match rzSpace a with
  | 0 => if inIstore a then [] else d.spadWindowSlots (rzCore a) (rzCoreOff a) n
  | 1 => d.dramWindowSlots (rzOff a) n
  | 2 => d.stageWindowSlots (rzOff a) n
  | _ => []

/-- A request reaches core c's copy engine now, as the next in order of arrival (R244). -/
def Device.postReq (d : Device) (c : Nat) (r : Req) : Device :=
  let n := d.crossNum
  { d with crossNum := n + 1 }.onCore c (fun k => { k with reqs := k.reqs ++ [{ r with ready := k.cyc, num := n }] })

/-- The payload of a scheduled slot at position k of port p, with its marks, goes to core c by its receive entry (R331). -/
def Device.postSlip (d : Device) (c p k e : Nat) (data : List (BitVec 8 × Bool)) : Device :=
  d.postReq c { Req.reset with
    slip := some (p, k, if peKeyEn e then some (peKey e) else none), addr := peAddr e, write := true, len := data.length,
    pk := { Packet.reset with data := data.map (·.1), poison := payloadMask data * 16 } }

/-- Queue a request of a packet at a core's copy engine; a core below Active is woken (R559). -/
def Device.addReq (d : Device) (p : Packet) (a : Nat) (write : Bool) : Device :=
  let c := rzCore a
  (d.forceWake c p.srcDev).postReq c { Req.reset with addr := rzCoreOff a, write := write, len := p.len, pk := p }

/-- Queue a DRAM access of a packet for tick user 1; a quarter in Retain is woken (R282, R559). -/
def Device.addDramReq (d : Device) (p : Packet) (a : Nat) (write : Bool) : Device :=
  let q := rzOff a / stackBytes / 2
  let d := d.wakeQuarter q
  { d with openReads := d.openReads ++ [{ Req.reset with
    ready := d.beat.w, addr := rzOff a, write := write, len := p.len, pk := p }] }

/-- The data of a WRITE, READ_DATA or HOST packet goes to its destination. -/
def Device.openData (d : Device) (p : Packet) : Device :=
  let d := d.addLanded p.who 0
  if p.len = 0 then d
  else match rzSpace p.dest with
    | 0 => d.addReq p p.dest true
    | 1 => d.addDramReq p p.dest true
    | _ =>
      let d := d.stageWrite (rzOff p.dest) p.marked
      let d := if p.op = 7 then d.hostLanded 2 (rzOff p.dest) p.data else d
      d.addLanded p.who p.len

/-- A last packet joins those that wait for their TAG. -/
def Device.openLast (d : Device) (p : Packet) : Device :=
  if p.last then (d.onFabric (fun f => { f with lasts := f.lasts ++ [p] })).settleTags else d

/-- READ_DATA at the origin of its copy: the bytes of the source piece that returns to its DEST; without data, or refused,
the piece is lost (R350, R356). One that no copy waits for is refused, unless its refusal is counted already. -/
def Device.originData (d : Device) (p : Packet) (counted ok : Bool) : Device :=
  let c := p.srcCore
  let stray := if counted then d else d.refuseOpen p
  match (d.core c).copyOf p.tag with
  | none => stray
  | some x =>
    match x.srcPieces.find? (fun q => !x.hasGot q.1 && x.returnTo d.devNum c q.1 == p.dest) with
    | none => stray
    | some q =>
      let d := if (cd x.desc.toNat).keyKind = 2 && (cd x.desc.toNat).keyN != 0 then d.addLanded p.who (if ok then p.len else 0)
        else d
      let d :=
        if ok && p.len = q.2.2 then
          let (s, a) := d.sourceRef c x q.2.1
          (d.copyGot c p.tag q.1 p.marked s a).copyFlow c p.tag
        else d.onCopy c p.tag (fun y =>
          let gone := y.dstPieces.filter (fun z =>
            let n := y.needs z.1 z.2.2
            !y.hasPut z.1 && overlaps n.1 n.2 q.1 q.2.2)
          { y with got := y.got ++ [(q.1, 0, 0)], put := y.put ++ gone.map (fun z => (z.1, 0)),
                   lost := y.lost + gone.foldl (fun a z => a + z.2.2) 0 })
      d.settleTags

/-! ### One packet -/

/-- A WRITE, or READ_DATA at a device that is not the origin. -/
def Device.takeWrite (d : Device) (replayed : Bool) (p : Packet) : Device :=
  match d.openSlots p.dest p.len with
  | [] => ((d.refuseOpen p).addLanded p.who 0).openLast p
  | t :: _ =>
    let core := if rzSpace p.dest = 0 then some (rzCore p.dest) else none
    if (d.task t).replay.isSome && !replayed then
      d.replayCompare t 4 p.srcDev core (fun r => (Packet.ofRecord (recPay r)).same p)
    else ((d.openApplied t core p).openData p).openLast p

/-- READ_DATA at the origin: the range that its bytes land in, after any conversion, is checked (R349, R355). -/
def Device.takeOrigin (d : Device) (replayed : Bool) (p : Packet) : Device :=
  let n := match (d.core p.srcCore).copyOf p.tag with
    | some x => match x.srcPieces.find? (fun q => !x.hasGot q.1 && x.returnTo d.devNum p.srcCore q.1 == p.dest) with
      | some q => x.formed q.1 p.len
      | none => p.len
    | none => p.len
  match d.openSlots p.dest n with
  | [] => (d.refuseOpen p).originData p true false
  | t :: _ =>
    let core := if rzSpace p.dest = 0 then some (rzCore p.dest) else none
    if (d.task t).replay.isSome && !replayed then
      d.replayCompare t 4 p.srcDev core (fun r => (Packet.ofRecord (recPay r)).same p)
    else (d.openApplied t core p).originData p false (decide (0 < p.len))

/-- A READ_REQ that is refused is answered with no data, behind the reads of the same copy before it (R335, R350). -/
def Device.refuseRead (d : Device) (p : Packet) : Device :=
  let c := rzCore p.dest
  let r := { Req.reset with pk := p }
  match rzSpace p.dest with
  | 0 => if d.hasCore c then (d.onCore c (fun k => { k with reqs := k.reqs ++ [r] })).answerReads (some c) else d.answerRead r
  | 1 => ({ d with openReads := d.openReads ++ [r] }).answerReads none
  | _ => d.answerRead r

/-- A READ_REQ. -/
def Device.takeRead (d : Device) (replayed : Bool) (p : Packet) : Device :=
  match d.openSlots p.dest p.len with
  | [] => ((d.refuseOpen p).refuseRead p).openLast p
  | t :: _ =>
    let core := if rzSpace p.dest = 0 then some (rzCore p.dest) else none
    if (d.task t).replay.isSome && !replayed then
      d.replayCompare t 4 p.srcDev core (fun r => (Packet.ofRecord (recPay r)).same p)
    else
      let d := d.openApplied t core p
      let d := match rzSpace p.dest with
        | 0 => d.addReq p p.dest false
        | 1 => d.addDramReq p p.dest false
        | _ =>
          let (bs, d) := d.stageRead (rzOff p.dest) p.len
          (d.addLanded (readWho p.who) p.len).answer p p.aux 0 2 p.last bs
      d.openLast p

/-- A KEY_ADD; to a core that does not exist or is out of service it is refused (R548, log 59). -/
def Device.takeKey (d : Device) (replayed : Bool) (p : Packet) : Device :=
  let c := rzCore p.dest
  let wait := fun (d : Device) => (d.onFabric (fun f => { f with lasts := f.lasts ++ [p] })).settleTags
  if d.power.device != 0 || !d.hasCore c || (d.core c).absent then d.refuseOpen p
  else match d.keyHolder c (bits p.dest 0 6) with
  | some t =>
    if (d.task t).replay.isSome && !replayed then
      d.replayCompare t 4 p.srcDev (some c) (fun r => (Packet.ofRecord (recPay r)).same p)
    else wait (d.openApplied t (some c) p)
  | none => wait d

/-- A QMSG: its descriptor is on its way to the core as an open arrival (R307); to a core that does not exist or is out of
service it is refused (R548, log 59). -/
def Device.takeMsg (d : Device) (p : Packet) : Device :=
  let c := rzCore p.dest
  if d.power.device != 0 || !d.hasCore c || (d.core c).absent then d.refuseOpen p
  else
  let d := match d.queueHolder c (bits p.dest 0 7) with
    | some t => d.meterFabric (some t) (32 + p.data.length)
    | none => d.meterFabric none (32 + p.data.length)
  d.onCore c (fun k => { k with msgIn := k.msgIn ++ [{ Msg.reset with
    desc := slice p.data 0 32, dev := p.srcDev, core := p.srcCore, mq := bits p.dest 0 7, openSlot := true,
    sendS := p.beat, poison := p.poison / 16 % 16 }] })

/-- A DONE: the copy has its completion notice. -/
def Device.takeDone (d : Device) (replayed : Bool) (p : Packet) : Device :=
  let c := p.srcCore
  match (d.core c).copyOf p.tag with
  | none => d
  | some x =>
    if (d.task x.slot).replay.isSome && !replayed then
      d.replayCompare x.slot 4 p.srcDev (some c) (fun r => (Packet.ofRecord (recPay r)).same p)
    else (d.openApplied x.slot (some c) p).onCopy c p.tag (fun y => { y with notice := some p.aux })

/-- A HOST packet: no window is checked, but the bytes may land in no armed ring and in no window of a task in replay, and
only in DRAM that is present or in task staging (R474). -/
def Device.takeHost (d : Device) (p : Packet) : Device :=
  let kind := rzSpace p.dest
  let ok := (kind == 1 || kind == 2) && rzValid d.grade p.dest p.len && !d.hostBarred kind (rzOff p.dest) p.len
    && !d.targetGone p.dest p.len
  if ok then ((d.meterFabric none (32 + p.data.length)).openData p).openLast p
  else (d.addLanded p.who 0).openLast p

/-! ### Records that a replay applies (R436) -/

/-- Apply a record of the log to task t. -/
def Device.applyRecord (d : Device) (t : Nat) (r : List (BitVec 8)) : Device :=
  let h := leNat (slice r 0 32)
  let pay := slice (r.drop 32) 0 (bits h 101 13)
  let detail := bits h 0 64
  let c := nth (d.task t).cores (bits h 125 8) 0
  let d := d.countHub 15 1
  match bits h 114 8 with
  | 3 =>
    let kind := bits detail 62 2
    let a := (d.hostBase kind t + bits detail 0 48) % 2 ^ 48
    ((if kind = 1 then d.dramWrite a (unmarked pay) else d.stageWrite a (unmarked pay))).hostLanded kind a pay
  | 4 =>
    let p := Packet.ofRecord pay
    match p.op with
    | 0 => d.takeWrite true p
    | 1 => d.takeRead true p
    | 2 => if p.srcDev = d.devNum then d.takeOrigin true p else d.takeWrite true p
    | 3 => d.takeKey true p
    | 5 => d.takeDone true p
    | _ => d
  | 5 =>
    let mq := bits detail 0 7
    let e := match d.queueHolder c mq with
      | some u => (d.core c).qEntry u (mq - qBase ((d.core c).bound u))
      | none => 0
    if qCap e = 0 then d
    else d.acceptMsg c t { Msg.reset with desc := pay, core := bits (leNat (slice pay 16 2)) 0 8, mq := mq } e
  | _ => d

/-- May a record apply now: its task beat is the present one and its core, or for core 0xFF the last of the task's cores,
has issued its sc; or the point has passed? A record of sc 0 also applies while the core's first bundle of the beat waits for
a key or a queue. -/
def Device.recordDue (d : Device) (t : Nat) (r : List (BitVec 8)) : Bool :=
  let h := leNat (slice r 0 32)
  let k := d.task t
  let tb := bits h 144 64
  let sc := bits h 133 11
  let ic := bits h 125 8
  let past := fun c => decide (sc < (d.region c).count) || (d.region c).finished
    || (sc == 0 && (d.region c).count == 0 && ((d.core c).wait.map (·.1) == some 1 || (d.core c).wait.map (·.1) == some 2))
  k.state == 2 && (decide (tb < k.runBeats)
    || (tb == k.runBeats && (if ic = 0xFF then k.cores.all past else past (nth k.cores ic 0))))

/-- The next input record of a replay that is due: HOST, OPEN or QACCEPT, the lowest SEQ first; of those with the same point
that is the order (R436). -/
def Device.dueRecord (d : Device) (t : Nat) : Option (List (BitVec 8)) :=
  match (d.task t).replay with
  | none => none
  | some l => l.find? (fun r =>
      let kind := bits (leNat (slice r 0 32)) 114 8
      3 ≤ kind && kind ≤ 5 && d.recordDue t r)

end Sys2Proof.Machine
end

