-- ==== Sys2Proof/Machine/Control.lean ====
section
/-! DEFINITION. Machine/Control.lean: the issue of a bundle and the CT slot (R146 to R168, R381, R397). The row of a CT
operation fetches the next bundle, makes it wait, faults it or issues it; it closes the sc before. -/

namespace Sys2Proof.Machine

open Sys2Proof

/-! ### Which core may issue -/

/-- The running task slot of a core that may take its next local cycle: the task is RUNNING and not stopping, the core is
Active and present, its work of the beat is not done, and no record of a replay is due before (R436). -/
def Device.ready (d : Device) (c : Nat) : Option Nat :=
  let k := d.core c
  match k.running with
  | none => none
  | some t =>
    if (d.task t).state == 2 && !(d.task t).stopping && !k.stopped && !(d.region c).finished && k.power.state == 0
        && !k.absent && decide ((d.region c).count < d.workSc c) && !k.ended.contains t
        && (d.dueRecord t).isNone then some t else none

/-- A bundle of the instruction store, by task-relative index (R150, R164). -/
def Core.bundleAt (k : Core) (t i : Nat) : BitVec 384 := Sparse.get 0 k.istore (instrBase (k.bound t) + i)

/-- The slots of a bundle whose parity check fails (R150, R153). -/
def Core.parityBad (k : Core) (t i : Nat) : List Nat :=
  [1, 2, 3, 4, 5, 6].filter (fun s => Sparse.get false k.istoreBad (8 * (instrBase (k.bound t) + i) + s))

/-- Where control goes after the bundle before index p: ends of loop bodies, the innermost first (R154). -/
def loopEnds (loops : List Loop) (p : Nat) : Nat × List Loop :=
  match loops with
  | [] => (p, [])
  | l :: r =>
    if p = l.start + l.len then
      if 1 < l.left then (l.start, { l with left := l.left - 1 } :: r) else loopEnds r p
    else (p, l :: r)

/-- The core goes on with the bundle at index p, or with what the loops say. -/
def Core.goOn (k : Core) (p : Nat) : Core :=
  let n := loopEnds k.loops p
  { k with pc := n.1, loops := n.2 }

/-! ### One local cycle -/

/-- A local cycle of core c in which a transfer of its copies is held back is charged as a crossing wait, beside what its bundle
does (R81, R336, log 80). -/
def Device.chargeHeld (d : Device) (c : Nat) : Device := if d.crossHeld c then d.countCore c 5 1 else d

/-- A local cycle of waiting: the wait is charged and counted (R160, R161, R610). -/
def Device.waitCycle (d : Device) (c kind : Nat) : Device :=
  let d := if kind = 5 then d else d.chargeHeld c
  let d := d.onCore c (fun k => { k with
    cyc := k.cyc + 1, extra := k.extra + 1, copyUsed := [],
    wait := some (kind, match k.wait with
      | some w => w.2
      | none => d.beat.w) })
  d.countCore c kind 1

/-- The bundle issues: its sc begins (R74, R148, R161). -/
def Device.openSc (d : Device) (c t : Nat) (w : BitVec 384) (index : Nat) : Device :=
  let n := (d.region c).count
  let d := d.chargeHeld c
  let d := d.onCore c (fun k => { k with
    sc := k.sc + 1, cyc := k.cyc + 1, lastSc := n, extra := 0, copyUsed := [], wait := none,
    mx := (k.mx.promote (k.sc + 1)).settle (k.sc + 1),
    issue := some { Issue.reset with
      word := w, index := index, slot := t, ptr0 := k.ptrs, keys0 := k.keys, w := d.beat.w,
      choice := k.recvQueue t (qf (slotOf w 6)) } })
  (d.onRegion c (fun r => { r with count := n + 1 })).countCore c 7 1

/-- A bundle with parity errors does not issue: one record per slot, and the core is marked (R153, R549). DESIGN CHOICE (log 75):
the record's bundle index is the one within the task's window, as in every other record; the spec does not say which. -/
def Device.parityFault (d : Device) (c t index : Nat) (slots : List Nat) : Device :=
  let sc := (d.region c).count
  (slots.foldl (fun d s => d.fault t 0x0202 0 1 c sc index s) d).onCore c (fun k => { k with marked := true })

/-- The local cycle of core c when the row of a CT operation comes: the present sc closes; the next bundle is fetched, and
waits, faults, or issues with the effect of its CT slot. A row whose opcode the bundle does not hold changes nothing. Where no
bundle comes next, as when a fault stops the task, the sc closes all the same (R247, R541). -/
def Device.ctRow (d : Device) (c : Nat) (want : Nat → Nat → Bool) (eff : Nat → Nat → Device → Device) : Device :=
  let e := d.closeSc c
  match e.ready c with
  | none => e
  | some t =>
    let k := e.core c
    match k.fill with
    | some g => if want 0 2 then e.openSc c t 0 g else d
    | none =>
      let n := instrCount (k.bound t)
      if n ≤ k.pc then
        if want 0 2 then e.slotFault c t k.pc (e.region c).count (0, badRef 1 k.pc) else d
      else
        let w := k.bundleAt t k.pc
        let s := slotOf w 1
        if want (opc s) (e.levelOf t) then
          match k.parityBad t k.pc with
          | [] =>
            match e.waitKind c t w k.pc (k.sc + 1) with
            | some kind => e.waitCycle c kind
            | none =>
              match e.bundleBad c t w k.pc (k.sc + 1) with
              | [] => eff t s (e.openSc c t w k.pc)
              | bad => bad.foldl (fun d x => d.slotFault c t k.pc (e.region c).count x) e
          | ps => e.parityFault c t k.pc ps
        else d

/-- The core goes on with the next bundle. -/
def Device.advance (d : Device) (c : Nat) : Device := d.onCore c (fun k => k.goOn (k.bundleNow + 1))

/-! ### CT operations (Table 6-2) -/

/-- Does a row for one opcode take the bundle? -/
def isOp (op : Nat) (o _lv : Nat) : Bool := o == op

/-- The row of `ct.nop` also takes what is no CT operation at all, which faults (R147): opcodes above 8. -/
def isNop (o _lv : Nat) : Bool := o == 0 || decide (8 < o)

/-- CT_NOP (R147): no operation; also an empty bundle after `ct.gate` or `ct.yield` (R155). -/
def execCtNop (c : Nat) (s : State) : Res :=
  onUnit (fun d => d.hasCore c) (fun d => d.ctRow c isNop (fun _ _ e => e.advance c)) s

/-- CT_LOOP (R154). -/
def execCtLoop (c : Nat) (s : State) : Res :=
  onUnit (fun d => d.hasCore c) (fun d => d.ctRow c (isOp 0x01) (fun _ w e => e.onCore c (fun k =>
    let n := bits w 32 24
    let len := bits w 19 13
    let i := k.bundleNow
    if n = 0 then k.goOn (i + 1 + len)
    else { k with pc := i + 1, loops := { left := n, start := i + 1, len := len } :: k.loops }))) s

/-- CT_JUMP (R381): the next bundle is that at TARGET. -/
def execCtJump (c : Nat) (s : State) : Res :=
  onUnit (fun d => d.hasCore c) (fun d => d.ctRow c (isOp 0x02) (fun _ w e =>
    e.onCore c (fun k => { k with pc := bits w 5 14 }))) s

/-- CT_GATE (R155): empty bundles follow until the work of the beat is done. -/
def execCtGate (c : Nat) (s : State) : Res :=
  onUnit (fun d => d.hasCore c) (fun d => d.ctRow c (isOp 0x03) (fun _ _ e =>
    (e.advance c).onCore c (fun k => { k with fill := some k.bundleNow }))) s

/-- CT_YIELD (R411): as `ct.gate`, and the core has issued `ct.yield` in this beat. The next index stays that after the
`ct.yield` until the core runs on. -/
def execCtYield (c : Nat) (s : State) : Res :=
  onUnit (fun d => d.hasCore c) (fun d => d.ctRow c (isOp 0x04) (fun _ _ e =>
    e.onCore c (fun k => { k with pc := k.bundleNow + 1, fill := some k.bundleNow, yielded := true }))) s

/-- CT_HINT (R397, R561): the hint comes into force at the core's next beat gate. -/
def execCtHint (c : Nat) (s : State) : Res :=
  onUnit (fun d => d.hasCore c) (fun d => d.ctRow c (isOp 0x05) (fun t w e =>
    (e.advance c).onCore c (fun k => { k with power := { k.power with
      hintNew := some (t, bits w 32 24, bits w 29 3) } }))) s

/-- CT_FLAGRD (R168): the status word as delivered before this cycle goes to register 31 of lane 0, latency 1. -/
def execCtFlagrd (c : Nat) (s : State) : Res :=
  onUnit (fun d => d.hasCore c) (fun d => d.ctRow c (isOp 0x06) (fun t _ e =>
    ((e.advance c).onCore c (fun k => k.endRuns 0 0 [31])).fly c { Flight.reset with
      due := (e.core c).sc, unit := 1, issued := (e.core c).sc, slot := t, regs := [(31 * 128, e.flagWord c t, false)] })) s

/-- CT_FLAGCLR (R168): the flags of MASK are cleared at the end of the issue cycle. -/
def execCtFlagclr (c : Nat) (s : State) : Res :=
  onUnit (fun d => d.hasCore c) (fun d => d.ctRow c (isOp 0x07) (fun _ w e =>
    (e.advance c).onIssue c (fun i => { i with flagClr := bits w 0 5 }))) s

/-- CT_END (R297, R79): the sc closes with the comparison of the keys; then the core has ended, and with the last of its
cores the task (Table 18-8). -/
def execCtEnd (c : Nat) (s : State) : Res :=
  onUnit (fun d => d.hasCore c) (fun d => d.ctRow c (isOp 0x08) (fun t _ e =>
    let e := ((e.advance c).onIssue c (fun i => { i with ends := true })).closeSc c
    if (e.task t).stopping then e
    else
      let e := (e.onCore c (fun k => { k with ended := insertNew t k.ended })).restRegion c
      if (e.task t).cores.all (fun x => (e.core x).ended.contains t) then e.endTask t else e)) s

/-! ### The other slots and what lands -/

/-- Does a slot of the present bundle of core c hold an opcode, with its phase still to come? -/
def Device.slotReady (d : Device) (c slot op phase : Nat) : Bool :=
  match (d.core c).issue with
  | some i => opc (slotOf i.word slot) == op && (d.core c).awaits phase
  | none => false

/-- The row of an operation of slot `slot` acts in its phase. -/
def slotRow (c slot op phase : Nat) (s : State) : Res :=
  onUnit (fun d => d.hasCore c) (fun d => if d.slotReady c slot op phase then d.phasesTo c phase else d) s

/-- CU_NOP (R260). -/
def execCuNop (c : Nat) (s : State) : Res := slotRow c 2 0x00 1 s

/-- CU_COPY (R259 to R266). -/
def execCuCopy (c : Nat) (s : State) : Res := slotRow c 2 0x01 1 s

/-- MX_NOP (R147). -/
def execMxNop (c : Nat) (s : State) : Res := slotRow c 3 0x00 2 s

/-- MX_PASS (R172, R173). -/
def execMxPass (c : Nat) (s : State) : Res := slotRow c 3 0x01 2 s

/-- QK_NOP (R147). -/
def execQkNop (c : Nat) (s : State) : Res := slotRow c 6 0x00 8 s

/-- KEY_ADD (R293, R294). -/
def execKeyAdd (c : Nat) (s : State) : Res := slotRow c 6 0x01 8 s

/-- KEY_WAIT (R293): its wait is made at issue. -/
def execKeyWait (c : Nat) (s : State) : Res := slotRow c 6 0x02 8 s

/-- KEY_TAKE (R293). -/
def execKeyTake (c : Nat) (s : State) : Res := slotRow c 6 0x03 8 s

/-- KEY_READ (R293). -/
def execKeyRead (c : Nat) (s : State) : Res := slotRow c 6 0x04 8 s

/-- Q_SEND (R303 to R305). -/
def execQSend (c : Nat) (s : State) : Res := slotRow c 6 0x10 8 s

/-- Q_RECV (R309). -/
def execQRecv (c : Nat) (s : State) : Res := slotRow c 6 0x11 8 s

/-- Q_SELECT (R311). -/
def execQSelect (c : Nat) (s : State) : Res := slotRow c 6 0x12 8 s

/-- ENT_DRAW (R385). -/
def execEntDraw (c : Nat) (s : State) : Res := slotRow c 6 0x20 8 s

/-- TIME_READ (R385). -/
def execTimeRead (c : Nat) (s : State) : Res := slotRow c 6 0x21 8 s

/-- CNT_READ (R385). -/
def execCntRead (c : Nat) (s : State) : Res := slotRow c 6 0x22 8 s

/-- VECTOR_WRITEBACK (R208, R210): the fixed-latency results of this sc land. -/
def execVectorWriteback (c : Nat) (s : State) : Res :=
  onUnit (fun d => d.hasCore c) (fun d =>
    let k := d.core c
    if k.awaits 9 && k.flights.any (fun f => f.due == k.sc) then d.phasesTo c 9 else d) s

/-- MX_FEED_READ (R179, R183): the feed makes the reads planned for this sc. -/
def execMxFeedRead (c : Nat) (s : State) : Res :=
  onUnit (fun d => d.hasCore c) (fun d =>
    let k := d.core c
    if k.awaits 3 && ((d.phasesTo c 2).core c).feedDue then d.phasesTo c 3 else d) s

/-- PASS_RESULT_LAND (R177, R186, R188): the result vectors of this sc land. A check of the array that fails is measured
outside the model: cause and the position fields of Table 23-5; it faults the task and marks the core (R188, R549). -/
def execPassResultLand (c : Nat) (err : Option (Nat × Nat)) (s : State) : Res :=
  onUnit (fun d => d.hasCore c) (fun d =>
    let k := d.core c
    match err with
    | none => if k.awaits 10 && k.mx.out.any (fun l => l.due == k.sc) then d.phasesTo c 10 else d
    | some (cause, low) =>
      match k.issue with
      | none => d
      | some i =>
        if cause ≤ 2 then
          ((d.phasesTo c 10).coreFault c i.slot 0x0201 cause (k.lastSc % 2 ^ 11) (low % 2 ^ 29)).onCore c
            (fun k => { k with marked := true })
        else d) s

end Sys2Proof.Machine
end

