-- ==== Sys2Proof/Machine/CopyEvents.lean ====
section
/-! DEFINITION. Machine/CopyEvents.lean: the copy engine's accesses and completions (R241 to R244, R269, R270, R610), the
arrival of messages (R307, R437), the scrub cycle of a core (R254 to R256), and the events of the logger and of replays. -/

namespace Sys2Proof.Machine

open Sys2Proof

/-! ### The accesses of the copy engine -/

/-- An access that waits at a copy engine: bank word, readiness, class of R244, order within the class, and what it does. -/
structure Access where
  /-- Physical scratchpad address. -/
  pa : Nat
  /-- Local cycle in which it became ready. -/
  ready : Nat
  /-- Class of R244. -/
  cls : Nat
  /-- Order within the class. -/
  sub : Nat
  /-- Its effect. -/
  run : Device → Device

/-- The first of two accesses for one bank: ready first, then in the order of R244, then at the lower address. -/
def Access.first (a b : Access) : Access :=
  if a.ready < b.ready then a
  else if b.ready < a.ready then b
  else if a.cls < b.cls then a
  else if b.cls < a.cls then b
  else if a.sub < b.sub then a
  else if b.sub < a.sub then b
  else if b.pa < a.pa then b else a

/-- The place of the link over which core j's quarter reaches core c in R244's order: a side link by its quarter, then the hub
link. -/
def Device.linkOrder (d : Device) (c j : Nat) : Nat :=
  if (d.quarterOf c + d.quarterOf j) % 2 = 1 then d.quarterOf j else 4

/-- Accesses to the scratchpad of core c for copy x of core j: source reads and destination writes. For its own copies the
classes are 1 and 2; for a copy of another core of the quarter 5, by its core, and of another quarter 6, by link and then in order of
arrival. Readiness is counted in core c's own local cycles (R244, log 29). -/
def Device.copyAccesses (d : Device) (c j : Nat) (i : Nat) (x : Copy) : List Access :=
  let own := c == j
  let cls := fun (w : Nat) => if own then w else if d.quarterOf c == d.quarterOf j then 5 else 6
  let sub := fun (num : Nat) => if own then i
    else if d.quarterOf c == d.quarterOf j then 65536 * j + i else d.linkOrder c j * 2 ^ 64 + num
  let dstHere := if own then x.dstKind == 0 else x.dstKind == 3 && rzCore x.dstBase == c
  let pa := fun (a : Nat) => if own then a else rzCoreOff a
  let reads := if !x.readsOn c j then [] else (x.srcPieces.filter (fun p => !x.hasGot p.1 && d.crossRoom j x p.1)).map (fun p =>
    { pa := pa p.2.1, ready := if own then x.ready else x.farAt, cls := cls 1, sub := sub x.farNum,
      run := fun d =>
        let (bs, d) := d.spadRead c (pa p.2.1) p.2.2
        let (s, a) := d.sourceRef j x p.2.1
        (d.copyGot j x.id p.1 bs s a).copyFlow j x.id : Access })
  let writes := if !dstHere then [] else (x.dstPieces.filter (fun p => !x.hasPut p.1)).filterMap (fun p =>
    (d.arrivedAt j x p.1 p.2.2).map (fun r =>
      { pa := pa p.2.1, ready := r.1, cls := cls 2, sub := sub r.2,
        run := fun d =>
          let (bs, d) := d.copyForm j x p.1 p.2.2
          d.spadWrite c (pa p.2.1) bs : Access }))
  reads ++ writes

/-- The writes of accepted messages into their ring entries: one for each bank word of a queue (R241, R308). -/
def Device.ringAccesses (d : Device) (c : Nat) : List Access :=
  (d.core c).queues.flatMap (fun e =>
    (d.ringWaits c e.1).map (fun w =>
      { pa := w.1, ready := w.2.1, cls := 3, sub := w.2.2, run := fun d => d.ringWrite c e.1 (w.1 / 64 * 64) : Access }))

/-- The requests at core c: the payloads of scheduled slots (class 4) by port and position, and what open packets ask for (class 6)
in order of arrival. The piece that ends a read waits for room in the FIFO of its answer (R336); the last byte of a scheduled
payload raises its key (R331). -/
def Device.reqAccesses (d : Device) (c : Nat) : List Access :=
  let rs := (d.core c).reqs
  (List.range rs.length).flatMap (fun i =>
    let r := nth rs i Req.reset
    let ps := (cutAt 64 0 r.addr r.len).filter (fun p => !r.done.contains p.1)
    let cls := if r.slip.isSome then 4 else 6
    let sub := match r.slip with
      | some (p, k, _) => 256 * p + k
      | none => 4 * 2 ^ 64 + r.num
    if !r.write && ps.length == 1 && !d.roomFor (rzDev r.pk.aux) then []
    else ps.map (fun p =>
      { pa := p.2.1, ready := r.ready, cls := cls, sub := sub,
        run := fun d =>
          let put := fun (x : Req) => d.onCore c (fun k => { k with
            reqs := if ps.length = 1 then k.reqs.eraseIdx i else setNth k.reqs i x })
          if r.write then
            let d2 := (put { r with done := r.done ++ [p.1] }).spadWrite c p.2.1 ((r.pk.marked.drop p.1).take p.2.2)
            match r.slip with
            | some (_, _, some y) => if ps.length = 1 then d2.addKey c y 1 false else d2
            | some (_, _, none) => d2
            | none => if ps.length = 1 then (d2.addLanded r.pk.who r.len).settleTags else d2
          else
            let (bs, d) := d.spadRead c p.2.1 p.2.2
            let x := { r with done := r.done ++ [p.1], got := Sparse.setMany (0, false) r.got p.1 bs }
            (d.onCore c (fun k => { k with reqs := setNth k.reqs i x })).answerReads (some c) : Access }))

/-- Every access that waits at the copy engine of core c. -/
def Device.accesses (d : Device) (c : Nat) : List Access :=
  d.cores.flatMap (fun e =>
    (List.range e.2.copies.length).flatMap (fun i => d.copyAccesses c e.1 i (nth e.2.copies i Copy.reset)))
  ++ d.ringAccesses c ++ d.reqAccesses c

/-- The access that R244 gives a bank of core c in the present cycle. -/
def Device.bestAccess (d : Device) (c bank : Nat) : Option Access :=
  let k := d.core c
  match (d.accesses c).filter (fun a => k.bankOf a.pa == bank && decide (a.ready < k.cyc)) with
  | [] => none
  | a :: r => some (r.foldl Access.first a)

/-- One access of the copy engine of core c at a bank of its copy group, at most one for each bank and cycle (R242). -/
def Device.accessBank (d : Device) (c bank : Nat) : Device :=
  let k := d.core c
  if inGroup (k.lastSc + k.extra) bank && !k.copyUsed.contains bank then
    match d.bestAccess c bank with
    | some a => a.run (d.onCore c (fun k => { k with copyUsed := k.copyUsed ++ [bank] }))
    | none => d
  else d

/-- A local cycle of the region for the copy engine alone (R610). -/
def Device.copyCycle (d : Device) (c : Nat) : Device :=
  ((d.closeSc c).chargeHeld c).onCore c (fun k => { k with cyc := k.cyc + 1, extra := k.extra + 1, copyUsed := [] })

/-- COPY_ACCESS (R241 to R244, R610): in the present copy cycle of core c the engine makes the access that R244 gives bank
`bank`. With `fresh` the region first runs a further local cycle for the copy engine alone, which it may while its bundles
are stopped and an access waits. A core below Active makes none, and an access that waits there starts its wake (R559). -/
def execCopyAccess (c bank : Nat) (fresh : Bool) (s : State) : Res :=
  onUnit (fun d => d.hasCore c) (fun d =>
    let k := d.core c
    let waits := !(d.accesses c).isEmpty
    if k.absent || !waits then d
    else if k.power.state != 0 then d.forceWake c c
    else if fresh then
      if (d.region c).finished || k.running.isNone then ((d.copyCycle c).accessBank c bank).flowAll else d
    else (d.accessBank c bank).flowAll) s

/-! ### Completion -/

/-- The key that a completed copy increments (R270): that of the issuing core, or of the core in its destination. A key
increment for a remote destination, or after a remote source, comes as a KEY_ADD packet. -/
def Device.copyKey (d : Device) (c : Nat) (x : Copy) : Device :=
  let y := cd x.desc.toNat
  if y.keyKind = 1 then d.addKey c (kBase ((d.core c).bound x.slot) + y.keyNum) y.keyN false
  else if y.keyKind = 2 && x.dstKind != 4 && x.srcKind != 4 && y.keyN != 0 then
    d.addKey (rzCore y.dst) y.keyNum y.keyN false
  else d

/-- COPY_COMPLETE (R158, R259, R269, R270, R350): a copy or receive whose bytes have all landed leaves flight: its ranges
clear and its key rises; one that a refusal left short faults its task. -/
def execCopyComplete (c id : Nat) (s : State) : Res :=
  onUnit (fun d => d.hasCore c) (fun d =>
    match (d.core c).copyOf id with
    | none => d
    | some x =>
      if !x.complete then d
      else
        let d := d.onCore c (fun k => { k with
          copies := k.copies.filter (fun y => y.id != id), scoreboard := k.scoreboard.filter (fun r => r.copy != id) })
        let d := d.copyKey c x
        let d :=
          if x.landedBytes < x.writeBytes then
            d.coreFault c x.slot 0x0102 4 (boundDetail x.issueBundle x.issueSc (if x.receive then 6 else 2) 5) x.landedBytes
          else d
        d.settleTags.tryStop x.slot) s

/-! ### Messages -/

/-- Does message y go before message x? Among messages of scheduled slots the order is that of schedule beat, position and
block; among all others that of sender device and core (R307, R332). Those of one sender keep the order of their SEQ (R306). -/
def Msg.before (y x : Msg) : Bool :=
  if x.sched then y.sched && (y.sendS < x.sendS || (y.sendS == x.sendS && y.pos < x.pos))
  else !y.sched && (y.dev < x.dev || (y.dev == x.dev && y.core < x.core))

/-- May a slot with a QUEUE receive entry still come that goes before the slot of schedule beat b and position k: one of a port in
the plan whose beat is served and that has not arrived, within the five beats that a sender's lag and repair can take (R332, R366;
DEDUCED, log 82)? -/
def Device.queueSlotDue (d : Device) (b k : Nat) : Bool :=
  d.fabric.planOn && d.portNums.any (fun p => (d.port p).inPlan && (List.range 5).any (fun i =>
    let s := b - i
    i ≤ b && d.fabric.localFrom ≤ s && d.beat.s < s + 5
      && (List.range (if i = 0 then k else 224)).any (fun j =>
        peKind (d.rxEntry p s j) == 2 && !(d.port p).queueSeen.contains (s, j))))

/-- Must a message of a scheduled slot wait for an earlier slot (R332)? -/
def Device.msgWaits (d : Device) (m : Msg) : Bool := m.sched && d.queueSlotDue m.sendS (m.pos / 8)

/-- The message that arrives next of those that need not wait: of the kind of the first, scheduled or not, the least (R306, R307,
R332). -/
def nextMsg (l : List Msg) (waits : Msg → Bool) : Option Nat :=
  match (List.range l.length).filter (fun i => !waits (nth l i Msg.reset)) with
  | [] => none
  | a :: r => some (r.foldl (fun (b : Nat) i => if (nth l i Msg.reset).before (nth l b Msg.reset) then i else b) a)

/-- QUEUE_ARRIVAL (R307, R313, R437, R559): the next message reaches core c. A core below Active is woken first. A live
message for a queue marked OPEN of a task in replay is compared with the log and discarded. -/
def execQueueArrival (c : Nat) (s : State) : Res :=
  onUnit (fun d => d.hasCore c) (fun d =>
    match nextMsg (d.core c).msgIn d.msgWaits with
    | none => d
    | some i =>
      let m := nth (d.core c).msgIn i Msg.reset
      if (d.core c).power.state != 0 then d.forceWake c m.dev
      else
        let d := d.onCore c (fun k => { k with msgIn := k.msgIn.eraseIdx i })
        match d.queueHolder c m.mq with
        | none => d.arrive c m
        | some t =>
          let e := (d.core c).qEntry t (m.mq - qBase ((d.core c).bound t))
          if (d.task t).replay.isSome && qOpen e then
            (d.sendDone m).replayCompare t 5 m.dev (some c) (fun r =>
              recPay r == slice m.desc 0 32 && bits (fieldLe r 0 32) 0 7 == m.mq
                && bits (fieldLe r 0 32) 125 8 == d.imageCore t c)
          else d.arrive c m) s

/-! ### The scrub cycle -/

/-- The scrubber meets one word of a page: a correctable error is corrected; an uncorrectable one marks live data, and
clears free data, as does a mark on free data (Table 10-7). -/
def Device.scrubWord (d : Device) (c i : Nat) : Device :=
  let k := d.core c
  let a := 8 * i
  let live := d.livePage c (a / 4096)
  let zero := fun (m : Mem) => { m with
    bytes := Sparse.setMany 0 m.bytes a (List.replicate 8 0), poison := Sparse.set false m.poison i false,
    ecc := Sparse.set 0 m.ecc i 0 }
  match Sparse.get 0 k.spad.ecc i with
  | 0 =>
    if Sparse.get false k.spad.poison i && !live then d.onCore c (fun k => { k with spad := zero k.spad }) else d
  | 1 =>
    (d.onCore c (fun k => { k with spad := { k.spad with ecc := Sparse.set 0 k.spad.ecc i 0 } })).countCore c 13 1
  | _ =>
    if live then
      let d := d.onCore c (fun k => { k with spad := { k.spad with
        ecc := Sparse.set 0 k.spad.ecc i 0, poison := Sparse.set false k.spad.poison i true } })
      let d := if d.inPair then d.onTwin (fun w => { w with repairs := w.repairs ++ [(0, c, a)] }) else d
      (d.countCore c 16 1).spadUe c a 2
    else
      ((d.onCore c (fun k => { k with spad := zero k.spad })).countCore c 17 1).spadUe c a 3

/-- Does nothing run on core c (R79): no task slot, one that the core has ended, or one that is stopping? -/
def Core.rests (k : Core) : Bool :=
  match k.running with
  | none => true
  | some t => k.stopped || k.ended.contains t

/-- SCRUB_CYCLE (R254 to R256): after the work of a beat whose number is a multiple of 512, the bank row at the scrub row. A core on
which nothing runs finishes the beat with it (R79). -/
def execScrubCycle (c : Nat) (s : State) : Res :=
  onUnit (fun d => d.hasCore c) (fun d =>
    let idle := (d.core c).rests
    if d.scrubDue c && (idle || (d.region c).finished || decide (d.workSc c ≤ (d.region c).count)) then
      let d := d.closeSc c
      let row := (d.core c).scrubRow
      let bad := ((d.core c).spad.ecc.map (·.1) ++ (d.core c).spad.poison.map (·.1)).filter (fun i => i / 512 == row)
      let d := bad.eraseDups.foldl (fun d i => d.scrubWord c i) d
      let d := d.onCore c (fun k => { k with
        scrubRow := (k.scrubRow + 1) % 28672, scrubS := d.gate.e + 1, cyc := k.cyc + 1 })
      if idle then d.onRegion c (fun r => { r with finished := true }) else d
    else d) s

/-! ### The logger and replays -/

/-- LOG_GAP (R434): once the buffer has room again after losses, a GAP record under the slot that lost the last, be it armed still
or not, an event and LOG_DROPPED. -/
def execLogGap (s : State) : Res :=
  lift (fun d =>
    let held := (d.logger.buffer.map List.length).foldl (· + ·) 0
    let n := d.logger.lost
    if n = 0 || 0x200000 < held + 32 then d
    else
      let t := d.logger.gapSlot
      let d := { d with logger := { d.logger with lost := 0 } }
      let d := d.logRecord t 9 none n []
      ((d.countHub 14 n).log { HealthRec.reset with
        s := d.beat.s, code := 0x000D, cls := 0, unitKind := 4, tslot := t, task := true, dHi := d.beat.s, dLo := n }).freeRing) s

/-- REPLAY_APPLY (R436): the next record of a replay that is due is applied at its point. -/
def execReplayApply (slot : Nat) (s : State) : Res :=
  onUnit (fun _ => slot < 8) (fun d =>
    match d.dueRecord slot with
    | none => d
    | some r =>
      (d.onTask slot (fun k => { k with replay := k.replay.map (fun l => l.erase r) })).applyRecord slot r) s

end Sys2Proof.Machine
end

