-- ==== Sys2Proof/Machine/Dram.lean ====
section
/-! DEFINITION. Machine/Dram.lean: HOST_COPY in progress (R474), the ticks of the stacks (R275 to R278, R282), refresh (R284 to
R287), and the scrubbers of DRAM and hub staging (R257, R283, R538). -/

namespace Sys2Proof.Machine

open Sys2Proof

/-! ### HOST_COPY in progress (R474) -/

/-- DIR of a HOST_COPY. -/
def Mbx.hcDir (m : Mbx) : Nat := m.body 0 1
/-- HOST_ADDR. -/
def Mbx.hcHost (m : Mbx) : Nat := m.body 8 8
/-- DEV_ADDR. -/
def Mbx.hcDev (m : Mbx) : Nat := m.body 16 8
/-- LENGTH. -/
def Mbx.hcLen (m : Mbx) : Nat := m.body 24 8

/-- Write host bytes to DRAM (1) or staging (2), as a host write (R422). -/
def Device.hostStore (d : Device) (kind a : Nat) (bs : List (BitVec 8)) : Device :=
  let d := if kind = 1 then d.dramWrite a (unmarked bs) else d.stageWrite a (unmarked bs)
  d.hostLanded kind a bs

/-- Host bytes for DRAM (1) or staging (2). In a primary they go to the shadow as HOST_IN, and both packages apply them before
the first bundle of schedule beat S + 3; a shadow takes them from those records only (R509, R510). -/
def Device.hostInput (d : Device) (kind a : Nat) (bs : List (BitVec 8)) : Device :=
  if d.twin.role = 4 then
    let at_ := d.beat.s + 3
    let addr := rzMake 0 kind a
    let d := d.twinSend 5 at_ 0 0xFF 0 (leBytes 8 addr ++ bs)
    d.onTwin (fun t => { t with hostIn := t.hostIn ++ [(at_, addr, bs)] })
  else if d.twin.role = 5 then d
  else d.hostStore kind a bs

/-- The HOST_COPY of mailbox mb has moved its last byte: its HOST_POISON event, and its outcome (R289, R474). -/
def Device.hostCopyEnd (d : Device) (mb : Nat) : Device :=
  let m := d.mbx mb
  let d := match m.poisonAt with
    | some a => d.event 0x000E mb 4 0 a (min 0xFFFFFFFF m.poisonSeen * 2 ^ 32 + m.hSeq)
    | none => d
  d.finish mb 0 0 []

/-- Move the n bytes of the HOST_COPY of mailbox mb at device offset a. -/
def Device.hostCopyMove (d : Device) (mb a n : Nat) : Device :=
  let m := d.mbx mb
  match m.copyLeft with
  | none => d
  | some (done, total) =>
    let kind := rzSpace m.hcDev
    let host := m.hcHost + (a - rzOff m.hcDev)
    let d :=
      if m.hcDir = 0 then d.hostInput kind a (d.hostRead host n)
      else
        let (bs, d) := if kind = 1 then d.dramRead a n else d.stageRead a n
        let d := if d.twin.role = 5 then d else d.hostWrite host (bs.map (·.1))
        let marks := markedWords 8 a bs
        d.onMbx mb (fun m => { m with
          poisonSeen := m.poisonSeen + marks.length,
          poisonAt := match m.poisonAt, marks with
            | some x, _ => some x
            | none, i :: _ => some (rzMake 0 kind (i * 8))
            | none, [] => none })
    let d := d.onMbx mb (fun m => { m with copyLeft := some (done + n, total) })
    let d := if kind = 1 then d.meterDram (d.dramSlot a n) (a / stackBytes) n 1 else d
    if done + n = total && !(d.inPair && m.hcDir == 0) then d.hostCopyEnd mb else d

/-- The HOST packets of a HOST_COPY to another device: as many as the local-origin FIFO takes (R336, R474). -/
def Device.hostPackets (d : Device) (mb : Nat) : Device :=
  let m := d.mbx mb
  match m.copyLeft with
  | none => d
  | some (done, total) =>
    (List.range (min 32 ((total - done + 447) / 448))).foldl (fun d i =>
      let off := done + 448 * i
      let n := min 448 (total - off)
      if !d.roomFor (rzDev m.hcDev) || (d.mbx mb).copyLeft != some (off, total) then d
      else
        let h := mkHdr (m.hcDev + off) 0 d.devNum 0xFF 7 n mb (off + n == total) 0 0 16
        ((d.meterFabric none (32 + n)).sendPacket (rzDev m.hcDev)
          { Packet.reset with hdr := h, data := d.hostRead (m.hcHost + off) n }).onMbx mb
          (fun m => { m with copyLeft := some (off + n, total) })) d

/-- Does mailbox mb hold a HOST_COPY that still moves bytes? -/
def Device.hostCopying (d : Device) (mb : Nat) : Bool :=
  let m := d.mbx mb
  m.st == 2 && m.hCode == 0x62 && match m.copyLeft with
    | some (done, total) => done < total
    | none => false

/-- Move what a HOST_COPY may move without a tick: bytes of hub staging, and packets to another device, while the host link
is up. -/
def Device.hostCopyFlow (d : Device) (mb : Nat) : Device :=
  if !d.hostCopying mb || !d.host.linkUp then d
  else
    let m := d.mbx mb
    if rzDev m.hcDev != d.devNum then d.hostPackets mb
    else if rzSpace m.hcDev = 2 then
      match m.copyLeft with
      | none => d
      | some (done, total) =>
        (cutAt 2048 0 (rzOff m.hcDev + done) (total - done)).foldl (fun d p => d.hostCopyMove mb p.2.1 p.2.2) d
    else d

/-- A DONE of a HOST_COPY to another device: OK when every byte landed (R474). -/
def Device.hostDone (d : Device) (mb bytes : Nat) : Device :=
  let m := d.mbx mb
  if m.st == 2 && m.hCode == 0x62 && m.copyLeft.isSome then
    if bytes = m.hcLen then d.finish mb 0 0 [] else d.finish mb 3 9 []
  else d

/-- The mailboxes in the order in which their commands arrived. -/
def Device.byArrival (d : Device) : List Nat :=
  let ins := fun (l : List Nat) (mb : Nat) =>
    l.takeWhile (fun x => (d.mbx x).order < (d.mbx mb).order) ++ [mb]
      ++ l.dropWhile (fun x => (d.mbx x).order < (d.mbx mb).order)
  (List.range 16).foldl ins []

/-- The next DRAM unit that the HOST_COPY of mailbox mb moves on group g of stack k: its first there that has not moved. -/
def Device.hostUnit (d : Device) (mb k g : Nat) : Option Nat :=
  let m := d.mbx mb
  if d.hostCopying mb && rzDev m.hcDev == d.devNum && rzSpace m.hcDev == 1 then
    let units := stackBytes / 256
    let first := max (rzOff m.hcDev / 256) (k * units)
    let u := first + (g + 8 - first % units % 8) % 8 + 8 * Sparse.get 0 m.copyUnits (8 * k + g)
    if u < (k + 1) * units && u * 256 < rzOff m.hcDev + m.hcLen then some u else none
  else none

/-- Tick user 2 on stack k: on each group, the next DRAM unit of the oldest HOST_COPY that has one there (R282, R474). -/
def Device.tickHost (d : Device) (k : Nat) : Device :=
  if !d.host.linkUp then d
  else
    (List.range 8).foldl (fun d g =>
      match d.byArrival.findSome? (fun mb => (d.hostUnit mb k g).map (fun u => (mb, u))) with
      | none => d
      | some (mb, u) =>
        let m := d.mbx mb
        let a := max (u * 256) (rzOff m.hcDev)
        let d := d.onMbx mb (fun m => { m with copyUnits := Sparse.upd 0 m.copyUnits (8 * k + g) (fun n => n + 1) })
        d.hostCopyMove mb a (min (u * 256 + 256) (rzOff m.hcDev + m.hcLen) - a)) d

/-! ### Windows -/

/-- Is stack k in service and out of self-refresh? -/
def Device.stackOn (d : Device) (k : Nat) : Bool :=
  d.grade.hasStack k && !(d.stack k).absent && Sparse.get 0 d.power.quarters (k / 2) == 0 && d.power.device == 0

/-- Is an entry in force in schedule beat S for tick k of stack st (R276, R277)? -/
def entryOn (p e s st k : Nat) : Bool :=
  weStack e == st && s % max 1 p == wePhase e && decide (weFirst e ≤ k) && (k - weFirst e) % max 1 (weStride e) == 0
    && decide ((k - weFirst e) / max 1 (weStride e) < weCount e)

/-- The oldest read of core c at a stack and group, when the return path has room: copy, offset, address, bytes (R278). -/
def Device.dramReadReq (d : Device) (c k g : Nat) : Option (Copy × Nat × Nat × Nat) :=
  ((d.core c).copies.findSome? (fun x =>
    if x.srcKind = 1 then
      (x.srcPieces.find? (fun p => !x.hasGot p.1 && unitStack (p.2.1 / 256) == k && unitGroup (p.2.1 / 256) == g)).map
        (fun p => (x, p))
    else none)).filter (fun r => d.crossRoom c r.1 r.2.1)

/-- The oldest write of core c at a stack and group, when its data has arrived whole (R278). -/
def Device.dramWriteReq (d : Device) (c k g : Nat) : Option (Copy × Nat × Nat × Nat) :=
  match (d.core c).copies.findSome? (fun x =>
    if x.dstKind = 1 then
      (x.dstPieces.find? (fun p => !x.hasPut p.1 && unitStack (p.2.1 / 256) == k && unitGroup (p.2.1 / 256) == g)).map
        (fun p => (x, p))
    else none) with
  | some (x, p) => if (d.arrivedAt c x p.1 p.2.2).isSome then some (x, p) else none
  | none => none

/-- One group of an entry in a window tick: its request is served, or the tick goes unused and is counted (R278). -/
def Device.serveGroup (d : Device) (e k g : Nat) : Device :=
  let c := weCore e
  if weWrite e then
    match d.dramWriteReq c k g with
    | some (x, off, a, n) =>
      let (bs, d) := d.copyForm c x off n
      ((d.dramWrite a bs).countCore c 24 1).meterDram (some x.slot) k 256 1
    | none => d.countCore c 25 1
  else
    match d.dramReadReq c k g with
    | some (x, off, a, n) =>
      let (bs, d) := d.dramRead a n
      let (s, r) := d.sourceRef c x a
      let d := (d.countCore c 23 1).meterDram (some x.slot) k 256 1
      (d.copyGot c x.id off bs s r).copyFlow c x.id
    | none => d.countCore c 25 1

/-- A window tick of one stack. Ticks 0 to 341 of a forced refresh serve nothing and count nothing (R278, R287). -/
def Device.windowTick (d : Device) (k tick : Nat) : Device :=
  if (d.stack k).forced == some d.beat.w && tick ≤ 341 then d
  else
    let es := d.windowEntries.filter (fun e => entryOn e.1 e.2 d.beat.s k tick)
    es.foldl (fun d e => (bitsOf 8 (weGroups e.2)).foldl (fun d g => d.serveGroup e.2 k g) d) d

/-! ### The hub window (R282) -/

/-- The logger's tick: up to eight DRAM units at its place in the ring (R433). -/
def Device.tickLogger (d : Device) (k : Nat) : Device :=
  match d.logger.ring with
  | none => d
  | some (base, len) =>
    if base / stackBytes != k then d
    else
      let all := d.logger.buffer.flatMap (fun r => r)
      let at_ := d.logger.written % len
      let n := min (min (all.length - d.logger.part) ((at_ / 256 + 8) * 256 - at_)) (len - at_)
      if n = 0 then d
      else
        let bs := slice all d.logger.part n
        let d := d.dramWrite (base + at_) (unmarked bs)
        let drop := d.logger.buffer.foldl (fun (acc : Nat × List (List (BitVec 8))) r =>
          if acc.2 == [] && r.length ≤ acc.1 then (acc.1 - r.length, []) else (acc.1, acc.2 ++ [r]))
          (d.logger.part + n, [])
        (({ d with logger := { d.logger with
          written := d.logger.written + n, part := drop.1, buffer := drop.2 } }).countHub 13 n).freeRing

/-- One DRAM unit of an access of an open packet (R282). -/
def Device.openUnit (d : Device) (i : Nat) (off a n : Nat) : Device :=
  let r := nth d.openReads i Req.reset
  let left := ((cutAt 256 0 r.addr r.len).filter (fun p => !r.done.contains p.1)).length
  let put := fun (d : Device) (x : Req) =>
    { d with openReads := if left = 1 then d.openReads.eraseIdx i else setNth d.openReads i x }
  let d := d.meterDram (d.dramSlot a n) (a / stackBytes) n 1
  if r.write then
    let d := (put d { r with done := r.done ++ [off] }).dramWrite a ((r.pk.marked.drop off).take n)
    let d := if r.pk.op = 7 then d.hostLanded 1 a (slice r.pk.data off n) else d
    if left = 1 then (d.addLanded r.pk.who r.len).settleTags else d
  else
    let (bs, d) := d.dramRead a n
    let x := { r with done := r.done ++ [off], got := Sparse.setMany (0, false) r.got off bs }
    ({ d with openReads := setNth d.openReads i x }).answerReads none

/-- Tick user 1 on stack k: on each group, the oldest access of open packets there. -/
def Device.tickOpen (d : Device) (k : Nat) : Device :=
  (List.range 8).foldl (fun d g =>
    let next := (List.range d.openReads.length).findSome? (fun i =>
      let r := nth d.openReads i Req.reset
      let ps := (cutAt 256 0 r.addr r.len).filter (fun p => !r.done.contains p.1)
      if !r.write && ps.length == 1 && !d.roomFor (rzDev r.pk.aux) then none
      else (ps.find? (fun p => unitStack (p.2.1 / 256) == k && unitGroup (p.2.1 / 256) == g)).map (fun p => (i, p)))
    match next with
    | some (i, off, a, n) => d.openUnit i off a n
    | none => d) d

/-! ### Refresh (R284 to R287) -/

/-- STACK, GROUPS, TICKS, PERIOD in beats and PHASE of a refresh plan entry (Table 11-8). -/
def rfStack (e : Nat) : Nat := bits e 61 3
/-- GROUPS. -/
def rfGroups (e : Nat) : Nat := bits e 53 8
/-- TICKS. -/
def rfLate (e : Nat) : Bool := bitAt e 52
/-- PERIOD code. -/
def rfPeriod (e : Nat) : Nat := bits e 50 2
/-- PHASE. -/
def rfPhase (e : Nat) : Nat := bits e 48 2

/-- The refresh entry of a bound task that names a group. -/
def Device.refreshEntry (d : Device) (k g : Nat) : Option Nat :=
  (d.boundSlots.flatMap (fun t => (d.task t).refresh.map (·.toNat))).find? (fun e => rfStack e == k && bitAt (rfGroups e) g)

/-- Does the plan hold a refresh for a group in wall beat w: in ticks 976 to 991 (false) or 984 to 999 (true)? -/
def Device.refreshIn (d : Device) (k g w : Nat) : Option Bool :=
  match d.refreshEntry k g with
  | some e => if w % 2 ^ rfPeriod e == rfPhase e then some (rfLate e) else none
  | none => some true

/-- The groups of a stack whose planned refresh ends with a tick. -/
def Device.refreshTick (d : Device) (k tick : Nat) : Device :=
  if tick = 991 || tick = 999 then
    (List.range 8).foldl (fun d g =>
      if d.refreshIn k g d.beat.w == some (tick == 999) then
        d.onStack k (fun s => { s with refreshed := Sparse.set 0 s.refreshed g d.beat.w })
      else d) d
  else d

/-- The bound L of R286 in wall beats. -/
def Stack.refreshBound (s : Stack) : Nat := if 85 < s.temp then 2 else 4

/-- The groups of stack k that lapse at the edge of the present wall beat (R287). -/
def Device.lapsed (d : Device) (k : Nat) : List Nat :=
  if d.beat.aligned && d.stackOn k && (d.stack k).forced != some d.beat.w then
    (List.range 8).filter (fun g =>
      decide (Sparse.get 0 (d.stack k).refreshed g + (d.stack k).refreshBound ≤ d.beat.w)
        && (d.refreshIn k g d.beat.w).isNone)
  else []

/-- FORCED_REFRESH (R287): at a beat edge, when groups of the stack lapse. -/
def execForcedRefresh (stack : Nat) (s : State) : Res :=
  onUnit (fun d => d.grade.hasStack stack) (fun d =>
    match d.lapsed stack with
    | [] => d
    | g :: r =>
      if !d.writesOn || d.tick != 0 then d
      else
        let mask := maskOf 8 (fun i => (g :: r).contains i)
        let d := d.onStack stack (fun s => { s with
          forced := some d.beat.w,
          refreshed := (List.range 8).foldl (fun m i => Sparse.set 0 m i d.beat.w) s.refreshed })
        let d := (d.countStack stack 0 1).event 0x0002 0 3 stack d.beat.w (stack + g * 2 ^ 8 + mask * 2 ^ 16)
        { d with hold := { d.hold with refreshVote := true } }) s

/-- DRAM_TICK (R275 to R278, R282, R284): the next tick of the wall beat on every stack. Tick 0 follows the forced refreshes
of its edge. Ticks end with the beat; before alignment they go round. -/
def execDramTick (s : State) : Res :=
  lift (fun d =>
    let d := if d.tick = 1000 && !d.beat.aligned then { d with tick := 0 } else d
    let tick := d.tick
    if !d.writesOn || 1000 ≤ tick || (tick == 0 && (List.range 8).any (fun k => d.lapsed k != [])) then d
    else
      let d := { d with tick := tick + 1 }
      ((List.range 8).filter d.stackOn).foldl (fun d k =>
        if tick < 960 then d.windowTick k tick
        else
          let d := if tick < 976 then
              match tick % 4 with
              | 0 => d.tickLogger k
              | 1 => d.tickOpen k
              | 2 => d.tickHost k
              | _ => d
            else d
          d.refreshTick k tick) d |>.flowAll) s

/-! ### Scrubbers -/

/-- A memory with a word of u bytes rewritten as zero without mark. -/
def Mem.zeroWord (m : Mem) (u i : Nat) : Mem :=
  { bytes := Sparse.setMany 0 m.bytes (u * i) (List.replicate u 0), poison := Sparse.set false m.poison i false,
    ecc := Sparse.set 0 m.ecc i 0 }

/-- A memory with a word corrected. -/
def Mem.fixWord (m : Mem) (i : Nat) : Mem := { m with ecc := Sparse.set 0 m.ecc i 0 }

/-- A memory with a word marked. -/
def Mem.markWord (m : Mem) (i : Nat) : Mem := { m.fixWord i with poison := Sparse.set false m.poison i true }

/-- The DRAM scrubber meets a sector (R538). -/
def Device.scrubSector (d : Device) (i : Nat) : Device :=
  let a := 32 * i
  match Sparse.get 0 d.dram.ecc i with
  | 0 => d
  | 1 => { d with dram := d.dram.fixWord i }.countStack (a / stackBytes) 1 1
  | _ =>
    if d.liveDram a 32 then
      let d := { d with dram := d.dram.markWord i }
      let d := if d.inPair then d.onTwin (fun w => { w with repairs := w.repairs ++ [(2, 0, a)] }) else d
      d.dramUe a 4
    else { d with dram := d.dram.zeroWord 32 i }.dramUe a 5

/-- DRAM_SCRUB (R283, R538): one DRAM unit of the stack in every wall beat, in ascending order. It pauses in Retain and
Parked, and while an attach runs (R532, R555). -/
def execDramScrub (stack : Nat) (s : State) : Res :=
  onUnit (fun d => d.grade.hasStack stack) (fun d =>
    let k := d.stack stack
    if !d.writesOn || !d.stackOn stack || k.scrubW == some d.beat.w || d.twin.role == 2 then d
    else
      let first := stack * (stackBytes / 32) + 8 * k.scrub
      let d := (List.range 8).foldl (fun d i => d.scrubSector (first + i)) d
      d.onStack stack (fun s => { s with scrub := (s.scrub + 1) % 201326592, scrubW := some d.beat.w })) s

/-- Is a hub staging word live (R257)? -/
def Device.liveStage (d : Device) (a : Nat) : Bool := decide (0x9000000 ≤ a) || d.stageWindowSlots a 8 != []

/-- The staging scrubber meets a word of 8 B (Table 10-7). -/
def Device.scrubStage (d : Device) (i : Nat) : Device :=
  let a := 8 * i
  let live := d.liveStage a
  match Sparse.get 0 d.staging.ecc i with
  | 0 => if Sparse.get false d.staging.poison i && !live then { d with staging := d.staging.zeroWord 8 i } else d
  | 1 => { d with staging := d.staging.fixWord i }.countHub 2 1
  | _ =>
    if live then
      let d := { d with staging := d.staging.markWord i }
      let d := if d.inPair then d.onTwin (fun w => { w with repairs := w.repairs ++ [(1, 0, a)] }) else d
      (d.countHub 5 1).event 0x0004 2 4 0 a 0
    else ({ d with staging := d.staging.zeroWord 8 i }.countHub 6 1).event 0x0004 3 4 0 a 0

/-- STAGING_SCRUB (R257): one word of 64 B in each of the four blocks in every wall beat. -/
def execStagingScrub (s : State) : Res :=
  lift (fun d =>
    if !d.writesOn || d.hub.scrubW == some d.beat.w then d
    else
      let n := d.hub.scrub
      let d := (List.range 4).foldl (fun d b =>
        (List.range 8).foldl (fun d i => d.scrubStage (b * 8388608 + 8 * n + i)) d) d
      d.onHub (fun h => { h with scrub := (n + 1) % 1048576, scrubW := some d.beat.w })) s

end Sys2Proof.Machine
end

