-- ==== Sys2Proof/Machine/Wake.lean ====
section
/-! DEFINITION. Machine/Wake.lean: the choice of a power state (R555, R556, R560 to R563), wakes at beat edges (R562), and the
stand-in that steps a lowered core (R557, R558). -/

namespace Sys2Proof.Machine

open Sys2Proof

/-! ### Known idle spans (R560) -/

/-- The hint in force on a core: its task slot runs there, and it has not ended (R561). -/
def Device.hintOf (d : Device) (c : Nat) : Option (Nat × Nat × Nat) :=
  let k := d.core c
  match k.power.hint with
  | some h => if k.running == some h.1 && d.beat.s < h.2.1 then some h else none
  | none => none

/-- The earliest registered start of a task that maps a core. -/
def Device.startOn (d : Device) (c : Nat) : Option Nat :=
  (d.slotsOn c).foldl (fun a t =>
    match a, (d.task t).startS with
    | some x, some y => some (min x y)
    | none, y => y
    | x, none => x) none

/-- The known idle span U of a core in schedule beats; none when it is unbounded. -/
def Device.idleSpan (d : Device) (c : Nat) : Option Nat :=
  match d.hintOf c with
  | some h => some (h.2.1 - d.beat.s)
  | none =>
    if (d.core c).running.isSome then some 0
    else (d.startOn c).map (fun s => s - d.beat.s)

/-- Is the span of a core at least n beats? -/
def Device.spanAtLeast (d : Device) (c n : Nat) : Bool :=
  match d.idleSpan c with
  | some u => decide (n ≤ u)
  | none => true

/-- The permitted depth of a core. -/
def Device.depthOf (d : Device) (c : Nat) : Nat :=
  match d.hintOf c with
  | some h => min d.power.policy.deepest h.2.2
  | none => d.power.policy.deepest

/-! ### Lowering (R556, R563) -/

/-- Is a core free of copies, sends, receives, passes and a bell queue (R556)? -/
def Core.quiet (k : Core) : Bool :=
  k.copies.isEmpty && k.sends.isEmpty && k.mx.passesOpen == 0 && k.bell.isEmpty

/-- The state that the Chanter gives a core at a beat gate: the deepest of Active, Gated and Doze that its span and depth
allow. -/
def Device.coreState (d : Device) (c : Nat) : Nat :=
  let depth := d.depthOf c
  if 2 ≤ depth && d.spanAtLeast c 128 then 2 else if 1 ≤ depth && d.spanAtLeast c 2 then 1 else 0

/-- A beat gate may lower a core; it never raises one (R556, R562). -/
def Device.lowerCore (d : Device) (c : Nat) : Device :=
  let k := d.core c
  let s := d.coreState c
  if k.power.state < 2 && k.power.state < s && k.power.waking.isNone && !k.absent && k.quiet && d.power.device == 0 then
    d.onCore c (fun k => { k with power := { k.power with state := s } })
  else d

/-- The logical cores of a quarter. -/
def Device.coresOfQuarter (d : Device) (q : Nat) : List Nat :=
  (List.range d.grade.perQuarter).map (fun i => q * d.grade.perQuarter + i)

/-- Does a LOCAL entry of the plan in force name a core of quarter q? -/
def Device.planNames (d : Device) (q : Nat) : Bool :=
  d.fabric.planOn && d.portNums.any (fun p =>
    let hit := fun (kind : Nat) (e : BitVec 64) =>
      bits e.toNat 62 2 == kind && bits e.toNat 40 8 != 0xFF && d.quarterOf (bits e.toNat 40 8) == q
    (d.port p).plan.tx.any (hit 1) || (d.port p).plan.rx.any (hit 1))

/-- Does a bound task of another quarter use a stack of quarter q? -/
def Device.stacksUsed (d : Device) (q : Nat) : Bool :=
  d.boundSlots.any (fun t =>
    let k := d.task t
    k.cores.any (fun c => d.quarterOf c != q)
      && (k.windows.any (fun e => weStack e.toNat / 2 == q) || k.refresh.any (fun e => rfStack e.toNat / 2 == q)))

/-- Is quarter q free for Retain: nothing outside it uses its stacks, no plan names its cores, and no replay ring lies there
(R563)? -/
def Device.retainFree (d : Device) (q : Nat) : Bool :=
  !d.stacksUsed q && !d.planNames q
    && (match d.logger.ring with
        | some (a, n) => !overlaps (2 * q * stackBytes) (2 * stackBytes) a n
        | none => true)

/-- May quarter q enter Retain (R563)? Its cores are in Doze, so that nothing of them is in flight. -/
def Device.mayRetain (d : Device) (q : Nat) : Bool :=
  Sparse.get 0 d.power.quarters q == 0 && d.power.device == 0 && !d.power.absentQ.contains q
    && (d.coresOfQuarter q).all (fun c =>
      (d.core c).absent
        || (d.spanAtLeast c 4096 && 3 ≤ d.depthOf c && (d.core c).power.state == 2 && (d.core c).power.waking.isNone))
    && d.retainFree q

/-- Quarter q enters Retain. -/
def Device.retainQuarter (d : Device) (q : Nat) : Device :=
  let d := { d with power := { d.power with quarters := Sparse.set 0 d.power.quarters q 3 } }
  (d.coresOfQuarter q).foldl (fun d c =>
    if (d.core c).absent then d
    else d.onCore c (fun k => { k with power := { k.power with state := 3, waking := none } })) d

/-! ### Wakes at a beat edge (R562) -/

/-- One wall beat of a wake passes; a core whose use comes within its wake time, or that may no longer be as deep as it is, starts
its wake (R560, R562). -/
def Device.wakeEdge (d : Device) (c : Nat) : Device :=
  let k := d.core c
  if k.power.state = 0 then d
  else
    match k.power.waking with
    | some n => d.onCore c (fun k => { k with power := { k.power with waking := some (n - 1) } })
    | none =>
      if d.spanAtLeast c (wakeBeats k.power.state + 1) && k.power.state ≤ d.depthOf c then d else d.startWake c

/-- POWER_STATUS (Table 24-3). -/
def Device.powerWord (d : Device) : Nat :=
  let n := fun (st : Nat) =>
    ((List.range d.grade.cores).filter (fun c => !(d.core c).absent && (d.core c).power.state == st)).length
  d.power.device % 16 * 2 ^ 60 + n 1 % 256 * 2 ^ 40 + n 2 % 256 * 2 ^ 32
    + (List.range 4).foldl (fun a q => a + Sparse.get 0 d.power.quarters q % 16 * 2 ^ (4 * q)) 0

/-- POWER_STATUS takes the present states, at a wall-beat edge (R567). -/
def Device.showPower (d : Device) : Device := { d with power := { d.power with shown := d.powerWord } }

/-- The wakes, and the entries to Retain, of one beat edge. Wakes of quarters count down before new ones start; a quarter in Retain
wakes once it is no longer free for it (R563). -/
def Device.powerEdge (d : Device) : Device :=
  let d : Device := { d with power := { d.power with
    qWake := (d.power.qWake.map (fun e => (e.1, e.2 - 1))).filter (fun e => e.2 != 0),
    devWake := d.power.devWake - 1 } }
  let d := (List.range d.grade.cores).foldl (fun d c => d.wakeEdge c) d
  let d := (List.range 4).foldl (fun d q => if d.retainFree q then d else d.wakeQuarter q) d
  let d :=
    if d.beat.aligned then (List.range 4).foldl (fun (d : Device) q => if d.mayRetain q then d.retainQuarter q else d) d else d
  d.showPower

/-! ### The stand-in (R557, R558) -/

/-- May the stand-in step a bundle? -/
def standInSteps (w : BitVec 384) : Bool :=
  [2, 3, 4, 5, 6].all (fun s => opc (slotOf w s) == 0) && [0, 1, 2, 3, 5].contains (opc (slotOf w 1))

/-- A bundle's CT slot acts on a core that the stand-in steps (R154, R381, R561). -/
def Core.standIn (k : Core) (t : Nat) (ct : Nat) : Core :=
  let i := k.pc
  match opc ct with
  | 0x01 =>
    let n := bits ct 32 24
    let len := bits ct 19 13
    if n = 0 then k.goOn (i + 1 + len)
    else { k with pc := i + 1, loops := { left := n, start := i + 1, len := len } :: k.loops }
  | 0x02 => { k with pc := bits ct 5 14 }
  | 0x05 => { k.goOn (i + 1) with power := { k.power with hintNew := some (t, bits ct 32 24, bits ct 29 3) } }
  | _ => k.goOn (i + 1)

/-- The stand-in steps the bundles of lowered core c, at most `fuel` of them, up to its first `ct.gate`; where it may not, the
core's wake starts. -/
def Device.standIn (d : Device) (c t : Nat) (fuel : Nat) : Device :=
  match fuel with
  | 0 => d.startWake c
  | n + 1 =>
    let k := d.core c
    if instrCount (k.bound t) ≤ k.pc then d.slotFault c t k.pc 0 (0, badRef 1 k.pc)
    else
      let w := Sparse.get 0 k.istore (instrBase (k.bound t) + k.pc)
      let lost := [1, 2, 3, 4, 5, 6].filter (fun s => Sparse.get false k.istoreBad (8 * (instrBase (k.bound t) + k.pc) + s))
      if lost != [] then
        (lost.foldl (fun d s => d.fault t 0x0202 0 1 c 0 k.pc s) d).onCore c (fun k => { k with marked := true })
      else if !standInSteps w then d.startWake c
      else
        match d.bundleBad c t w k.pc (k.sc + 1) with
        | [] =>
          let d := d.onCore c (fun k => k.standIn t (slotOf w 1))
          if opc (slotOf w 1) = 0x03 then d.onRegion c (fun r => { r with finished := true }) else d.standIn c t n
        | bad => bad.foldl (fun d x => d.slotFault c t k.pc 0 x) d

end Sys2Proof.Machine
end

