-- ==== Sys2Proof/Machine/Outbox.lean ====
section
/-! DEFINITION. Machine/Outbox.lean: the outbox of LOCAL data (R330, R515). -/

namespace Sys2Proof.Machine

open Sys2Proof

/-! ### Ready data (R330) -/

/-- The count of a schedule region in units of 1,600 per beat; a finished region counts 1,600 (R361, R378). -/
def Device.progress (d : Device) (r : Nat) : Nat :=
  if (d.region r).finished then 1600
  else if r < 144 then (d.region r).count * 1600 / max 1 (d.workSc r)
  else (d.region r).count

/-- The ready point of an entry in schedule beat s: that of a level-1 fragment in units of its BEAT_SC (R330, R378). -/
def Device.readyPoint (d : Device) (p k s : Nat) : Nat :=
  let r := peReady (d.txEntry p s k)
  match d.planOwner true p s k with
  | some t => if d.levelOf t = 1 then (r * 1600 + (d.task t).beatSc - 1) / max 1 (d.task t).beatSc else r
  | none => r

/-- Has every schedule region issued sc n of the present beat, or finished it? -/
def Device.issuedAll (d : Device) (n : Nat) : Bool :=
  d.schedRegions.all (fun r => (d.region r).finished || decide (n < d.progress r)
    || (if r < 144 then (d.core r).absent else d.power.absentQ.contains (r - 144)))

/-- Does the plan serve LOCAL data of schedule beat s: from S_START on, and up to a registered S_STOP (R468, R469)? -/
def Device.localServed (d : Device) (s : Nat) : Bool :=
  d.fabric.planOn && decide (d.fabric.localFrom ≤ s)
    && (match d.fabric.stopS with
        | some (x, _) => decide (s ≤ x)
        | none => true)

/-- Is the data of position k of port p of the present schedule beat still to be read into the outbox? -/
def Device.outboxDue (d : Device) (p k : Nat) : Bool :=
  let e := d.txEntry p d.gate.e k
  peKind e == 1 && (d.port p).up && d.localServed d.gate.e && !(d.port p).ready.contains (k, d.gate.e)
    && decide (((d.port p).outbox.filter (fun o => o.1 == k)).length < 3)

/-- CRC of READY: over the payload and the poison mask, as 8 bytes (R515, log 33). -/
def readyCrc (payload : List (BitVec 8)) (poison : Nat) : Nat := crc32c (payload ++ leBytes 8 poison)

/-- A divergence that only the primary sees goes to the shadow as a FAULT record with its health record; bits [24:16] of AUX
carry n (R528, log 33). -/
def Device.divergeTold (d : Device) (t beat pos n : Nat) : Device :=
  let d := d.diverge t beat (d.taskBeat t) pos
  match d.hub.health with
  | r :: _ => d.twinSend 0x0A beat 0 0xFF (0x0401 + n % 512 * 2 ^ 16) r.bytes
  | [] => d

/-- The task slot that a divergence at a port and position concerns: the one whose fragment holds the entry (R528). -/
def Device.divergeAt (d : Device) (p k beat : Nat) : Device :=
  match d.planOwner true p beat k with
  | some t => d.divergeTold t beat (k + 1 + 256 * p) 0
  | none => d

/-- Read the data of an entry into the outbox. In a shadow READY goes to the primary; in a primary a READY that differs is a
divergence, and the data is never sent (R330, R515). -/
def Device.readOutbox (d : Device) (p k : Nat) : Device :=
  let s := d.gate.e
  let e := d.txEntry p s k
  let (bs, d) := if peCore e = 0xFF then d.stageRead (peAddr e) 480 else d.spadRead (peCore e) (peAddr e) 480
  let payload := bs.map (·.1)
  let mask := payloadMask bs
  let d := d.onPort p (fun q => { q with
    ready := (k, s) :: q.ready.filter (fun x => s ≤ x.2 + 4), outbox := q.outbox ++ [(k, s, payload, mask)] })
  if d.twin.role = 5 then d.twinSend 3 s 0 0xFF (p + k * 2 ^ 6) (leBytes 4 (readyCrc payload mask))
  else if d.twin.role = 4 && d.twin.readyIn.any (fun x => x.1 == p && x.2.1 == k && x.2.2.1 == s && x.2.2.2 != readyCrc payload mask)
  then d.divergeAt p k s
  else d

/-- The data of the present beat that is still to be read: it is ready at the latest when every region has finished. -/
def Device.flushOutbox (d : Device) : Device :=
  if d.fabric.planOn then
    d.portNums.foldl (fun d p =>
      if (d.port p).inPlan then
        (List.range 224).foldl (fun d k => if d.outboxDue p k then d.readOutbox p k else d) d
      else d) d
  else d

/-- The copy networks have issued slots 0 to n of the present beat: the counts of those that have not finished are at least
n + 1 (R74). -/
def Device.netsReach (d : Device) (n : Nat) : Device :=
  [144, 145, 146, 147].foldl (fun d r => d.onRegion r (fun x =>
    if x.finished then x else { x with count := max x.count (min 1599 (n + 1)) })) d

/-- OUTBOX_READY (R330): every schedule region has reached the ready point. Slots of a copy network have no row of their own: this
row tells that the networks have come so far (log 11). -/
def execOutboxReady (p pos : Nat) (s : State) : Res :=
  onUnit (fun d => d.hasPort p) (fun d =>
    let n := d.readyPoint p pos d.gate.e
    if d.outboxDue p pos && (d.netsReach n).issuedAll n then (d.netsReach n).readOutbox p pos else d) s

end Sys2Proof.Machine
end

