-- ==== Sys2Proof/Machine/Relay.lean ====
section
/-! DEFINITION. Machine/Relay.lean: commands and responses that travel in pieces between Chanters (R462 to R464). -/

namespace Sys2Proof.Machine

open Sys2Proof

/-- The status bytes of a command that is refused at a busy mailbox or for its sender: the header in its first piece gives
SEQ and CODE (R457, R462). -/
def Device.refusal (d : Device) (first : List (BitVec 8)) (status detail : Nat) : List (BitVec 8) :=
  let h := leNat (slice first 0 64)
  { Mbx.reset with
    seq := bits h 416 32, code := bits h 408 8, st := 3, status := status, detail := detail, doneW := d.beat.w }.statusBytes

/-- Tell the sender of a command that reached mailbox mb that it is refused. -/
def Device.refuseTo (d : Device) (mb src : Nat) (first : List (BitVec 8)) (status detail : Nat) : Device :=
  let bs := d.refusal first status detail
  if mb = 14 then d.mbx14Send true 0x808 bs true
  else if src = d.devNum then d.windowPiece mb 0x808 bs true
  else d.mgmtSend src mb true 0x808 bs true

/-- A command piece reaches mailbox mb, 12 to 14: the pieces are put together in the command area, and the last one submits
the command (R450, R462, R463). -/
def Device.takePiece (d : Device) (mb src off : Nat) (data : List (BitVec 8)) (last : Bool) : Device :=
  let m := d.mbx mb
  if mb != 14 && d.fabric.manager != some src then if off = 0 then d.refuseTo mb src data 5 0xB else d
  else if m.busy then if off = 0 then d.refuseTo mb src data 1 0xA else d
  else if off = 0 || m.asm == some off then
    let area := Sparse.setMany 0 (if off = 0 then [] else m.area) off data
    let d := d.onMbx mb (fun m => { m with area := area, asm := if last then none else some (off + data.length) })
    if last then d.accept mb area (if mb = 14 then none else some src) else d
  else d

/-- A response piece reaches the relay window that sent its command to device src (R464). -/
def Device.takeResponse (d : Device) (src mb off : Nat) (data : List (BitVec 8)) (last : Bool) : Device :=
  if (d.window mb).target = src then d.windowPiece mb off data last else d

/-- May MGMT packets reach mailboxes 12 and 13: a TOPO_SET has completed, and the package is no shadow (R462, R508)? -/
def Device.takesMgmt (d : Device) : Bool := d.fabric.topoSet && d.twin.role != 5

/-- An MGMT packet for this device (R462, R463). -/
def Device.takeMgmt (d : Device) (p : Packet) : Device :=
  let d := d.meterFabric none (32 + p.data.length)
  let mb := bits p.dest 0 4
  if !d.fabric.topoSet then d.countHub 11 1
  else if d.twin.role = 5 || !(mb == 12 || mb == 13) then d
  else if bitAt p.aux 63 then d.takeResponse p.srcDev mb (bits p.aux 0 12) p.data p.last
  else d.takePiece mb p.srcDev (bits p.aux 0 12) p.data p.last

/-- MGMT_PIECE (R462, R463): a command piece for mailbox 12 or 13 in an MGMT packet, or for mailbox 14 from the partner. -/
def execMgmtPiece (mb src off : Nat) (data : List (BitVec 8)) (last : Bool) (s : State) : Res :=
  onUnit (fun _ => 12 ≤ mb && mb ≤ 14) (fun d =>
    if mb = 14 then d.takePiece 14 src (off % 4096) data last
    else if !d.fabric.topoSet then d.countHub 11 1
    else if d.takesMgmt then d.takePiece mb src (off % 4096) data last
    else d) s

/-- MGMT_RESPONSE (R463, R464). -/
def execMgmtResponse (src mb off : Nat) (data : List (BitVec 8)) (last : Bool) (s : State) : Res :=
  onUnit (fun _ => mb == 12 || mb == 13) (fun d =>
    if !d.fabric.topoSet then d.countHub 11 1
    else if d.takesMgmt then d.takeResponse src mb (off % 4096) data last
    else d) s

/-- MBOX14 (R463). A response to a command that this Chanter sent leaves no state. -/
def execTwMbox14 (off : Nat) (data : List (BitVec 8)) (last response : Bool) (s : State) : Res :=
  lift (fun d => if response then d else d.takePiece 14 0 (off % 4096) data last) s

end Sys2Proof.Machine
end

