-- ==== Sys2Proof/Machine/Ports.lean ====
section
/-! DEFINITION. Machine/Ports.lean: the ports as units: what a good open packet does next (R333 to R336, R511), a port that goes
down (R342), LEDGER_BREAK (R340), and what a port keeps over a beat edge (R337 to R340). -/

namespace Sys2Proof.Machine

open Sys2Proof

/-! ### Open packets (R335, R336, R511) -/

/-- OPEN_DISCARD: the packet's DEST, and its sender and TAG (R335, Table 13-7). -/
def Device.discardOpen (d : Device) (p : Packet) : Device :=
  d.event 0x000B 0 2 p.port p.dest (p.srcDev * 2 ^ 24 + p.srcCore * 2 ^ 16 + p.tag)

/-- The port on which a packet goes on: none when it is for this device, or goes nowhere (R335). -/
def Device.onward (d : Device) (x : Packet) : Option Nat :=
  if rzDev x.dest = d.devNum || x.hops = 0 || 8 ≤ x.op then none else some (Sparse.get 0 d.fabric.routes (rzDev x.dest))

/-- Would a packet that came in on port p find no place in its FIFO, the packets counted that wait before it (R336)? -/
def Device.fifoFullFor (d : Device) (p : Nat) (x : Packet) : Bool :=
  match d.onward x with
  | some r => decide (32 ≤ (Sparse.get [] (d.port r).fifos p).length
      + ((d.port p).openHeld.filter (fun y => d.onward y == some r)).length)
  | none => false

/-- The open deferral area in hub staging (Table 11-5, R511). -/
def deferralBase : Nat := 0x0E000000

/-- A packet waits in the open deferral area: its header and data, with their marks, in the lowest free place of 512 B; where in
the area a packet lies is a DESIGN CHOICE (R511, log 81). -/
def Device.deferOpen (d : Device) (x : Packet) : Device :=
  let used := d.fabric.deferred.map (·.1)
  let i := ((List.range (used.length + 1)).find? (fun i => !used.contains i)).getD 0
  let bytes := slice (x.hdr ++ x.data) 0 480
  let marks := (List.range 480).map (fun j => (nth bytes j 0, bitAt x.poison (j / 8)))
  (d.stagePut (deferralBase + 512 * i) marks).onFabric (fun f => { f with
    deferred := f.deferred ++ [(i, { x with hdr := [], data := [], poison := 0 })] })

/-- A packet comes out of the open deferral area. -/
def Device.takeDeferred (d : Device) (e : Nat × Packet) : Packet × Device :=
  let r := d.stageRead (deferralBase + 512 * e.1) 480
  let bytes := r.1.map (·.1)
  let x : Packet := { e.2 with
    hdr := slice bytes 0 32,
    poison := payloadMask r.1 }
  ({ x with data := slice bytes 32 (min 448 x.len) }, r.2.onFabric (fun f => { f with deferred := f.deferred.erase e }))

/-- A good open packet (R335): it is delivered, goes on, or is discarded and logged. In a pair its delivery is deferred
(R511). -/
def Device.deliverOpen (d : Device) (x : Packet) : Device :=
  if 8 ≤ x.op then d.discardOpen x
  else if rzDev x.dest = d.devNum then
    if x.op = 6 then d.takeMgmt x
    else if d.inPair then d.deferOpen x
    else d.onFabric (fun f => { f with openIn := f.openIn ++ [x] })
  else
    match d.onward x with
    | none => d.discardOpen x
    | some r =>
      let y := { x with hdr := leBytes 32 (setBits (leNat x.hdr) 59 5 (x.hops - 1)) }
      d.onPort r (fun q => { q with fifos := Sparse.upd [] q.fifos x.port (fun l => l ++ [y]) })

/-- Does the port hold all SENT(v) positions of the neighbour's wall beat v (R338)? -/
def Port.holdsAll (q : Port) (v : Nat) : Bool :=
  match q.rxSent.find? (fun e => e.1 == v) with
  | some e => (q.rxGood.filter (fun k => k.1 == v)).length == e.2
  | none => false

/-- May a failed position still bring a packet that its sender sent before position k of wall beat v? Positions 1 to 8 carry only
re-sends. -/
def Port.gapBefore (q : Port) (v k : Nat) : Bool :=
  q.nacks.any (fun n => 9 ≤ n.2 && (n.1 < v || (n.1 == v && n.2 < k)) && !q.rxGood.contains n && !q.holdsAll n.1)

/-- The packets held on port p, in the order sent, go on until one that must still wait for the repair of an earlier slot: packets
from one origin to one destination keep their order (R335; DEDUCED, log 82). -/
def Device.releaseOpen (d : Device) (p fuel : Nat) : Device :=
  match fuel, (d.port p).openHeld with
  | n + 1, x :: rest =>
    if (d.port p).gapBefore x.v x.pos then d
    else ((d.onPort p (fun q => { q with openHeld := rest })).deliverOpen x).releaseOpen p n
  | _, _ => d

/-- A good open packet of port p takes its place among those held, and what may go on goes on. -/
def Device.fileOpen (d : Device) (p : Nat) (x : Packet) : Device :=
  let d := d.onPort p (fun q =>
    let first := fun (y : Packet) => y.v < x.v || (y.v == x.v && y.pos < x.pos)
    { q with openHeld := q.openHeld.takeWhile first ++ [x] ++ q.openHeld.dropWhile first })
  d.releaseOpen p (d.port p).openHeld.length

/-! ### A port that goes down (R342) -/

/-- A port goes down: its link-up starts over, and nothing of its streams is kept. -/
def Port.drop (p : Port) : Port :=
  { p with
    step := 0, inPlan := false, seenDev := none, nonce := [], peerNonce := [], peerChain := [], linkIn := [], linkOut := 0,
    delaySamples := [], goodCtl := 0, badCtl := 0, txPos := 0, rxPos := 0, nbrW := none, txOut := [],
    nacks := [], nackSent := [], resend := [], resentAt := [], rxGood := [], rxSent := [], rxFailedNow := 0,
    rxNonEmptyNow := 0, rxSlots := [], rxValid := false, holdSeen := none, queueSeen := [] }

/-- The packets that port p has accepted are delivered: what they waited for comes no more. -/
def Device.deliverHeld (d : Device) (p : Nat) : Device :=
  (d.port p).openHeld.foldl (fun d x => d.deliverOpen x) (d.onPort p (fun q => { q with openHeld := [] }))

/-- A port goes down with its PORT_STATE record, whose detail is the link-up step reached (Table 23-5), and what it holds is lost. -/
def Device.portGone (d : Device) (p : Nat) : Device :=
  if (d.port p).step = 0 then d
  else (d.event 0x000F 0 2 p (d.port p).step 0).onPort p (fun q => { q.drop with openHeld := [] })

/-- A port goes down; the packets that it had accepted are delivered first. -/
def Device.portDown (d : Device) (p : Nat) : Device :=
  if (d.port p).step = 0 then d else (d.deliverHeld p).portGone p

/-- A record of the link class for port p. -/
def Device.linkRecord (d : Device) (code p hi : Nat) : Device :=
  d.log { HealthRec.reset with s := d.beat.s, code := code, cls := 3, unitKind := 2, unit := p, dHi := hi }

/-- Does the recorded plan fragment of task t name port p (R340)? -/
def Device.planUses (d : Device) (t p : Nat) : Bool :=
  (d.task t).plan.any (fun f => f.1 == p || f.2.2.1.any (fun e => 2 ≤ peKind e.toNat && pePort e.toNat == p))

/-- LEDGER_BREAK for port p in wall beat v: the port goes down, and every bound task whose plan names it faults (R340). -/
def Device.ledgerBreak (d : Device) (p v : Nat) : Device :=
  let d := (((if (d.port p).step = 0 then d else d.deliverHeld p).linkRecord 0x0301 p v).portGone p)
  let d := d.onPort p (fun q => { q with ledgerNext := none })
  d.boundSlots.foldl (fun d t => if d.planUses t p then d.fault t 0x0301 0 2 p 0 v 0 else d) d

/-! ### Beat edges -/

/-- A port at the edge of wall beat w: what it sent in the beat that ends is SENT of that beat; what is no longer retained,
or answered for, goes (R337 to R340, Table 13-3). -/
def Port.edge (p : Port) (w : Nat) : Port :=
  let keep := fun (v : Nat) => decide (w ≤ v + 2)
  { p with
    sent := ((w - 1, p.sentNow) :: p.sent).take 4, sentNow := 0,
    repairedNow := p.repairedNow.filter (fun e => w ≤ e.1 + 4), absentNow := p.absentNow.filter (fun e => w ≤ e.1 + 4),
    badRx := p.badRx.filter (fun e => w ≤ e.1 + 6),
    nackSent := [], txPos := 0,
    retain := p.retain.filter (fun e => keep e.1), resend := p.resend.filter (fun e => keep e.1),
    resentAt := p.resentAt.filter (fun e => keep e.1),
    rxSlots := p.rxSlots.filter (fun e => w ≤ e.1 + 1),
    ctlSeen := p.ctlSeen.filter (fun v => w ≤ v + 6),
    nacks := p.nacks.filter (fun e => keep e.1),
    rxGood := p.rxGood.filter (fun e => w ≤ e.1 + 6), rxSent := p.rxSent.filter (fun e => w ≤ e.1 + 6) }

/-- Port p at the edge of wall beat w of which the device knows whether it is a hold beat: its queues, the HOLD_BEAT that the
neighbour has shown for that beat already (R326), and the packets whose wait has ended (R335). -/
def Device.portEdge (d : Device) (p w : Nat) (hold : Bool) : Device :=
  let seen := (d.port p).holdSeen
  let d := d.onPort p (fun q => { q.edge w with holdSeen := none })
  let d := d.releaseOpen p (d.port p).openHeld.length
  match seen with
  | some (v, h) => if v == w && h != hold && (d.port p).up then d.ledgerBreak p w else d
  | none => d

end Sys2Proof.Machine
end

