-- ==== Sys2Proof/Machine/Beat.lean ====
section
/-! DEFINITION. Machine/Beat.lean: beat edges (R34, R35, R360 to R370, R88 to R91), the beat gate (R74 to R79), yield points
and the start of tasks (R409 to R412). -/

namespace Sys2Proof.Machine

open Sys2Proof

/-! ### The time base -/

/-- A step of the time base: the numbers become g of the device, and the rest follows with them in force. -/
def liftBeat (g : Device → Beat) (f : Device → Device) (s : State) : Res :=
  let d : Device := { s.dev with beat := g s.dev }
  .next { s with dev := { f d with beat := d.beat } }

/-- Is wall beat v + 2 a hold beat by the votes known (R364)? -/
def Device.holdAt (d : Device) (w : Nat) : Bool := 2 ≤ w && d.hold.votes.contains (w - 2)

/-- The numbers after the next beat edge (R34 to R36): W counts, and H in a hold beat, S in any other. -/
def Device.nextBeat (d : Device) : Beat :=
  let b := d.beat
  if !b.aligned then b
  else if d.holdAt (b.w + 1) then { b with w := b.w + 1, h := b.h + 1 }
  else { b with w := b.w + 1, s := b.s + 1 }

/-- The schedule beat number of an earlier wall beat v: S(v) = v − H(v) (R511). -/
def Device.schedOf (d : Device) (v : Nat) : Nat :=
  v - (d.beat.h - (d.hold.holdBeats.filter (fun w => v < w)).length)

/-! ### Regions at a beat edge (R77, R88 to R91) -/

/-- The value listed for a unit, or the old one. -/
def readingOf (l : List (Nat × Nat)) (u old : Nat) : Nat :=
  match l.find? (fun e => e.1 == u) with
  | some e => e.2
  | none => old

/-- The thermal cap of Table 3-4 for a temperature in 0.125 °C, in the 800 MHz band or not. -/
def thermalCap (hot : Bool) (tj : Nat) : Nat :=
  if hot then 800 else if tj ≤ 800 then 2150 else (2150 * 8 - 110 * (tj - 800)) / 80 * 10

/-- The rate cap of a region and its cause (R88, R91). -/
def capOf (thermal power policy : Nat) : Nat × Nat :=
  let c := min thermal (min power policy)
  (c, if 2150 ≤ c then 0 else if c = thermal then 1 else if c = power then 2 else 3)

/-- Is a quarter's copy network on: not in Retain, not Parked, in service? -/
def Device.netOn (d : Device) (q : Nat) : Bool :=
  Sparse.get 0 d.power.quarters q != 3 && d.power.device == 0 && !d.power.absentQ.contains q

/-- Has a schedule region work in the present schedule beat: does a task run on the core, or is the copy network on? A core that is
lowered or waking and has not finished counts too: it is late (R558). -/
def Device.counting (d : Device) (r : Nat) : Bool :=
  if r < 144 then
    match (d.core r).running with
    | some t => !(d.core r).stopped && !(d.core r).ended.contains t
        && ((d.core r).power.state == 0 || !(d.region r).finished)
    | none => false
  else d.netOn (r - 144)

/-- Does the oscillator of a region run now: a hub region's does; a core's in Active while its beat is not finished; a copy
network's while its beat is not finished (R75, R91, Table 24-1)? -/
def Device.oscOn (d : Device) (r : Nat) : Bool :=
  if 148 ≤ r then true
  else !(d.region r).finished && (if r < 144 then (d.core r).power.state == 0 else d.netOn (r - 144))

/-- A schedule region begins or goes on with work: its oscillator runs in this wall beat. -/
def Device.regionRuns (d : Device) (r : Nat) : Device := if d.oscOn r then d.onRegion r (fun x => { x with ran := true }) else d

/-- Is r a schedule region (R69)? -/
def isSched (r : Nat) : Bool := r < 148

/-- The rate cap of a region and its cause, from its temperature, the power cap and the policy in force (R88). -/
def Device.recap (d : Device) (r : Nat) : Device :=
  let x := d.region r
  let c := capOf (thermalCap x.hot x.tj) (if isSched r then d.power.cap else 2150) d.power.policy.rateCap
  d.onRegion r (fun x => { x with cap := c.1, capCause := c.2 })

/-- The regions of the grade. -/
def Device.regionNums (d : Device) : List Nat := (List.range 170).filter d.hasRegion

/-- The caps of every region, as a change of the power cap or of the policy leaves them (R88, R90, R566). -/
def Device.recapAll (d : Device) : Device := d.regionNums.foldl (fun d r => d.recap r) d

/-- One region at a beat edge. Without alignment no beat ends, and only readings and caps change. The slack of a schedule beat is
judged once, at the first edge after its gate (R77, DEDUCED, log 51). A rate is at most the cap of the beat that ends (R71), and 0
where the oscillator stood still all beat (R91). LAG_SEEN stays set until reset: no command or register writes it (DEDUCED,
log 79). -/
def Device.regionEdge (d : Device) (env : EdgeEnv) (r : Nat) : Device :=
  let x := d.region r
  let tj := readingOf env.tj r x.tj
  let judge := d.beat.aligned && isSched r && !x.judged && d.counting r
  let slack := if x.finished then readingOf env.slack r 0x3FF else 0
  let on := d.oscOn r
  let d := d.onRegion r (fun x => { x with
    tj := tj, hot := 840 ≤ tj || (x.hot && 832 ≤ tj), sloped := 800 ≤ tj || (x.sloped && 792 ≤ tj),
    rate := if x.ran || on then min x.cap (readingOf env.rate r x.rate) else 0,
    ran := on,
    judged := x.judged || d.beat.aligned,
    slack := if judge then slack else x.slack,
    slacks := if judge then (slack :: x.slacks).take 1024 else x.slacks,
    count := if 144 ≤ r && on then max x.count (min 1599 (readingOf env.count r x.count)) else x.count,
    lagSeen := x.lagSeen || (judge && !x.finished) })
  let d := d.recap r
  if judge && r < 144 then
    if x.finished then d.countCore r 8 (readingOf env.slack r 0) else d.countCore r 9 1
  else d

/-- MIN_SLACK of a region (R91). -/
def Device.minSlack (d : Device) (r : Nat) : Nat :=
  if isSched r then ((d.region r).slacks.foldl min 0x3FF) else 0x3FF

/-! ### Lag and votes (R361 to R370) -/

/-- The least count of the schedule regions, where a finished region counts 1,600 (R361). -/
def Device.leastCount (d : Device) : Nat :=
  d.schedRegions.foldl (fun a r => min a (d.progress r)) 1600

/-- The lag Λ (R362). -/
def Device.lagNow (d : Device) : Nat :=
  if d.anyBound then 1600 * d.beat.s - (1600 * d.gate.e + d.leastCount) else 0

/-- Is a transit FIFO full (R336)? -/
def Device.fifoFull (d : Device) : Bool :=
  d.portNums.any (fun p => (d.port p).fifos.any (fun f => f.1 != 63 && 32 ≤ f.2.length))

/-- The causes of this device's vote at the edge of the present wall beat, as the bits of VOTE_CAUSE (Table 15-1). -/
def Device.voteCauses (d : Device) : Nat :=
  let lag := d.lagNow
  let projected := if d.holdAt (d.beat.w + 1) then lag else lag + 1600
  b2n (1600 < projected) + 2 * b2n d.hold.refreshVote + 4 * b2n (d.portNums.any (fun p => 8 < (d.port p).resend.length))
    + 8 * b2n (131072 ≤ d.hub.parkHeld) + 16 * b2n d.fifoFull

/-- Bytes of the open deferral area in use: a slot of 512 B for each packet. -/
def Device.deferredBytes (d : Device) : Nat := 512 * d.fabric.deferred.length

/-- Is the open deferral area more than 75 % full (R511)? -/
def Device.deferralHigh (d : Device) : Bool := 0x1800000 < d.deferredBytes

/-- Originate a vote in the present wall beat. -/
def Device.vote (d : Device) : Device :=
  { d with hold := { d.hold with votes := insertNew d.beat.w d.hold.votes } }

/-- Lag, votes, hold counters and HOLD_STORM at a beat edge; hold tells a hold beat. -/
def Device.holdEdge (d : Device) (hold : Bool) : Device :=
  let w := d.beat.w
  let lag := d.lagNow
  let cause := d.voteCauses
  let beats := (if hold then w :: d.hold.holdBeats else d.hold.holdBeats).filter (fun v => w < v + 1048576)
  let votes := d.hold.votes.filter (fun v => w ≤ v + 4)
  let d := { d with hold := { d.hold with
    lag := lag, cause := cause, now := hold, next := d.holdAt (w + 1), refreshVote := false, holdBeats := beats, votes := votes,
    storm := d.hold.storm && 2048 < beats.length } }
  let d := if cause != 0 || d.deferralHigh then d.vote else d
  let d := (List.range 5).foldl (fun d i => d.countHub (20 + i) (b2n (bitAt cause i))) d
  let d := (d.countHub 19 (b2n hold)).countHub 26 (b2n (0 < lag))
  let d := d.countHub 27 lag
  let d := d.onHub (fun h => { h with
    counters := Sparse.upd 0 h.counters 28 (fun v => BitVec.ofNat 64 (max v.toNat lag)) })
  if 4096 < beats.length && !d.hold.storm then
    let total := (Sparse.get 0 d.hub.counters 19).toNat
    let d := d.event 0x0003 0 0 0 (min 8191 beats.length * 2 ^ 51) total
    { d with hold := { d.hold with storm := true, stormSeen := true } }
  else d

/-! ### Ports, drone and twin at a beat edge -/

/-- The ports of the drone tree in use (R40, R63). -/
def Device.treePorts (d : Device) : List Nat := bitsOf 32 (if d.drone.useStandby then d.drone.standbyMask else d.drone.rootMask)

/-- The port with valid drone and the lowest hop count of the tree in use, ties to the lowest number (R43). -/
def Device.bestPort (d : Device) : Option Nat :=
  (d.treePorts.filter (fun p => (d.port p).rxValid)).foldl (fun a p =>
    match a with
    | some q => if (d.port p).rxHops < (d.port q).rxHops then some p else some q
    | none => some p) none

/-- Does a device take its beat from DRONE_IN: a root or acting root (R39, R61)? -/
def Drone.rootLike (x : Drone) : Bool := x.role == 1 || x.role == 3

/-- The condition of R61 in one wall beat: every root-tree port carried valid drone that shows freewheel, or none carried
valid drone. -/
def Device.rootGone (d : Device) : Bool :=
  let ps := bitsOf 32 d.drone.rootMask
  ps.all (fun p => (d.port p).rxValid && (d.port p).rxState == 4) || ps.all (fun p => !(d.port p).rxValid)

/-- Clamp a signed value to ± n. -/
def clampInt (n x : Int) : Int := if x < -n then -n else if n < x then n else x

/-- The 96-bit word frame that names beat n (Table 2-3). -/
def droneFrame (n : Nat) : Nat :=
  let m := n % 2 ^ 64
  0x5D + m * 2 ^ 8 + crc16 64 m * 2 ^ 72

/-- No port carries valid drone in the wall beat that begins: its control slots are still to come (R43). -/
def Device.freshBeat (d : Device) : Device :=
  d.portNums.foldl (fun d p => d.onPort p (fun q => { q with rxValid := false })) d

/-- The drone logic at a beat edge: counts of good and bad edges and of beats with valid drone, the active port and hop count,
the slew of the own edge (in ps), DRONE_OUT, and the freewheel count (R42, R43, R48, R50, R54, R58 to R62). HOPS and TREE keep
their values where no port carries valid drone (DESIGN CHOICE, log 79). The freewheel count goes on while a realignment from
freewheel is pending (R60, log 50). -/
def Device.droneEdge (d : Device) : Device :=
  let x := d.drone
  let best := d.bestPort
  let follow := !x.rootLike && d.twin.role != 5
  let slew := if x.rootLike then clampInt 125 (-10 * x.phase) else clampInt 250 (-10 * x.phase)
  let y := { x with
    badEdges := if x.edgeSeen then 0 else x.badEdges + 1,
    ownGood := if x.edgeSeen then min 64 (x.ownGood + 1) else 0,
    goodEdges := if x.edgeSeen then x.goodEdges else 0,
    lastWord := if x.edgeSeen then x.lastWord else none,
    relock := if x.edgeSeen then x.relock else 0,
    edgeSeen := false,
    noValid := if follow then (if best.isSome then 0 else x.noValid + 1) else 0,
    valid := if follow && best.isSome then x.valid + 1 else 0,
    upFits := match best with
      | some p => (d.port p).rxW + 1 == d.beat.w
      | none => false,
    rootBad := if x.role == 2 && d.rootGone then min 64 (x.rootBad + 1) else 0,
    activePort := if follow then best.getD x.activePort else if d.twin.role == 5 then x.activePort else 0,
    hops := if x.rootLike then 0
      else if follow then (match best with
        | some p => 1 + (d.port p).rxHops
        | none => x.hops)
      else x.hops,
    tree := if x.role == 3 then true
      else if follow then (match best with
        | some p => (d.port p).rxTree
        | none => x.tree)
      else x.tree,
    edgePs := if x.st == 2 || x.st == 3 then x.edgePs + slew else x.edgePs,
    freeBeats := if x.st == 4 || x.st == 5 || x.realign == 3 || x.realign == 4 then x.freeBeats + 1 else 0,
    outEdge := x.outEnable, outFrame := if x.outEnable then droneFrame (d.beat.w + 1) else 0 }
  ({ d with drone := y }).freshBeat

/-- The drone logic at an edge of a device that has not aligned: a missing marker edge breaks the run of R46, and DRONE_OUT carries
W as it reads, 0 (R36, R46, R48). -/
def Device.unalignedEdge (d : Device) : Device :=
  let x := d.drone
  ({ d with drone := { x with
    goodEdges := if x.edgeSeen then x.goodEdges else 0, lastWord := if x.edgeSeen then x.lastWord else none, edgeSeen := false,
    outEdge := x.outEnable, outFrame := if x.outEnable then droneFrame 0 else 0 } }).freshBeat

/-- The fabric ports of the grade, in the order of a STEER record. -/
def Device.steerPorts (d : Device) : List Nat := (List.range 32).filter d.hasPort

/-- The STEER record of a wall beat: for each fabric port d and θ of R49, where the port is the active one the latest, the last arrival stamp,
BAD_RX of the last beat, the link-up step, and the drone state (Table 22-5, R506). -/
def Device.sendSteer (d : Device) : Device :=
  let x := d.drone
  let fields := d.steerPorts.flatMap (fun p =>
    let q := d.port p
    let mine := p == x.activePort
    [q.delayPs, if mine then x.thetas.headD 0 else q.thetaPs, q.stamp, (readingOf q.badRx (d.beat.w - 1) 0 : Int), (q.step : Int), (x.st : Int)])
  d.twinSend 0x0B d.beat.w 0 0xFF 0 (Config.steerBytes fields)

/-- The twin logic at a beat edge: STEER, beats without a control slot, and faults that the other package did not raise: an own
package-class fault mutes, a plan fault is a divergence (R517, R521, R522, R526). -/
def Device.twinEdge (d : Device) : Device :=
  let d := if d.twin.role = 2 || d.twin.role = 4 then d.sendSteer else d
  if !d.inPair then d
  else
    let late := fun (f : Nat × Nat × Nat × Nat × Nat) => decide (f.2.2.2.2 < d.beat.w)
    let own := d.twin.ownFaults.filter late
    let alone := (own ++ d.twin.faults.filter late).filter (fun f => classOf f.1 == 1)
    let package := own.any (fun f => classOf f.1 == 2)
    let d := d.onTwin (fun t => { t with
      noCtl := t.noCtl + 1, ownFaults := t.ownFaults.filter (fun f => !late f), faults := t.faults.filter (fun f => !late f),
      muteReq := if package then 1 else t.muteReq })
    (List.range 8).foldl (fun d slot =>
      match alone.find? (fun f => f.2.1 == slot) with
      | some f => d.diverge slot f.2.2.1 (d.taskBeat slot) 0
      | none => d) d

/-- The list L of the base plan (R467): the local origin, then the fabric ports that are up. -/
def Device.baseList (d : Device) : List Nat :=
  63 :: (List.range 32).filter (fun p => d.hasPort p && (d.port p).up)

/-- The ledger at this edge: the usage of the beat that ends, the bindings that are bound now (R568), and CORE_BEATS of the new wall
beat (R569). -/
def Device.meterCores (d : Device) : Device :=
  let d := d.meterEdge
  let ids := d.boundSlots.map (fun t => (d.task t).bindId)
  let d := { d with ledger := d.ledger.map (fun e =>
    if e.isOpen && !e.device && !e.atEdge && ids.contains e.bindId then { e with atEdge := true } else e) }
  (List.range d.grade.cores).foldl (fun d c =>
    match (d.core c).running with
    | some t => d.meter (some t) (fun e => { e with
        coreBeats := e.coreBeats + 1, pCore := Sparse.upd 0 e.pCore (d.quarterOf c) (fun v => v + 1) })
    | none => d) d

/-- The planned refreshes of wall beat w whose tick did not come are made as the plan has them (R284). -/
def Device.planRefresh (d : Device) (w : Nat) : Device :=
  (List.range 8).foldl (fun d k =>
    if d.stackOn k then
      (List.range 8).foldl (fun d g =>
        if (d.refreshIn k g w).isSome && Sparse.get 0 (d.stack k).refreshed g < w then
          d.onStack k (fun s => { s with refreshed := Sparse.set 0 s.refreshed g w })
        else d) d
    else d) d

/-- Is a schedule region done with the present beat? -/
def Device.regionDone (d : Device) (r : Nat) : Bool :=
  (d.region r).finished || (if r < 144 then (d.core r).absent else d.power.absentQ.contains (r - 144))

/-- At a beat edge at which a new schedule beat begins while a region is late, the cores that have finished are held: their next
bundles wait from this wall beat on (R26, R162, Table 6-3). -/
def Device.stallStart (d : Device) : Device :=
  if d.gate.e < d.beat.s && !d.schedRegions.all d.regionDone then
    (List.range d.grade.cores).foldl (fun d c =>
      if !(d.core c).rests && (d.region c).finished then
        d.onCore c (fun k => { k with wait := some (k.wait.getD (6, d.beat.w)) })
      else d) d
  else d

/-- Everything a beat edge does with the new numbers in force. -/
def Device.beatEdge (d : Device) (env : EdgeEnv) : Device :=
  let d := { d with shadow := { d.shadow with edgeHub := some (d.beat.w, d.hub.counters) } }
  let d := (List.range 8).foldl (fun d k =>
    if d.grade.hasStack k then d.onStack k (fun s => { s with temp := readingOf env.stackTemp k s.temp }) else d) d
  let d := d.regionNums.foldl (fun d r => d.regionEdge env r) d
  let d := d.powerEdge
  let d := { d with fabric := { d.fabric with base := d.baseList } }
  if !d.beat.aligned then
    (d.portNums.foldl (fun d p => d.onPort p (fun q => { q with txPos := 0, nackSent := [], sentNow := 0 })) d).unalignedEdge
  else
    let hold := d.holdAt d.beat.w
    let d := { d.planRefresh (d.beat.w - 1) with tick := 0 }
    let d := d.droneEdge
    let d := d.portNums.foldl (fun d p => d.portEdge p d.beat.w hold) d
    let d := ((d.holdEdge hold).meterCores).stallStart
    let d := d.twinEdge
    (List.range 16).foldl (fun d mb => d.hostCopyFlow mb) d

/-- BEAT_EDGE (R34, R35). -/
def execBeatEdge (env : EdgeEnv) (s : State) : Res := liftBeat Device.nextBeat (fun d => d.beatEdge env) s

/-! ### Work and gates (R74 to R79) -/

/-- BEAT_WORK_DONE (R74, R75): a region that has issued the work of its beat stops at the gate. -/
def execBeatWorkDone (region : Nat) (s : State) : Res :=
  onUnit (fun d => d.hasRegion region && isSched region) (fun d =>
    if (d.region region).finished then d
    else if region < 144 then
      if (d.core region).running.isSome && (d.core region).power.state == 0 && d.workSc region ≤ (d.region region).count
          && !d.scrubDue region then
        (d.closeSc region).onRegion region (fun r => { r with finished := true })
      else d
    else if d.beat.aligned then d.onRegion region (fun r => { r with count := 1600, finished := true })
    else d) s

/-- Has a task a registered start that takes effect now: S_start is reached and the slot is BOUND or YIELDED (R409)? -/
def Device.startDue (d : Device) (t : Nat) : Bool :=
  let k := d.task t
  (k.state == 1 || k.state == 3) && !k.stopping && !([1, 3, 6].contains d.twin.role)
    && (match k.startS with
        | some s => decide (s ≤ d.gate.e)
        | none => false)

/-- Is a deferred open packet due before the first bundle of schedule beat e (R511)? -/
def Device.deferredDue (d : Device) (e : Nat) : Bool := d.fabric.deferred.any (fun p => d.schedOf p.2.v + 4 ≤ e)

/-- Is the check at the end of S_STOP due (R468)? -/
def Device.planStopDue (d : Device) : Bool :=
  !d.fabric.stopDone
    && (match d.fabric.stopS with
        | some (s, _) => decide (s ≤ d.gate.e)
        | none => false)

/-! ### The join beat of an attach (R532, R533) -/

/-- The stacks of the grade. -/
def Device.gradeStacks (d : Device) : List Nat := (List.range 8).filter d.grade.hasStack

/-- The bytes that the first pass of an attach copies: every scratchpad, hub staging and every stack. -/
def Device.copyTotal (d : Device) : Nat := d.grade.cores * spadBytes + 0x10000000 + d.gradeStacks.length * stackBytes

/-- The address and length of a dirty page or block. -/
def dirtyAt (x : Nat × Nat) : Nat × Nat :=
  match x.1 with
  | 0 => (rzMake 0 0 (x.2 / 32768 * 2 ^ 40 + x.2 % 32768 * 4096), 4096)
  | 1 => (rzMake 0 1 (x.2 * 65536), 65536)
  | _ => (rzMake 0 2 (x.2 * 65536), 65536)

/-- The bytes of the dirty set. -/
def Device.dirtyBytes (d : Device) : Nat := d.twin.dirty.foldl (fun a x => a + (dirtyAt x).2) 0

/-- Is the next schedule beat the join beat: at least S_JOIN, the present beat over with a yield point of every running task, and
the dirty set small enough for MAX_STALL wall beats at 200 GB/s, which is 204,800 B in each (R533)? -/
def Device.joinBeat (d : Device) : Bool :=
  match d.twin.attach with
  | some (join, stall, _) =>
    decide (join ≤ d.gate.e + 1) && d.schedRegions.all d.regionDone
      && (List.range 8).all (fun t =>
        (d.task t).state != 2 || ((d.task t).lastYield == d.gate.e && !d.yieldDue t && !(d.task t).stopping))
      && decide (d.copyTotal ≤ d.twin.copyAt) && decide (d.dirtyBytes ≤ 204800 * stall)
  | none => false

/-! ### The gate -/

/-- May the gate of the next schedule beat open: its edge is past, every schedule region has finished, and what falls at the
end of the present beat is done (R75)? At the gate of its join beat a live package stalls until the join (R533). -/
def Device.gateReady (d : Device) : Bool :=
  d.beat.aligned && decide (d.gate.e + 1 ≤ d.beat.s) && d.schedRegions.all d.regionDone
    && (List.range 8).all (fun t => !d.yieldDue t && !d.overdue t && !d.startDue t && (d.dueRecord t).isNone)
    && !d.deferredDue (d.gate.e + 1) && !d.planStopDue && !(d.twin.role == 2 && d.joinBeat)

/-- The hints of a core at a gate (R561). -/
def Core.hintGate (k : Core) (e : Nat) : Core :=
  { k with power := { k.power with
    hintNew := none,
    hint := match k.power.hintNew with
      | some (t, n, deep) => if n = 0 || deep = 0 then none else some (t, e + n, deep)
      | none => k.power.hint.filter (fun h => e < h.2.1) } }

/-- One core at the gate of schedule beat e (R75, R79, R254, R557). -/
def Device.openCore (d : Device) (e c : Nat) : Device :=
  if (d.core c).absent then d.onRegion c (fun r => { r with finished := true })
  else
    let d := (d.onCore c (fun k => k.hintGate e)).lowerCore c
    let k := d.core c
    match k.running with
    | some t =>
      if k.rests then (d.onRegion c (fun r => { r with count := 0 })).restRegion c
      else
        let d := (d.onRegion c (fun r => { r with count := 0, finished := false })).onCore c
          (fun k => { k with fill := none, yielded := false })
        if k.power.state = 0 then d else d.standIn c t 16
    | none => (d.onRegion c (fun r => { r with count := 0 })).restRegion c

/-- The host writes due before the first bundle of schedule beat e, and the HOST_COPY commands that they complete (R510). -/
def Device.applyHostIn (d : Device) (e : Nat) : Device :=
  let due := d.twin.hostIn.filter (fun h => h.1 ≤ e)
  let d := d.onTwin (fun t => { t with hostIn := t.hostIn.filter (fun h => !(h.1 ≤ e)) })
  let d := due.foldl (fun d h => d.hostStore (rzSpace h.2.1) (rzOff h.2.1) h.2.2) d
  if due == [] then d
  else
    (List.range 16).foldl (fun d mb =>
      let m := d.mbx mb
      let left := d.twin.hostIn.any (fun h => rzSpace h.2.1 == rzSpace m.hcDev
        && overlaps (rzOff m.hcDev) m.hcLen (rzOff h.2.1) h.2.2.length)
      if m.st == 2 && m.hCode == 0x62 && m.hcDir == 0 && m.copyLeft == some (m.hcLen, m.hcLen) && !left
          && rzDev m.hcDev == d.devNum then d.hostCopyEnd mb else d) d

/-- The gate of schedule beat e opens. -/
def Device.openGate (d : Device) (e : Nat) : Device :=
  let d := d.flushOutbox
  let d := (List.range 8).foldl (fun d t =>
    if (d.task t).state == 2 && !(d.task t).stopping then d.onTask t (fun k => { k with runBeats := k.runBeats + 1 }) else d) d
  let d := (List.range 8).foldl (fun d t =>
    if (d.task t).spillDue then
      ((d.task t).cores.foldl (fun d c => d.spillCore t c) d).onTask t (fun k => { k with spillDue := false })
    else d) d
  let d := d.applyHostIn e
  let d := { d with gate := { e := e } }
  let d := (List.range d.grade.cores).foldl (fun d c => d.openCore e c) d
  let d := [144, 145, 146, 147].foldl (fun d r =>
    d.onRegion r (fun x => { x with count := 0, finished := !d.netOn (r - 144) })) d
  d.schedRegions.foldl (fun d r => (d.onRegion r (fun x => { x with judged := false })).regionRuns r) d

/-- The local cycles for which other regions held the cores whose work of the beat was done count as WAIT_STALL (R26, R161);
how many they were is measured (log 11). -/
def Device.stallWaits (d : Device) (stall : List (Nat × Nat)) : Device :=
  (List.range d.grade.cores).foldl (fun d c => if d.counting c then d.countCore c 6 (readingOf stall c 0) else d) d

/-- BEAT_GATE_OPEN (R26, R75, R76). -/
def execBeatGateOpen (stall : List (Nat × Nat)) (s : State) : Res :=
  lift (fun d => if d.gateReady then (d.stallWaits stall).openGate (d.gate.e + 1) else d) s

/-! ### Yield points and starts -/

/-- YIELD_POINT (R411, R414 to R418): at the end of the beat; a task that carries on goes on behind its `ct.yield`. -/
def execYieldPoint (slot : Nat) (s : State) : Res :=
  onUnit (fun _ => slot < 8) (fun d =>
    if d.yieldDue slot then
      let e := d.yieldPoint slot
      if (e.task slot).state == 2 && !(e.task slot).stopping then
        (e.task slot).cores.foldl (fun e c => e.onCore c (fun k => k.goOn k.pc)) e
      else e
    else d) s

/-- YIELD_OVERDUE (R412). -/
def execYieldOverdue (slot : Nat) (s : State) : Res :=
  onUnit (fun _ => slot < 8) (fun d =>
    if d.overdue slot && !d.yieldDue slot then d.fault slot 0x010A 1 0 0 0 0 (d.task slot).lastYield else d) s

/-- BUNDLE_WAIT_OVERDUE (R162): a bundle has waited for 4,096 wall beats. -/
def execBundleWaitOverdue (c : Nat) (s : State) : Res :=
  onUnit (fun d => d.hasCore c) (fun d =>
    let k := d.core c
    match k.running, k.wait with
    | some t, some (kind, w0) =>
      if w0 + 4096 ≤ d.beat.w && !(d.task t).stopping then
        let sc := (d.region c).count
        d.fault t 0x010A 0 1 c sc (k.pc % 2 ^ 14 * 2 ^ 50 + sc % 2 ^ 11 * 2 ^ 39 + kind % 8 * 2 ^ 36) 4096
      else d
    | _, _ => d) s

/-- The cores of a stopping task end the sc in which it stops (R247, R541). -/
def Device.closeScs (d : Device) (slot : Nat) : Device :=
  (d.task slot).cores.foldl (fun d c => if (d.core c).running == some slot then d.closeSc c else d) d

/-- TASK_FAULTED (R541): the sc in which the task stops ends; then nothing of the task may remain in flight. -/
def execTaskFaulted (slot : Nat) (s : State) : Res :=
  onUnit (fun _ => slot < 8) (fun d =>
    if !(d.task slot).stopping then d
    else
      let e := d.closeScs slot
      if e.inFlight slot then e else e.faultTask slot) s

/-- A core in the initial state of a task (R115, R204, R292, R301, R304, R409). -/
def Device.initCore (d : Device) (t c : Nat) : Device :=
  let b := (d.core c).bound t
  let d := (d.resetFlags c t).startKeys c t
  d.onCore c (fun k => { k with
    lanes := [], laneMarks := [], ptrs := [], xa := [], loops := [], rot := 0, pc := 0,
    sendCtr := Sparse.set 0 k.sendCtr t 0,
    queues := k.queues.filter (fun e => !(qBase b ≤ e.1 && e.1 < qBase b + qCount b)) })

/-- A core of a task begins to run in the present schedule beat. -/
def Core.beginRun (k : Core) (t : Nat) : Core :=
  { k with running := some t, fill := none, yielded := false, stopped := false, wait := none, issue := none,
           ended := k.ended.filter (· != t), mx := { k.mx with lastKey := none } }

/-- TASK_START_EFFECT (R409, R418, R420, R435): at the gate of S_start. -/
def execTaskStartEffect (slot : Nat) (s : State) : Res :=
  onUnit (fun _ => slot < 8) (fun d =>
    if !d.startDue slot then d
    else
      let k := d.task slot
      let d := d.changing k.startMb slot
      let fresh := k.state == 1
      let d := k.cores.foldl (fun d c =>
        let d := if fresh then d.initCore slot c
          else (d.unspillCore slot c).onCore c (fun x => x.goOn (Sparse.get 0 x.resume slot))
        let d := ((d.onCore c (fun x => x.beginRun slot)).onRegion c (fun r => { r with
          count := 0, finished := false, judged := false })).regionRuns c
        if (d.core c).power.state = 0 then d else d.standIn c slot 16) d
      let start := k.startS.getD 0
      let d := d.onTask slot (fun k => { k with
        state := 2, startS := none, startMb := none, lastYield := start - 1, lastCompare := start,
        runBeats := if fresh then 0 else k.runBeats, captureS := if fresh then start - 1 else k.captureS,
        flagWord := if k.replay.isSome && !bitAt k.flagWord 3 then k.flagWord + 8 else k.flagWord })
      (d.logEvent slot 0x01 none start []).settle k.startMb 0) s

end Sys2Proof.Machine
end

