-- ==== Sys2Proof/Machine/Slots.lean ====
section
/-! DEFINITION. Machine/Slots.lean: slots, trailers and control slots as bytes (R322 to R325, Tables 13-1 to 13-3), and hold
votes on the wire (R341, R365). -/

namespace Sys2Proof.Machine

open Sys2Proof

/-! ### Reading a slot -/

/-- The trailer of a slot as one number (Table 13-1). -/
def slotTr (s : List (BitVec 8)) : Nat := leNat (slice s 480 32)
/-- BEAT. -/
def trBeat (s : List (BitVec 8)) : Nat := bits (slotTr s) 192 32
/-- POISON. -/
def trPoison (s : List (BitVec 8)) : Nat := bits (slotTr s) 132 60
/-- SLOT. -/
def trSlot (s : List (BitVec 8)) : Nat := bits (slotTr s) 124 8
/-- KIND. -/
def trKind (s : List (BitVec 8)) : Nat := bits (slotTr s) 122 2
/-- REPAIR. -/
def trRepair (s : List (BitVec 8)) : Bool := bitAt (slotTr s) 121
/-- SEQ. -/
def trSeq (s : List (BitVec 8)) : Nat := bits (slotTr s) 105 16
/-- LEDGER. -/
def trLedger (s : List (BitVec 8)) : Nat := bits (slotTr s) 97 8
/-- NACK_V. -/
def trNackV (s : List (BitVec 8)) : Bool := bitAt (slotTr s) 96
/-- NACK_W. -/
def trNackW (s : List (BitVec 8)) : Nat := bits (slotTr s) 80 16
/-- NACK_POS. -/
def trNackPos (s : List (BitVec 8)) : Nat := bits (slotTr s) 72 8
/-- VOTES. -/
def trVotes (s : List (BitVec 8)) : Nat := bits (slotTr s) 70 2

/-- Is a slot good (R323)? -/
def slotGood (s : List (BitVec 8)) : Bool := s.length == 512 && crc32c (s.take 508) == bits (slotTr s) 224 32

/-- The payload of a slot. -/
def slotPayload (s : List (BitVec 8)) : List (BitVec 8) := slice s 0 480

/-- The value congruent to x modulo 2^m that is nearest to a reference (R324). -/
def nearest (m x ref : Nat) : Nat :=
  let b := ref / 2 ^ m * 2 ^ m + x % 2 ^ m
  if b + 2 ^ (m - 1) < ref then b + 2 ^ m
  else if ref + 2 ^ (m - 1) < b && 2 ^ m ≤ b then b - 2 ^ m
  else b

/-- The payload of a control slot as one number (Table 13-2). -/
def ctlBits (s : List (BitVec 8)) : Nat := leNat (slice s 0 128)
/-- W. -/
def ctlW (s : List (BitVec 8)) : Nat := bits (ctlBits s) 928 64
/-- S. -/
def ctlS (s : List (BitVec 8)) : Nat := bits (ctlBits s) 864 64
/-- A ledger word: 1 or 2. -/
def ctlLedger (s : List (BitVec 8)) (i : Nat) : Nat := bits (ctlBits s) (if i = 1 then 800 else 736) 64
/-- STAMP, in 10 ps units. -/
def ctlStamp (s : List (BitVec 8)) : Int := toSigned (bits (ctlBits s) 704 32) 32
/-- STAMP_W. -/
def ctlStampW (s : List (BitVec 8)) : Nat := bits (ctlBits s) 688 16
/-- DEVICE. -/
def ctlDevice (s : List (BitVec 8)) : Nat := bits (ctlBits s) 676 12
/-- HOPS. -/
def ctlHops (s : List (BitVec 8)) : Nat := bits (ctlBits s) 665 5
/-- DRONE_STATE. -/
def ctlState (s : List (BitVec 8)) : Nat := bits (ctlBits s) 662 3
/-- TREE. -/
def ctlTree (s : List (BitVec 8)) : Bool := bitAt (ctlBits s) 661
/-- HOLD_BEAT. -/
def ctlHold (s : List (BitVec 8)) : Bool := bitAt (ctlBits s) 660
/-- HOLD_VOTE. -/
def ctlVote (s : List (BitVec 8)) : Bool := bitAt (ctlBits s) 659

/-- Is a slot a good control slot with MAGIC? -/
def ctlGood (s : List (BitVec 8)) : Bool := slotGood s && trKind s == 1 && bits (ctlBits s) 992 32 == 0xD7A15E3C

/-! ### Building a slot -/

/-- A slot from its payload and the fields of its trailer, with its CRC. -/
def mkSlot (payload : List (BitVec 8)) (beat poison slot kind : Nat) (repair : Bool) (seq ledger : Nat)
    (nack : Option (Nat × Nat)) (votes : Nat) : List (BitVec 8) :=
  let n := match nack with
    | some (w, p) => 2 ^ 96 + w % 2 ^ 16 * 2 ^ 80 + p % 2 ^ 8 * 2 ^ 72
    | none => 0
  let t := votes % 4 * 2 ^ 70 + n + ledger % 256 * 2 ^ 97 + seq % 2 ^ 16 * 2 ^ 105 + b2n repair * 2 ^ 121 + kind % 4 * 2 ^ 122
    + slot % 256 * 2 ^ 124 + poison % 2 ^ 60 * 2 ^ 132 + beat % 2 ^ 32 * 2 ^ 192
  let body := slice payload 0 480 ++ leBytes 28 t
  body ++ leBytes 4 (crc32c body)

/-- A retained slot as a re-send: REPAIR is 1, and the CRC is new (R339). -/
def asRepair (s : List (BitVec 8)) : List (BitVec 8) :=
  let t := bits (slotTr s) 0 224
  let body := slotPayload s ++ leBytes 28 (if bitAt t 121 then t else t + 2 ^ 121)
  body ++ leBytes 4 (crc32c body)

/-- The count under a wall beat in a list of counts. -/
def countAt (l : List (Nat × Nat)) (w : Nat) : Nat :=
  match l.find? (fun e => e.1 == w) with
  | some e => e.2
  | none => 0

/-- Add to the count under a wall beat. -/
def bumpAt (l : List (Nat × Nat)) (w n : Nat) : List (Nat × Nat) :=
  (w, countAt l w + n) :: l.filter (fun e => e.1 != w)

/-- The ledger word of wall beat w (Table 13-3). -/
def Port.ledgerWord (p : Port) (w : Nat) : Nat :=
  w % 2 ^ 16 * 2 ^ 48 + countAt p.sent w % 256 * 2 ^ 40 + countAt p.repairedNow w % 256 * 2 ^ 32
    + countAt p.absentNow w % 256 * 2 ^ 24 + countAt p.badRx w % 256 * 2 ^ 16

/-- STATE of a control slot: a shadow takes it from the primary's last STEER record (R517). -/
def Device.ctlStateNow (d : Device) (p : Nat) : Nat :=
  match d.twin.steer with
  | (_, bs) :: _ => if d.twin.role = 5 && p < 32 then (Config.steerField bs p 5).toNat else d.drone.st
  | [] => d.drone.st

/-- The payload of the control slot that port p sends in the present wall beat (Table 13-2). -/
def Device.ctlPayload (d : Device) (p : Nat) : List (BitVec 8) :=
  let q := d.port p
  let x := d.drone
  let b := d.beat
  let n := 0xD7A15E3C * 2 ^ 992 + b.w % 2 ^ 64 * 2 ^ 928 + b.s % 2 ^ 64 * 2 ^ 864
    + (if 1 ≤ b.w then q.ledgerWord (b.w - 1) * 2 ^ 800 else 0) + (if 2 ≤ b.w then q.ledgerWord (b.w - 2) * 2 ^ 736 else 0)
    + ofSigned q.stamp 32 * 2 ^ 704 + q.stampW % 2 ^ 16 * 2 ^ 688 + d.devNum % 4096 * 2 ^ 676 + p % 64 * 2 ^ 670
    + x.hops % 32 * 2 ^ 665 + d.ctlStateNow p % 8 * 2 ^ 662 + b2n x.tree * 2 ^ 661 + b2n d.hold.now * 2 ^ 660
    + b2n (d.hold.cause != 0 || d.hold.votes.contains b.w && d.deferralHigh) * 2 ^ 659 + q.linkVer % 256 * 2 ^ 651
  leBytes 128 n ++ List.replicate 352 0

/-! ### Votes on the wire (R341, R364, R365) -/

/-- VOTES of a slot of wall beat w: votes of w and of the beat before that this device originated or knows. -/
def Device.votesIn (d : Device) (w : Nat) : Nat :=
  if d.beat.aligned then b2n (d.hold.votes.contains w) + 2 * b2n (1 ≤ w && d.hold.votes.contains (w - 1)) else 0

/-- VOTES of a slot sent now. -/
def Device.votesNow (d : Device) : Nat := d.votesIn d.beat.w

/-- A vote of origin v reaches the device on port p: it is kept and relayed; past the edge of v + 2 it has no effect, and is
counted and recorded (R364, R365). -/
def Device.seeVote (d : Device) (p v : Nat) : Device :=
  if !d.beat.aligned || d.hold.votes.contains v then d
  else
    let late := v + 2 ≤ d.beat.w
    let d := { d with hold := { d.hold with votes := insertNew v d.hold.votes } }
    if late then (d.countHub 25 1).event 0x0009 0 2 p v 0
    else
      (d.portNums.filter (fun q => (d.port q).up)).foldl (fun d q => d.countPort q 9 1) d

/-- The votes of a good slot on port p (R341). -/
def Device.seeVotes (d : Device) (p : Nat) (s : List (BitVec 8)) : Device :=
  let v := nearest 16 (trSeq s) d.beat.w
  let d := if bitAt (trVotes s) 0 then d.seeVote p v else d
  if bitAt (trVotes s) 1 && 1 ≤ v then d.seeVote p (v - 1) else d

end Sys2Proof.Machine
end

