-- ==== Sys2Proof/Machine/Drone.lean ====
section
/-! DEFINITION. Machine/Drone.lean: the drone (R36, R39 to R66): alignment, discipline, freewheel and takeover, and the
reference clocks (R85 to R87). -/

namespace Sys2Proof.Machine

open Sys2Proof

/-! ### Alignment (R36, R60) -/

/-- The time base at W and S, with H = W − S (R35). -/
def Beat.at (w s : Nat) : Beat := { w := w, h := w - min s w, s := min s w, aligned := true }

/-- What follows a jump of the time base: the gate of the present schedule beat counts as open, every group of a stack as
refreshed, and votes, hold beats and the books of every port that go by the old count are gone. -/
def Device.rebase (d : Device) : Device :=
  let d := (List.range 8).foldl (fun d k =>
    if d.grade.hasStack k then
      d.onStack k (fun s => { s with
        refreshed := (List.range 8).foldl (fun m g => Sparse.set 0 m g d.beat.w) s.refreshed })
    else d) d
  let d := d.portNums.foldl (fun d p => d.onPort p (fun q => { q with
    ledgerNext := q.ledgerNext.map (fun _ => d.beat.w + 1), sent := [], repairedNow := [], absentNow := [], badRx := [],
    retain := [], resend := [], resentAt := [], nacks := [], rxGood := [], rxSent := [], rxSlots := [], ctlSeen := [],
    holdSeen := none, queueSeen := [] })) d
  { d with
    gate := { e := d.beat.s }
    hold := { d.hold with votes := [], holdBeats := [], now := false, next := false, since := d.beat.w } }

/-- Does the device take its numbers from port p: the active rootward port of a member or standby root, or a twin port of a
package without a pair (R36, R506)? -/
def Device.alignsBy (d : Device) (p : Nat) : Bool :=
  if 32 ≤ p then d.twin.role == 1 || d.twin.role == 3
  else !d.drone.rootLike && d.bestPort == some p && d.twin.role != 1 && d.twin.role != 3

/-! ### DRONE_IN (R44 to R47, R609) -/

/-- Is a word frame good, and its number (Table 2-3, R46)? -/
def wordOf (frame : Nat) : Option Nat :=
  if bits frame 0 8 == 0x5D && bits frame 72 16 == crc16 64 (frame / 256) then some (bits frame 8 64) else none

/-- Is a marker edge within n ps of the edge that the device predicts? -/
def markIn (n : Int) (o : Option Int) : Bool :=
  match o with
  | some x => decide (-n ≤ x) && decide (x ≤ n)
  | none => false

/-- The sum of the first n entries of a list. -/
def sumOf (n : Nat) (l : List Int) : Int := (l.take n).foldl (· + ·) 0

/-- PHASE in units of 10 ps from offsets in ps, newest first: their mean over n beats, rounded down (Table 2-6; the rounding is a
DESIGN CHOICE, log 79). -/
def phaseOf (n : Nat) (ths : List Int) : Int :=
  let t := ths.take n
  if t.length = 0 then 0 else t.foldl (· + ·) 0 / (10 * (t.length : Int))

/-- The consecutive good marker edges whose words are good and rise by 1, once a marker edge deltaPs from its predicted place has
come. The word of an edge is the one that ends there and names the beat which begins there (R45, R46; DEDUCED, log 50). -/
def Drone.edgesNow (x : Drone) (deltaPs : Int) : Nat :=
  match markIn 20000 (some deltaPs), x.lastWord with
  | true, some n => if 1 ≤ n && x.prevWord == some (n - 1) then x.goodEdges + 1 else 1
  | _, _ => 0

/-- The window in which a device judges a marker edge: that of R609 from freewheel until the root shows locked again, that of R46
otherwise. -/
def Drone.window (x : Drone) : Int := if x.rootLike && (x.st == 3 || x.st == 4) then 512000 else 20000

/-- A marker edge, deltaPs after the edge that the device predicts: the edge it measures its own against (R46, R47, R66, R609). -/
def Drone.marker (x : Drone) (deltaPs : Int) : Drone :=
  let seen := markIn x.window (some deltaPs)
  let ths := (-deltaPs :: x.thetas).take 1024
  { x with
    markPs := some deltaPs, edgeSeen := x.edgeSeen || seen,
    prevWord := x.lastWord, lastWord := none,
    goodEdges := x.edgesNow deltaPs,
    relock := if x.rootLike && x.st == 4 && seen && x.lastWord.isSome && x.wordFits then x.relock + 1 else 0,
    thetas := if x.rootLike && seen then ths else x.thetas,
    phase := if x.rootLike && seen && x.st != 4 && x.st != 5 then phaseOf 256 ths else x.phase,
    st := if x.rootLike && x.st == 3 && markIn 1000 (some deltaPs) then 2 else x.st }

/-- Does an unaligned root lock at this marker edge, and at which W: the fourth good edge in a row whose words are good and rise by
1, at the number of its word (R46)? -/
def Device.rootLock (d : Device) (deltaPs : Int) : Option Nat :=
  if !d.beat.aligned && d.drone.role == 1 && 4 ≤ d.drone.edgesNow deltaPs then d.drone.lastWord else none

/-- DRONE_IN_MARKER (R44, R46, R47, R62, R609). -/
def execDroneInMarker (deltaPs : Int) (s : State) : Res :=
  match s.dev.rootLock deltaPs with
  | some w =>
    liftBeat (fun _ => Beat.at w w) (fun d =>
      let d := d.rebase
      { d with drone := { d.drone.marker deltaPs with st := 2, hops := 0 } }) s
  | none => lift (fun d => { d with drone := d.drone.marker deltaPs }) s

/-- DRONE_IN_WORD (R45 to R47, R609): the frame gives the number of the beat that begins at the next marker edge. -/
def execDroneInWord (frame : Nat) (s : State) : Res :=
  lift (fun d =>
    let x := d.drone
    match wordOf frame with
    | none => { d with drone := { x with goodEdges := 0, relock := 0, lastWord := none, wordFits := false } }
    | some n =>
      let fits := n == d.beat.w + 1
      { d with drone := { x with
        lastWord := some n, wordFits := fits,
        mismatch := x.mismatch || (d.beat.aligned && x.rootLike && !fits) } }) s

/-! ### Discipline over a port (R49) -/

/-- The upstream's stamp t4 and the own stamp t2 of one wall beat, in units of 10 ps, give θ and d in whole ps. The averages run
over the last 1,024 samples of whatever port was active (DESIGN CHOICE, log 79). -/
def Drone.stamps (x : Drone) (t2 t4 : Int) : Drone :=
  let ths := ((5 * (t4 - t2)) :: x.thetas).take 1024
  { x with
    thetas := ths, delays := ((5 * (t4 + t2)) :: x.delays).take 1024,
    phase := if x.st == 4 || x.st == 5 then x.phase else phaseOf 1024 ths }

/-- Is a realignment pending (R60)? -/
def Drone.realigning (x : Drone) : Bool := x.realign == 1 || x.realign == 3 || x.realign == 4

/-! ### Loss, freewheel and return (R54 to R59, R609) -/

/-- Does the device take its beat from the drone: not a shadow, which follows its primary (R506)? -/
def Device.droned (d : Device) : Bool := d.beat.aligned && d.twin.role != 5

/-- Has the device lost its reference or drone (R54)? -/
def Device.lostDrone (d : Device) : Bool :=
  let x := d.drone
  d.droned && (x.st == 1 || x.st == 2 || x.st == 3)
    && (if x.rootLike then 4 ≤ x.badEdges else 4 ≤ x.noValid)

/-- Enter freewheel (R55). θ is measured anew from here, for the exit of R59. -/
def Device.enterFreewheel (d : Device) : Device :=
  let d := { d with drone := { d.drone with
    st := 4, freeStart := d.beat.w, freeBeats := 0, relock := 0, valid := 0, thetas := [] } }
  d.event 0x0001 0 0 0 d.beat.w 0

/-- DRONE_LOST (R54, R55). -/
def execDroneLost (s : State) : Res := lift (fun d => if d.lostDrone then d.enterFreewheel else d) s

/-- FREEWHEEL_EXPIRED (R58). -/
def execFreewheelExpired (s : State) : Res :=
  lift (fun d =>
    if d.drone.st == 4 && 65536 ≤ d.drone.freeBeats then
      ({ d with drone := { d.drone with st := 5 } }).event 0x0001 1 0 0 d.drone.freeStart 0
    else d) s

/-- May a member leave freewheel: valid drone for 4 wall beats, the upstream's W its own, and |θ|, over the beats measured since
the freewheel began, below 512 ns (R59, log 50)? -/
def Drone.mayReturn (x : Drone) : Bool :=
  let n : Int := 512000 * ((x.thetas.take 1024).length : Int)
  decide (4 ≤ x.valid) && x.upFits && x.thetas != [] && decide (-n < sumOf 1024 x.thetas) && decide (sumOf 1024 x.thetas < n)

/-- FREEWHEEL_EXIT (R59, R609): the device shows slewing. A refused realignment ends in no exit (R60). -/
def execFreewheelExit (s : State) : Res :=
  lift (fun d =>
    let x := d.drone
    let ok := if x.rootLike then decide (4 ≤ x.relock) else x.mayReturn
    if d.droned && x.st == 4 && x.realign == 0 && ok then
      { d with drone := { x with st := 3, freeBeats := 0, badEdges := 0, noValid := 0, thetas := [] } }
    else d) s

/-- DRONE_LOCK (R50, R51): an aligning member, or one that slews, is locked once |θ| over 256 beats is at most 0.1 ns. -/
def execDroneLock (s : State) : Res :=
  lift (fun d =>
    let x := d.drone
    let m := sumOf 256 x.thetas
    if d.beat.aligned && !x.rootLike && (x.st == 1 || x.st == 3) && !x.realigning && 256 ≤ x.thetas.length
        && decide (-25600 ≤ m) && decide (m ≤ 25600) then { d with drone := { x with st := 2 } }
    else d) s

/-! ### Realignment (R60) -/

/-- The numbers that a realigning device is to take: those of its active rootward port, or for a root the W of its words with
its own H. -/
def Device.realignTo (d : Device) : Option (Nat × Nat) :=
  let x := d.drone
  if !(d.beat.aligned && x.realigning) then none
  else if x.rootLike then
    let w := match x.lastWord with
      | some n => some (n - 1)
      | none => x.prevWord
    if 4 ≤ x.goodEdges then w.map (fun w => (w, w - d.beat.h)) else none
  else d.bestPort.map (fun p => ((d.port p).rxW, (d.port p).rxS))

/-- A realignment is refused: the device is in the freewheel that it was in before DRONE_ROLE, and one that came from no freewheel
enters it now (R60, log 50). -/
def Device.refuseRealign (d : Device) : Device :=
  let x := d.drone
  { d with drone := { x with
    realign := 2, st := if x.realign == 3 then 5 else 4,
    freeStart := if x.realign == 1 then d.beat.w else x.freeStart, freeBeats := if x.realign == 1 then 0 else x.freeBeats } }

/-- DRONE_REALIGN (R60): both new numbers or neither; neither may step back. -/
def execDroneRealign (s : State) : Res :=
  match s.dev.realignTo with
  | none => .next s
  | some (w, sb) =>
    let old := s.dev.beat
    if old.w ≤ w && old.s ≤ sb then
      liftBeat (fun _ => Beat.at w sb) (fun d =>
        let d := d.rebase
        let d := { d with drone := { d.drone with realign := 0, st := if d.drone.rootLike then 2 else 1, freeBeats := 0 } }
        d.event 0x0001 2 0 0 old.w w) s
    else
      lift (fun d =>
        d.refuseRealign.event 0x0001 3 0 0 old.w w) s

/-- STANDBY_TAKEOVER (R61): the standby root is the acting root from the next wall beat. A device whose realignment is pending or
refused takes over from no one (R60, log 50). -/
def execStandbyTakeover (s : State) : Res :=
  lift (fun d =>
    let x := d.drone
    if d.droned && x.role == 2 && x.realign == 0 && 64 ≤ x.rootBad && 64 ≤ x.ownGood then
      { d with drone := { x with
        role := 3, takeover := true, hops := 0, st := 2, tree := true, freeBeats := 0, badEdges := 0, activePort := 0,
        thetas := [] } }
    else d) s

/-! ### Reference clocks (R85 to R87) -/

/-- REFCLK_LOST (R85): the record, every port down, and freewheel. In a pair the package is muted (R521). -/
def execRefclkLost (s : State) : Res :=
  lift (fun d =>
    if !d.pins.refclk then d
    else
      let d := { d with pins := { d.pins with refclk := false } }
      let pair := d.inPair
      let d := d.log { HealthRec.reset with
        s := d.beat.s, code := 0x0204, cls := 2, unitKind := 4, masked := pair }
      let d := d.portNums.foldl (fun d p => d.portDown p) d
      let d := if pair then d.onTwin (fun t => { t with muteReq := 1 }) else d
      if d.beat.aligned && (d.drone.st == 1 || d.drone.st == 2 || d.drone.st == 3) then d.enterFreewheel else d) s

/-- REFCLK_RETURN (R86): the PLL is back on REFCLK, and the ports that TOPO_SET enables train from step 1. -/
def execRefclkReturn (s : State) : Res :=
  lift (fun d => { d with pins := { d.pins with refclk := true } }) s

/-- PCIE_REFCLK_LOST (R87). -/
def execPcieRefclkLost (s : State) : Res :=
  lift (fun d =>
    if !d.pins.pcieRefclk then d
    else
      let d := { d with pins := { d.pins with pcieRefclk := false }, host := { d.host with linkUp := false } }
      d.event 0x0006 0 4 0 0 0) s

/-- HOST_LINK_DOWN (R87): the host link goes down for another reason. -/
def execHostLinkDown (s : State) : Res :=
  lift (fun d => { d with host := { d.host with linkUp := false } }) s

/-- HOST_LINK_UP (R87): held writes are made in the order in which they would have been made, and transfers resume. -/
def execHostLinkUp (s : State) : Res :=
  lift (fun d =>
    if d.host.linkUp || !d.pins.pcieTx then d
    else
      let held := d.host.held
      let d := { d with pins := { d.pins with pcieRefclk := true }, host := { d.host with linkUp := true, held := [] } }
      let d := held.foldl (fun d x => d.postHeld x) d
      (List.range 16).foldl (fun d mb => d.hostCopyFlow mb) d) s

end Sys2Proof.Machine
end

