-- ==== Sys2Proof/Machine/Links.lean ====
section
/-! DEFINITION. Machine/Links.lean: link-up (R342), the ledger (R340), what a port does with the slots it receives (R323 to R332,
R335 to R338), the slip buffer (R331), and the rows of open packets (R356, R511). -/

namespace Sys2Proof.Machine

open Sys2Proof

/-! ### Link-up (Table 13-10) -/

/-- May port p start link-up: the start-up steps that release it are over, REFCLK is good, and TOPO_SET, once it has come,
enables it (R86, R342, R498)? -/
def Device.mayTrain (d : Device) (p : Nat) : Bool :=
  d.hasPort p && (d.port p).step == 0 && !(d.port p).halted && d.boot.step == 4 && d.boot.run != 2 && (d.boot.phase == .steps || d.boot.phase == .running) && d.pins.refclk
    && (!d.fabric.topoSet || (d.port p).enabled)

/-- A port stops at a step that failed, and stays down (R342). -/
def Device.haltPort (d : Device) (p : Nat) : Device := d.onPort p (fun q => { q.drop with halted := true })

/-- Does step 5 of port p wait for no TOPO_SET: a twin port of a package that takes none, STANDBY, JOINING or SHADOW (R509; DEDUCED,
log 83)? -/
def Device.topoFree (d : Device) (p : Nat) : Bool :=
  32 ≤ p && !d.fabric.topoSet && (d.twin.role == 1 || d.twin.role == 3 || d.twin.role == 5)

/-- Step 5, made as soon as TOPO_SET has come: the neighbour's DEVICE and PORT are those declared, on T0 and T1 as on any other port
(R342, R358, R498). -/
def Device.topoStep (d : Device) (p : Nat) : Device :=
  let q := d.port p
  if q.step != 4 then d
  else if d.topoFree p then d.onPort p (fun q => { q with step := 5 })
  else if !d.fabric.topoSet then d
  else if q.seenDev == some q.nbrDev && q.seenPort == q.nbrPort then d.onPort p (fun q => { q with step := 5 })
  else ((d.linkRecord 0x0303 p 5).haltPort p).onPort p (fun q => { q with enabled := false })

/-- LINK_TRAINING_DONE (R342). A failure is recorded as PORT_STATE. -/
def execLinkTrainingDone (p : Nat) (ok : Bool) (s : State) : Res :=
  onUnit (fun d => d.hasPort p) (fun d =>
    if !d.mayTrain p then d
    else if ok then d.onPort p (fun q => { q with step := 1, goodCtl := 0, badCtl := 0, nbrW := none })
    else (d.event 0x000F 0 2 p 1 0).haltPort p) s

/-- LINK_FRAMING_LOCK (R342): 16 consecutive good control slots. The nonce of the hello that follows is a free value (log 2). -/
def execLinkFramingLock (p : Nat) (s : State) : Res :=
  onUnit (fun d => d.hasPort p) (fun d =>
    if (d.port p).step == 1 && 16 ≤ (d.port p).goodCtl then
      let (n, d) := d.drawFree
      d.onPort p (fun q => { q with step := 2, nonce := leBytes 48 n, linkIn := [], linkOut := 0, delaySamples := [] })
    else d) s

/-- Does a package run link-up steps 3 to 6 of a port itself? A shadow takes their results from STEER (R506). -/
def Device.ownLinkUp (d : Device) (p : Nat) : Bool := 32 ≤ p || d.twin.role != 5

/-- A hello on a twin port shows the partner: its role, and whether it has the own grade and stepping (R504, R531). -/
def Device.seePartner (d : Device) (data : List (BitVec 8)) : Device :=
  let role := Config.linkRole data % 16
  let changed := role != d.twin.partner
  let d := d.onTwin (fun t => { t with
    partner := role,
    partnerSame := Config.linkGrade data == d.grade.code && Config.linkStepping data == d.ident.stepping })
  if changed then d.event 0x0007 0 0 0 d.twinWord 0 else d

/-- The digest that the neighbour of port p signs in step 4: of both nonces, both DEVICE and PORT values and the version (R342). -/
def Device.linkDigest (d : Device) (p : Nat) (own : Bool) : List (BitVec 8) :=
  let q := d.port p
  let dev := q.seenDev.getD 0
  sha384 (if own then Config.linkTranscript q.nonce q.peerNonce [d.devNum, p, dev, q.seenPort, q.linkVer]
    else Config.linkTranscript q.peerNonce q.nonce [dev, q.seenPort, d.devNum, p, q.linkVer])

/-- What LINK packets have brought to a port: the hello in step 3; in step 4 the signature, which must verify under the chain of the
hello (R342). The part offers version 2 only. -/
def Device.takeLink (d : Device) (p : Nat) (data : List (BitVec 8)) : Device :=
  let q := d.port p
  if q.step = 2 then
    if bitAt (Config.linkVersions data) 2 then
      let d := d.onPort p (fun q => { q with
        step := 3, linkVer := 2, seenDev := some (Config.linkDevice data % 4096), seenPort := Config.linkPort data % 64,
        peerNonce := Config.linkNonce data, peerChain := Config.linkChain data })
      if 32 ≤ p then d.seePartner data else d
    else (d.linkRecord 0x0302 p 3).haltPort p
  else if q.step = 3 && Config.linkProof data != [] then
    if Config.linkAuth q.peerChain (d.linkDigest p false) (Config.linkProof data) then
      (d.onPort p (fun q => { q with step := 4 })).topoStep p
    else (d.linkRecord 0x0302 p 4).haltPort p
  else d

/-- One LINK packet: its data is put behind what has come before, by its number in TAG; the last one completes (log 10). -/
def Device.linkPiece (d : Device) (p : Nat) (k : Packet) : Device :=
  let old := (d.port p).linkIn
  if k.tag != 0 && old.length != 448 * k.tag then d.onPort p (fun q => { q with linkIn := [] })
  else
    let all := (if k.tag = 0 then [] else old) ++ k.data
    let d := d.onPort p (fun q => { q with linkIn := if k.last then [] else all })
    if k.last then d.takeLink p all else d

/-- OPEN_LINK (R342): the LINK packet that arrived on port p. -/
def execOpenLink (p : Nat) (s : State) : Res :=
  onUnit (fun d => d.hasPort p) (fun d =>
    match d.fabric.openIn.find? (fun k => k.op == 8 && k.port == p) with
    | none => d
    | some k =>
      let d := d.onFabric (fun f => { f with openIn := f.openIn.filter (fun k => !(k.op == 8 && k.port == p)) })
      if d.ownLinkUp p then d.linkPiece p k else d) s

/-- The mean of a list of values in ps, as a whole number of ps: rounded down, or up. -/
def meanPs (up : Bool) (l : List Int) : Int :=
  let n : Int := max 1 (l.length : Int)
  (l.foldl (· + ·) 0 + if up then n - 1 else 0) / n

/-- LINK_DELAY_DONE (R342): d and θ have been averaged over 1,024 beats, and the port is up. The spec states no rounding of the two
means to whole ps: the command says which way they go (log 79). -/
def execLinkDelayDone (p : Nat) (up : Bool) (s : State) : Res :=
  onUnit (fun d => d.hasPort p) (fun d =>
    let l := (d.port p).delaySamples
    if (d.port p).step == 5 && d.ownLinkUp p && 1024 ≤ l.length then
      (d.onPort p (fun q => { q with
        step := 6, delayPs := meanPs up (l.map (·.1)), thetaPs := meanPs up (l.map (·.2)),
        ledgerNext := some (d.beat.w + 1) })).event 0x000F 0 2 p 6 1
    else d) s

/-- PORT_FRAMING_LOSS (R342): the port goes down, and trains again from step 1. -/
def execPortFramingLoss (p : Nat) (s : State) : Res :=
  onUnit (fun d => d.hasPort p) (fun d =>
    if 1 ≤ (d.port p).step && 16 ≤ (d.port p).badCtl then d.portDown p else d) s

/-- LINK_UP_TIMEOUT (R342, Table 13-10): the bound of the present step passes. Framing goes back to step 1; any other step keeps
the port down. A port that waits for TOPO_SET has no bound. -/
def execLinkUpTimeout (p : Nat) (s : State) : Res :=
  onUnit (fun d => d.hasPort p) (fun d =>
    let q := d.port p
    if !d.ownLinkUp p && 2 ≤ q.step then d
    else match q.step with
      | 0 => if d.mayTrain p then (d.event 0x000F 0 2 p 1 0).haltPort p else d
      | 1 => (d.event 0x000F 0 2 p 2 0).onPort p (fun q => q.drop)
      | 2 => (d.linkRecord 0x0302 p 3).haltPort p
      | 3 => (d.linkRecord 0x0302 p 4).haltPort p
      | 4 =>
        if d.fabric.topoSet then
          ((d.linkRecord 0x0303 p 5).haltPort p).onPort p (fun q => { q with enabled := false })
        else d
      | 5 => (d.event 0x000F 0 2 p 6 0).haltPort p
      | _ => d) s

/-! ### NACKs that arrive (R339) -/

/-- The retained slot of a wall beat and position. -/
def Port.retained (q : Port) (w k : Nat) : Option (List (BitVec 8)) :=
  (q.retain.find? (fun e => e.1 == w && e.2.1 == k)).map (fun e => e.2.2)

/-- A NACK names position k of wall beat w: its slot, or the slot that a repair position re-sent, is to be sent again. -/
def Device.takeNack (d : Device) (p w k : Nat) : Device :=
  let d := d.countPort p 4 1
  let q := d.port p
  let t := match q.resentAt.find? (fun r => r.1 == w && r.2.1 == k) with
    | some r => r.2.2
    | none => (w, k)
  match q.retained t.1 t.2 with
  | some s => if slotGood s then d.onPort p (fun q => { q with resend := q.resend ++ [t] }) else d
  | none => d

/-! ### Control slots (R325, R326, R36, R43, R49, R63, R64) -/

/-- Does the device take the discipline of its edge from port p: its active rootward port, or a shadow's twin port (R49, R506)? -/
def Device.disciplines (d : Device) (p : Nat) : Bool :=
  d.drone.activePort == p && (if d.twin.role = 5 then 32 ≤ p else !d.drone.rootLike && d.treePorts.contains p)

/-- The drone fields of a good control slot (R36, R42, R43, R49). In step 6 of link-up each pair of stamps is a sample of the port's
own d and θ (R342). -/
def Device.ctlDrone (d : Device) (p : Nat) (s : List (BitVec 8)) (stamp : Int) : Device :=
  let q := d.port p
  let valid := decide (ctlHops s ≤ 15) && decide (2 ≤ ctlState s) && decide (ctlState s ≤ 4)
  let paired := ctlStampW s == q.stampW % 2 ^ 16
  let d := if d.disciplines p && paired then { d with drone := d.drone.stamps q.stamp (ctlStamp s) } else d
  let d := d.onPort p (fun q => { q with
    delaySamples := if q.step = 5 && paired then
        ((5 * (ctlStamp s + q.stamp), 5 * (ctlStamp s - q.stamp)) :: q.delaySamples).take 1024
      else q.delaySamples,
    stamp := stamp, stampW := ctlW s % 2 ^ 16, rxHops := ctlHops s, rxState := ctlState s, rxTree := ctlTree s,
    rxValid := valid, rxW := ctlW s, rxS := ctlS s })
  let x := d.drone
  let x := if d.twin.role = 5 && 32 ≤ p then
      { x with
        activePort := if 32 ≤ x.activePort && decide (2 ≤ (d.port x.activePort).step) then x.activePort else p, hops := ctlHops s } else x
  let x := if !x.rootLike && valid && ctlTree s && bitAt x.standbyMask p then { x with useStandby := true } else x
  let x := if x.role == 1 && ctlTree s then
      { x with role := 0, takeover := true, useStandby := true, thetas := [] } else x
  { d with drone := x }

/-- The ledger words of a good control slot (Table 13-3). -/
def Port.ctlLedger (q : Port) (s : List (BitVec 8)) : Port :=
  let put := fun (l : List (Nat × Nat)) (i : Nat) =>
    if i ≤ ctlW s then (ctlW s - i, bits (Machine.ctlLedger s i) 40 8) :: l.filter (fun e => e.1 != ctlW s - i) else l
  { q with rxSent := put (put q.rxSent 1) 2, ctlSeen := insertNew (ctlW s) q.ctlSeen }

/-- Was wall beat v, the present one or an earlier one that the device has counted, a hold beat? -/
def Device.holdWas (d : Device) (v : Nat) : Option Bool :=
  if v = d.beat.w then some d.hold.now
  else if d.hold.since < v && v < d.beat.w && d.beat.w < v + 1048576 then some (d.hold.holdBeats.contains v)
  else none

/-- HOLD_BEAT of a good control slot against the device's own for the same wall beat (R326). For the own next beat it is compared at
the edge. -/
def Device.holdSeen (d : Device) (p v : Nat) (h : Bool) : Device :=
  if v = d.beat.w + 1 then d.onPort p (fun q => { q with holdSeen := some (v, h) })
  else if (d.holdWas v).getD h != h then d.ledgerBreak p v
  else d

/-- A control slot on port p (R325, R326, R338, R341). A slot whose CRC matches but that is no control slot counts as good (R323), and
brings none of the fields of one. A port in link-up steps 2 to 5 carries drone as an up port does (R54; DEDUCED, log 50). -/
def Device.ctlReceive (d : Device) (p : Nat) (s : List (BitVec 8)) (stamp : Int) : Device :=
  let q := d.port p
  if q.step = 0 then d
  else if !ctlGood s then
    let v := q.nbrW.map (· + 1)
    let failed := !slotGood s
    (d.countPort p (if failed then 2 else 1) 1).onPort p (fun q => { q with
      badCtl := if failed then q.badCtl + 1 else 0, goodCtl := 0, nbrW := v, rxPos := 1, rxNonEmptyNow := 0, rxFailedNow := 0,
      rxValid := false,
      badRx := match failed, v with
        | true, some v => bumpAt q.badRx v 1
        | _, _ => q.badRx })
  else
    let was := q.rxState
    let d := (d.countPort p 1 1).onPort p (fun q => { q with
      badCtl := 0, goodCtl := q.goodCtl + 1, nbrW := some (ctlW s), rxPos := 1, rxNonEmptyNow := 0, rxFailedNow := 0 })
    if q.step = 1 then d
    else
      let d := d.ctlDrone p s stamp
      let d := if 32 ≤ p then d.onTwin (fun t => { t with noCtl := 0 }) else d
      let d := d.onPort p (fun q => { q.ctlLedger s with
        ledgerNext := if was = 0 && ctlState s != 0 && q.ledgerNext.isSome then some (ctlW s + 1) else q.ledgerNext })
      let d := if trNackV s then d.takeNack p (nearest 16 (trNackW s) d.beat.w) (trNackPos s) else d
      let d := d.seeVotes p s
      let d := if ctlVote s then d.seeVote p (ctlW s) else d
      let d := if p < 32 then d.releaseOpen p (d.port p).openHeld.length else d
      if q.up && d.beat.aligned && ctlState s != 0 then d.holdSeen p (ctlW s) (ctlHold s) else d

/-- Does the device align at this control slot (R36)? -/
def Device.alignsNow (d : Device) (p : Nat) (s : List (BitVec 8)) : Bool :=
  !d.beat.aligned && ctlGood s && 2 ≤ (d.port p).step && ctlHops s ≤ 15 && 2 ≤ ctlState s && ctlState s ≤ 4
    && (d.ctlReceive p s 0).alignsBy p

/-- A member that aligns takes part in the beat that the control slot names. -/
def Device.alignTo (d : Device) (s : List (BitVec 8)) : Device :=
  let d := d.rebase
  { d with hold := { d.hold with now := ctlHold s }, drone := { d.drone with st := 1 } }

/-- CONTROL_SLOT_RECEIVE (R325): position 0 of the neighbour's wall beat, with its arrival against the own beat edge. -/
def execControlSlotReceive (p : Nat) (slot : List (BitVec 8)) (stamp : Int) (s : State) : Res :=
  if !s.dev.hasPort p then .fault .noSuchUnit
  else if s.dev.alignsNow p slot then
    liftBeat (fun _ => Beat.at (ctlW slot) (ctlS slot)) (fun d => (d.ctlReceive p slot stamp).alignTo slot) s
  else lift (fun d => d.ctlReceive p slot stamp) s

/-! ### Slots that fail (R338, R514) -/

/-- A slot is not accepted: its NACK is pending, and a shadow reports it. -/
def Device.slotFailed (d : Device) (p v k : Nat) : Device :=
  let d := d.onPort p (fun q => { q with nacks := q.nacks ++ [(v, k)] })
  if d.twin.role = 5 && p < 32 then d.twinSend 7 v 0 0xFF (p + k * 2 ^ 6) [] else d

/-! ### Delivery -/

/-- Does a FORWARD entry of the plan in force name position k of port p? -/
def Device.forwards (d : Device) (p k : Nat) : Bool :=
  d.fabric.planOn && d.portNums.any (fun q => (d.port q).inPlan
    && (d.port q).plan.tx.any (fun e => peKind e.toNat == 2 && pePort e.toNat == p && peSlot e.toNat == k))

/-- The messages of a slot with a QUEUE receive entry, with the marks of their words (R289, R332). SENDER is the CORE of the
neighbour's transmit entry, which the receiver's own plan does not hold. -/
def Device.queueSlot (d : Device) (p b k mask : Nat) (payload : List (BitVec 8)) : Device :=
  let d := d.onPort p (fun q => { q with queueSeen := ((b, k) :: q.queueSeen).filter (fun e => b ≤ e.1 + 8) })
  (List.range 7).foldl (fun d i =>
    let blk := slice payload (64 * i) 64
    let a := sendDest blk
    let core := Config.txCore p b k % 256
    if a = 0 || !d.hasCore (rzCore a) || (d.core (rzCore a)).absent then d
    else d.onCore (rzCore a) (fun c => { c with msgIn := c.msgIn ++ [{ Msg.reset with
        desc := stampDesc blk core 0, dev := (d.port p).nbrDev, core := core, mq := bits a 0 7, sendS := b, sched := true,
        pos := 8 * k + i, poison := mask / 2 ^ (8 * i) % 16 }] })) d

/-- The place in hub staging of the slot of schedule beat b and position k of port p: its slip buffer has space for two beats of 224
slots of 512 B (R331; the order within it is a DESIGN CHOICE, log 81). -/
def slipAt (p b k : Nat) : Nat := 0x09000000 + 229376 * p + 512 * (224 * (b % 2) + k)

/-- The bytes of a slot with the marks of its poison mask. -/
def markedBytes (mask : Nat) (bs : List (BitVec 8)) : List (BitVec 8 × Bool) :=
  (List.range bs.length).map (fun i => (nth bs i 0, bitAt mask (i / 8)))

/-- The first good copy of a scheduled slot (R331, R332). -/
def Device.deliverScheduled (d : Device) (p : Nat) (s : List (BitVec 8)) : Device :=
  let b := nearest 32 (trBeat s) d.beat.s
  let k := trSlot s
  if d.gate.e + 2 < b then d.ledgerBreak p (nearest 16 (trSeq s) d.beat.w)
  else
    let e := d.rxEntry p b k
    match peKind e with
    | 1 => ((d.meterFabric (d.planOwner false p b k) 480).stagePut (slipAt p b k)
        (markedBytes (trPoison s) (slotPayload s))).onPort p (fun q => { q with slip := q.slip ++ [(b, k)] })
    | 2 => (d.meterFabric (d.planOwner false p b k) 480).queueSlot p b k (trPoison s) (slotPayload s)
    | _ => if d.forwards p k then d else d.countPort p 6 1

/-- The packet of an open slot that port p received. -/
def openOf (p v k b : Nat) (s : List (BitVec 8)) : Packet :=
  let pay := slotPayload s
  let x : Packet := { Packet.reset with hdr := slice pay 0 32, poison := trPoison s, port := p, v := v, pos := k, beat := b }
  { x with data := slice pay 32 (min 448 x.len) }

/-- A retained slot that port p's failed slot of wall beat w and position k went into is replaced by the good copy (R514). -/
def Device.mendForward (d : Device) (p w k : Nat) (s : List (BitVec 8)) : Device :=
  if !d.fabric.planOn || k < 9 then d
  else d.portNums.foldl (fun d q =>
    if !(d.port q).inPlan then d
    else (List.range 224).foldl (fun d j =>
      let e := (d.port q).plan.txAt 0 j
      if !(peKind e == 2 && pePort e == p && peSlot e == k) then d
      else
        let u := if k ≤ j then w else w + 1
        match (d.port q).retained u j with
        | none => d
        | some old =>
          if slotGood old then d
          else
            let x := mkSlot (slotPayload s) (trBeat s) (trPoison s) j (trKind s) false u (countAt (d.port q).sent u) none 0
            let now := u == d.beat.w
            d.onPort q (fun y => { y with
              retain := y.retain.map (fun r => if r.1 == u && r.2.1 == j then (u, j, x) else r),
              sentNow := if now then y.sentNow + 1 else y.sentNow, sent := if now then y.sent else bumpAt y.sent u 1 })) d) d

/-- A good non-empty slot on an up port p, at position k of the neighbour's wall beat v: the first copy is delivered, a later one
dropped, and a packet for a full FIFO taken as failed (R335, R336, R340). -/
def Device.fileSlot (d : Device) (p v k : Nat) (s : List (BitVec 8)) : Device :=
  let key := (nearest 16 (trSeq s) v, trSlot s)
  if (d.port p).rxGood.contains key then d.countPort p 7 1
  else
    let x := openOf p key.1 key.2 (nearest 32 (trBeat s) d.beat.s) s
    if trKind s = 3 && p < 32 && d.fifoFullFor p x then (d.countPort p 8 1).slotFailed p v k
    else
      let d := d.onPort p (fun q => { q with rxGood := key :: q.rxGood })
      let d := if trRepair s then d.mendForward p key.1 key.2 s else d
      if 32 ≤ p then d
      else if trKind s = 3 then d.fileOpen p x
      else
        let d := d.deliverScheduled p s
        d.releaseOpen p (d.port p).openHeld.length

/-- A slot at a position from 1 on of an up port. A FORWARD entry carries on what stands at the position, but no re-send; of a failed
slot no field is used (R323, R329). -/
def Device.slotUp (d : Device) (p v k : Nat) (s : List (BitVec 8)) : Device :=
  let d := if slotGood s && trRepair s then d else d.onPort p (fun q => { q with rxSlots := q.rxSlots ++ [(v, k, s)] })
  if !slotGood s then
    ((d.countPort p 2 1).onPort p (fun q => { q with rxFailedNow := q.rxFailedNow + 1, badRx := bumpAt q.badRx v 1 })).slotFailed p v k
  else
    let d := (d.countPort p 1 1).seeVotes p s
    let d := if trNackV s then d.takeNack p (nearest 16 (trNackW s) d.beat.w) (trNackPos s) else d
    if trKind s < 2 then d
    else
      let q := d.port p
      let n := trLedger s
      if !trRepair s && (n < q.rxNonEmptyNow || q.rxNonEmptyNow + q.rxFailedNow < n) then d.ledgerBreak p v
      else (d.onPort p (fun q => { q with rxNonEmptyNow := q.rxNonEmptyNow + 1 })).fileSlot p v k s

/-- A slot at a position from 1 on of a port whose link-up goes on: LINK packets are kept in steps 3 and 4. -/
def Device.slotEarly (d : Device) (p v k : Nat) (s : List (BitVec 8)) : Device :=
  if !slotGood s then d.countPort p 2 1
  else
    let d := (d.countPort p 1 1).seeVotes p s
    let x := openOf p v k 0 s
    if trKind s = 3 && x.op = 8 && ((d.port p).step = 2 || (d.port p).step = 3) then
      d.onFabric (fun f => { f with openIn := f.openIn ++ [x] })
    else d

/-- SLOT_RECEIVE (R323, R338): the next position of the neighbour's wall beat, 1 to 223. -/
def execSlotReceive (p : Nat) (slot : List (BitVec 8)) (s : State) : Res :=
  onUnit (fun d => d.hasPort p) (fun d =>
    let q := d.port p
    match q.nbrW with
    | none => d
    | some v =>
      let k := q.rxPos
      if q.step < 2 || k = 0 || 224 ≤ k then d
      else
        let d := d.onPort p (fun q => { q with rxPos := k + 1 })
        if q.up then d.slotUp p v k slot else d.slotEarly p v k slot) s

/-! ### The ledger check (R340) -/

/-- Does the book of the neighbour's wall beat v close? -/
def Port.closes (q : Port) (v : Nat) : Bool :=
  (q.ctlSeen.contains (v + 1) || q.ctlSeen.contains (v + 2))
    && (q.rxGood.filter (fun k => k.1 == v)).length == countAt q.rxSent v

/-- LEDGER_CHECK (R340): at the end of wall beat v + 2, for every v in turn from the one in which the port came up. -/
def execLedgerCheck (p : Nat) (s : State) : Res :=
  onUnit (fun d => d.hasPort p) (fun d =>
    match (d.port p).ledgerNext with
    | none => d
    | some v =>
      if !d.beat.aligned || d.beat.w < v + 3 || ((d.port p).up && (d.port p).rxState = 0) then d
      else if (d.port p).closes v then d.onPort p (fun q => { q with ledgerNext := some (v + 1) })
      else d.ledgerBreak p v) s

/-! ### The slip buffer (R331) -/

/-- SLIP_WRITE (R331, R559): the oldest held slot whose beat has begun leaves the slip buffer. In hub staging it is written at once;
for a core it goes to that core's copy engine, which writes it through its copy groups and then raises its key. A core below
Active is woken first. -/
def execSlipWrite (p : Nat) (s : State) : Res :=
  onUnit (fun d => d.hasPort p) (fun d =>
    match (d.port p).slip.find? (fun x => decide (x.1 ≤ d.gate.e)) with
    | none => d
    | some x =>
      let e := d.rxEntry p x.1 x.2
      let c := peCore e
      let gone := d.onPort p (fun q => { q with slip := q.slip.erase x })
      if peKind e != 1 then gone
      else if c != 0xFF && (d.core c).power.state != 0 then d.forceWake c (d.port p).nbrDev
      else
        let r := gone.stageRead (slipAt p x.1 x.2) 480
        if c = 0xFF then r.2.stageWrite (peAddr e) r.1 else r.2.postSlip c p x.2 e r.1) s

/-! ### Open packets that have arrived (R356, R511) -/

/-- The effect of an open packet at its destination (Table 14-3). -/
def Device.applyOpen (d : Device) (p : Packet) : Device :=
  match p.op with
  | 0 => d.takeWrite false p
  | 1 => d.takeRead false p
  | 2 => if p.srcDev = d.devNum then d.takeOrigin false p else d.takeWrite false p
  | 3 => d.takeKey false p
  | 4 => d.takeMsg p
  | 5 => if p.srcCore = 0xFF then d.hostDone p.tag p.aux else d.takeDone false p
  | 6 => d.takeMgmt p
  | 7 => d.takeHost p
  | _ => d.discardOpen p

/-- The oldest packet delivered to the device, apart from LINK packets, when it has operation op and what it answers has room. -/
def Device.nextOpen (d : Device) (op : Nat) : Option Packet :=
  match d.fabric.openIn.find? (fun p => p.op != 8) with
  | some p => if p.op = op && (op != 1 || d.roomFor (rzDev p.aux)) then some p else none
  | none => none

/-- One packet acts. -/
def Device.openRow (d : Device) (op : Nat) : Device :=
  match d.nextOpen op with
  | none => d
  | some p => (d.onFabric (fun f => { f with openIn := f.openIn.erase p })).applyOpen p

/-- OPEN_WRITE (R356). -/
def execOpenWrite (s : State) : Res := lift (fun d => d.openRow 0) s
/-- OPEN_READ_REQ (R356). -/
def execOpenReadReq (s : State) : Res := lift (fun d => d.openRow 1) s
/-- OPEN_READ_DATA (R356). -/
def execOpenReadData (s : State) : Res := lift (fun d => d.openRow 2) s
/-- OPEN_KEY_ADD (R356, R357). -/
def execOpenKeyAdd (s : State) : Res := lift (fun d => d.openRow 3) s
/-- OPEN_QMSG (R356). -/
def execOpenQmsg (s : State) : Res := lift (fun d => d.openRow 4) s
/-- OPEN_DONE (R356, R474). -/
def execOpenDone (s : State) : Res := lift (fun d => d.openRow 5) s
/-- OPEN_HOST (R474). -/
def execOpenHost (s : State) : Res := lift (fun d => d.openRow 7) s

/-- Does packet p come before q: by v, then incoming port, then position (R511)? -/
def Packet.before (p q : Packet) : Bool :=
  p.v < q.v || (p.v == q.v && (p.port < q.port || (p.port == q.port && p.pos < q.pos)))

/-- Deferred packets in the order of R511. -/
def byPoint (l : List (Nat × Packet)) : List (Nat × Packet) :=
  l.foldl (fun a p => a.takeWhile (fun x => !(p.2.before x.2)) ++ [p] ++ a.dropWhile (fun x => !(p.2.before x.2))) []

/-- OPEN_DEFERRAL_APPLY (R511): the deferred packets that are due before the first bundle of the next schedule beat. -/
def execOpenDeferralApply (s : State) : Res :=
  lift (fun d =>
    let due := d.fabric.deferred.filter (fun e => decide (d.schedOf e.2.v + 4 ≤ d.gate.e + 1))
    (byPoint due).foldl (fun d e =>
      let r := d.takeDeferred e
      r.2.applyOpen r.1) d) s

end Sys2Proof.Machine
end

