-- ==== Sys2Proof/Machine/Transmit.lean ====
section
/-! DEFINITION. Machine/Transmit.lean: what each position of each port carries (R322, R325, R329 to R339), the decisions of a pair
(R515 to R517), and the transmit rows. -/

namespace Sys2Proof.Machine

open Sys2Proof

/-! ### Decision words (Table 22-6), which describe the content of a position in any role -/

/-- SRC. -/
def dwSrc (x : Nat) : Nat := bits x 61 3
/-- BEAT_LOW. -/
def dwBeat (x : Nat) : Nat := bits x 45 16
/-- RPOS. -/
def dwPos (x : Nat) : Nat := bits x 37 8
/-- NACK_V. -/
def dwNackV (x : Nat) : Bool := bitAt x 36
/-- NACK_W. -/
def dwNackW (x : Nat) : Nat := bits x 20 16
/-- NACK_POS. -/
def dwNackPos (x : Nat) : Nat := bits x 12 8
/-- VOTES. -/
def dwVotes (x : Nat) : Nat := bits x 10 2

/-- A decision word. -/
def mkWord (src beat pos : Nat) (nack : Option (Nat × Nat)) (votes : Nat) : Nat :=
  src % 8 * 2 ^ 61 + beat % 2 ^ 16 * 2 ^ 45 + pos % 2 ^ 8 * 2 ^ 37 + votes % 4 * 2 ^ 10
    + (match nack with
      | some (w, p) => 2 ^ 36 + w % 2 ^ 16 * 2 ^ 20 + p % 2 ^ 8 * 2 ^ 12
      | none => 0)

/-- The same decision with nothing to carry. -/
def emptied (x : Nat) : Nat := bits x 10 27 * 2 ^ 10

/-! ### Choosing (R330, R333, R338, R339) -/

/-- Is a NACK still to be sent in wall beat w (R338)? -/
def Port.nackLive (q : Port) (w : Nat) (n : Nat × Nat) : Bool :=
  !q.nackSent.contains n && decide (w ≤ n.1 + 2)
    && !(9 ≤ n.2 && q.rxGood.contains n)
    && (match q.rxSent.find? (fun e => e.1 == n.1) with
        | some e => (q.rxGood.filter (fun k => k.1 == n.1)).length != e.2
        | none => true)

/-- The next re-send that is still retained. -/
def Port.nextResend (q : Port) : Option (Nat × Nat) :=
  q.resend.find? (fun r => match q.retained r.1 r.2 with
    | some s => slotGood s
    | none => false)

/-- Has the shadow's READY come with the CRC of the primary's data (R515)? -/
def Device.readyFor (d : Device) (p k beat crc : Nat) : Bool :=
  d.twin.role != 4 || d.twin.readyIn.any (fun r => r.1 == p && r.2.1 == k && r.2.2.1 == beat && r.2.2.2 == crc)

/-- CRC of READY for a packet of the local-origin FIFO. -/
def Packet.readyCrc (x : Packet) : Nat := Machine.readyCrc x.payload x.poison

/-- The slot that a FORWARD entry names for position k of wall beat w: of the same wall beat when it lies earlier, else of the one
before (R329). -/
def Device.forwardSlot (d : Device) (e w k : Nat) : Option (List (BitVec 8)) :=
  let j := peSlot e
  let v := if j ≤ k then w else w - 1
  ((d.port (pePort e)).rxSlots.find? (fun r => r.1 == v && r.2.1 == j)).map (fun r => r.2.2)

/-- Has a FORWARD entry data to carry? A primary decides before the slot has come, and counts every entry as one that has. -/
def Device.forwardHas (d : Device) (e w k : Nat) : Bool :=
  d.twin.role == 4 || (match d.forwardSlot e w k with
    | some s => !(slotGood s && trKind s == 0)
    | none => false)

/-- Is wall beat w, the present one or the next, a hold beat as far as the device knows? -/
def Device.holdIn (d : Device) (w : Nat) : Bool := if w = d.beat.w then d.hold.now else d.holdAt w

/-- The content of position k of port p in wall beat w, for a port whose queues are those of q: SRC, BEAT_LOW and RPOS. -/
def Device.choose (d : Device) (p : Nat) (q : Port) (w k : Nat) : Nat × Nat × Nat :=
  let re := match q.nextResend with
    | some r => (5, r.1, r.2)
    | none => (0, 0, 0)
  if !q.up || k = 0 then (0, 0, 0)
  else if k ≤ 8 then re
  else if 32 ≤ p then (0, 0, 0)
  else
    let spare := if d.holdIn w then re else (0, 0, 0)
    let e := d.txEntry p d.beat.s k
    match peKind e with
    | 2 => if d.forwardHas e w k then (2, 0, 0) else spare
    | 3 =>
      match Sparse.get [] q.fifos (pePort e) with
      | [] => spare
      | x :: _ =>
        if pePort e != 63 then (4, 0, 0)
        else if d.readyFor p 0 x.v x.readyCrc then (3, 0, 0) else spare
    | _ =>
      match q.outbox.find? (fun o => o.1 == k) with
      | some o => if d.readyFor p k o.2.1 (readyCrc o.2.2.1 o.2.2.2) then (1, o.2.1, 0) else spare
      | none => spare

/-- The decision word of a position. -/
def Device.decideWord (d : Device) (p : Nat) (q : Port) (w k : Nat) : Nat :=
  let c := d.choose p q w k
  mkWord c.1 c.2.1 c.2.2 (if c.1 = 5 then none else q.nacks.find? (q.nackLive w)) (d.votesIn w)

/-- What a decided position takes from the queues of its port; e is its transmit entry. -/
def Port.consume (q : Port) (e k x : Nat) : Port :=
  let q := if dwNackV x && dwSrc x != 5 then
      match q.nacks.find? (fun n => n.1 % 2 ^ 16 == dwNackW x && n.2 == dwNackPos x) with
      | some n => { q with nackSent := n :: q.nackSent }
      | none => q
    else q
  match dwSrc x with
  | 1 =>
    match q.outbox.find? (fun o => o.1 == k && o.2.1 % 2 ^ 16 == dwBeat x) with
    | some o => { q with outbox := q.outbox.erase o }
    | none => q
  | 3 => { q with fifos := Sparse.upd [] q.fifos 63 (fun l => l.drop 1) }.feed
  | 4 => { q with fifos := Sparse.upd [] q.fifos (pePort e) (fun l => l.drop 1) }
  | 5 =>
    match q.resend.find? (fun r => r.1 % 2 ^ 16 == dwBeat x && r.2 == dwPos x) with
    | some r => { q with resend := q.resend.erase r }
    | none => q
  | _ => q

/-! ### Decisions of a pair (R516) -/

/-- The decision held for a position. -/
def Device.decisionAt (d : Device) (p w k : Nat) : Option Nat :=
  (d.twin.decisions.find? (fun x => x.port == p && x.w == w && x.pos == k)).map (fun x => x.word.toNat)

/-- Hold a decision. -/
def Device.holdDecision (d : Device) (p w k x : Nat) : Device :=
  let new : Decision := { port := p, w := w, pos := k, word := BitVec.ofNat 64 x }
  let keep := fun (y : Decision) => !(y.port == p && y.w == w && y.pos == k) && decide (d.beat.w ≤ y.w + 1)
  d.onTwin (fun t => { t with decisions := new :: t.decisions.filter keep })

/-- Send the DECIDE of positions g to g + 15. -/
def Device.sendGroup (d : Device) (p w g : Nat) : Device :=
  d.twinSend 1 w 0 0xFF (p + g * 2 ^ 6) ((List.range 16).flatMap (fun i => leBytes 8 ((d.decisionAt p w (g + i)).getD 0)))

/-- The port as it will stand once every position decided and not yet sent has gone. -/
def Device.afterDecided (d : Device) (p : Nat) : Port :=
  let q := d.port p
  let go := fun (w : Nat) (from_ : Nat) (q : Port) => ((List.range 224).filter (fun k => from_ ≤ k)).foldl (fun q k =>
    match d.decisionAt p w k with
    | some x => q.consume (d.txEntry p d.beat.s k) k x
    | none => q) q
  let now := go d.beat.w q.txPos q
  go (d.beat.w + 1) 0 { now with nackSent := [] }

/-- Decide positions g to g + 15 of wall beat w, and send the DECIDE. -/
def Device.decideGroup (d : Device) (p w g : Nat) : Device :=
  let r := (List.range 16).foldl (fun (r : Device × Port) i =>
    let x := r.1.decideWord p r.2 w (g + i)
    (r.1.holdDecision p w (g + i) x, r.2.consume (d.txEntry p d.beat.s (g + i)) (g + i) x)) (d, d.afterDecided p)
  r.1.sendGroup p w g

/-- After position k a primary decides the positions from k + 13 on, when those begin a group. -/
def Device.decideAhead (d : Device) (p k : Nat) : Device :=
  if d.twin.role = 4 && p < 32 && (k + 13) % 16 = 0 then
    if k + 13 < 224 then d.decideGroup p d.beat.w (k + 13) else d.decideGroup p (d.beat.w + 1) 0
  else d

/-- A decision with the votes that the device knows by now (R341). -/
def Device.voted (d : Device) (x : Nat) : Nat := setBits x 10 2 (Nat.lor (dwVotes x) d.votesNow)

/-- The word by which a position goes out: a primary sends what the shadow has acknowledged, and corrects the rest, as it does where
it has learnt of a vote since (R341; DEDUCED, log 84); a shadow builds what was decided, and so does a package that has just become
SOLO, with the votes it knows; any other package decides now (R516, R517, R524). -/
def Device.wordFor (d : Device) (p k : Nat) : Nat × Device :=
  let w := d.beat.w
  let held := d.decisionAt p w k
  if 32 ≤ p then (d.decideWord p (d.port p) w k, d)
  else if d.twin.role = 4 then
    let x := held.getD 0
    let y := d.voted x
    let z := if dwSrc y = 0 || d.twin.acks.contains (p, w, k / 16 * 16) then y else emptied y
    (z, if z = x then d else (d.holdDecision p w k z).sendGroup p w (k / 16 * 16))
  else if d.twin.role = 5 then
    match held with
    | some x => (x, d)
    | none => (0, if k % 16 = 0 && (d.port p).up then d.onTwin (fun t => { t with missDecide := t.missDecide + 1 }) else d)
  else
    match held with
    | some x => (d.voted x, d)
    | none => (d.decideWord p (d.port p) w k, d)

/-! ### Sending (R322, R337, R339) -/

/-- Put a slot that is first sent now on the line of port p, and retain it when it carries something. -/
def Device.sendNew (d : Device) (p k x : Nat) (payload : List (BitVec 8)) (beat poison kind : Nat) : Device :=
  let q := d.port p
  let w := d.beat.w
  let nack := if dwNackV x then some (dwNackW x, dwNackPos x) else none
  let s := mkSlot payload beat poison k kind false w (q.sentNow + countAt q.repairedNow w) nack (dwVotes x)
  let some_ := kind != 0
  (d.countPort p 0 (b2n some_)).onPort p (fun q => { q with
    txOut := s, sentNow := q.sentNow + b2n some_, retain := if some_ then q.retain ++ [(w, k, s)] else q.retain })

/-- Send an empty slot; a LOCAL entry without ready data counts in ABSENT (R322, R330). -/
def Device.sendEmpty (d : Device) (p k x : Nat) : Device :=
  let d := d.sendNew p k x [] d.beat.s 0 0
  if (d.port p).up && peKind (d.txEntry p d.beat.s k) = 1 then
    (d.countPort p 5 1).onPort p (fun q => { q with absentNow := bumpAt q.absentNow d.beat.w 1 })
  else d

/-- Send a failed slot on as it came: it fails at the next port too, until its good copy replaces it. -/
def Device.sendFailed (d : Device) (p k : Nat) (s : List (BitVec 8)) : Device :=
  d.onPort p (fun q => { q with txOut := s, retain := q.retain ++ [(d.beat.w, k, s)] })

/-- Send a retained slot again at position k. -/
def Device.sendAgain (d : Device) (p k u j : Nat) (s : List (BitVec 8)) : Device :=
  let w := d.beat.w
  ((d.countPort p 0 1).countPort p 3 1).onPort p (fun q => { q with
    txOut := asRepair s, repairedNow := bumpAt q.repairedNow w 1, resentAt := q.resentAt ++ [(w, k, u, j)] })

/-- Position k of port p goes out by its decision word (R329, R330, R333, R339). -/
def Device.emit (d : Device) (p k x : Nat) : Device :=
  let q := d.port p
  let e := d.txEntry p d.beat.s k
  let d1 := d.onPort p (fun q => q.consume e k x)
  match dwSrc x with
  | 1 =>
    match q.outbox.find? (fun o => o.1 == k && o.2.1 % 2 ^ 16 == dwBeat x) with
    | some o => (d1.meterFabric (d.planOwner true p o.2.1 k) 480).sendNew p k x o.2.2.1 o.2.1 o.2.2.2 2
    | none => d1.sendEmpty p k x
  | 2 =>
    match d.forwardSlot e d.beat.w k with
    | some s =>
      if !slotGood s then d1.sendFailed p k s
      else if trKind s = 0 then d1.sendEmpty p k x
      else d1.sendNew p k x (slotPayload s) (trBeat s) (trPoison s) (trKind s)
    | none => d1.sendEmpty p k x
  | 3 =>
    match Sparse.get [] q.fifos 63 with
    | y :: _ => d1.sendNew p k x y.payload d.beat.s y.poison 3
    | [] => d1.sendEmpty p k x
  | 4 =>
    match Sparse.get [] q.fifos (pePort e) with
    | y :: _ => d1.sendNew p k x y.payload d.beat.s y.poison 3
    | [] => d1.sendEmpty p k x
  | 5 =>
    let u := nearest 16 (dwBeat x) d.beat.w
    match q.retained u (dwPos x) with
    | some s => d1.sendAgain p k u (dwPos x) s
    | none => d1.sendEmpty p k x
  | _ => d1.sendEmpty p k x

/-- A QMSG that leaves the device completes its send (R305). -/
def Device.sendsDone (d : Device) (p k x : Nat) : Device :=
  if dwSrc x = 3 then
    match Sparse.get [] (d.port p).fifos 63 with
    | y :: _ =>
      if y.op = 4 && y.srcDev = d.devNum then
        (d.emit p k x).onCore y.srcCore (fun c => { c with sends := c.sends.filter (· != y.tag) })
      else d.emit p k x
    | [] => d.emit p k x
  else d.emit p k x

/-! ### The copy of an attach (R532) -/

/-- The address of byte n of that pass: in scratchpad, staging or DRAM, as a Rinaz address of device 0. -/
def Device.copyAddr (d : Device) (n : Nat) : Nat :=
  let spads := d.grade.cores * spadBytes
  if n < spads then rzMake 0 0 (n / spadBytes * 2 ^ 40 + n % spadBytes)
  else if n < spads + 0x10000000 then rzMake 0 2 (n - spads)
  else
    let m := n - spads - 0x10000000
    rzMake 0 1 (nth d.gradeStacks (m / stackBytes) 0 * stackBytes + m % stackBytes)

/-- Bytes of state at a Rinaz address of device 0. -/
def Device.stateBytesAt (d : Device) (a n : Nat) : List (BitVec 8) :=
  match rzSpace a with
  | 0 => Sparse.getMany 0 (d.core (rzCore a)).spad.bytes (rzCoreOff a) n
  | 1 => Sparse.getMany 0 d.dram.bytes (rzOff a) n
  | _ => Sparse.getMany 0 d.staging.bytes (rzOff a) n

/-- Send COPY records for n bytes at an address, at most 2,048 B of state in each. -/
def Device.sendCopies (d : Device) (a n : Nat) : Device :=
  (List.range ((n + 2047) / 2048)).foldl (fun d i =>
    d.twinSend 0x0C d.beat.w 0 0xFF 0 (leBytes 8 (a + 2048 * i) ++ d.stateBytesAt (a + 2048 * i) (min 2048 (n - 2048 * i)))) d

/-- The next piece of an attach: of the first pass, then of what has been written since. -/
def Device.copyNext (d : Device) : Device :=
  if d.twin.role != 2 || d.twin.outbox != [] then d
  else if d.twin.copyAt < d.copyTotal then
    (d.sendCopies (d.copyAddr d.twin.copyAt) 2048).onTwin (fun t => { t with copyAt := t.copyAt + 2048 })
  else
    match d.twin.dirty with
    | x :: rest => (d.onTwin (fun t => { t with dirty := rest })).sendCopies (dirtyAt x).1 (dirtyAt x).2
    | [] => d

/-- The next 480 bytes of the twin stream, while a pair is formed or an attach runs (R505). -/
def Device.streamSlot (d : Device) (p k x : Nat) : Device :=
  let d := d.copyNext
  let bytes := d.twin.outbox.flatten
  if 2 ≤ d.twin.role && d.twin.role ≤ 5 && bytes != [] then
    let rest := bytes.drop 480
    (d.onTwin (fun t => { t with outbox := if rest == [] then [] else [rest] })).sendNew p k x (bytes.take 480) d.beat.s 0 2
  else d.sendEmpty p k x

/-- What the LINK packets of port p carry: the hello, and once the neighbour's has come the own signature with it (R342). -/
def Device.linkBytes (d : Device) (p : Nat) : List (BitVec 8) :=
  let q := d.port p
  Config.linkPacket [4, d.devNum, p, d.twin.role, d.grade.code, d.ident.stepping] q.nonce (Config.certChain d.ident.serial)
    (if q.step = 2 then [] else Config.deviceSign (d.linkDigest p true))

/-- A LINK packet, at position 9 (R342): the next 448 B of what they carry, over and over, numbered in TAG (log 10). -/
def Device.linkSlot (d : Device) (p k x : Nat) : Device :=
  let all := d.linkBytes p
  let n := max 1 ((all.length + 447) / 448)
  let i := (d.port p).linkOut % n
  let data := (all.drop (448 * i)).take 448
  let h := mkHdr 0 0 d.devNum 0xFF 8 data.length i (i + 1 == n) 0 0 16
  let pk : Packet := { Packet.reset with hdr := h, data := data }
  (d.onPort p (fun q => { q with linkOut := (i + 1) % n })).sendNew p k x pk.payload d.beat.s 0 3

/-- Does the package drive, or as a shadow build, the slots of port p (Table 22-1, R506, R517)? -/
def Device.transmits (d : Device) (p : Nat) : Bool :=
  1 ≤ (d.port p).step
    && (if 32 ≤ p then d.twin.role != 6 else d.twin.role == 0 || d.twin.role == 2 || d.twin.role == 4 || d.twin.role == 5)

/-- Send position k, from 1 on, of port p. -/
def Device.sendPos (d : Device) (p k : Nat) : Device :=
  let (x, d) := d.wordFor p k
  let d :=
    if (d.port p).up then (if 32 ≤ p && 9 ≤ k then d.onPort p (fun q => q.consume 0 k x) |>.streamSlot p k x else d.sendsDone p k x)
    else if k = 9 && 2 ≤ (d.port p).step then d.linkSlot p k x
    else d.sendEmpty p k x
  (d.onPort p (fun q => { q with txPos := k + 1 })).decideAhead p k

/-- SLOT_TRANSMIT (R322, R330): the next position of port p, 1 to 223. -/
def execSlotTransmit (p : Nat) (s : State) : Res :=
  onUnit (fun d => d.hasPort p) (fun d =>
    let k := (d.port p).txPos
    if d.transmits p && 1 ≤ k && k < 224 then d.sendPos p k else d) s

/-- CONTROL_SLOT_TRANSMIT (R33, R325): position 0, on a port that has completed training. -/
def execControlSlotTransmit (p : Nat) (s : State) : Res :=
  onUnit (fun d => d.hasPort p) (fun d =>
    if d.transmits p && (d.port p).txPos = 0 then
      let (x, d) := d.wordFor p 0
      let nack := if dwNackV x then some (dwNackW x, dwNackPos x) else none
      let slot := mkSlot (d.ctlPayload p) d.beat.s 0 0 1 false d.beat.w 0 nack (dwVotes x)
      let d := (d.countPort p 0 1).onPort p (fun q => { q.consume 0 0 x with txOut := slot, txPos := 1 })
      d.decideAhead p 0
    else d) s

/-- REPAIR_RESEND (R339): the next position of port p is a repair position, and a re-send is pending. -/
def execRepairResend (p : Nat) (s : State) : Res :=
  onUnit (fun d => d.hasPort p) (fun d =>
    let k := (d.port p).txPos
    if d.transmits p && 1 ≤ k && k < 224 && (d.port p).nextResend.isSome && (k ≤ 8 || d.hold.now) then d.sendPos p k
    else d) s

end Sys2Proof.Machine
end

