-- ==== Sys2Proof/Machine/HostRegs.lean ====
section
/-! DEFINITION. Machine/HostRegs.lean: host writes to BAR0 (R447 to R450, R459, R464), BAR2 (R273) and mailbox 15 over SMBus (R465),
and the start, order and completion of commands (R451 to R461). -/

namespace Sys2Proof.Machine

open Sys2Proof

/-! ### Mailboxes and windows as the host sees them -/

/-- Does the Chanter serve mailboxes (R491, R492, R497)? -/
def Device.serves (d : Device) : Bool := d.boot.phase == .running || d.boot.phase == .recovery

/-- Does the host reach BAR0 and BAR2: the Chanter serves, and the host link is up? -/
def Device.hostReaches (d : Device) : Bool := d.serves && d.host.linkUp

/-- A PCIe configuration request is answered with Configuration Request Retry Status until the Chanter serves (R497). -/
def Device.configRetry (d : Device) : Bool := !d.serves

/-- What a configuration read of the Interrupt Pin register returns: 0x00, or none for the retry status (R445, R497). -/
def Device.interruptPin (d : Device) : Option (BitVec 8) := if d.configRetry then none else some 0x00

/-- Is a capability in the function's list, by its PCI identity: MSI is 0x05 and MSI-X 0x11, and neither is (R445). Of other
capabilities the spec says nothing. -/
def pcieCapability (id : Nat) : Option Bool := if id = 0x05 || id = 0x11 then some false else none

/-- Is an access of R447 taken: 4 or 8 bytes, at an offset aligned to its size? -/
def accessOk (off size : Nat) : Bool := (size == 4 || size == 8) && off % size == 0

/-- A value of R447 stored in a register of 8 B, by an access of `size` bytes at byte `at_` of the register. -/
def mergeReg (old at_ size val : Nat) : Nat := setBits (old % 2 ^ 64) (8 * at_) (8 * size) val % 2 ^ 64

/-- Change a mailbox of BAR0, or a relay window: 12 and 13. -/
def Device.onBox (d : Device) (n : Nat) (f : Mbx → Mbx) : Device := if n < 12 then d.onMbx n f else d.onWindow n f

/-- A mailbox of BAR0, or a relay window. -/
def Device.box (d : Device) (n : Nat) : Mbx := if n < 12 then d.mbx n else d.window n

/-! ### SUBMIT (R450, R451, R464) -/

/-- The command area as a SUBMIT captures it. -/
def Mbx.captured (m : Mbx) : List Host.Cell := m.area.filter (fun e => e.1 < 0x800)

/-- A SUBMIT of 64 bits reaches mailbox mb of the host driver or the service controller. -/
def Device.submitTo (d : Device) (mb v : Nat) : Device :=
  let m := d.mbx mb
  if !bitAt v 0 then d
  else if m.busy then d.countHub 10 1
  else
    let cells := m.captured
    if bits (leNat (Sparse.getMany 0 cells 0 64)) 416 32 != bits v 32 32 then d.torn mb cells
    else d.accept mb cells none

/-- The body lengths that R613 gives a CODE; none for a CODE that is not in Table 20-12. -/
def bodyLens (code count : Nat) : List Nat :=
  if code = 0x01 then [0]
  else if code = 0x02 then [roundUp (8 + count) 8]
  else if [0x23, 0x30, 0x32, 0x40, 0x41, 0x51, 0x52, 0x11, 0x61].contains code then [8]
  else if [0x03, 0x10, 0x21, 0x22, 0x25, 0x31, 0x42, 0x60].contains code then [16]
  else if [0x04, 0x20, 0x24, 0x44].contains code then [24]
  else if [0x43, 0x62, 0x50].contains code then [32]
  else if code = 0x45 then [48]
  else []

/-- Does a captured header break R12, or its BODY_LEN R451 and R613? The relay windows and mailboxes 12 to 14 may name a TARGET.
Reserved bytes of the body are ignored (R12). -/
def Mbx.layoutBad (m : Mbx) (target : Bool) : Bool :=
  let count := m.body 0 1
  m.hdrReserved || (!target && m.target != 0) || !(bodyLens m.hCode count).contains m.bodyLen

/-- A relay window has a command: PENDING, with what the header says. The arrival beat at the target is not told to the window: one
with STAMP_BEAT 0 takes that of its own SUBMIT (DESIGN CHOICE, log 31). -/
def Device.windowPend (d : Device) (w : Nat) (cells : List Host.Cell) : Device :=
  d.onWindow w (fun m =>
    let m := { m with cmd := cells }
    { m with seq := m.hSeq, code := m.hCode, st := 1, status := 0, trunc := false, detail := 0, resultLen := 0, doneW := 0,
             result := [], b := if m.stampBeat = 0 then d.arrivalBeat else m.stampBeat, ran := false })

/-- A relay window's command is done at once with a status of the local part. -/
def Device.windowFail (d : Device) (w status detail : Nat) : Device :=
  (d.onWindow w (fun m => { m with status := status, detail := detail, doneW := d.beat.w })).windowDone w

/-- A SUBMIT of 64 bits reaches relay window w (R464). -/
def Device.submitRelay (d : Device) (w v : Nat) : Device :=
  let m := d.window w
  if !bitAt v 0 then d
  else if m.busy then d.countHub 10 1
  else
    let cells := m.captured
    let d := d.windowPend w cells
    let m := d.window w
    if m.hSeq != bits v 32 32 then d.windowFail w 3 8
    else if m.layoutBad true then d.windowFail w 4 7
    else
      let bytes := Sparse.getMany 0 cells 0 (0x40 + m.bodyLen)
      if m.target = d.devNum then d.takePiece w d.devNum 0 bytes true
      else d.mgmtPieces m.target w false 0 bytes

/-- A write to SUBMIT: 8 bytes, or 4 bytes of its low half with the high half as last written (R450). -/
def Device.submitVal (d : Device) (n size val : Nat) : Nat :=
  if size = 8 then val % 2 ^ 64 else (d.box n).submitHi * 2 ^ 32 + val % 2 ^ 32

/-- The high half of SUBMIT that a write leaves: an 8 B write with bit 0 equal to 0, and one that is dropped, write nothing. -/
def Device.keepHi (d : Device) (n size val : Nat) : Device :=
  if size = 8 && bitAt val 0 && !(d.box n).busy then d.onBox n (fun m => { m with submitHi := bits val 32 32 }) else d

/-- A write to SUBMIT of mailbox or window n. -/
def Device.writeSubmit (d : Device) (n size val : Nat) : Device :=
  let v := d.submitVal n size val
  let d := d.keepHi n size val
  if n < 12 then d.submitTo n v else d.submitRelay n v

/-- Does a write to SUBMIT abandon window w: it is PENDING or STARTED, and bit 1 and the SEQ say so (R464)? -/
def Device.abandons (d : Device) (w v : Nat) : Bool :=
  (d.window w).busy && bitAt v 0 && bitAt v 1 && bits v 32 32 == (d.window w).seq

/-- The window becomes EMPTY. Responses for its SEQ find no busy window, or another SEQ, and are discarded. -/
def Device.abandon (d : Device) (w : Nat) : Device :=
  (d.onWindow w (fun m => { m with st := 0, status := 0, ran := false, result := [], resultLen := 0, detail := 0, doneW := 0 })).dropHeld
    (.window w)

/-- A SUBMIT write that abandons window w is taken: its high half stays, and the window becomes EMPTY. -/
def Device.abandonBy (d : Device) (w size val : Nat) : Device :=
  let d := d.abandon w
  d.keepHi w size val

/-- SUBMIT (R450, R464). -/
def execSubmit (win size val : Nat) (s : State) : Res :=
  onUnit (fun _ => win < 14) (fun d =>
    if d.hostReaches && (size == 4 || size == 8) then
      if 12 ≤ win && d.abandons win (d.submitVal win size val) then d.abandonBy win size val
      else d.writeSubmit win size val
    else d) s

/-- RELAY_ABANDON (R464). -/
def execRelayAbandon (win size val : Nat) (s : State) : Res :=
  onUnit (fun _ => win == 12 || win == 13) (fun d =>
    if d.hostReaches && (size == 4 || size == 8) && d.abandons win (d.submitVal win size val) then
      d.abandonBy win size val
    else d) s

/-! ### The completion ring registers (R459) -/

/-- A write to RING_BASE, RING_SIZE or RING_CTRL. When ENABLE goes to 0, the entries that are still held are dropped. -/
def Ring.config (r : Ring) (off size val : Nat) : Ring :=
  let at_ := off % 8
  match off / 8 * 8 with
  | 0xE038 =>
    let v := mergeReg r.base at_ size val
    if !r.enable && v % 4096 = 0 then { r with base := v } else r
  | 0xE040 =>
    let v := mergeReg r.size at_ size val
    if !r.enable && 64 ≤ v && v ≤ 65536 && 2 ^ Nat.log2 v == v then { r with size := v } else r
  | 0xE048 =>
    let on := bitAt (mergeReg (b2n r.enable) at_ size val) 0
    if on && !r.enable then
      if r.size = 0 then r else { r with enable := true, head := 0, tail := 0, used := 0, phase := true, waiting := [] }
    else if !on then { r with enable := false, waiting := [] }
    else r
  | _ => r

/-- A write to RING_HEAD. -/
def Ring.setHead (r : Ring) (at_ size val : Nat) : Ring :=
  let v := mergeReg r.head at_ size val
  let adv := (v + r.size - r.head) % max 1 r.size
  if r.enable && v < r.size && adv ≤ r.used then { r with head := v, used := r.used - adv } else r

/-- A write to a ring control: the entries that it drops wait for the host link no longer. -/
def Device.ringConfig (d : Device) (off size val : Nat) : Device :=
  let d := d.onHub (fun h => { h with ring := h.ring.config off size val })
  if d.hub.ring.waiting == [] then d.dropHeld .entry else d

/-- RING_CONFIG_WRITE (R459). -/
def execRingConfigWrite (off size val : Nat) (s : State) : Res :=
  lift (fun d => if d.hostReaches && accessOk off size then d.ringConfig off size val else d) s

/-- RING_HEAD_WRITE (R459). -/
def execRingHeadWrite (size val : Nat) (s : State) : Res :=
  lift (fun d =>
    if d.hostReaches && (size == 4 || size == 8) then d.onHub (fun h => { h with ring := h.ring.setHead 0 size val }) else d) s

/-- RING_ENTRY_WRITE (R459, R87). -/
def execRingEntryWrite (s : State) : Res := lift (fun d => d.ringFlush) s

/-! ### Other registers (R447, R448, Tables 2-6, 15-5) -/

/-- A W1C write to DRONE_STATUS or HOLD_STATUS: the ones written, as 64 bits. -/
def Device.writeOnes (d : Device) (reg ones : Nat) : Device :=
  if reg = 0xE018 then
    { d with drone := { d.drone with
      mismatch := d.drone.mismatch && !bitAt ones 40, takeover := d.drone.takeover && !bitAt ones 23 } }
  else if reg = 0xE020 then { d with hold := { d.hold with stormSeen := d.hold.stormSeen && !bitAt ones 42 } }
  else d

/-- REGISTER_WRITE (R447, R448, R450): the command area, the high half of SUBMIT and W1C bits; a write to a register with a row of
its own acts as that row says; every other write is dropped. -/
def execRegisterWrite (off size val : Nat) (s : State) : Res :=
  lift (fun d =>
    if !(d.hostReaches && accessOk off size) then d
    else if off < 0xE000 then
      let n := off / 0x1000
      let o := off % 0x1000
      if o < 0x800 then d.onBox n (fun m => { m with area := Sparse.setMany 0 m.area o (leBytes size val) })
      else if o = 0x804 then d.onBox n (fun m => { m with submitHi := val % 2 ^ 32 })
      else if o = 0x800 then
        if 12 ≤ n && d.abandons n (d.submitVal n size val) then d.abandonBy n size val else d.writeSubmit n size val
      else d
    else if 0xE038 ≤ off && off < 0xE050 then d.ringConfig off size val
    else if 0xE050 ≤ off && off < 0xE058 then d.onHub (fun h => { h with ring := h.ring.setHead (off % 8) size val })
    else d.writeOnes (off / 8 * 8) (val % 2 ^ (8 * size) * 2 ^ (8 * (off % 8)))) s

/-! ### BAR2 (R273, R437, R510) -/

/-- Does a byte of a host write take effect: in task staging, in no window of a task in replay, and not under a recovery stream,
whose write paths are those to the frame buffer and the flash (R491)? -/
def Device.bar2Lands (d : Device) (a : Nat) : Bool := d.writesOn && a < 0x9000000 && !d.hostBarred 2 a 1

/-- The runs of bytes that take effect, from their addresses. -/
def bar2Runs (lands : Nat → Bool) (a : Nat) (data : List (BitVec 8)) : List (Nat × List (BitVec 8)) :=
  match data with
  | [] => []
  | b :: rest =>
    let more := bar2Runs lands (a + 1) rest
    if !lands a then more
    else match more with
      | (x, bs) :: tl => if x = a + 1 then (a, b :: bs) :: tl else (a, [b]) :: (x, bs) :: tl
      | [] => [(a, [b])]

/-- BAR2_WRITE (R273): one PCIe memory write request. A host write to a shadow is no host write of the pair (R510). -/
def execBar2Write (off : Nat) (data : List (BitVec 8)) (s : State) : Res :=
  lift (fun d =>
    if !d.hostReaches || d.twin.role = 5 then d
    else
      let lost := (List.range data.length).any (fun i => !d.bar2Lands (off + i))
      let d := (bar2Runs d.bar2Lands off data).foldl (fun d r =>
        (List.range ((r.2.length + 2047) / 2048)).foldl (fun d i =>
          d.hostInput 2 (r.1 + 2048 * i) ((r.2.drop (2048 * i)).take 2048)) d) d
      d.countHub 8 (b2n lost)) s

/-! ### Mailbox 15 (R465) -/

/-- Does mailbox 15 answer on SMBus: in boot halt too (R492)? -/
def Device.smbServes (d : Device) : Bool := d.serves || d.boot.phase == .halt

/-- SMB_SET_POINTER (R465). -/
def execSmbSetPointer (pecOk : Bool) (ptr : Nat) (s : State) : Res :=
  lift (fun d => if pecOk && d.smbServes then d.onHub (fun h => { h with smbPtr := ptr % 4096 }) else d) s

/-- One byte written at the pointer: the command area, or SUBMIT, which is complete with its last byte. -/
def Device.smbByte (d : Device) (b : BitVec 8) : Device :=
  let o := d.hub.smbPtr
  let d := d.onHub (fun h => { h with smbPtr := (o + 1) % 4096 })
  if o < 0x808 then
    let d := d.onMbx 15 (fun m => { m with area := Sparse.set 0 m.area o b })
    if o = 0x807 then d.submitTo 15 (leNat (Sparse.getMany 0 (d.mbx 15).area 0x800 8)) else d
  else d

/-- SMB_BLOCK_WRITE (R465): 1 to 32 bytes. -/
def execSmbBlockWrite (pecOk : Bool) (data : List (BitVec 8)) (s : State) : Res :=
  lift (fun d =>
    if pecOk && d.smbServes && 1 ≤ data.length && data.length ≤ 32 then data.foldl (fun d b => d.smbByte b) d else d) s

/-- A byte of a mailbox as it reads (Table 20-3). -/
def Mbx.readByte (m : Mbx) (o : Nat) : BitVec 8 :=
  if o < 0x800 then Sparse.get 0 m.area o
  else if 0x808 ≤ o && o < 0x828 then nth m.statusBytes (o - 0x808) 0
  else if 0x840 ≤ o then nth m.result (o - 0x840) 0
  else 0

/-- SMB_BLOCK_READ (R465): 32 bytes at the pointer. -/
def execSmbBlockRead (pecOk : Bool) (s : State) : Res :=
  lift (fun d =>
    if pecOk && d.smbServes then
      let o := d.hub.smbPtr
      let bs := (List.range 32).map (fun i => (d.mbx 15).readByte ((o + i) % 4096))
      { d.onHub (fun h => { h with smbPtr := (o + 32) % 4096 }) with host := { d.host with smbOut := bs } }
    else d) s

/-! ### What a command needs (R454, Table 20-12) -/

/-- Do two sets of objects exclude each other? -/
def clash (a b : List Nat) : Bool :=
  a.any (fun x => b.any (fun y => (x == y && x != 10) || (x == 8 && y == 10) || (x == 10 && y == 8)))

/-- The issuers of a CODE as a mask: 1 host, 2 manager, 4 twin, 8 service (Table 20-12). -/
def issuersOf (code : Nat) : Nat :=
  if [0x01, 0x02, 0x41, 0x42].contains code then 15
  else if [0x03, 0x10, 0x52].contains code then 1
  else if code = 0x11 then 9
  else if code = 0x50 || code = 0x51 then 11
  else if code = 0x60 || code = 0x61 then 7
  else 3

/-- The issuer of a mailbox: 0 host driver, 1 domain manager, 2 twin partner, 3 service controller (Table 20-1). -/
def issuerOf (mb : Nat) : Nat := if mb < 12 then 0 else if mb < 14 then 1 else if mb = 14 then 2 else 3

/-! ### The checks at the start of a command -/

/-- The version check (R461): the version that the issuer negotiated, or 0x00 for IDENT and VERSION_NEGOTIATE. -/
def Device.versionOk (d : Device) (mb : Nat) : Bool :=
  let m := d.mbx mb
  let v := Sparse.get 0 d.hub.versions (issuerOf mb)
  ((m.hCode == 1 || m.hCode == 2) && m.ifVer == 0) || (v != 0 && m.ifVer == v)
    || (d.boot.phase == .halt && mb == 15 && (m.hCode == 1 || m.hCode == 0x42))

/-- What is wrong with the header of the command in mailbox mb: status and detail (R451, R452, R461, R471). -/
def Device.headerBad (d : Device) (mb : Nat) : Option (Nat × Nat) :=
  let m := d.mbx mb
  if m.layoutBad (12 ≤ mb && mb ≤ 14) then some (4, 7)
  else if m.rank != rankOf mb then some (5, 5)
  else if !bitAt (issuersOf m.hCode) (issuerOf mb) then some (5, 6)
  else if !d.versionOk mb then some (4, 4)
  else if m.stampBeat != 0 && !d.beat.aligned then some (3, 3)
  else if m.b < m.arrive then some (3, 1)
  else if m.arrive + 2 ^ 26 < m.b then some (3, 2)
  else none

/-- The codes that mailboxes 0 to 11 and 15 take on a package that is STANDBY, JOINING or SHADOW (R509), in a recovery stream
(R491), in boot halt (R492), and in Parked (R564). -/
def Device.codeBarred (d : Device) (mb : Nat) : Bool :=
  let c := (d.mbx mb).hCode
  let r := d.twin.role
  ((r == 1 || r == 3 || r == 5) && (mb < 12 || mb == 15) && !(d.mbx mb).twin && !([0x01, 0x02, 0x41, 0x42].contains c))
    || (d.boot.phase == .recovery && !([0x01, 0x02, 0x10, 0x11, 0x42, 0x41].contains c))
    || (d.boot.phase == .halt && !(c == 0x01 || c == 0x42))
    || (d.power.device != 0 && !([0x01, 0x02, 0x03, 0x04, 0x30, 0x31, 0x32, 0x40, 0x41, 0x42, 0x50, 0x51, 0x52].contains c))

/-- Is a command whose header is right barred, or its SLOT none? It is then REJECTED_STATE (R471). -/
def Device.commandBad (d : Device) (mb : Nat) : Bool :=
  d.codeBarred mb || (slotCode (d.mbx mb).hCode && decide (7 < (d.mbx mb).slot))

/-! ### Order (R453, R454) -/

/-- Does the ordering key of mailbox x come before that of y (R453)? -/
def Device.keyBefore (d : Device) (x y : Nat) : Bool :=
  let a := d.mbx x
  let b := d.mbx y
  a.b < b.b || (a.b == b.b && (a.rank < b.rank || (a.rank == b.rank && (a.hSeq < b.hSeq || (a.hSeq == b.hSeq && x < y)))))

/-- May the command in mailbox mb start in this wall beat: it is PENDING, its stamp beat has come, and in a primary the shadow has
acknowledged it? -/
def Device.mayStart (d : Device) (mb : Nat) : Bool :=
  let m := d.mbx mb
  m.st == 1 && !(d.twin.cmds.any (fun c => c.1 == mb)) && decide (m.b ≤ d.beat.w)

/-- The mailboxes whose command may start, in ascending ordering key. -/
def Device.startable (d : Device) : List Nat :=
  ((List.range 16).filter d.mayStart).foldl (fun l x =>
    l.takeWhile (fun y => !d.keyBefore x y) ++ [x] ++ l.dropWhile (fun y => !d.keyBefore x y)) []

/-- The objects that a pending command waits for. -/
def Device.wants (d : Device) (mb : Nat) : List Nat :=
  if (d.headerBad mb).isSome || d.commandBad mb then [] else (d.mbx mb).needs

/-- The first of a list of mailboxes that no held object, and no earlier command that waits, blocks (R454). -/
def Device.pick (d : Device) (taken : List Nat) : List Nat → Option Nat
  | [] => none
  | mb :: rest => if clash (d.wants mb) taken then d.pick (taken ++ d.wants mb) rest else some mb

/-- The command that starts next. -/
def Device.nextCommand (d : Device) : Option Nat :=
  d.pick ((List.range 16).flatMap (fun mb => if (d.mbx mb).st = 2 then (d.mbx mb).held else [])) d.startable

/-- COMMAND_START (R453): the command is STARTED, and holds its objects; one that its checks refuse completes. -/
def execCommandStart (s : State) : Res :=
  lift (fun d =>
    if !d.smbServes then d
    else match d.nextCommand with
      | none => d
      | some mb =>
        let header := d.headerBad mb
        let bad := d.commandBad mb
        let d := (d.onMbx mb (fun m => { m with st := 2, startNo := d.hub.arrivals })).reply mb
        match header, bad with
        | some (status, detail), _ => d.finish mb status detail []
        | none, true => d.refuse mb (fun e => e.commandBad mb)
        | none, false => d.onMbx mb (fun m => { m with held := m.needs })) s

/-- COMMAND_COMPLETE (R458, R612): the outcome of a command that took time is published, once its host writes are posted. -/
def execCommandComplete (mb : Nat) (s : State) : Res :=
  onUnit (fun _ => mb < 16) (fun d =>
    if (d.mbx mb).st == 2 && (d.mbx mb).outcome.isSome then d.complete mb else d) s

/-! ### How a command's own row answers -/

/-- Is the command of CODE in mailbox mb started, and its own step still to come? -/
def Device.runs (d : Device) (mb code : Nat) : Bool :=
  let m := d.mbx mb
  m.st == 2 && !m.ran && m.hCode == code && m.outcome.isNone

/-- The step of a command: it runs once. -/
def runRow (mb code : Nat) (f : Device → Device) (s : State) : Res :=
  onUnit (fun _ => mb < 16) (fun d =>
    if d.runs mb code then f (d.onMbx mb (fun m => { m with ran := true })) else d) s

/-- A registered command records its effect and releases its holds (R455). -/
def Device.registered (d : Device) (mb : Nat) : Device := d.onMbx mb (fun m => { m with held := [] })

end Sys2Proof.Machine
end

