-- ==== Sys2Proof/Machine/Queries.lean ====
section
/-! DEFINITION. Machine/Queries.lean: status words, IDENT, VERSION_NEGOTIATE, counters and their snapshots, the health log and the
metering ledger as commands read them (R461, R470, R475, R476, R551 to R554, R571 to R574, R579). -/

namespace Sys2Proof.Machine

open Sys2Proof

/-! ### Status words -/

/-- The drone status word (Table 2-6). -/
def Device.droneWord (d : Device) : Nat :=
  let x := d.drone
  x.role % 16 * 2 ^ 56 + x.st % 16 * 2 ^ 52 + x.activePort % 64 * 2 ^ 46 + x.hops % 32 * 2 ^ 41 + b2n x.mismatch * 2 ^ 40
    + (if x.st == 4 || x.st == 5 then min 0xFFFF x.freeBeats else 0) * 2 ^ 24 + b2n x.takeover * 2 ^ 23
    + ofSigned (if 32767 < x.phase then 32767 else if x.phase < -32768 then -32768 else x.phase) 16

/-- The hold status word (Table 15-5). -/
def Device.holdWord (d : Device) : Nat :=
  let h := d.hold
  min 4095 h.lag * 2 ^ 52 + b2n h.now * 2 ^ 51 + b2n h.next * 2 ^ 50
    + b2n (d.beat.aligned && d.holdAt (d.beat.w + 2)) * 2 ^ 49 + h.cause % 32 * 2 ^ 44 + b2n h.storm * 2 ^ 43
    + b2n h.stormSeen * 2 ^ 42 + min 8191 h.holdBeats.length * 2 ^ 29

/-- TASK_STATE (Table 20-4). -/
def Device.taskWord (d : Device) : Nat :=
  (List.range 8).foldl (fun a t => a + (d.task t).state % 16 * 2 ^ (4 * t)) 0

/-- CHANTER_STATUS (Table 20-4). -/
def Device.chanterWord (d : Device) : Nat :=
  d.hub.chanter % 256 * 2 ^ 56 + d.hub.ifMax % 256 * 2 ^ 8 + Sparse.get 0 d.hub.versions 0 % 256

/-- A status register of BAR0, by its offset (Table 20-4). -/
def Device.statusReg (d : Device) (off : Nat) : Nat :=
  match off with
  | 0xE000 => d.beat.w
  | 0xE008 => d.beat.h
  | 0xE010 => d.beat.s
  | 0xE018 => d.droneWord
  | 0xE020 => d.holdWord
  | 0xE028 => d.chanterWord
  | 0xE030 => d.taskWord
  | 0xE038 => d.hub.ring.base
  | 0xE040 => d.hub.ring.size
  | 0xE048 => b2n d.hub.ring.enable
  | 0xE050 => d.hub.ring.head
  | 0xE058 => d.hub.ring.tail
  | 0xE060 => d.hub.healthNext
  | 0xE068 => d.power.shown
  | _ => 0

/-- What a host read of `size` bytes at an offset of BAR0 returns (R447, R448): a read has no row, for it changes nothing. -/
def Device.readBar0 (d : Device) (off size : Nat) : Nat :=
  if !accessOk off size then 0
  else if off < 0xE000 then
    leNat ((List.range size).map (fun i => (d.box (off / 0x1000)).readByte (off % 0x1000 + i)))
  else bits (d.statusReg (off / 8 * 8)) (8 * (off % 8)) (8 * size)

/-- What a host read of n bytes at an offset of BAR2 returns, and what it leaves: a read of hub staging with the outcome of
Table 10-3 (R249, R257, R273). No row carries such a read (log 88). -/
def Device.readBar2 (d : Device) (off n : Nat) : List (BitVec 8) × Device :=
  let inside := min n (0x10000000 - off)
  let r := d.stageRead off inside
  (r.1.map (·.1) ++ List.replicate (n - inside) 0, r.2)

/-- The region rate status word (Table 3-5). -/
def Device.regionWord (d : Device) (r : Nat) : Nat :=
  if !d.hasRegion r then 0
  else
    let x := d.region r
    r % 256 * 2 ^ 56 + min 4095 x.rate * 2 ^ 44 + x.cap % 4096 * 2 ^ 32 + x.capCause % 4 * 2 ^ 30 + min 0x3FF (d.minSlack r) * 2 ^ 20
      + b2n x.lagSeen * 2 ^ 19 + min 0x3FF x.tj * 2 ^ 6

/-- The first n values of a counter table. -/
def counterList (m : Sparse (BitVec 64)) (n : Nat) : List (BitVec 64) := (List.range n).map (fun i => Sparse.get 0 m i)

/-- Units of a class of COUNTER_READ (R475). -/
def Device.classUnits (d : Device) (cls : Nat) : Nat :=
  if cls = 0 then d.grade.cores else if cls = 1 then 34 else if cls = 2 then 8 else if cls = 3 then 1 else if cls = 4 then 170 else 0

/-- Is a unit of a class present: in the grade, and not taken out of service (R4, R548)? -/
def Device.hasUnit (d : Device) (cls u : Nat) : Bool :=
  match cls with
  | 0 => d.hasCore u && !(d.core u).absent
  | 1 => d.hasPort u
  | 2 => d.grade.hasStack u && !(d.stack u).absent
  | 4 => d.hasRegion u && !(if u < 144 then (d.core u).absent else decide (u < 148) && d.power.absentQ.contains (u - 144))
  | _ => decide (u < d.classUnits cls)

/-- The counters of a unit, in the order of Table 23-8. -/
def Device.unitCounters (d : Device) (cls u : Nat) : List (BitVec 64) :=
  if cls = 0 then counterList (d.core u).counters 30
  else if cls = 1 then counterList (d.port u).counters 10
  else if cls = 2 then counterList (d.stack u).counters 4
  else if cls = 3 then counterList d.hub.counters 29
  else [BitVec.ofNat 64 (d.regionWord u)]

/-! ### IDENT (R579) -/

/-- FW_VER, IF_MAX of the running image. -/
def Device.fwVer (d : Device) : Nat := if d.boot.run = 2 then 0 else fieldLe d.boot.header 481 4

/-- The identity block (Table 24-7). -/
def Device.identBlock (d : Device) : List (BitVec 8) :=
  let chain := Config.certChain d.ident.serial
  List.replicate 137 0 ++ slice d.boot.personality 0 48
    ++ (List.range 4).flatMap (fun q => slice (sha384 (Config.devicePublicKey (q + 1))) 0 48)
    ++ slice (Config.devicePublicKey 0) 0 97 ++ leBytes 4 chain.length
    ++ [BitVec.ofNat 8 (d.ident.repairLeft * 8),
        BitVec.ofNat 8 ((List.range d.grade.cores).filter (fun c => !(d.core c).absent)).length]
    ++ leBytes 8 d.twinWord ++ leBytes 2 (d.devNum % 4096 * 16) ++ [BitVec.ofNat 8 d.boot.run, BitVec.ofNat 8 d.hub.ifMax]
    ++ leBytes 4 d.fwVer ++ leBytes 8 d.ident.serial
    ++ [BitVec.ofNat 8 d.ident.stepping, BitVec.ofNat 8 d.grade.code] ++ leBytes 2 d.ident.part ++ leBytes 4 0x1DE79410

/-- IDENT (R579). -/
def execIdentRead (mb : Nat) (s : State) : Res :=
  runRow mb 0x01 (fun d => d.finish mb 0 0 (d.identBlock ++ Config.certChain d.ident.serial)) s

/-! ### VERSION_NEGOTIATE (R461) -/

/-- Is an earlier command of the issuer of mailbox mb not DONE? -/
def Device.earlierOpen (d : Device) (mb : Nat) : Bool :=
  (List.range 16).any (fun x => x != mb && issuerOf x == issuerOf mb && (d.mbx x).busy && decide ((d.mbx x).order < (d.mbx mb).order))

/-- The versions that the running firmware supports (R6, R461). -/
def supportedVersions : List Nat := [0x20]

/-- VERSION_NEGOTIATE (R461, R613). -/
def execVersionNegotiate (mb : Nat) (s : State) : Res :=
  runRow mb 0x02 (fun d =>
    let m := d.mbx mb
    let count := m.body 0 1
    if count = 0 || 16 < count then d.finish mb 3 9 []
    else if d.earlierOpen mb then d.finish mb 1 0xC []
    else
      let v := maxOr0 (((List.range count).map (fun i => m.body (8 + i) 1)).filter (fun v => supportedVersions.contains v))
      if v = 0 then d.finish mb 4 4 []
      else
        (d.onHub (fun h => { h with versions := Sparse.set 0 h.versions (issuerOf mb) v })).finish mb 0 0 (leBytes 8 v)) s

/-! ### Counters and snapshots (R470, R475, R551 to R554) -/

/-- COUNTER_READ (R475). Units outside the class, and those that are absent, are refused (R4, log 34). -/
def execCounterRead (mb : Nat) (s : State) : Res :=
  runRow mb 0x41 (fun d =>
    let m := d.mbx mb
    let cls := m.body 0 1
    let shadow := m.body 1 1
    let first := m.body 2 2
    let n := m.body 4 2
    if 4 < cls || 1 < shadow || !(List.range n).all (fun i => d.hasUnit cls (first + i)) then d.finish mb 3 9 []
    else
      let us := (List.range n).map (fun i => first + i)
      let get := fun (u : Nat) => if shadow = 1 then
          (let v := Sparse.get [] d.shadow.units (256 * cls + u)
           if v == [] then (d.unitCounters cls u).map (fun _ => 0) else v)
        else d.unitCounters cls u
      d.finish mb 0 0 ((if shadow = 1 then leBytes 8 d.shadow.wSnap else [])
        ++ us.flatMap (fun u => (get u).flatMap (fun v => leBytes 8 v.toNat)))) s

/-- SNAPSHOT (R470): a registered SNAPSHOT that it replaces completes SUPERSEDED. -/
def execSnapshot (mb : Nat) (s : State) : Res :=
  runRow mb 0x40 (fun d =>
    let w := (d.mbx mb).body 0 8
    if w ≤ d.beat.w then d.finish mb 3 9 []
    else
      let d := match d.shadow.reg with
        | some (_, old) => d.finish old 2 0 []
        | none => d
      ({ d with shadow := { d.shadow with reg := some (w, mb) } }).registered mb) s

/-- The counters of a unit that a snapshot at the present edge takes: those of the hub without what the edge itself counts
(R553). -/
def Device.cutCounters (d : Device) (cls u : Nat) : List (BitVec 64) :=
  match d.shadow.edgeHub with
  | some (w, cs) => if cls = 3 && w == d.beat.w then counterList cs 29 else d.unitCounters cls u
  | none => d.unitCounters cls u

/-- The shadows as they stand at an edge (R552): each status word after the edge's updates, each counter without them. -/
def Device.latch (d : Device) (w : Nat) : Shadow :=
  { wSnap := w, w := d.beat.w, h := d.beat.h, s := d.beat.s,
    units := (List.range 5).foldl (fun m cls =>
      (List.range (d.classUnits cls)).foldl (fun m u => Sparse.set [] m (256 * cls + u) (d.cutCounters cls u)) m) [],
    edgeHub := d.shadow.edgeHub,
    drone := BitVec.ofNat 64 d.droneWord, hold := BitVec.ofNat 64 d.holdWord, twin := BitVec.ofNat 64 d.twinWord,
    taskState := BitVec.ofNat 64 d.taskWord, healthNext := d.hub.healthNext, reg := none }

/-- SNAPSHOT_LATCH (R470, R552, R553): at the edge of W_SNAP. -/
def execSnapshotLatch (s : State) : Res :=
  lift (fun d =>
    match d.shadow.reg with
    | some (w, mb) => if w ≤ d.beat.w then ({ d with shadow := d.latch w }).finish mb 0 0 [] else d
    | none => d) s

/-! ### The health log (R476, R546) -/

/-- The held records from an index on, oldest first. -/
def Device.recordsFrom (d : Device) (from_ n : Nat) : List HealthRec :=
  let old := d.hub.healthNext - d.hub.health.length
  (d.hub.health.reverse.drop (max from_ old - old)).take n

/-- The index of the oldest held parking record (R315). -/
def Device.parkOldest (d : Device) : Nat := (d.hub.parkNext + 147456 - d.hub.parkHeld) % 147456

/-- Free one parking record: its VALID reads 0 (Table 12-7). -/
def Device.parkFree (d : Device) (i : Nat) : Device :=
  let a := 0x9700000 + 64 * (i % 147456) + 43
  d.stagePut a [(BitVec.and (Sparse.get 0 d.staging.bytes a) 0xFB#8, false)]

/-- HEALTH_READ (R315, R476): first it frees the PARK_FREE oldest parking records. -/
def execHealthRead (mb : Nat) (s : State) : Res :=
  runRow mb 0x42 (fun d =>
    let m := d.mbx mb
    let old := d.parkOldest
    let d := (List.range (min (m.body 12 4) d.hub.parkHeld)).foldl (fun d i => d.parkFree (old + i)) d
    let d := d.onHub (fun h => { h with parkHeld := h.parkHeld - m.body 12 4 })
    d.finish mb 0 0 (leBytes 8 d.hub.healthNext ++ leBytes 4 d.hub.parkHeld ++ leBytes 4 d.parkOldest
      ++ (d.recordsFrom (m.body 0 8) (m.body 8 2)).flatMap HealthRec.bytes)) s

/-! ### The metering ledger (R568 to R574) -/

/-- A ledger entry as its 64 bytes (Table 24-5). -/
def Ledger.bytes (e : Ledger) : List (BitVec 8) :=
  leBytes 8 (e.microJ / 1000 % 2 ^ 48 * 2 ^ 16 + e.slot % 8 * 2 ^ 13 + b2n e.isOpen * 2 ^ 12 + b2n e.regress * 2 ^ 11
      + b2n e.noTime * 2 ^ 10 + b2n e.device * 2 ^ 9)
    ++ leBytes 8 e.fabricBytes ++ leBytes 8 e.dramBytes ++ leBytes 8 e.coreBeats ++ leBytes 8 e.hostTime
    ++ leBytes 8 e.endW ++ leBytes 8 e.startW ++ leBytes 4 e.bindId ++ leBytes 4 e.epoch

/-- Does entry x come before entry y in METER_READ: ascending BIND_ID, the device entry last? -/
def Ledger.before (x y : Ledger) : Bool := !x.device && (y.device || x.bindId < y.bindId)

/-- METER_READ (R574): an epoch has entries for the bindings bound at one of its edges, with their usage as of the last edge. -/
def execMeterRead (mb : Nat) (s : State) : Res :=
  runRow mb 0x51 (fun d =>
    let m := d.mbx mb
    let slot := m.body 0 1
    let ep := m.body 4 4
    if 7 < slot && slot != 0xFF then d.finish mb 3 9 []
    else
      let l := d.ledger.filter (fun e =>
        e.atEdge && (if ep = 0xFFFFFFFF then e.isOpen else e.epoch == ep) && (slot == 0xFF || (!e.device && e.slot == slot)))
      let l := l.foldl (fun a x => a.takeWhile (fun y => !x.before y) ++ [x] ++ a.dropWhile (fun y => !x.before y)) []
      d.finish mb 0 0 (l.flatMap Ledger.bytes)) s

/-- EPOCH_SET (R571 to R573): the open epoch closes in the present wall beat, and the next one opens. What is used in the rest of
the beat is the closed epoch's, which was open at its edge (R569). -/
def Device.epochSet (d : Device) (time : Nat) : Device :=
  let w := d.beat.w
  let open_ := d.ledger.filter (fun e => e.isOpen)
  let closed := (d.dropEntries (fun e => e.isOpen && !e.atEdge)).ledger.map (fun e => if e.isOpen then { e with isOpen := false, endW := w } else e)
  let old := (open_.find? (fun e => e.device)).getD Ledger.reset
  let n := old.epoch + 1
  let keep := open_.filter (fun e => e.device || d.boundSlots.any (fun t => (d.task t).bindId == e.bindId))
  let new := keep.map (fun e => { Ledger.reset with
    epoch := n, bindId := e.bindId, startW := w + 1, hostTime := time, slot := e.slot, isOpen := true,
    regress := decide (time < old.hostTime), noTime := false, device := e.device, atEdge := e.device, counts := false,
    pCore := e.pCore, pDram := e.pDram, pFabric := e.pFabric })
  { d with ledger := (closed ++ new).filter (fun e => n < e.epoch + 64) }

/-- EPOCH_SET (R571). -/
def execEpochSet (mb : Nat) (s : State) : Res :=
  runRow mb 0x52 (fun d => (d.epochSet ((d.mbx mb).body 0 8)).finish mb 0 0 []) s

end Sys2Proof.Machine
end

