-- ==== Sys2Proof/Machine/Binding.lean ====
section
/-! DEFINITION. Machine/Binding.lean: schedule images and TASK_BIND (R398 to R407, R413, R611): the image and its sections, the
checks of Table 18-5 in their order, relocations and patches, and the writes. -/

namespace Sys2Proof.Machine

open Sys2Proof

/-! ### Device addresses (R471) -/

/-- Does a device address name n bytes of DRAM in service, or of hub staging, of this device? -/
def Device.devOk (d : Device) (a n : Nat) : Bool :=
  rzDev a == 0
    && ((rzSpace a == 1 && d.grade.dramIn (rzOff a) n && !(List.range 8).any (fun k =>
          (d.stack k).absent && overlaps (k * stackBytes) stackBytes (rzOff a) n))
        || (rzSpace a == 2 && decide (rzOff a + n ≤ 0x10000000)))

/-- Read a device address. -/
def Device.devRead (d : Device) (a n : Nat) : List (BitVec 8 × Bool) × Device :=
  if rzSpace a = 1 then d.dramRead (rzOff a) n else d.stageRead (rzOff a) n

/-- Write a device address. -/
def Device.devWrite (d : Device) (a : Nat) (bs : List (BitVec 8 × Bool)) : Device :=
  if rzSpace a = 1 then d.dramWrite (rzOff a) bs else d.stageWrite (rzOff a) bs

/-! ### The image (R398, Tables 18-1 to 18-3) -/

/-- A section: TYPE, IMAGE_CORE, OFFSET and its bytes. -/
structure Sec where
  /-- TYPE. -/
  typ : Nat
  /-- IMAGE_CORE. -/
  core : Nat
  /-- OFFSET. -/
  off : Nat
  /-- LENGTH. -/
  len : Nat
  /-- Its bytes. -/
  data : List (BitVec 8)
  deriving DecidableEq, Repr

/-- A schedule image: header and sections, as stored. -/
structure Image where
  /-- Bytes 0 to 127. -/
  head : List (BitVec 8)
  /-- IMAGE_LEN. -/
  len : Nat
  /-- Sections in table order. -/
  secs : List Sec
  deriving DecidableEq, Repr

/-- A field of the header. -/
def Image.field (g : Image) (lo w : Nat) : Nat := bits (leNat g.head) lo w
/-- MAGIC. -/
def Image.magic (g : Image) : Nat := g.field 992 32
/-- CONTRACT. -/
def Image.contract (g : Image) : Nat := g.field 928 64
/-- SEED. -/
def Image.seed (g : Image) : Nat := g.field 864 64
/-- MODE. -/
def Image.mode (g : Image) : Nat := g.field 856 8
/-- CORES. -/
def Image.cores (g : Image) : Nat := g.field 848 8
/-- SPILL. -/
def Image.spill (g : Image) : Nat := g.field 785 15
/-- LEVEL of the contract word (Table 16-1). -/
def Image.level (g : Image) : Nat := bits g.contract 56 8
/-- BEAT_SC. -/
def Image.beatSc (g : Image) : Nat := bits g.contract 45 11
/-- The section table and the header end here. -/
def Image.tableEnd (g : Image) : Nat := 128 + 16 * g.secs.length

/-- The image in a byte string; bytes past its end read as 0. -/
def Image.of (bs : List (BitVec 8)) : Image :=
  let h := leNat (slice bs 0 128)
  { head := slice bs 0 128, len := bits h 800 32,
    secs := (List.range (bits h 832 16)).map (fun i =>
      let e := fieldLe bs (128 + 16 * i) 16
      { typ := bits e 120 8, core := bits e 112 8, off := bits e 0 32, len := bits e 64 32,
        data := slice bs (bits e 0 32) (bits e 64 32) }) }

/-- Is a type per core (Table 18-3)? -/
def perCore (typ : Nat) : Bool := (1 ≤ typ && typ ≤ 8) || typ == 14

/-- The bytes of the sections of a type for an image core, or 0xFF; of several, in table order. -/
def Image.sec (g : Image) (typ core : Nat) : List (BitVec 8) :=
  (g.secs.filter (fun s => s.typ == typ && s.core == core)).flatMap (·.data)

/-- How many sections of a type an image core has. -/
def Image.count (g : Image) (typ core : Nat) : Nat := (g.secs.filter (fun s => s.typ == typ && s.core == core)).length

/-- The entries of n bytes of a section. -/
def entriesOf (n : Nat) (bs : List (BitVec 8)) : List Nat := (chunks n bs).map leNat

/-- The BOUNDS section of an image core. -/
def Image.bounds (g : Image) (i : Nat) : BitVec 256 := BitVec.ofNat 256 (leNat (g.sec 4 i))

/-- INSTR_COUNT of a base-and-bound set. -/
def instrLen (b : BitVec 256) : Nat := bset b 228 14

/-- The ports of a slot-plan section: port, P, transmit and receive entries; none when its length breaks Table 18-3. -/
def parsePlan : Nat → List (BitVec 8) → Option (List (Nat × Nat × List (BitVec 64) × List (BitVec 64)))
  | _, [] => some []
  | 0, _ => none
  | n + 1, bs =>
    let h := fieldLe bs 0 8
    let k := bits h 8 5 * 224
    if bs.length < 8 + 16 * k then none
    else
      let es := fun (o : Nat) => (entriesOf 8 (slice bs o (8 * k))).map (BitVec.ofNat 64)
      (parsePlan n (bs.drop (8 + 16 * k))).map (fun r => (bits h 0 6, bits h 8 5, es 8, es (8 + 8 * k)) :: r)

/-- The runs of a SPAD_INIT section: task-relative address and data; none when they do not fill it exactly (R611). -/
def parseRuns : Nat → List (BitVec 8) → Option (List (Nat × List (BitVec 8)))
  | _, [] => some []
  | 0, _ => none
  | n + 1, bs =>
    let a := fieldLe bs 0 8
    let l := fieldLe bs 8 4
    let all := roundUp (16 + l) 64
    if bs.length < all then none
    else (parseRuns n (bs.drop all)).map (fun r => (a, slice bs 16 l) :: r)

/-- Has a section the length that Table 18-3 gives its type? -/
def Image.lenOk (g : Image) (s : Sec) : Bool :=
  match s.typ with
  | 1 => s.len % 48 == 0
  | 2 => s.len == 16384
  | 3 => s.len == 2048
  | 4 => s.len == 32
  | 5 => s.len == 8 * kCount (g.bounds s.core)
  | 6 => s.len == 16 * qCount (g.bounds s.core)
  | 8 => s.len % 64 == 0
  | 9 => 8 ≤ s.len && s.len % 8 == 0
  | 7 | 10 => s.len % 8 == 0
  | 11 => (parsePlan (s.len + 1) s.data).isSome
  | 12 | 13 => s.len % 16 == 0
  | 14 => s.len % 2 == 0
  | 15 => s.len == 96
  | _ => s.len % 16 == 0 && s.len ≤ 4096

/-- The slot-plan fragment as stored. -/
def Image.plan (g : Image) : List (Nat × Nat × List (BitVec 64) × List (BitVec 64)) :=
  (g.secs.filter (fun s => s.typ == 11)).flatMap (fun s => (parsePlan (s.len + 1) s.data).getD [])

/-- A check: whether it fails, and its status. -/
abbrev Check := Bool × Nat

/-- The first check that fails. -/
def failing (l : List Check) : Option Nat := (l.find? (fun c => c.1)).map (fun c => c.2)

/-- A check of state or operands. -/
def stateCheck (bad : Bool) : Check := (bad, 3)

/-- A check of version or layout. -/
def versionCheck (bad : Bool) : Check := (bad, 4)

/-- Does a contract word follow Table 16-1 (R372)? -/
def contractOk (c : Nat) : Bool :=
  bits c 0 45 == 0
    && ((bits c 56 8 == 2 && bits c 45 11 == 1600)
        || (bits c 56 8 == 1 && 1024 ≤ bits c 45 11 && bits c 45 11 ≤ 1600 && bits c 45 11 % 64 == 0))

/-- Do two of a list of byte ranges share a byte? -/
def anyOverlap : List (Nat × Nat) → Bool
  | [] => false
  | r :: rest => rest.any (fun x => overlaps r.1 r.2 x.1 x.2) || anyOverlap rest

/-- Is a required section of the image missing or repeated (R399, Table 18-3)? -/
def Image.requiredBad (g : Image) : Bool :=
  g.count 15 0xFF != 1
    || (List.range g.cores).any (fun i =>
      [1, 2, 3, 4, 14].any (fun t => g.count t i != 1)
      || (0 < kCount (g.bounds i) && g.count 5 i != 1) || (0 < qCount (g.bounds i) && g.count 6 i != 1))

/-- Step 1 of Table 18-5, without the level limits (R372, R398, R399). -/
def Image.checks1 (g : Image) : List Check :=
  [versionCheck (g.magic != 0xE0711A65), versionCheck (!contractOk g.contract), versionCheck (1 < g.mode),
   stateCheck (g.cores == 0 || 144 < g.cores || g.len < g.tableEnd),
   versionCheck (g.secs.any (fun s => s.typ == 0 || 16 < s.typ || (g.level == 1 && s.typ == 16))),
   stateCheck (g.secs.any (fun s => s.off % 64 != 0 || g.len < s.off + s.len)),
   stateCheck (anyOverlap ((0, g.tableEnd) :: g.secs.map (fun s => (s.off, s.len)))),
   stateCheck (g.secs.any (fun s => if perCore s.typ then g.cores ≤ s.core else s.core != 0xFF)),
   stateCheck g.requiredBad,
   stateCheck (g.secs.any (fun s => !g.lenOk s))]

/-- The level limits (R374). -/
def Image.checksLevel (g : Image) (dev : Nat) : List Check :=
  if g.level = 1 then
    [versionCheck ((List.range g.cores).any (fun i =>
        let b := g.bounds i
        32 < kCount b || 64 < qCount b || 1023 < hallHi b)),
     versionCheck (1023 < dev || g.mode == 1),
     versionCheck (g.plan.any (fun p => p.2.2.1.any (fun e => peKind e.toNat == 1 && g.beatSc ≤ peReady e.toNat)))]
  else []

/-- The program digest and the weight digest (R400). -/
def Image.digests (g : Image) : List (BitVec 8) × List (BitVec 8) :=
  (sha384 (g.head ++ (g.secs.filter (fun s => s.typ != 8 && s.typ != 15 && s.typ != 16)).flatMap (·.data)),
   sha384 ((g.secs.filter (fun s => s.typ == 8)).flatMap (·.data)))

/-! ### The bind block (R472, Table 20-13) and the sets (R166, R401, R402) -/

/-- The bind block: a core entry for each image core, and the patch values. -/
structure BindBlock where
  /-- PATCH_COUNT. -/
  count : Nat
  /-- Core entries. -/
  cores : List Nat
  /-- Patch values. -/
  patches : List Nat
  deriving DecidableEq, Repr

/-- LOGICAL_CORE of an entry. -/
def bbCore (e : Nat) : Nat := bits e 120 8

/-- The bind block in a byte string, for n image cores. -/
def BindBlock.of (bs : List (BitVec 8)) (n : Nat) : BindBlock :=
  let k := fieldLe bs 0 2
  { count := k, cores := entriesOf 16 (slice bs 64 (16 * n)), patches := entriesOf 8 (slice bs (64 + 16 * n) (8 * k)) }

/-- The base-and-bound set of an image core: lengths and limits of its BOUNDS section, bases of its entry (R401). -/
def formSet (b : BitVec 256) (e : Nat) : BitVec 256 :=
  BitVec.ofNat 256 ([(242, 14, bits e 47 14), (213, 15, bits e 92 15), (179, 19, bits e 73 19), (148, 12, bits e 61 12),
    (98, 7, bits e 113 7), (84, 6, bits e 107 6)].foldl (fun x f => setBits x f.1 f.2.1 f.2.2) b.toNat)

/-- Is a new set of core c refused: by a resource, a limit, another bound slot, retired memory or the armed ring (R166, R256,
R272, R430, R539)? -/
def Device.setBad (d : Device) (c : Nat) (b : BitVec 256) : Bool :=
  10922 < instrBase b + instrLen b || 28672 < spBase b + spLen b || 128 < qBase b + qCount b || 48 < kBase b + kCount b
    || !d.devOk (rzMake 0 1 (dramBase b * 2 ^ 20)) (dramLen b * 2 ^ 20) || 2304 < stageBase b + stageLen b
    || hallHi b < hallLo b
    || (d.slotsOn c).any (fun t =>
      let o := (d.core c).bound t
      overlaps (instrBase b) (instrLen b) (instrBase o) (instrLen o) || overlaps (spBase b) (spLen b) (spBase o) (spLen o)
        || overlaps (qBase b) (qCount b) (qBase o) (qCount o) || overlaps (kBase b) (kCount b) (kBase o) (kCount o))
    || (d.core c).retired.any (fun e => e.2 && spBase b ≤ e.1 && e.1 < spBase b + spLen b)
    || (List.range 8).any (fun k => (d.stack k).retired.any (fun e =>
      e.2 && overlaps (k * stackBytes + e.1 * 2 ^ 20) (2 ^ 20) (dramBase b * 2 ^ 20) (dramLen b * 2 ^ 20)))
    || (match d.logger.ring with
        | some (r, l) => overlaps r l (dramBase b * 2 ^ 20) (dramLen b * 2 ^ 20)
        | none => false)

/-- Step 3: core map, bases, windows, spill area (R166, R401, R402). -/
def Device.checks3 (d : Device) (g : Image) (bb : BindBlock) : List Check :=
  let cs := bb.cores.map bbCore
  let sets := (List.range g.cores).map (fun i => formSet (g.bounds i) (nth bb.cores i 0))
  [stateCheck (4096 < bb.count),
   stateCheck ((List.range cs.length).any (fun i => (cs.take i).contains (nth cs i 0))),
   stateCheck (cs.any (fun c => !d.hasCore c || (d.core c).absent)),
   stateCheck (cs.any (fun c => (d.core c).running.isSome)),
   stateCheck ((List.range g.cores).any (fun i =>
     48 * instrLen (nth sets i 0) != (g.sec 1 i).length || d.setBad (nth cs i 0) (nth sets i 0)
       || spLen (nth sets i 0) < g.spill + 5))]

/-! ### Maps, windows and yields (R238, R279, R285, R291, R300, R413, R440) -/

/-- FIRST_PAGE, PAGES and MODE of the allocation entries of an image core (Table 18-4). -/
def Image.alloc (g : Image) (i : Nat) : List (Nat × Nat × Nat) :=
  (entriesOf 8 (g.sec 7 i)).map (fun e => (bits e 49 15, bits e 34 15, bits e 32 2))

/-- Does a ring break R300? -/
def ringBad (b : BitVec 256) (e : Nat) : Bool :=
  (qCap e != 0 && (spLen b * 4096 < qRing e + 32 * qCap e || qRing e % 64 != 0)) || (qAkeyEn e && kCount b ≤ qAkey e)

/-- Step 4 for one image core: key map, queue map, allocation table. -/
def Image.mapsBad (g : Image) (i : Nat) : Bool :=
  let b := g.bounds i
  let qs := (entriesOf 16 (g.sec 6 i)).take (qCount b)
  (entriesOf 8 (g.sec 5 i)).any (fun e => keyCap e < keyStart e || keyCap e < keyEnd e)
    || qs.any (ringBad b)
    || anyOverlap (qs.map (fun e => (qRing e, 32 * qCap e)))
    || (g.alloc i).any (fun e => e.2.2 == 3 || e.2.1 == 0 || spLen b < e.1 + e.2.1)
    || anyOverlap ((g.alloc i).map (fun e => (e.1, e.2.1)))

/-- P of the window table: that of the first section, or 1 (log 41). -/
def Image.period (g : Image) : Nat :=
  match g.secs.find? (fun s => s.typ == 9) with
  | some s => bits (fieldLe s.data 0 8) 0 5
  | none => 1

/-- The window entries. -/
def Image.windows (g : Image) : List Nat := (g.secs.filter (fun s => s.typ == 9)).flatMap (fun s => entriesOf 8 (s.data.drop 8))

/-- The ticks of a window entry. -/
def weTicks (e : Nat) : List Nat := (List.range (weCount e)).map (fun j => weFirst e + j * weStride e)

/-- May two entries, each with its period, not be in force together (R279)? -/
def weClash (x y : Nat × Nat) : Bool :=
  let m := max 1 (min x.1 y.1)
  weStack x.2 == weStack y.2 && Nat.land (weGroups x.2) (weGroups y.2) != 0 && wePhase x.2 % m == wePhase y.2 % m
    && (weTicks x.2).any (fun a => (weTicks y.2).any (fun b =>
      a == b || (weWrite x.2 != weWrite y.2 && a < b + 3 && b < a + 3)))

/-- Does one of a list clash with a later one, or with one already bound? -/
def anyClash (old : List (Nat × Nat)) : List (Nat × Nat) → Bool
  | [] => false
  | x :: rest => (old ++ rest).any (weClash x) || anyClash old rest

/-- Is stack k present (R17, R548)? -/
def Device.stackPresent (d : Device) (k : Nat) : Bool := d.grade.hasStack k && !(d.stack k).absent

/-- Step 5: DRAM windows (R279) and refresh plan (R285). -/
def Device.checks5 (d : Device) (g : Image) : List Check :=
  let p := g.period
  let rf := entriesOf 8 (g.sec 10 0xFF)
  let same := fun (x y : Nat) => rfLate x == rfLate y && rfPeriod x == rfPeriod y && rfPhase x == rfPhase y
  let meets := fun (x y : Nat) => rfStack x == rfStack y && Nat.land (rfGroups x) (rfGroups y) != 0
  let bound := d.boundSlots.flatMap (fun t => (d.task t).refresh.map (·.toNat))
  [stateCheck (!([1, 2, 4, 8, 16].contains p)
     || (g.secs.filter (fun s => s.typ == 9)).any (fun s => bits (fieldLe s.data 0 8) 0 5 != p)),
   stateCheck (g.windows.any (fun e => weCount e == 0 || weStride e == 0 || 959 < weFirst e || p ≤ wePhase e
     || 959 < weFirst e + (weCount e - 1) * weStride e || !d.stackPresent (weStack e) || g.cores ≤ weCore e)),
   stateCheck (anyClash d.windowEntries (g.windows.map (fun e => (p, e)))),
   stateCheck (rf.any (fun e => rfPeriod e == 3 || 2 ^ rfPeriod e ≤ rfPhase e || !d.stackPresent (rfStack e)
     || (rf ++ bound).any (fun x => meets e x && !same e x)))]

/-- The bundles of an image core. -/
def Image.bundles (g : Image) (i : Nat) : List (BitVec 384) := (entriesOf 48 (g.sec 1 i)).map (BitVec.ofNat 384)

/-- The listed `ct.yield` indices of an image core. -/
def Image.yields (g : Image) (i : Nat) : List Nat := entriesOf 2 (g.sec 14 i)

/-- Does the yield table of an image core differ from its `ct.yield` bundles (R413)? -/
def Image.yieldsBad (g : Image) (i : Nat) : Bool :=
  let has := (List.range (g.bundles i).length).filter (fun j => opc (slotOf (nth (g.bundles i) j 0) 1) == 4)
  (g.yields i).any (fun j => !has.contains j) || has.any (fun j => !(g.yields i).contains j)

/-- The digest tag entries (Table 19-4). -/
def Image.tags (g : Image) : List TagEntry :=
  (entriesOf 16 (g.sec 16 0xFF)).map (fun e =>
    { role := bits e 120 8, core := bits e 112 8, window := bits e 110 2, len := bits e 64 32, addr := bits e 0 64 })

/-- Does a digest tag entry break R440? The window of the task is that of image core 0 (log 41). -/
def Image.tagBad (g : Image) (t : TagEntry) : Bool :=
  let b := g.bounds (if t.window = 0 then t.core else 0)
  (t.role != 1 && t.role != 2) || t.window == 3 || t.addr % 64 != 0 || t.len % 64 != 0 || t.len == 0
    || (if t.window = 0 then g.cores ≤ t.core else t.core != 0xFF)
    || decide ((if t.window = 0 then spLen b * 4096 else if t.window = 1 then dramLen b * 2 ^ 20 else stageLen b * 65536)
        < t.addr + t.len)

/-! ### Relocations and patches (R404 to R406) -/

/-- What relocation works with: the sets and logical cores by image core, the patch values, the own device number. -/
structure RelocEnv where
  /-- Sets by image core. -/
  sets : List (BitVec 256)
  /-- Logical cores by image core. -/
  cores : List Nat
  /-- Patch values. -/
  patches : List Nat
  /-- Own logical device number. -/
  dev : Nat

/-- Kind 0x05 to 0x07: an address whose core and offset move (Table 18-7). -/
def RelocEnv.addr (v : RelocEnv) (kind t : Nat) : Option Nat :=
  let i := bits t 40 8
  if v.cores.length ≤ i then none
  else
    let b := nth v.sets i 0
    let sp := bits t 48 4
    let t' := setBits t 40 8 (nth v.cores i 0)
    if kind = 5 then
      if (sp == 0 || sp == 15) && bits t 0 40 < spLen b * 4096 then some (setBits t' 0 40 (spBase b * 4096 + bits t 0 40))
      else none
    else if kind = 6 then
      if sp == 3 && bits t 0 7 < qCount b then some (setBits t' 0 7 (qBase b + bits t 0 7)) else none
    else if sp == 4 && bits t 0 6 < kCount b then some (setBits t' 0 6 (kBase b + bits t 0 6)) else none

/-- The result r of a kind on a value t, or none where TASK_BIND refuses it (Table 18-7, R405, R406). -/
def RelocEnv.result (v : RelocEnv) (kind idx t : Nat) : Option Nat :=
  let b := nth v.sets idx 0
  match kind with
  | 1 => if idx = 0 && t < v.cores.length then some (nth v.cores t 0) else none
  | 2 => if idx < v.cores.length && t < spLen b * 4096 then some (spBase b * 4096 + t) else none
  | 3 => if idx < v.cores.length && t < dramLen b * 2 ^ 20 then some (dramBase b * 2 ^ 20 + t) else none
  | 4 => if idx < v.cores.length && t < stageLen b * 65536 then some (stageBase b * 65536 + t) else none
  | 5 | 6 | 7 => if idx = 0 then v.addr kind t else none
  | 8 => if idx = 0 then some v.dev else none
  | 0x20 => if idx < v.patches.length then some (nth v.patches idx 0) else none
  | 0x21 => if idx < v.patches.length then some ((t + nth v.patches idx 0) % 2 ^ 64) else none
  | _ => none

/-- Apply one entry of Table 18-6 of a RELOC (or PATCH) section to the sections. -/
def RelocEnv.apply (v : RelocEnv) (patch : Bool) (secs : List Sec) (e : Nat) : Option (List Sec) :=
  let kind := bits e 120 8
  let n := bits e 112 8
  let lsb := bits e 106 6
  let width := bits e 99 7
  let shift := bits e 96 3
  let off := bits e 0 32
  match secs[n]? with
  | none => none
  | some s =>
    if [12, 13, 14, 15, 16].contains s.typ || off % 8 != 0 || s.len < off + 8 || width = 0 || 64 < lsb + width
        || patch != (32 ≤ kind) || (5 ≤ kind && kind ≤ 7 && (lsb != 0 || width != 64 || shift != 0)) then none
    else
      let w := fieldLe s.data off 8
      match v.result kind (bits e 84 12) (bits w lsb width * 2 ^ shift) with
      | none => none
      | some r =>
        if r % 2 ^ shift != 0 || 2 ^ width ≤ r / 2 ^ shift then none
        else
          let new := s.data.take off ++ leBytes 8 (setBits w lsb width (r / 2 ^ shift)) ++ s.data.drop (off + 8)
          some (setNth secs n { s with data := new })

/-- Apply the entries of all sections of a type, in table order (R406). -/
def RelocEnv.all (v : RelocEnv) (typ : Nat) (secs : Option (List Sec)) : Option (List Sec) :=
  match secs with
  | none => none
  | some l => ((l.filter (fun s => s.typ == typ)).flatMap (fun s => entriesOf 16 s.data)).foldl (fun a e =>
      match a with
      | none => none
      | some x => v.apply (typ == 13) x e) (some l)

/-- The image with its relocations and then its patches applied. -/
def Image.relocated (g : Image) (v : RelocEnv) : Option Image :=
  (v.all 13 (v.all 12 (some g.secs))).map (fun l => { g with secs := l })

/-- The runs of an image core. -/
def Image.runs (g : Image) (i : Nat) : List (Nat × List (BitVec 8)) :=
  (g.secs.filter (fun s => s.typ == 8 && s.core == i)).flatMap (fun s => (parseRuns (s.len + 1) s.data).getD [])

/-- Do the runs break R611? -/
def Image.runsBad (g : Image) : Bool :=
  g.secs.any (fun s => s.typ == 8 && (match parseRuns (s.len + 1) s.data with
    | none => true
    | some l => l.any (fun r => !spadOk (g.bounds s.core) r.1 r.2.length)))

/-- A plan entry with its CORE and ADDR bound, if it is LOCAL; staging is the window of image core 0 (R407, log 41). -/
def RelocEnv.planEntry (v : RelocEnv) (e : BitVec 64) : BitVec 64 :=
  if peKind e.toNat != 1 then e
  else
    let c := peCore e.toNat
    let a := bits e.toNat 0 29
    let (c', a') := if c = 0xFF then (0xFF, a + stageBase (nth v.sets 0 0) * 2048)
      else (nth v.cores c 0, a + spBase (nth v.sets c 0) * 128)
    BitVec.ofNat 64 (setBits (setBits e.toNat 40 8 c') 0 29 a')

/-- Does a LOCAL entry of the fragment name an image core outside the task? -/
def Image.planBad (g : Image) : Bool :=
  g.plan.any (fun p => (p.2.2.1 ++ p.2.2.2).any (fun e =>
    peKind e.toNat == 1 && peCore e.toNat != 0xFF && g.cores ≤ peCore e.toNat))

/-! ### The writes (step 8) -/

/-- The page map entry of task-relative page t in a MODE (R239). -/
def pageEntry (mode t : Nat) : BitVec 8 :=
  BitVec.ofNat 8 (mode * 64 + (if mode = 1 then t % 64 else if mode = 2 then (8 * t + t / 8) % 64 else 0))

/-- The MODE of a page: that of its allocation, else LINEAR (R238). -/
def pageMode (alloc : List (Nat × Nat × Nat)) (t : Nat) : Nat :=
  match alloc.find? (fun e => e.1 ≤ t && t < e.1 + e.2.1) with
  | some e => e.2.2
  | none => 0

/-- The instruction store of a core with a task's bundles in its window (R152); every slot gets new parity. -/
def Core.loadBundles (k : Core) (t : Nat) (bs : List (BitVec 384)) : Core :=
  let base := instrBase (k.bound t)
  { k with
    istore := Sparse.setMany 0 k.istore base bs,
    istoreBad := k.istoreBad.filter (fun e => !(8 * base ≤ e.1 && e.1 < 8 * (base + bs.length))) }

/-- One mapped core: instruction store, descriptor files, page map, maps and base-and-bound set (R152, R237, R261, R383). -/
def Core.bind (k : Core) (t : Nat) (g : Image) (i : Nat) (b : BitVec 256) : Core :=
  let cds := (entriesOf 64 (g.sec 2 i)).map (BitVec.ofNat 512)
  let mds := (entriesOf 32 (g.sec 3 i)).map (BitVec.ofNat 256)
  let k := { k with
    bounds := Sparse.set 0 k.bounds t b,
    copyDesc := Sparse.setMany 0 k.copyDesc (256 * t) cds, copyDescImg := Sparse.setMany 0 k.copyDescImg (256 * t) cds,
    mxDesc := Sparse.setMany 0 k.mxDesc (64 * t) mds, mxDescImg := Sparse.setMany 0 k.mxDescImg (64 * t) mds,
    keyMap := Sparse.setMany 0 k.keyMap (64 * t) ((entriesOf 8 (g.sec 5 i)).map (BitVec.ofNat 64)),
    queueMap := Sparse.setMany 0 k.queueMap (128 * t) ((entriesOf 16 (g.sec 6 i)).map (BitVec.ofNat 128)),
    pageMap := Sparse.setMany 0 k.pageMap (spBase b) ((List.range (spLen b)).map (fun p => pageEntry (pageMode (g.alloc i) p) p)),
    keyOwner := Sparse.setMany (0, 0, 0) k.keyOwner (kBase b) ((List.range (kCount b)).map (fun r =>
      (t + 1, r, keyEnd (nth (entriesOf 8 (g.sec 5 i)) r 0)))),
    queues := (List.range (qCount b)).foldl (fun q r =>
      Sparse.upd QState.reset q (qBase b + r) (fun s => { s with overflowed := false })) k.queues,
    resume := Sparse.set 0 k.resume t 0, ended := k.ended.filter (· != t) }
  k.loadBundles t (g.bundles i)

/-- The SPAD_INIT runs of a core. -/
def Device.loadRuns (d : Device) (c : Nat) (b : BitVec 256) (runs : List (Nat × List (BitVec 8))) : Device :=
  runs.foldl (fun d r => d.spadWrite c (spadPa b r.1) (unmarked r.2)) d

/-- The ledger entry of a new binding, while the open epoch has room (R568, R573). -/
def Device.openEntry (d : Device) (t bind : Nat) : Device :=
  let open_ := d.ledger.filter (fun e => e.isOpen)
  match open_.find? (fun e => e.device) with
  | some e =>
    if 1024 < open_.length then d
    else
      let n : Ledger := { Ledger.reset with
        epoch := e.epoch, bindId := bind, startW := e.startW, hostTime := e.hostTime, slot := t, isOpen := true,
        regress := e.regress, noTime := e.noTime, device := false, atEdge := false, counts := e.counts }
      { d with ledger := d.ledger ++ [n] }
  | none => d

/-- The bytes of a digest tag entry's buffer. -/
def Device.tagBytes (d : Device) (t : Nat) (e : TagEntry) : List (BitVec 8 × Bool) × Device :=
  let c := nth (d.task t).cores (if e.window = 0 then e.core else 0) 0
  let b := (d.core c).bound t
  if e.window = 0 then d.spadRead c (spadPa b e.addr) e.len
  else if e.window = 1 then d.dramRead (dramBase b * 2 ^ 20 + e.addr) e.len
  else d.stageRead (stageBase b * 65536 + e.addr) e.len

/-- The input digest, unless a buffer holds a poisoned word (R441). -/
def Device.inputDigest (d : Device) (t : Nat) : Option (List (BitVec 8)) × Device :=
  let (bs, d) := ((d.task t).tags.filter (fun e => e.role == 1)).foldl (fun (x : List (BitVec 8 × Bool) × Device) e =>
    let (b, d) := x.2.tagBytes t e
    (x.1 ++ b, d)) ([], d)
  (if bs.any (·.2) then none else some (sha384 (bs.map (·.1))), d)

/-- Step 8, and the input digest: the task is BOUND, or the command FAULTED and the slot UNBOUND (R403, R441). -/
def Device.bindWrites (d : Device) (mb t : Nat) (g raw : Image) (v : RelocEnv) : Device :=
  let idx := List.range g.cores
  let d := d.changing (some mb) t
  let d := idx.foldl (fun d i =>
    let c := nth v.cores i 0
    d.loadRuns c (nth v.sets i 0) (g.runs i)) d
  let d := idx.foldl (fun d i => d.onCore (nth v.cores i 0) (fun k => k.bind t g i (nth v.sets i 0))) d
  let id := d.hub.bindNext
  let d := d.onHub (fun h => { h with bindNext := id + 1 })
  let d := d.setTask t { Task.reset with
    state := 1, level := g.level, beatSc := g.beatSc, contract := g.contract, canonical := g.mode == 1,
    seed := BitVec.ofNat 64 g.seed, cores := v.cores, spillPage := g.spill, program := raw.digests.1, weight := raw.digests.2,
    tags := raw.tags, yields := idx.map raw.yields, bundles := idx.map g.bundles, period := raw.period,
    windows := g.windows.map (fun e => BitVec.ofNat 64 (setBits e 56 8 (nth v.cores (weCore e) 0xFF))),
    refresh := (entriesOf 8 (g.sec 10 0xFF)).map (BitVec.ofNat 64),
    plan := g.plan.map (fun p => (p.1, p.2.1, p.2.2.1.map v.planEntry, p.2.2.2.map v.planEntry)), bindId := id }
  let d := d.openEntry t id
  match d.inputDigest t with
  | (some x, d) => (d.onTask t (fun k => { k with input := x })).outcome mb 0 0 []
  | (none, d) => (d.unbind t).outcome mb 6 0 []

/-! ### TASK_BIND -/

/-- What TASK_BIND reads, and every check of Table 18-5 in order: the first that fails, or the image and its environment. -/
def Device.bindCheck (d : Device) (t img bind : Nat) : Sum Nat (Image × Image × RelocEnv) × Device :=
  let inTask := fun (n : Nat) => d.devOk img n && (rzSpace img == 1 || rzOff img + n ≤ 0x9000000)
  if (d.task t).state != 0 then (.inl 3, d)
  else if img % 4096 != 0 || !inTask 128 then (.inl 3, d)
  else
    let len := max 128 (bits (leNat (((d.devRead img 128).1).map (·.1))) 800 32)
    if !inTask len then (.inl 3, d)
    else
      let (bs, e) := d.devRead img len
      let g := Image.of (bs.map (·.1))
      match failing (g.checks1 ++ g.checksLevel d.devNum ++ [(g.sec 15 0xFF != g.digests.1 ++ g.digests.2, 5)]) with
      | some x => (.inl x, d)
      | none =>
        if !d.devOk bind (64 + 16 * g.cores) then (.inl 3, d)
        else
          let n := 64 + 16 * g.cores + 8 * bits (leNat (((d.devRead bind 2).1).map (·.1))) 0 16
          if !d.devOk bind n then (.inl 3, d)
          else
            let (bs, e) := e.devRead bind n
            let bb := BindBlock.of (bs.map (·.1)) g.cores
            let v : RelocEnv := {
              sets := (List.range g.cores).map (fun i => formSet (g.bounds i) (nth bb.cores i 0)),
              cores := bb.cores.map bbCore, patches := bb.patches, dev := d.devNum }
            match failing (d.checks3 g bb ++ [stateCheck ((List.range g.cores).any g.mapsBad)] ++ d.checks5 g
                ++ [stateCheck ((List.range g.cores).any g.yieldsBad), stateCheck (g.tags.any g.tagBad),
                    stateCheck g.planBad]) with
            | some x => (.inl x, d)
            | none =>
              match g.relocated v with
              | none => (.inl 3, d)
              | some r => if r.runsBad || r.planBad then (.inl 3, d) else (.inr (g, r, v), e)

/-- A command is refused with a status and DETAIL RULE; a refusal for its state may be SUPERSEDED (R456). -/
def Device.reject (d : Device) (mb status : Nat) (bad : Device → Bool) : Device :=
  if status = 3 then d.refuse mb bad else d.finish mb status 9 []

/-- TASK_BIND (R398 to R407). -/
def execTaskBind (mb : Nat) (s : State) : Res :=
  runRow mb 0x20 (fun d =>
    let m := d.mbx mb
    match d.bindCheck m.slot (m.body 8 8) (m.body 16 8) with
    | (.inl status, _) => d.reject mb status (fun e => (e.bindCheck m.slot (m.body 8 8) (m.body 16 8)).1.isLeft)
    | (.inr (raw, g, v), e) => e.bindWrites mb m.slot g raw v) s

end Sys2Proof.Machine
end

