-- ==== Sys2Proof/Machine/TaskCommands.lean ====
section
/-! DEFINITION. Machine/TaskCommands.lean: the commands on a bound task (Table 18-8): TASK_START, YIELD_REQ, TASK_STOP,
CTX_SAVE, CTX_RESTORE, DIGEST_READ, REPLAY_ARM and REPLAY_RUN; and HOST_COPY (R474). -/

namespace Sys2Proof.Machine

open Sys2Proof

/-! ### Starts, yields and stops (R407 to R415) -/

/-- Does R407, R408 or R409 refuse a start of task t at schedule beat s? -/
def Device.startBad (d : Device) (t s : Nat) : Bool :=
  let k := d.task t
  !(k.state == 1 || k.state == 3) || decide (s ≤ d.beat.s) || k.cores.any (fun c => (d.core c).running.isSome)
    || k.startS.isSome
    || (List.range 8).any (fun u => u != t && (d.task u).startS.isSome && (d.task u).cores.any (fun c => k.cores.contains c))
    || (k.plan != [] && !(d.fabric.planOn && d.fabric.planSlots.contains t))

/-- TASK_START (R409): registered until the gate of S_START. -/
def execTaskStart (mb : Nat) (s : State) : Res :=
  runRow mb 0x21 (fun d =>
    let m := d.mbx mb
    let t := m.slot
    if d.startBad t (m.body 8 8) then d.refuse mb (fun e => e.startBad t (m.body 8 8))
    else (d.onTask t (fun k => { k with startS := some (m.body 8 8), startMb := some mb })).registered mb) s

/-- YIELD_REQ (R414): an earlier S_REQ replaces the pending one. -/
def execYieldReq (mb : Nat) (s : State) : Res :=
  runRow mb 0x22 (fun d =>
    let m := d.mbx mb
    let t := m.slot
    let k := d.task t
    let q := m.body 8 8
    if k.state != 2 then d.refuse mb (fun e => (e.task t).state != 2)
    else
      match k.yieldS with
      | some old =>
        if q < old then
          ((d.settle k.yieldMb 2).onTask t (fun k => { k with yieldS := some q, yieldMb := some mb })).registered mb
        else d.finish mb 2 0 []
      | none => (d.onTask t (fun k => { k with yieldS := some q, yieldMb := some mb })).registered mb) s

/-- TASK_STOP (R415): registered while RUNNING; in every other state at once, or when nothing of the task is in flight. A
second one finds its work done (log 42). -/
def execTaskStop (mb : Nat) (s : State) : Res :=
  runRow mb 0x23 (fun d =>
    let t := (d.mbx mb).slot
    let k := d.task t
    if k.state = 0 then d.refuse mb (fun e => (e.task t).state == 0)
    else if k.stopReg then d.finish mb 2 0 []
    else
      let d := d.onTask t (fun k => { k with stopReg := true, stopMb := some mb })
      if k.state = 2 then d.registered mb else d.tryStop t) s

/-! ### Contexts (R419, R420) -/

/-- What refuses a CTX_SAVE of slot t to a destination with room for so many bytes (R408, R419). LENGTH bounds the record (log 42). -/
def Device.saveBad (d : Device) (t dest room : Nat) : Bool :=
  let k := d.task t
  let n := 4096 + 40960 * k.cores.length
  !(k.state == 3 || k.state == 5) || decide (room < n) || !d.devOk dest n

/-- CTX_SAVE (R419). -/
def execCtxSave (mb : Nat) (s : State) : Res :=
  runRow mb 0x24 (fun d =>
    let m := d.mbx mb
    let t := m.slot
    if d.saveBad t (m.body 8 8) (m.body 16 4) then d.refuse mb (fun e => e.saveBad t (m.body 8 8) (m.body 16 4))
    else
      let (bs, e) := d.contextRecord t
      (e.devWrite (m.body 8 8) bs).outcome mb 0 0 []) s

/-- Do the key and queue values of a core block break the maps of a core (R420)? -/
def Device.blockBad (d : Device) (t c : Nat) (yields : List Nat) (b : List (BitVec 8)) : Bool :=
  let w := (d.core c).bound t
  let resume := bits (fieldLe b 0 8) 0 14
  !yields.any (fun y => resume == y + 1)
    || (List.range 48).any (fun r =>
      let v := fieldLe b (0x40 + 2 * r) 2
      if r < kCount w then keyCap (d.keyEntry c t r) < v else v != 0)
    || (List.range 128).any (fun r =>
      let v := fieldLe b (0x400 + 8 * r) 8
      let cap := qCap ((d.core c).qEntry t r)
      if r < qCount w && cap != 0 then cap ≤ bits v 0 16 || cap ≤ bits v 16 16 || cap < bits v 32 16
      else bits v 0 48 != 0)

/-- Load a core block into slot t of core c: its switched state goes to the spill area, where TASK_START finds it (R417,
R420). -/
def Device.loadBlock (d : Device) (t c : Nat) (bundles : List (BitVec 384)) (b : List (BitVec 8)) : Device :=
  let w := (d.core c).bound t
  let h := fieldLe b 0 8
  let cds := (entriesOf 64 (slice b 0x1000 16384)).map (BitVec.ofNat 512)
  let mds := (entriesOf 32 (slice b 0x5000 2048)).map (BitVec.ofNat 256)
  let d := d.onCore c (fun k => { k.loadBundles t bundles with
    resume := Sparse.set 0 k.resume t (bits h 0 14),
    sendCtr := Sparse.set 0 k.sendCtr t (BitVec.ofNat 16 (bits h 32 16)),
    flags := Sparse.set 0 k.flags t (BitVec.ofNat 32 (bits h 48 5)),
    keys := Sparse.setMany 0 k.keys (kBase w) ((List.range (kCount w)).map (fun r => fieldLe b (0x40 + 2 * r) 2)),
    queues := Sparse.setMany QState.reset k.queues (qBase w) ((List.range (qCount w)).map (fun r =>
      let v := fieldLe b (0x400 + 8 * r) 8
      { head := bits v 0 16, tail := bits v 16 16, count := bits v 32 16, overflowed := bitAt v 48, visible := bits v 32 16,
        wait := [] })),
    copyDesc := Sparse.setMany 0 k.copyDesc (256 * t) cds,
    mxDesc := Sparse.setMany 0 k.mxDesc (64 * t) mds })
  d.spadWrite c (d.spillPa t c) (unmarked (slice b 0x5800 0x4800 ++ slice b 0 0x40))

/-- A core block of the record at src. -/
def recordBlock (bs : List (BitVec 8)) (i : Nat) : List (BitVec 8) := slice bs (4096 + 40960 * i) 40960

/-- What refuses a CTX_RESTORE of the record at src into slot t (R390, R420): a status. -/
def Device.restoreBad (d : Device) (t src : Nat) : Option Nat :=
  let k := d.task t
  let n := k.cores.length
  if !(k.state == 1 || k.state == 3) then some 3
  else if !d.devOk src (4096 + 40960 * n) then some 3
  else
    let all := (d.devRead src (4096 + 40960 * n)).1
    let bs := all.map (·.1)
    let h := leNat (slice bs 0 128)
    let con := bits h 928 64
    if bits con 56 8 != k.level || bits con 45 11 != k.beatSc then some 4
    else if bits h 992 32 != 0xC7A50E71 || bits h 528 8 != 1 || slice bs 68 48 != slice k.program 0 48 || bits h 536 8 != n then
      some 3
    else if k.cores.any (fun c => (d.core c).running.isSome) then some 3
    else if (List.range n).any (fun i => d.blockBad t (nth k.cores i 0) (nth k.yields i []) (recordBlock bs i)) then some 3
    else if all.any (·.2) then some 6
    else none

/-- The record at src is loaded into slot t, which becomes YIELDED (R420). -/
def Device.restore (d : Device) (t src : Nat) : Device :=
  let k := d.task t
  let n := k.cores.length
  let (all, e) := d.devRead src (4096 + 40960 * n)
  let bs := all.map (·.1)
  let h := leNat (slice bs 0 128)
  let e := (List.range n).foldl (fun e i => e.loadBlock t (nth k.cores i 0) (nth k.bundles i []) (recordBlock bs i)) e
  e.onTask t (fun k => { k with
    state := 3, spillDue := false, runBeats := bits h 400 64, lastYield := bits h 464 64, captureS := bits h 464 64,
    flagWord := if bitAt k.flagWord 2 then k.flagWord else k.flagWord + 4 })

/-- CTX_RESTORE (R390, R420): a record with a poisoned word makes it FAULTED. -/
def execCtxRestore (mb : Nat) (s : State) : Res :=
  runRow mb 0x25 (fun d =>
    let m := d.mbx mb
    let t := m.slot
    let src := m.body 8 8
    match d.restoreBad t src with
    | some status =>
      if status = 6 then d.outcome mb 6 0 []
      else d.reject mb status (fun e => (e.restoreBad t src).isSome)
    | none => ((d.changing (some mb) t).restore t src).outcome mb 0 0 []) s

/-! ### Digests (R388, R443, R520) -/

/-- The body of a digest tag (Table 19-6). -/
def Device.tagBody (d : Device) (t buffer nonce : Nat) (output : List (BitVec 8)) : List (BitVec 8) :=
  let k := d.task t
  output ++ slice k.program 0 48 ++ slice k.weight 0 48 ++ slice k.input 0 48
    ++ leBytes 8 (setBits k.contract 0 8 (b2n k.canonical)) ++ leBytes 8 k.captureS ++ leBytes 2 buffer ++ leBytes 2 d.devNum
    ++ leBytes 1 k.flagWord ++ leBytes 3 0 ++ leBytes 16 nonce ++ leBytes 24 0

/-- Is a compare point of slot t at a schedule beat still open (R518, R520)? -/
def Device.compareOpen (d : Device) (t beat : Nat) : Bool :=
  d.inPair && d.twin.digests.any (fun x => x.1 == t && x.2.1 == beat)

/-- The tag of an output entry; a poisoned word makes the command FAULTED with no tag. R443 leaves the OUTPUT digest of a buffer
that is written while the command runs undefined: the model reads the buffer whole when the command's row runs, so that no write
falls into the read (DESIGN CHOICE, log 85). -/
def Device.digestTag (d : Device) (mb : Nat) : Device :=
  let m := d.mbx mb
  let i := m.body 1 1
  let (bs, d) := d.tagBytes m.slot (nth (d.task m.slot).tags i ⟨0, 0, 0, 0, 0⟩)
  if bs.any (·.2) then d.outcome mb 6 0 []
  else
    let body := d.tagBody m.slot i (m.body 16 16) (sha384 (bs.map (·.1)))
    d.outcome mb 0 0 (body ++ Config.deviceSign (sha384 body))

/-- Does the state of slot t refuse a DIGEST_READ (R408)? -/
def Device.tagBad (d : Device) (t : Nat) : Bool :=
  let k := d.task t
  !(k.state == 3 || k.state == 4) || k.stopping || k.startS.isSome

/-- DIGEST_READ (R443). One whose CAPTURE_S is a compare point waits for the compare, and is FAULTED when it fails (R520). -/
def execDigestRead (mb : Nat) (s : State) : Res :=
  runRow mb 0x43 (fun d =>
    let m := d.mbx mb
    let t := m.slot
    let k := d.task t
    let wait := fun (d : Device) => d.onMbx mb (fun m => { m with compare := some k.captureS, ran := false })
    match m.compare with
    | some beat =>
      if d.compareOpen t beat then wait d
      else if (k.state == 3 || k.state == 4) && !k.stopping then d.digestTag mb
      else d.finish mb 6 0 []
    | none =>
      if d.tagBad t then d.refuse mb (fun e => e.tagBad t)
      else if k.level == 1 then d.finish mb 4 9 []
      else if (k.tags[m.body 1 1]?).map (·.role) != some 2 then d.finish mb 3 9 []
      else if d.compareOpen t k.captureS then wait d
      else d.digestTag mb) s

/-! ### Recording and replay (R430, R435) -/

/-- Does R430 or R539 refuse the ring of len bytes at device address a for slot t? -/
def Device.armBad (d : Device) (t a len : Nat) : Bool :=
  let k := d.task t
  let base := rzOff a
  let others := d.boundSlots.any (fun u => u != t && (d.task u).armed)
  rzSpace a != 1 || !d.devOk a len || base % 2 ^ 20 != 0 || len % 2 ^ 20 != 0 || len == 0
    || base / stackBytes != (base + len - 1) / stackBytes
    || d.boundSlots.any (fun u => (d.task u).cores.any (fun c =>
      let b := (d.core c).bound u
      overlaps (dramBase b * 2 ^ 20) (dramLen b * 2 ^ 20) base len))
    || (match d.logger.ring with
        | some r => r != (base, len) && (others || k.armed || d.logger.buffer != [])
        | none => false)
    || k.replay.isSome
    || (d.stack (base / stackBytes)).retired.any (fun e =>
      e.2 && overlaps (base / stackBytes * stackBytes + e.1 * 2 ^ 20) (2 ^ 20) base len)

/-- REPLAY_ARM (R430, R433, R539). B and LOG_BYTES restart when no other slot is armed (log 43). -/
def execReplayArm (mb : Nat) (s : State) : Res :=
  runRow mb 0x44 (fun d =>
    let m := d.mbx mb
    let t := m.slot
    let arm := m.body 1 1
    let a := m.body 8 8
    let len := m.body 16 8
    let bad := fun (e : Device) =>
      let k := e.task t
      k.state == 0 || decide (1 < arm) || (arm == 1 && (decide (4 ≤ k.state) || e.armBad t a len))
    if bad d then d.refuse mb bad
    else if arm = 0 then ((d.onTask t (fun k => { k with armed := false })).freeRing).outcome mb 0 0 []
    else
      let others := d.boundSlots.any (fun u => u != t && (d.task u).armed)
      let d := d.onTask t (fun k => { k with armed := true, logSeq := 0 })
      let d :=
        if others then d
        else
          let d := { d with logger := { Logger.reset with ring := some (rzOff a, len) } }
          d.onHub (fun h => { h with counters := Sparse.set 0 h.counters 13 0 })
      d.outcome mb 0 0 []) s

/-- The records of a log from a byte offset on, each as its header and padded payload, until one is no record; a record may
run over the end of the log to its start (R432, R433). -/
def logRecords (bs : List (BitVec 8)) (pos : Nat) : Nat → List (List (BitVec 8))
  | 0 => []
  | n + 1 =>
    let h := fieldLe bs pos 32
    let kind := bits h 114 8
    let len := bits h 101 13
    if kind = 0 || 10 < kind || 4096 < len then []
    else
      let all := 32 + roundUp len 32
      let l := bs.length
      let part := bs.drop pos ++ bs.take pos
      part.take all :: logRecords bs ((pos + all) % max 1 l) (n - (all / 32 - 1))

/-- SEQ, T, TSLOT and KIND of a log record (Table 19-2). -/
def recSeq (r : List (BitVec 8)) : Nat := bits (fieldLe r 0 32) 208 48
/-- T. -/
def recT (r : List (BitVec 8)) : Nat := bits (fieldLe r 0 32) 144 64
/-- TSLOT. -/
def recSlot (r : List (BitVec 8)) : Nat := bits (fieldLe r 0 32) 122 3
/-- KIND. -/
def recKind (r : List (BitVec 8)) : Nat := bits (fieldLe r 0 32) 114 8

/-- The records of one slot that follow the start record, with consecutive SEQ from q, up to the first YIELD of task beat
limit or more; none when a GAP of any slot or a gap in SEQ comes first. A lower SEQ is what an older recording left: the log ends there. -/
def replaySpan (q limit : Nat) : List (List (BitVec 8)) → Option (List (List (BitVec 8)))
  | [] => some []
  | r :: rest =>
    if recKind r = 9 || q < recSeq r then none
    else if recSeq r < q then some []
    else if recKind r = 2 && limit ≤ recT r then some [r]
    else (replaySpan (q + 1) limit rest).map (fun l => r :: l)

/-- The start record of SEQ q of slot t: the first place, in 32 B steps, whose header is a START or YIELD record with that
SEQ and slot. -/
def startRecord (bs : List (BitVec 8)) (t q : Nat) : Option Nat :=
  ((List.range (bs.length / 32)).map (32 * ·)).find? (fun p =>
    let r := slice bs p 32
    recSeq r == q && recSlot r == t && (recKind r == 1 || recKind r == 2) && bits (leNat r) 101 13 == 0)

/-- The records of a replay of slot t from the log at device address a, started at the record of SEQ q for schedule beat start up
to last (R435): the records after the start record, or none where a check refuses it. -/
def Device.replayFind (d : Device) (t a len q start last : Nat) : Option (List (List (BitVec 8))) :=
  let k := d.task t
  if k.armed || d.startBad t start then none
  else if rzSpace a != 1 || !d.devOk a len then none
  else
    let bs := (d.devRead a len).1.map (·.1)
    match startRecord bs t q with
    | none => none
    | some p =>
      match (logRecords bs p (len / 32)).filter (fun r => recSlot r == t || recKind r == 9) with
      | [] => none
      | r :: rest =>
        let first := if recKind r = 1 then 0 else recT r + 1
        let ok := if recKind r = 1 then k.state == 1 && recT r == 0 else k.state == 3 && first == k.runBeats
        match replaySpan (recSeq r + 1) (first + (last - start)) rest with
        | none => none
        | some l => if ok then some l else none

/-- REPLAY_RUN (R435): the task starts as under TASK_START, and completes at the gate of its S_START (R612). -/
def execReplayRun (mb : Nat) (s : State) : Res :=
  runRow mb 0x45 (fun d =>
    let m := d.mbx mb
    let t := m.slot
    let a := m.body 8 8
    let len := m.body 16 8
    let start := m.body 32 8
    let last := m.body 40 8
    match d.replayFind t a len (m.body 24 8) start last with
    | none => d.refuse mb (fun e => (e.replayFind t a len (m.body 24 8) start last).isNone)
    | some l => (d.devRead a len).2.onTask t (fun k => { k with
        startS := some start, startMb := some mb, replay := some l, replayLog := l, replayEnd := last,
        mismatchSeen := false })) s

/-! ### HOST_COPY (R474) -/

/-- Is DEV_ADDR of a HOST_COPY, with its length, a place that exists: DRAM or task staging of the device it names? -/
def Device.hostDevOk (d : Device) (a n : Nat) : Bool :=
  if rzDev a = d.devNum then
    d.devOk (rzMake 0 (rzSpace a) (rzOff a)) n && rzValid d.grade a n
  else
    match d.gradeOfDev (rzDev a) with
    | some g => (rzSpace a == 1 || rzSpace a == 2) && rzValid g a n
    | none => false

/-- HOST_COPY (R474, R532): it is BUSY while an attach runs; its bytes move with the ticks and events that carry them. -/
def execHostCopy (mb : Nat) (s : State) : Res :=
  runRow mb 0x62 (fun d =>
    let m := d.mbx mb
    let a := m.hcDev
    let n := m.hcLen
    let own := rzDev a == d.devNum
    if d.twin.role = 2 then d.finish mb 1 0 []
    else if 1 < m.hcDir || !(rzSpace a == 1 || rzSpace a == 2) || (m.hcDir == 1 && !own) || !d.hostDevOk a n then
      d.finish mb 3 9 []
    else if m.hcDir = 0 && own && d.hostBarred (rzSpace a) (rzOff a) n then d.finish mb 3 9 []
    else if n = 0 then d.outcome mb 0 0 []
    else (d.onMbx mb (fun m => { m with copyLeft := some (0, n) })).hostCopyFlow mb) s

end Sys2Proof.Machine
end

