-- ==== Sys2Proof/Machine/Plan.lean ====
section
/-! DEFINITION. Machine/Plan.lean: the configuration: TOPO_SET (R358, R473), DRONE_ROLE (R41) and the slot plan under
stop-change-restart (R327 to R329, R354, R466 to R469). -/

namespace Sys2Proof.Machine

open Sys2Proof

/-! ### Topology (R358, R473, Table 20-14) -/

/-- The topology block, as bytes: the entry of port p. -/
def topoPort (bs : List (BitVec 8)) (p : Nat) : Nat := fieldLe bs (0x40 + 8 * p) 8

/-- The device map entry of a device number. -/
def topoDev (bs : List (BitVec 8)) (n : Nat) : Nat := fieldLe bs (0x200 + n) 1

/-- The route of a device number. -/
def topoRoute (bs : List (BitVec 8)) (n : Nat) : Nat := fieldLe bs (0x1200 + n) 1

/-- Does a topology block break R473? -/
def Device.topoBad (d : Device) (bs : List (BitVec 8)) : Bool :=
  let own := topoDev bs (bits (fieldLe bs 0 8) 0 12)
  (List.range 34).any (fun p =>
    let e := topoPort bs p
    d.hasPort p && bitAt e 31 && !bitAt (topoDev bs (bits e 0 12)) 7)
    || (List.range 4096).any (fun n => 31 < topoRoute bs n)
    || !bitAt own 7 || bits own 0 2 != d.grade.code

/-- One port takes what TOPO_SET declares: step 5 of link-up is made again where the neighbour changed, and a port that is not
enabled goes down (R358, R466). -/
def Device.topoEntry (d : Device) (p e : Nat) : Device :=
  if !d.hasPort p then d
  else
    let q := d.port p
    let on := bitAt e 31
    let same := q.nbrDev == bits e 0 12 && q.nbrPort == bits e 12 6
    let d := if on then d else d.portDown p
    let d := d.onPort p (fun q => { q with
      enabled := on, nbrDev := bits e 0 12, nbrPort := bits e 12 6, halted := q.halted && !on,
      step := if on && !same && 5 ≤ q.step then 4 else q.step, inPlan := q.inPlan && on && same })
    if d.ownLinkUp p then d.topoStep p else d

/-- The device takes a topology block. -/
def Device.setTopo (d : Device) (bs : List (BitVec 8)) : Device :=
  let h := fieldLe bs 0 8
  let d := d.onFabric (fun f => { f with
    device := some (bits h 0 12), manager := if bitAt h 31 then some (bits h 16 12) else none,
    map := (List.range 4096).foldl (fun m n =>
      let x := topoDev bs n
      if bitAt x 7 then Sparse.insert m n (bits x 0 2 + 1) else m) [],
    routes := Sparse.setMany 0 [] 0 ((List.range 4096).map (topoRoute bs)), topoSet := true })
  (List.range 34).foldl (fun d p => d.topoEntry p (topoPort bs p)) d

/-- TOPO_SET (R358, R473). -/
def execTopoSet (mb : Nat) (s : State) : Res :=
  runRow mb 0x03 (fun d =>
    let m := d.mbx mb
    let bad := fun (e : Device) =>
      e.anyBound || m.body 8 4 != 8704 || !e.devOk (m.body 0 8) 8704
        || e.topoBad (((e.devRead (m.body 0 8) 8704).1).map (·.1))
    if bad d then d.refuse mb bad
    else
      let (bs, e) := (d.changing (some mb) 8).devRead (m.body 0 8) 8704
      (e.setTopo (bs.map (·.1))).outcome mb 0 0 []) s

/-! ### Drone role (R39 to R41, R60) -/

/-- Does a mask name a port that is not enabled, or a bit above 31 (R41)? -/
def Device.maskBad (d : Device) (mask : Nat) : Bool :=
  2 ^ 32 ≤ mask || (bitsOf 32 mask).any (fun p => !d.hasPort p || !(d.port p).enabled)

/-- DRONE_ROLE (R41). The device is aligning; after an earlier alignment it goes back to aligning, and takes new numbers (R60);
one that R60 has refused stays so. -/
def execDroneRole (mb : Nat) (s : State) : Res :=
  runRow mb 0x04 (fun d =>
    let m := d.mbx mb
    let role := m.body 0 1
    let off := toSigned (m.body 4 4) 32
    let root := m.body 8 8
    let standby := m.body 16 8
    let bad := fun (e : Device) =>
      e.anyBound || 2 < role || e.maskBad root || e.maskBad standby || (role == 1 && root != 0) || (role == 2 && standby != 0)
        || decide (off < -100000) || decide (100000 < off)
    if bad d then d.refuse mb bad
    else
      let d := d.changing (some mb) 8
      let x := d.drone
      let again := d.beat.aligned && x.realign != 2
      let x := { x with
        role := role, rootMask := root, standbyMask := standby, offsetPs := off, outEnable := bitAt (m.body 1 1) 0,
        useStandby := false, tree := false, rootBad := 0, noValid := 0, valid := 0, relock := 0,
        activePort := 0, thetas := [],
        st := if again || x.st == 0 then 1 else x.st,
        outEdge := x.outEdge && bitAt (m.body 1 1) 0, outFrame := if bitAt (m.body 1 1) 0 then x.outFrame else 0,
        realign := if !again then x.realign
          else if x.st == 5 then 3 else if x.st == 4 && !x.realigning then 4 else if x.realigning then x.realign else 1 }
      ({ d with drone := x }).finish mb 0 0 []) s

/-! ### Building a plan (R327 to R329, R354, R469) -/

/-- A plan as parts: port, P, transmit and receive entries. -/
abbrev PlanPart := Nat × Nat × List (BitVec 64) × List (BitVec 64)

/-- The entries of one position and phase of several parts, merged: none when two of them hold something different there. -/
def mergeEntry (l : List (BitVec 64)) : Option (BitVec 64) :=
  match l.filter (fun e => peKind e.toNat != 0) with
  | [] => some 0
  | e :: rest => if rest.all (· == e) then some e else none

/-- The entry of a part for phase ph and position k. -/
def partEntry (p : Nat) (es : List (BitVec 64)) (ph k : Nat) : BitVec 64 := nth es (224 * (ph % max 1 p) + k) 0

/-- The plan of one port from its parts, with the largest P (R469, log 44); none when two parts hold different entries. -/
def mergeParts (parts : List PlanPart) : Option PlanEntry :=
  let p := maxOr0 (parts.map (fun x => x.2.1))
  let cells := (List.range p).flatMap (fun ph => (List.range 224).map (fun k => (ph, k)))
  let tx := cells.map (fun c => mergeEntry (parts.map (fun x => partEntry x.2.1 x.2.2.1 c.1 c.2)))
  let rx := cells.map (fun c => mergeEntry (parts.map (fun x => partEntry x.2.1 x.2.2.2 c.1 c.2)))
  if tx.all (·.isSome) && rx.all (·.isSome) then some ⟨p, tx.map (·.getD 0), rx.map (·.getD 0)⟩ else none

/-- F_p: the whole slots between a position's arrival at port p and its earliest forwarding (R329). -/
def Port.forwardGap (q : Port) : Int := ((q.delayPs + 7000) * 7 + 31999) / 32000

/-- Does a LOCAL address leave its memory (R354)? -/
def Device.planAddrBad (d : Device) (e : Nat) : Bool :=
  if peCore e = 0xFF then 0x9000000 ≤ peAddr e + 479 else !d.hasCore (peCore e) || 0x7000000 ≤ peAddr e + 479

/-- May port p stand in a plan: it exists and is enabled (R327)? -/
def Device.planPort (d : Device) (p : Nat) : Bool := d.hasPort p && (d.port p).enabled

/-- Does a transmit entry at position k break R327, R329 or R354? -/
def Device.txBad (d : Device) (k e : Nat) : Bool :=
  let i := pePort e
  match peKind e with
  | 0 => false
  | 1 => 1599 < peReady e || d.planAddrBad e
  | 2 =>
    let j := peSlot e
    32 ≤ i || !d.planPort i || j < 9 || 223 < j || (j ≤ k && decide ((k : Int) < j + (d.port i).forwardGap))
  | _ => i != 63 && (32 ≤ i || !d.planPort i)

/-- Does a receive entry break R327 or R354? A key must be one of a core (log 44). -/
def Device.rxBad (d : Device) (e : Nat) : Bool :=
  (peKind e == 1 && d.planAddrBad e) || (peKind e != 0 && peKeyEn e && (47 < peKey e || !d.hasCore (peCore e)))

/-- Does the plan of a port break R327 to R329 or R354? -/
def Device.planBad (d : Device) (p : Nat) (x : PlanEntry) : Bool :=
  let ok := fun (es : List (BitVec 64)) (f : Nat → Nat → Bool) =>
    (List.range es.length).any (fun i => f (i % 224) ((nth es i 0).toNat))
  !([1, 2, 4, 8, 16].contains x.p) || !d.planPort p
    || ok x.tx (fun k e => ((k < 9 || 32 ≤ p) && peKind e != 0) || d.txBad k e
      || (2 ≤ peKind e && (List.range x.p).any (fun ph => (partEntry x.p x.tx ph k).toNat != e)))
    || ok x.rx (fun k e => ((k < 9 || 32 ≤ p) && peKind e != 0) || d.rxBad e)

/-- The plan that the parts build, by port; none when they do not fit together or break a rule. -/
def Device.buildPlan (d : Device) (parts : List PlanPart) : Option (List (Nat × PlanEntry)) :=
  let ports := (List.range 64).filter (fun p => parts.any (fun x => x.1 == p))
  let l := ports.map (fun p => (mergeParts (parts.filter (fun x => x.1 == p))).map (fun x => (p, x)))
  if parts.any (fun x => !([1, 2, 4, 8, 16].contains x.2.1)) then none
  else if l.all (fun o => match o with
      | some x => !d.planBad x.1 x.2
      | none => false) then some (l.filterMap id) else none

/-- The plan of a PLAN_SET (R469): the block of n bytes at src with the fragments of the slots; none where it is refused. -/
def Device.planFrom (d : Device) (src n : Nat) (slots : List Nat) : Option (List (Nat × PlanEntry)) :=
  if d.fabric.planOn || !d.devOk src n then none
  else
    match parsePlan (n + 1) (((d.devRead src n).1).map (·.1)) with
    | none => none
    | some l => d.buildPlan (l ++ slots.flatMap (fun t => (d.task t).plan))

/-- PLAN_SET (R469): only while the base plan runs. -/
def execPlanSet (mb : Nat) (s : State) : Res :=
  runRow mb 0x31 (fun d =>
    let m := d.mbx mb
    let src := m.body 0 8
    let n := m.body 8 4
    let slots := (bitsOf 8 (m.body 12 1)).filter d.isBound
    match d.planFrom src n slots with
    | none => d.refuse mb (fun e => (e.planFrom src n slots).isNone)
    | some x =>
      (((d.changing (some mb) 8).devRead src n).2.onFabric (fun f => { f with
        newPlan := some x, newSlots := slots })).outcome mb 0 0 []) s

/-! ### Stopping and starting a plan (R468, R469) -/

/-- PLAN_STOP (R468). One that is registered stands (log 45). -/
def execPlanStop (mb : Nat) (s : State) : Res :=
  runRow mb 0x30 (fun d =>
    let x := (d.mbx mb).body 0 8
    let bad := fun (e : Device) => decide (x ≤ e.beat.s) || e.fabric.stopS.isSome
    if bad d then d.refuse mb bad
    else (d.onFabric (fun f => { f with stopS := some (x, mb), stopDone := false })).registered mb) s

/-- PLAN_START (R469): there must be a plan to start, and no plan still in force at S_START (log 45). -/
def execPlanStart (mb : Nat) (s : State) : Res :=
  runRow mb 0x32 (fun d =>
    let x := (d.mbx mb).body 0 8
    let bad := fun (e : Device) =>
      let f := e.fabric
      let tooLate := match f.stopS with
        | some (b, _) => decide (x < b + 4)
        | none => f.planOn
      decide (x ≤ e.beat.s) || f.startS.isSome || tooLate || (f.newPlan.isNone && f.oldPlan.isNone)
    if bad d then d.refuse mb bad
    else (d.onFabric (fun f => { f with startS := some (x, mb) })).registered mb) s

/-- PLAN_STOP_EFFECT (R468): at the end of S_STOP a task of the plan that is RUNNING faults; at the edge at which S becomes
S_STOP + 4 the base plan runs, and the command completes. -/
def execPlanStopEffect (s : State) : Res :=
  lift (fun d =>
    match d.fabric.stopS with
    | none => d
    | some (x, mb) =>
      if d.planStopDue && d.schedRegions.all d.regionDone && (List.range 8).all (fun t => !d.yieldDue t) then
        let d := d.fabric.planSlots.foldl (fun d t =>
          if (d.task t).state == 2 then d.fault t 0x0102 5 0 0 0 0 0 else d) d
        d.onFabric (fun f => { f with stopDone := true })
      else if d.fabric.stopDone && x + 4 ≤ d.beat.s then
        let d := (d.changing (some mb) 8).onFabric (fun f => { f with
          planOn := false, newPlan := none, newSlots := [], planSlots := [], stopS := none, stopDone := false })
        let d := d.portNums.foldl (fun d p => d.onPort p (fun q => { q with inPlan := false })) d
        d.settle (some mb) 0
      else d) s

/-- PLAN_START_EFFECT (R469): at the edge at which S becomes S_START the new plan, or the stopped one, is in force on every port
that is up; it is what the next PLAN_STOP stops. -/
def execPlanStartEffect (s : State) : Res :=
  lift (fun d =>
    match d.fabric.startS with
    | none => d
    | some (x, mb) =>
      if x ≤ d.beat.s && d.fabric.stopS.isNone then
        let f := d.fabric
        let plan := (if f.newPlan.isSome then f.newPlan else f.oldPlan).getD []
        let slots := if f.newPlan.isSome then f.newSlots else f.oldSlots
        let d := (d.changing (some mb) 8).onFabric (fun f => { f with
          planOn := true, localFrom := x, planSlots := slots, oldPlan := some plan, oldSlots := slots, newPlan := none,
          newSlots := [], startS := none })
        let d := d.portNums.foldl (fun d p => d.onPort p (fun q => { q with
          plan := Sparse.get PlanEntry.reset plan p, inPlan := q.up && p < 32 })) d
        d.settle (some mb) 0
      else d) s

end Sys2Proof.Machine
end

