-- ==== Sys2Proof/Machine/Roles.lean ====
section
/-! DEFINITION. Machine/Roles.lean: the twin role of a package and what follows from it (R503, R504). -/

namespace Sys2Proof.Machine

open Sys2Proof

/-- TWIN_ROLE: the new status word, and the partner's fault code when the change follows a fault (R504, Table 23-5). -/
def Device.roleRecord (d : Device) (partnerCode : Nat) : Device := d.event 0x0007 0 0 0 d.twinWord partnerCode

/-- The package takes a role: TWIN_ALIVE is low only in MUTED, TWIN_TX_EN is high only in SOLO and PRIMARY, and the drivers are
idle unless the role transmits on the fabric (R503, Table 22-1). -/
def Device.setRole (d : Device) (role partnerCode : Nat) : Device :=
  let d := d.onTwin (fun t => { t with role := role, roleKnown := true })
  let d := { d with pins := { d.pins with
    twinAlive := role != 6, twinTxEn := role == 0 || role == 4,
    serdesIdle := !(role == 0 || role == 2 || role == 4) } }
  d.roleRecord partnerCode

/-- The partner's role as last received over the twin link (R504). -/
def Device.setPartner (d : Device) (role partnerCode : Nat) : Device :=
  if d.twin.partner = role then d else (d.onTwin (fun t => { t with partner := role })).roleRecord partnerCode

/-- A joining package goes back to STANDBY (R534). -/
def Device.standBy (d : Device) : Device :=
  (d.onTwin (fun t => { t with joinIn := [], steer := [] })).setRole 1 0

end Sys2Proof.Machine
end

