-- ==== Sys2Proof/Machine/Boot.lean ====
section
/-! DEFINITION. Machine/Boot.lean: start-up (R477 to R500): the boot flash and its directory, the Felre image and its checks, the
recovery stream, boot halt, the start-up steps, and the change of the personality. -/

namespace Sys2Proof.Machine

open Sys2Proof

/-! ### The flash and its directory (R478, R479) -/

/-- Bytes of the boot flash. An erased byte reads as ones (log 47). -/
def Device.flashRead (d : Device) (a n : Nat) : List (BitVec 8) := Sparse.getMany 0xFF d.boot.flash a n

/-- Erase n bytes of the flash at a, and program bytes there. -/
def Device.flashWrite (d : Device) (a n : Nat) (bs : List (BitVec 8)) : Device :=
  let erased := d.boot.flash.filter (fun e => !(a ≤ e.1 && e.1 < a + n))
  { d with boot := { d.boot with flash := Sparse.setMany 0xFF erased a bs } }

/-- A directory copy. -/
def Device.dirCopy (d : Device) (i : Nat) : List (BitVec 8) := d.flashRead (0x1000 * i) 64

/-- Is a directory copy valid? -/
def dirValid (c : List (BitVec 8)) : Bool := fieldLe c 60 4 == 0xFE1ED1C7 && fieldLe c 0 4 == crc32c (c.drop 4)

/-- GENERATION of a valid copy; an invalid one counts 0 (log 47). -/
def dirGen (c : List (BitVec 8)) : Nat := if dirValid c then fieldLe c 56 4 else 0

/-- PREFERRED and VALID that a copy gives. -/
def dirFields (c : List (BitVec 8)) : Nat × Nat := (if fieldLe c 55 1 = 1 then 1 else 0, bits (fieldLe c 54 1) 4 2)

/-- The copy that is in force, and the one that the next write replaces: the older, or the one that is not valid; copy 0 when
nothing tells them apart (log 47). -/
def Device.dirNewer (d : Device) : Nat :=
  let a := d.dirCopy 0
  let b := d.dirCopy 1
  if dirValid b && (!dirValid a || dirGen a < dirGen b) then 1 else if dirValid a then 0 else 1

/-- PREFERRED and VALID in force (R479). -/
def Device.directory (d : Device) : Nat × Nat :=
  let c := d.dirCopy d.dirNewer
  if dirValid c then dirFields c else (0, 3)

/-- Write a directory copy: GENERATION is 1 more than the greater of the two (R494). -/
def Device.dirWrite (d : Device) (i pref valid : Nat) : Device :=
  let gen := (max (dirGen (d.dirCopy 0)) (dirGen (d.dirCopy 1)) + 1) % 2 ^ 32
  let body := List.replicate 50 0 ++ [BitVec.ofNat 8 (valid % 4 * 16), BitVec.ofNat 8 pref] ++ leBytes 4 gen
    ++ leBytes 4 0xFE1ED1C7
  d.flashWrite (0x1000 * i) 4096 (leBytes 4 (crc32c body) ++ body)

/-- Where a slot begins: 0 A, 1 B, 2 the recovery stream (Table 21-1). -/
def slotBase (slot : Nat) : Nat := if slot = 0 then 0x1000000 else if slot = 1 then 0x8000000 else 0x400000

/-! ### The Felre image (R481 to R486) -/

/-- A field of the header: w bits from bit lo (Table 21-3). -/
def hdrField (h : List (BitVec 8)) (lo w : Nat) : Nat := bits (leNat h) lo w

/-- FRAMES of a header. -/
def hdrFrames (h : List (BitVec 8)) : Nat := hdrField h 3808 32

/-- Section table entry i (Table 21-4). -/
def hdrSection (h : List (BitVec 8)) (i : Nat) : Nat := hdrField h (128 * i) 128

/-- KIND of a section entry. -/
def secKind (e : Nat) : Nat := bits e 120 8
/-- DIES of a section entry. -/
def secDies (e : Nat) : Nat := bits e 115 5
/-- FIRST of a section entry. -/
def secFirst (e : Nat) : Nat := bits e 64 32
/-- COUNT of a section entry. -/
def secCount (e : Nat) : Nat := bits e 32 32
/-- BYTES of a section entry. -/
def secBytes (e : Nat) : Nat := bits e 0 32

/-- The section entries in use. -/
def hdrSections (h : List (BitVec 8)) : List Nat := (List.range (hdrField h 3800 8)).map (hdrSection h)

/-- Bytes of the target area of a KIND (Table 21-5). -/
def areaBytes (kind : Nat) : Nat :=
  if kind = 1 then 0x1000000 else if kind = 2 then 0x800000 else if kind = 3 then 0x40000 else 0x10000

/-- May a section of this KIND name these dies (Table 21-5)? -/
def diesOk (kind dies : Nat) : Bool :=
  if kind = 1 || kind = 2 || kind = 4 then dies == 1
  else if kind = 3 then (bitsOf 5 dies).length == 1
  else kind == 5 && !bitAt dies 0

/-- Do the sections cover the frames from `from_` to FRAMES in order? -/
def sectionsCover (frames from_ : Nat) : List Nat → Bool
  | [] => from_ == frames
  | e :: rest => secFirst e == from_ && 1 ≤ secCount e && sectionsCover frames (from_ + secCount e) rest

/-- Is an order word good (R495)? -/
def orderOk (o : Nat) : Bool :=
  let steps := [bits o 62 2, bits o 60 2, bits o 58 2, bits o 56 2]
  (List.range 4).all steps.contains && bits o 48 8 == 0
    && decide (steps.findIdx (· == 0) < steps.findIdx (· == 3))

/-- Does a header break the format (R485)? -/
def headerFormatBad (h : List (BitVec 8)) : Bool :=
  let secs := hdrSections h
  let n := secs.length
  hdrField h 4064 32 != 0xFE170A5E || hdrField h 4048 16 != 1 || bits (hdrField h 4024 8) 3 5 != 0 || hdrField h 2048 1752 != 0
    || !(1 ≤ hdrFrames h && hdrFrames h ≤ 24575) || !(1 ≤ n && n ≤ 16)
    || secs.any (fun e => bits e 96 19 != 0 || !([1, 2, 3, 4, 5].contains (secKind e) && diesOk (secKind e) (secDies e)))
    || (List.range (16 - n)).any (fun i => hdrSection h (n + i) != 0)
    || !sectionsCover (hdrFrames h) 0 secs
    || (secs.filter (fun e => secKind e == 1)).length != 1
    || (List.range 5).any (fun die => (secs.filter (fun e => secKind e == 3 && bitAt (secDies e) die)).length != 1)
    || !orderOk (hdrField h 3880 64)

/-- The identity check (R486): the cause of its failure. -/
def Device.identityBad (d : Device) (h : List (BitVec 8)) : Option Nat :=
  let serial := hdrField h 3944 64
  if hdrField h 4032 16 != d.ident.part then some 0
  else if !bitAt (hdrField h 4024 8) d.grade.code then some 1
  else if d.ident.stepping < hdrField h 4016 8 || hdrField h 4008 8 < d.ident.stepping then some 2
  else if serial != 0 && serial != d.ident.serial then some 3
  else none

/-- What is wrong with a header: record code and cause (Table 21-8). -/
def Device.imageHeaderBad (d : Device) (h : List (BitVec 8)) : Option (Nat × Nat) :=
  if headerFormatBad h then some (0x0501, 0) else (d.identityBad h).map (fun c => (0x0502, c))

/-- INDEX of a frame (Table 21-6). -/
def frIndex (f : List (BitVec 8)) : Nat := fieldLe f 24 4
/-- LOAD of a frame. -/
def frLoad (f : List (BitVec 8)) : Nat := fieldLe f 20 4
/-- LEN of a frame. -/
def frLen (f : List (BitVec 8)) : Nat := fieldLe f 18 2
/-- KIND of a frame. -/
def frKind (f : List (BitVec 8)) : Nat := fieldLe f 17 1
/-- DIES of a frame. -/
def frDies (f : List (BitVec 8)) : Nat := bits (fieldLe f 16 1) 3 5
/-- LAST of a frame. -/
def frLast (f : List (BitVec 8)) : Bool := bitAt (fieldLe f 16 1) 2

/-- Is the CRC of a frame wrong? -/
def frameCrcBad (f : List (BitVec 8)) : Bool := fieldLe f 28 4 != crc32c (f.take 28 ++ slice f 32 4064)

/-- What every frame must keep, of an image and of a recovery stream: its INDEX, and the bounds of its target area. -/
def framePlaceBad (f : List (BitVec 8)) (i : Nat) : Bool := frIndex f != i || areaBytes (frKind f) < frLoad f + frLen f

/-- What a frame of an image must keep besides, by its header alone: reserved bits of 0, and a LEN within the frame (R12, R485). -/
def frameShapeBad (f : List (BitVec 8)) (i : Nat) : Bool :=
  fieldLe f 0 16 != 0 || bits (fieldLe f 16 1) 0 2 != 0 || 4064 < frLen f || framePlaceBad f i

/-- What is wrong with frame i of an image: the cause of IMAGE_AUTH_FAIL (R485). The frame header comes before the bytes that the
CRC covers. -/
def frameBad (h f : List (BitVec 8)) (i : Nat) : Option Nat :=
  match (hdrSections h).find? (fun e => secFirst e ≤ i && i < secFirst e + secCount e) with
  | some e =>
    if frameShapeBad f i || frKind f != secKind e || frDies f != secDies e || secBytes e < frLoad f + frLen f then some 0
    else if frameCrcBad f then some 1
    else none
  | none => some 0

/-- What is wrong with frame i of a recovery stream: R490 names all of it, and reserved bits are ignored (R12). -/
def recoveryFrameBad (f : List (BitVec 8)) (i : Nat) : Option Nat :=
  if framePlaceBad f i || frDies f != 1 || !([1, 2, 3].contains (frKind f)) then some 0
  else if frameCrcBad f then some 1
  else none

/-- Does the signature of an image of n frames verify (R487)? -/
def signatureOk (img : List (BitVec 8)) (n : Nat) : Bool :=
  Config.imageSigned (sha384 (slice img 0 (512 + 4096 * n))) (slice img (512 + 4096 * n) 96) 0

/-! ### Start-up (R480, R487 to R492, R496) -/

/-- The slots that start-up tries, in order (R480). -/
def Device.slotOrder (d : Device) : List Nat :=
  let (pref, valid) := d.directory
  [pref, 1 - pref].filter (bitAt valid)

/-- The start-up records that the hub keeps go to the health log (R489): slot 0 A, 1 B, 2 the recovery region, and the frame. -/
def Device.logBoot (d : Device) : Device :=
  let d := d.boot.pendingRecs.foldl (fun d r => d.log { HealthRec.reset with
    s := d.beat.s, code := r.1, cls := 5, cause := r.2.1, unitKind := 4, dHi := r.2.2.1, dLo := r.2.2.2 }) d
  { d with boot := { d.boot with pendingRecs := [] } }

/-- Boot halt (R492). -/
def Device.bootHalt (d : Device) : Device :=
  let d := d.logBoot
  { d with boot := { d.boot with phase := .halt }, pins := { d.pins with xspiOn := false } }

/-- Read slot n next, from its first frame. -/
def Device.bootTry (d : Device) (n : Nat) : Device :=
  { d with boot := { d.boot with phase := .frames, slot := n, tried := insertNew n d.boot.tried, frame := 0 } }

/-- Try the next slot, then the recovery stream, then halt (R480). -/
def Device.bootNext (d : Device) : Device :=
  match d.slotOrder.find? (fun s => !d.boot.tried.contains s) with
  | some s => d.bootTry s
  | none => if d.boot.tried.contains 2 then d.bootHalt else d.bootTry 2

/-- The image in hand is abandoned, with its record (R485, R489). -/
def Device.bootFail (d : Device) (code cause : Nat) : Device :=
  let d := { d with boot := { d.boot with pendingRecs := d.boot.pendingRecs ++ [(code, cause, d.boot.slot, d.boot.frame)] } }
  d.bootNext

/-- DIE_ATTESTATION (R496). -/
def execDieAttestation (q : Nat) (ok : Bool) (s : State) : Res :=
  onUnit (fun _ => q < 4) (fun d =>
    if d.boot.phase != .attest || d.boot.attested.contains q then d
    else if ok then
      let d := { d with boot := { d.boot with attested := insertNew q d.boot.attested } }
      if d.boot.attested.length = 4 then { d.bootNext with pins := { d.pins with xspiOn := true } } else d
    else
      { d with boot := { d.boot with pendingRecs := d.boot.pendingRecs ++ [(0x0502, 4, 0, q + 1)] } }.bootHalt) s

/-- The image frame buffer of hub staging. -/
def frameBuffer : Nat := 0xA000000

/-- Put bytes of an image into the frame buffer. -/
def Device.bufferWrite (d : Device) (off : Nat) (bs : List (BitVec 8)) : Device := d.stageWrite (frameBuffer + off) (unmarked bs)

/-- Bytes of the frame buffer. -/
def Device.buffered (d : Device) (off n : Nat) : List (BitVec 8) := Sparse.getMany 0 d.staging.bytes (frameBuffer + off) n

/-- The next frame of an image: with frame 0 its header comes first. -/
def Device.imageFrame (d : Device) : Device :=
  let base := slotBase d.boot.slot
  let i := d.boot.frame
  let h := if i = 0 then d.flashRead base 512 else d.buffered 0 512
  match if i = 0 then d.imageHeaderBad h else none with
  | some (code, cause) => d.bootFail code cause
  | none =>
    let d := if i = 0 then d.bufferWrite 0 h else d
    let f := d.flashRead (base + 512 + 4096 * i) 4096
    match frameBad h f i with
    | some cause => d.bootFail 0x0501 cause
    | none =>
      let d := d.bufferWrite (512 + 4096 * i) f
      { d with boot := { d.boot with frame := i + 1, phase := if i + 1 = hdrFrames h then .sign else .frames } }

/-- The next frame of the recovery stream (R490). -/
def Device.recoveryFrame (d : Device) : Device :=
  let i := d.boot.frame
  let f := d.flashRead (slotBase 2 + 4096 * i) 4096
  match recoveryFrameBad f i with
  | some cause => d.bootFail 0x0501 cause
  | none =>
    if frLast f then
      { d.bufferWrite (4096 * i) f with boot := { d.boot with frame := i + 1, phase := .sign } }
    else if i = 1023 then d.bootFail 0x0501 0
    else { d.bufferWrite (4096 * i) f with boot := { d.boot with frame := i + 1 } }

/-- BOOT_FRAME (R485, R486, R490). -/
def execBootFrame (s : State) : Res :=
  lift (fun d =>
    if d.boot.phase != .frames then d else if d.boot.slot = 2 then d.recoveryFrame else d.imageFrame) s

/-- Load one frame into the target area of its KIND on every die that it names (R484, R488). -/
def Boot.load (b : Boot) (f : List (BitVec 8)) : Boot :=
  { b with codeMem := (bitsOf 5 (frDies f)).foldl (fun m die =>
      Sparse.upd [] m (8 * frKind f + die) (fun area => Sparse.setMany 0 area (frLoad f) (slice f 32 (frLen f)))) b.codeMem }

/-- The frames in the buffer, from an offset, take effect; the start-up steps begin (R487, R488, R491). -/
def Device.bootRun (d : Device) (off : Nat) : Device :=
  let b := (List.range d.boot.frame).foldl (fun b i => b.load (d.buffered (off + 4096 * i) 4096)) d.boot
  { d with boot := { b with run := b.slot, phase := .steps, step := 0 } }

/-- BOOT_SIGNATURE (R487, R488, R491). A recovery stream has no signature: its frames load. -/
def execBootSignature (s : State) : Res :=
  lift (fun d =>
    if d.boot.phase != .sign then d
    else if d.boot.slot = 2 then
      let d := d.bootRun 0
      { d with boot := { d.boot with header := [], personality := [], order := 0x1B00000000000000 } }
    else
      let n := d.boot.frame
      let sig := d.flashRead (slotBase d.boot.slot + 512 + 4096 * n) 96
      let img := d.buffered 0 (512 + 4096 * n)
      if signatureOk (img ++ sig) n then
        let h := img.take 512
        let d := d.bootRun 512
        { d with boot := { d.boot with header := h, personality := sha384 img, order := BitVec.ofNat 64 (hdrField h 3880 64) } }
      else d.bootFail 0x0501 2) s

/-- The code of the next start-up step (Table 21-7). -/
def Boot.stepCode (b : Boot) : Nat := bits b.order.toNat (62 - 2 * b.step) 2

/-- One start-up step (Table 21-9); under a recovery stream for the hub alone (R491). LOCK completes when its PLLs can lock. -/
def Device.bootStep (d : Device) : Device :=
  let whole := d.boot.run != 2
  match d.boot.stepCode with
  | 0 =>
    if d.pins.pcieRefclk && (!whole || d.pins.refclk) then { d with boot := { d.boot with pll := true, step := d.boot.step + 1 } }
    else d
  | 1 =>
    { d with
      boot := { d.boot with outputs := true, step := d.boot.step + 1 },
      pins := { d.pins with pcieTx := true, serdesIdle := d.pins.serdesIdle && !whole, pmbusOn := d.pins.pmbusOn || whole } }
  | 2 => { d with boot := { d.boot with released := true, step := d.boot.step + 1 } }
  | _ => { d with boot := { d.boot with writes := true, step := d.boot.step + 1 } }

/-- STARTUP_STEP (R495). -/
def execStartupStep (s : State) : Res :=
  lift (fun d => if d.boot.phase == .steps && decide (d.boot.step < 4) then d.bootStep else d) s

/-! ### The Chanter starts (R497, R503) -/

/-- A memory without what a test of byte addresses names, in units of u bytes. -/
def Mem.keep (m : Mem) (u : Nat) (p : Nat → Bool) : Mem :=
  { bytes := m.bytes.filter (fun e => p e.1), poison := m.poison.filter (fun e => p (e.1 * u)),
    ecc := m.ecc.filter (fun e => p (e.1 * u)) }

/-- Every scratchpad is written with zero and poison 0 (R497). -/
def Device.clearSpads (d : Device) : Device :=
  (List.range d.grade.cores).foldl (fun d c => d.onCore c (fun k => { k with spad := Mem.reset })) d

/-- The role at the moment CHANTER_STATUS first reads 0x02 (Table 22-2). Seat 1 waits while TWIN_PEER_ALIVE is low. -/
def Device.seatRule (d : Device) : Device :=
  if d.pins.peerAlive then d.setRole 1 0 else if d.pins.twinSeat = 0 then d.setRole 0 0 else d

/-- CHANTER_READY (R449, R489, R491, R497): under a recovery stream the highest version offered is 0x20. -/
def execChanterReady (s : State) : Res :=
  lift (fun d =>
    if !(d.boot.phase == .steps && d.boot.step == 4) then d
    else if d.boot.run = 2 then
      let d := { d with boot := { d.boot with phase := .recovery } }
      (d.onHub (fun h => { h with chanter := 1, ifMax := 0x20 })).logBoot
    else
      let d := d.clearSpads
      let d := { d with
        staging := d.staging.keep 8 (fun a => frameBuffer ≤ a), boot := { d.boot with phase := .running } }
      let d := d.onHub (fun h => { h with chanter := 2, ifMax := hdrField d.boot.header 3840 8 })
      d.logBoot.seatRule) s

/-! ### Changing the personality (R493, R494) -/

/-- The first failure of a staged copy of an image: status of the command (R493). -/
def Device.stageBad (d : Device) (img : List (BitVec 8)) : Option Nat :=
  let n := (img.length - 608) / 4096
  let h := img.take 512
  if hdrField h 4048 16 != 1 then some 4
  else if (d.imageHeaderBad h).isSome || hdrFrames h != n then some 3
  else if (List.range n).any (fun i => (frameBad h (slice img (512 + 4096 * i) 4096) i).isSome) then some 3
  else if !signatureOk img n then some 5
  else none

/-- Is a LENGTH one that R481 allows? -/
def lengthOk (n : Nat) : Bool := 608 + 4096 ≤ n && n ≤ 608 + 4096 * 24575 && (n - 608) % 4096 == 0

/-- Does the LENGTH of an IMAGE_STAGE refuse it (R493, R512)? -/
def Device.lengthBad (d : Device) (n : Nat) : Bool :=
  !lengthOk n || ([2, 3, 4, 5].contains d.twin.role && decide (0x4000000 < n))

/-- The body of IMAGE_STAGE: the copy into the frame buffer, its checks, and the header as the result (R493, R512). -/
def Device.imageStage (d : Device) (mb : Nat) : Device :=
  let m := d.mbx mb
  let n := m.body 8 4
  if d.lengthBad n then d.finish mb 3 9 []
  else
    let img := d.hostRead (m.body 0 8) n
    let d := (d.changing (some mb) 9).bufferWrite 0 img
    match d.stageBad img with
    | some status => { d with boot := { d.boot with staged := none } }.outcome mb status 9 []
    | none => { d with boot := { d.boot with staged := some n } }.outcome mb 0 0 (img.take 512)

/-- IMAGE_STAGE (R493). The copy waits while the host link is down (R87); a LENGTH that refuses it does not. -/
def execImageStage (mb : Nat) (s : State) : Res :=
  onUnit (fun _ => mb < 16) (fun d =>
    if d.runs mb 0x10 && (d.host.linkUp || d.lengthBad ((d.mbx mb).body 8 4)) then (d.onMbx mb (fun m => { m with ran := true })).imageStage mb else d) s

/-- The body of IMAGE_COMMIT (R494): the four steps. -/
def Device.imageCommit (d : Device) (mb : Nat) : Device :=
  let m := d.mbx mb
  let slot := m.body 0 1
  let boot := m.body 1 1
  let bad := fun (e : Device) => e.boot.staged.isNone || decide (1 < slot) || decide (1 < boot)
  if bad d then d.refuse mb bad
  else match d.boot.staged with
  | none => d
  | some n =>
      let (pref, valid) := d.directory
      let old := 1 - d.dirNewer
      let off := valid - bits valid slot 1 * 2 ^ slot
      let d := (d.changing (some mb) 9).dirWrite old pref off
      let d := d.flashWrite (slotBase slot) 0x6000000 (d.buffered 0 n)
      let d := { d with boot := { d.boot with staged := none } }
      let back := d.flashRead (slotBase slot) n
      if !signatureOk back ((n - 608) / 4096) then d.outcome mb 6 0 []
      else
        let d := if boot = 1 then d.dirWrite (1 - old) slot (off + 2 ^ slot) else d.dirWrite old pref (off + 2 ^ slot)
        d.outcome mb 0 0 []

/-- IMAGE_COMMIT (R494). -/
def execImageCommit (mb : Nat) (s : State) : Res := runRow mb 0x11 (fun d => d.imageCommit mb) s

/-! ### RESET_N, POWER_GOOD and power (R546, R550, R584, R604) -/

/-- The part in reset: what survives is the health log, the fuses and remaps, the flash, the pins that the board drives, and the
host's own memory. -/
def Device.inReset (d : Device) : Device :=
  { Device.reset with
    ident := d.ident,
    pins := { Pins.reset with
      resetN := false, powerGood := d.pins.powerGood, twinSeat := d.pins.twinSeat, smbAddr := d.pins.smbAddr,
      peerAlive := d.pins.peerAlive, refclk := d.pins.refclk, pcieRefclk := d.pins.pcieRefclk,
      jtagIr := d.pins.jtagIr, jtagDr := d.pins.jtagDr },
    hub := { Hub.reset with health := d.hub.health, healthNext := d.hub.healthNext },
    host := { HostSide.reset with mem := d.host.mem },
    boot := { Boot.reset with phase := .inReset, flash := d.boot.flash },
    free := d.free }

/-- RESET_ASSERT (R584). -/
def execResetAssert (s : State) : Res := liftTime (fun d => d.inReset) s

/-- RESET_RELEASE (R550, R584, R586): t0. The straps are sampled, and the numbering of the cores is built. -/
def execResetRelease (seat smbAddr : Nat) (s : State) : Res :=
  liftTime (fun d =>
    if d.boot.phase != .inReset then d
    else { d with
      boot := { d.boot with phase := .attest },
      ident := { d.ident with physBuilt := d.ident.physFused ++ d.ident.physHeld },
      pins := { d.pins with
        resetN := true, powerGood := true, twinSeat := seat % 2, smbAddr := smbAddr % 4,
        jtagIr := if [Jtag.extest, Jtag.clamp, Jtag.highz].contains d.pins.jtagIr then .bypass else d.pins.jtagIr } }) s

/-- LOSS_OF_POWER (R546, R550, R604): the health log, the DRAM and the remaps that no fuse holds are lost too. -/
def execLossOfPower (s : State) : Res :=
  liftTime (fun d =>
    let d := d.inReset
    { d with
      hub := Hub.reset, ident := { d.ident with physHeld := [] },
      pins := { d.pins with powerGood := false, jtagIr := .bypass, jtagDr := 0 } }) s

/-! ### The test access port (R590) -/

/-- A JTAG instruction is in force, with what its data register captures. -/
def Device.jtag (d : Device) (i : Jtag) (dr : Nat) : Device := { d with pins := { d.pins with jtagIr := i, jtagDr := dr } }

/-- EXTEST, CLAMP and HIGHZ act only while RESET_N is low, and as BYPASS at any other time. -/
def Device.jtagInReset (d : Device) (i : Jtag) (dr : Nat) : Device := if d.pins.resetN then d.jtag .bypass 0 else d.jtag i dr

/-- BYPASS (R590): the one-bit register captures 0. -/
def execBypass (s : State) : Res := lift (fun d => d.jtag .bypass 0) s

/-- IDCODE (R590): 0x1940_0B47 on stepping B0; bits [31:28] hold the stepping's letter. -/
def execIdcode (s : State) : Res :=
  lift (fun d => d.jtag .idcode (0x09400B47 + bits d.ident.stepping 4 4 * 2 ^ 28)) s

/-- SAMPLE/PRELOAD (R590): the boundary register captures the L18 and OD18 signals, in an order that is not stated: a free
value (log 2). -/
def execSamplePreload (s : State) : Res :=
  lift (fun d =>
    let (v, d) := d.drawFree
    d.jtag .samplePreload v) s

/-- EXTEST (R590): the boundary register captures the L18 and OD18 signals (log 2). -/
def execExtest (s : State) : Res :=
  lift (fun d =>
    if d.pins.resetN then d.jtag .bypass 0
    else
      let (v, d) := d.drawFree
      d.jtag .extest v) s

/-- CLAMP (R590). -/
def execClamp (s : State) : Res := lift (fun d => d.jtagInReset .clamp 0) s

/-- HIGHZ (R590). -/
def execHighz (s : State) : Res := lift (fun d => d.jtagInReset .highz 0) s

end Sys2Proof.Machine
end

