-- ==== Sys2Proof/Machine/PowerRows.lean ====
section
/-! DEFINITION. Machine/PowerRows.lean: POWER_POLICY and Parked (R564 to R566), the ends of wakes (R562), telemetry of the rails and
what follows from it (R90, R570, R593, R594), the failure of units (R548 to R550) and thermal shutdown (R607). -/

namespace Sys2Proof.Machine

open Sys2Proof

/-! ### POWER_POLICY (R564 to R566) -/

/-- The policy fields of a body (Table 24-2). -/
def Mbx.policy (m : Mbx) : Policy :=
  { limitW := m.body 8 2, rateCap := m.body 10 2, vq := (List.range 4).map (fun q => m.body (12 + 2 * q) 2),
    deepest := m.body 20 1, park := m.body 21 1 == 1 }

/-- Are the fields of a body within their ranges (Table 24-2)? -/
def Mbx.policyOk (m : Mbx) : Bool :=
  let p := m.policy
  1000 ≤ p.limitW && p.limitW ≤ 3400 && 800 ≤ p.rateCap && p.rateCap ≤ 2150 && p.rateCap % 10 == 0
    && p.vq.all (fun v => 600 ≤ v && v ≤ 850 && v % 5 == 0) && p.deepest ≤ 3 && m.body 21 1 ≤ 1

/-- May the device be Parked: SOLO, and no task slot bound (R564)? -/
def Device.mayPark (d : Device) : Bool := d.twin.role == 0 && d.twin.roleKnown && !d.anyBound

/-- POWER_POLICY (R565): registered for W_EFFECT. -/
def execPowerPolicy (mb : Nat) (s : State) : Res :=
  runRow mb 0x50 (fun d =>
    let m := d.mbx mb
    let w := m.body 0 8
    let bad := fun (e : Device) => !m.policyOk || decide (w ≤ e.beat.w) || (m.policy.park && !e.mayPark)
    if bad d then d.refuse mb bad
    else
      let d := { d with power := { d.power with reg := d.power.reg ++ [(w, mb, m.policy)] } }
      d.registered mb) s

/-- The device enters Parked: VQ0 to VQ3 and VBANK go off (R555, R605). -/
def Device.enterParked (d : Device) : Device :=
  if d.power.device = 4 then d
  else
    let d := (List.range d.grade.cores).foldl (fun d c => d.onCore c (fun k => { k with power := CorePower.reset })) d
    { d with
      power := { d.power with device := 4, devWake := 0, quarters := [], qWake := [] },
      pins := { d.pins with railsOff := [0, 1, 2, 3, 4] } }

/-- The device begins its 60 ms wake from Parked: VBANK and VQ0 to VQ3 go on (R566, R605). -/
def Device.leaveParked (d : Device) : Device :=
  if d.power.device = 4 then
    { d with power := { d.power with device := 5, devWake := 58594 }, pins := { d.pins with railsOff := [] } }
  else d

/-- Every core and quarter that is deeper than DEEPEST starts its wake (R566). -/
def Device.wakeDeeper (d : Device) (deepest : Nat) : Device :=
  (List.range d.grade.cores).foldl (fun d c => if deepest < (d.core c).power.state then d.startWake c else d) d

/-- A policy takes effect: the caps, the wakes, Parked, and POWER_STATUS, since it is an edge (R88, R566, R567). -/
def Device.applyPolicy (d : Device) (p : Policy) : Device :=
  let d := { d with power := { d.power with policy := p } }
  let d := d.recapAll.wakeDeeper p.deepest
  (if p.park then d.enterParked else d.leaveParked).showPower

/-- POWER_POLICY_EFFECT (R566): at the edge of W_EFFECT, unless a task has been bound since. -/
def execPowerPolicyEffect (s : State) : Res :=
  lift (fun d =>
    match d.power.reg.find? (fun r => d.beat.aligned && decide (r.1 ≤ d.beat.w)) with
    | none => d
    | some (w, mb, p) =>
      let d := { d with power := { d.power with reg := d.power.reg.erase (w, mb, p) } }
      if p.park && !d.mayPark then d.settle (some mb) 2
      else ((d.changing (some mb) 8).applyPolicy p).settle (some mb) 0) s

/-! ### The end of a wake (R562) -/

/-- The stacks of a quarter have been in self-refresh up to now. -/
def Device.refreshedNow (d : Device) (q : Nat) : Device :=
  [2 * q, 2 * q + 1].foldl (fun d k => d.onStack k (fun s => { s with
    refreshed := (List.range 8).foldl (fun r g => Sparse.set 0 r g d.beat.w) s.refreshed })) d

/-- A core is Active again. -/
def CorePower.awake (p : CorePower) : CorePower := { p with state := 0, waking := none }

/-- Core c is Active again, and its oscillator runs where its beat is not finished (R91). -/
def Device.wakeCore (d : Device) (c : Nat) : Device := (d.onCore c (fun k => { k with power := k.power.awake })).regionRuns c

/-- WAKE_COMPLETE (R562, R564): kind 0 a core, 1 a quarter, 2 the device. A wake completes at a beat edge, so POWER_STATUS shows
it (R567). -/
def execWakeComplete (kind unit : Nat) (s : State) : Res :=
  onUnit (fun d => (kind == 0 && d.hasCore unit) || (kind == 1 && unit < 4) || kind == 2) (fun d =>
    if kind = 0 then
      if (d.core unit).power.waking = some 0 then (d.wakeCore unit).showPower else d
    else if kind = 1 then
      if Sparse.get 0 d.power.quarters unit == 7 && Sparse.get 0 d.power.qWake unit == 0 then
        let d := { d with power := { d.power with quarters := Sparse.set 0 d.power.quarters unit 0 } }
        ((((d.coresOfQuarter unit).foldl (fun d c => d.wakeCore c) d).regionRuns (144 + unit)).refreshedNow unit).showPower
      else d
    else if d.power.device == 5 && d.power.devWake == 0 then
      let d := { d with power := { d.power with device := 0 } }
      ((List.range 4).foldl (fun d q => (d.regionRuns (144 + q)).refreshedNow q) d.clearSpads).showPower
    else d) s

/-! ### The failure of a unit (R537, R548) -/

/-- The tasks that a PACKAGE_FAULT stops in solo mode (Table 23-6). -/
def Device.hitBy (d : Device) (cause unit t : Nat) : Bool :=
  let k := d.task t
  let window := fun (p : Nat → Bool) => k.cores.any (fun c =>
    let b := (d.core c).bound t
    (unitsOf stackBytes (dramBase b * 2 ^ 20) (dramLen b * 2 ^ 20)).any p)
  if cause = 1 || cause = 2 then k.cores.any (fun c => d.quarterOf c == unit) || window (fun s => s / 2 == unit)
  else if cause = 3 then window (fun s => s == unit)
  else true

/-- The unit goes out of service until RESET_N; with the hub or a rail the neighbours lose the ports, and what the ports hold is
lost. -/
def Device.dropUnit (d : Device) (cause unit : Nat) : Device :=
  let noStack := fun (d : Device) (k : Nat) => d.onStack k (fun s => { s with absent := true })
  if cause = 1 || cause = 2 then
    let d := (d.coresOfQuarter unit).foldl (fun d c => d.onCore c (fun k => { k with absent := true })) d
    let d := { d with power := { d.power with absentQ := insertNew unit d.power.absentQ } }
    noStack (noStack d (2 * unit)) (2 * unit + 1)
  else if cause = 3 then noStack d unit
  else d.portNums.foldl (fun d p => d.portGone p) d

/-- Has the hub stopped with this failure: its own, or that of VHUB, rail 5? Then TWIN_ALIVE falls (R503). -/
def hubStops (cause rail : Nat) : Bool := cause == 4 || (cause == 0 && rail == 5)

/-- The copies, sends and receives of task t that are in flight are refused, since a unit they may need is gone (R541; log 16). -/
def Device.dropWork (d : Device) (t : Nat) : Device :=
  (d.task t).cores.foldl (fun d c => d.onCore c (fun k =>
    let gone := (k.copies.filter (fun x => x.slot == t)).map Copy.id
    { k with
      copies := k.copies.filter (fun x => x.slot != t), sends := if k.running == some t then [] else k.sends,
      scoreboard := k.scoreboard.filter (fun r => !gone.contains r.copy) })) d

/-- UNIT_KIND and UNIT of a PACKAGE_FAULT, and the die or stack of its detail: the hub is die 0, quarter q die q + 1 (log 16). -/
def failedUnit (cause unit : Nat) : Nat × Nat × Nat :=
  if cause = 1 then (7, unit + 1, unit + 1) else if cause = 2 then (5, unit, unit + 1) else if cause = 3 then (3, unit, unit)
  else (4, 0, 0)

/-- PACKAGE_FAULT with its cause: the unit (a quarter, a stack, or 0), and for cause 0 the rail. In a pair the package mutes itself
at the next edge; else the outcome is that of Table 23-6. A joining package tells its partner with FAULT and is STANDBY again
(R534). -/
def Device.packageFail (d : Device) (cause unit rail : Nat) : Device :=
  let (kind, n, die) := failedUnit cause unit
  let d := d.log { HealthRec.reset with
    s := d.beat.s, code := 0x0205, cls := 2, cause := cause, unitKind := kind, unit := n, masked := d.inPair,
    dHi := die, dLo := rail }
  if d.inPair then d.onTwin (fun t => { t with muteReq := 1 })
  else
    let d := if d.twin.role = 3 then (d.twinSend 0x0A d.beat.s 0 0xFF 0x0205 []).standBy else d
    let d := if hubStops cause rail then { d with pins := { d.pins with twinAlive := false } } else d
    let hit := d.boundSlots.filter (d.hitBy cause unit)
    let d := hit.foldl (fun d t => d.fault t 0x0205 cause kind n 0 die rail) d
    let d := if 1 ≤ cause && cause ≤ 3 then hit.foldl (fun d t => d.dropWork t) d else d
    d.dropUnit cause unit

/-- PACKAGE_FAULT (R537, R548): cause 0 a rail by its number, 1 a hub link or 2 the die of a quarter, 3 a stack, 4 the hub. -/
def execPackageFault (cause unit : Nat) (s : State) : Res :=
  onUnit (fun d => (cause == 0 && unit < 26) || ((cause == 1 || cause == 2) && unit < 4)
      || (cause == 3 && d.grade.hasStack unit) || cause == 4)
    (fun d => if cause = 0 then d.packageFail 0 0 unit else d.packageFail cause unit 0) s

/-! ### Rails (R90, R570, R593, R594) -/

/-- Is an action due that comes once in every n wall beats? Before alignment no beat has a number, and the row says when. -/
def Device.everyBeats (d : Device) (n : Nat) (last : Option Nat) : Bool :=
  !d.beat.aligned || (d.beat.w % n == 0 && last != some d.beat.w)

/-- Does the part send commands to the regulators (R589)? -/
def Device.readsRails (d : Device) : Bool := d.boot.phase == .running && d.pins.pmbusOn

/-- Does the part address rail r: the rails of an absent stack it never does (R582)? -/
def Device.hasRail (d : Device) (r : Nat) : Bool :=
  r < 10 || (r < 18 && d.grade.hasStack (r - 10)) || (18 ≤ r && r < 26 && d.grade.hasStack (r - 18))

/-- The setpoint of VQq in mV: 600 in Retain (Table 24-1). -/
def Device.vqSet (d : Device) (q : Nat) : Nat :=
  if Sparse.get 0 d.power.quarters q = 3 then 600 else nth d.power.policy.vq q 800

/-- The range of a rail in mV (Table 25-4). -/
def Device.railRange (d : Device) (r : Nat) : Nat × Nat :=
  if r < 4 then (max 550 (d.vqSet r - 50), d.vqSet r + 30)
  else if r = 4 then (679, 721)
  else if r = 5 then (728, 772)
  else if r = 6 || r = 9 then (1710, 1890)
  else if r = 7 then (833, 867)
  else if r = 8 then (1176, 1224)
  else if r < 18 then (1019, 1081)
  else (735, 765)

/-- Is a reading of rail r out of range (R594, R605)? -/
def Device.railBad (d : Device) (r mv : Nat) : Bool :=
  !d.pins.railsOff.contains r && (mv < (d.railRange r).1 || (d.railRange r).2 < mv || d.power.status.contains r)

/-- One reading of a rail: its voltage in mV and current in mA. Over 32 wall beats, mV x mA x 32,768 ns is its energy in units of
10^-9 uJ. The fourth reading out of range in a row is a PACKAGE_FAULT. -/
def Device.railReading (d : Device) (r mv ma : Nat) : Device :=
  let n := if d.railBad r mv then Sparse.get 0 d.power.bad r + 1 else 0
  let d := { d with power := { d.power with
    rails := Sparse.set (0, 0) d.power.rails r (mv, ma),
    energy := Sparse.upd 0 d.power.energy r (fun e => e + mv * ma * 32768),
    bad := Sparse.set 0 d.power.bad r n } }
  if n = 4 then d.packageFail 0 0 r else d

/-- RAIL_TELEMETRY_READ (R593, R594): the readings of the rails. -/
def execRailTelemetryRead (readings : List (Nat × Nat × Nat)) (s : State) : Res :=
  lift (fun d =>
    if d.readsRails && d.everyBeats 32 d.power.railW then
      let d := readings.foldl (fun d x => if d.hasRail x.1 then d.railReading x.1 x.2.1 x.2.2 else d) d
      { d with power := { d.power with railW := some d.beat.w } }
    else d) s

/-- RAIL_STATUS_READ (R594): the rails whose STATUS_WORD reports a fault. -/
def execRailStatusRead (faults : List Nat) (s : State) : Res :=
  lift (fun d =>
    if d.readsRails && d.everyBeats 1024 d.power.statusW then
      { d with power := { d.power with status := (List.range 26).filter (fun r => faults.contains r && d.hasRail r),
                                       statusW := some d.beat.w } }
    else d) s

/-- Package power in uW by the last readings (R90). -/
def Device.packagePower (d : Device) : Nat := d.power.rails.foldl (fun a r => a + r.2.1 * r.2.2) 0

/-- The power cap after a comparison with the limit (R90). -/
def capAfter (cap power limit : Nat) : Nat :=
  if limit < power then max 800 (cap - 25) else if 100 * power < 98 * limit then min 2150 (cap + 25) else cap

/-- POWER_CAP_UPDATE (R90). -/
def execPowerCapUpdate (s : State) : Res :=
  lift (fun d =>
    if d.readsRails && d.everyBeats 64 d.power.capW then
      ({ d with power := { d.power with
          cap := capAfter d.power.cap d.packagePower (d.power.policy.limitW * 1000000), capW := some d.beat.w } }).recapAll
    else d) s

/-! ### The share-out of energy (R570) -/

/-- A share of e in proportion to a part of a whole; none of nothing. -/
def shareOf (e part whole : Nat) : Nat := if whole = 0 then 0 else e * part / whole

/-- CORE_BEATS of an entry on all quarters in the period. -/
def Ledger.coresAll (l : Ledger) : Nat := l.pCore.foldl (fun a e => a + e.2) 0

/-- The share of an entry in the whole energy of each rail, from the totals of all open entries. -/
def railShare (open_ : List Ledger) (uj : Nat → Nat) (l : Ledger) : Nat :=
  let sum := fun (f : Ledger → Nat) => open_.foldl (fun a e => a + f e) 0
  let quarter := fun (q : Nat) (e : Ledger) => Sparse.get 0 e.pCore q
  let stack := fun (k : Nat) (e : Ledger) => Sparse.get 0 e.pDram k
  let units := fun (e : Ledger) => e.pDram.foldl (fun a x => a + x.2) 0
  (List.range 4).foldl (fun a q => a + shareOf (uj q) (quarter q l) (sum (quarter q))) 0
    + shareOf (uj 4) l.coresAll (sum Ledger.coresAll)
    + shareOf (uj 7) l.pFabric (sum Ledger.pFabric) + shareOf (uj 8) l.pFabric (sum Ledger.pFabric)
    + (List.range 8).foldl (fun a k =>
        let pump := shareOf (uj 9) (sum (stack k)) (sum units)
        let all := sum (stack k)
        a + shareOf pump (stack k l) all + shareOf (uj (10 + k)) (stack k l) all + shareOf (uj (18 + k)) (stack k l) all) 0

/-- Share out the energy of every rail in whole uJ. What the bindings do not take goes to the device entry. -/
def Device.shareEnergy (d : Device) : Device :=
  let uj := fun (r : Nat) => Sparse.get 0 d.power.energy r / 10 ^ 9
  let open_ := d.ledger.filter (fun e => e.isOpen)
  let given := open_.foldl (fun a e => if e.device then a else a + railShare open_ uj e) 0
  let all := (List.range 26).foldl (fun a r => a + uj r) 0
  { d with
    ledger := d.ledger.map (fun e =>
      if !e.isOpen then e
      else { e with
        microJ := e.microJ + (if e.device then all - given else railShare open_ uj e), pCore := [], pDram := [], pFabric := 0 }),
    power := { d.power with
      energy := (List.range 26).foldl (fun m r => Sparse.upd 0 m r (fun e => e % 10 ^ 9)) d.power.energy,
      shareW := some d.beat.w } }

/-- METER_ENERGY_SHARE (R570). -/
def execMeterEnergyShare (s : State) : Res :=
  lift (fun d => if d.readsRails && d.everyBeats 64 d.power.shareW then d.shareEnergy else d) s

/-! ### Remapping (R549, R550) -/

/-- The lowest-numbered spare physical core of quarter q: enabled, and of no logical core. -/
def Device.spareCore (d : Device) (q : Nat) : Option Nat :=
  let used := (d.coresOfQuarter q).map d.physOf
  ((List.range 40).map (fun i => 40 * q + i)).find? (fun p =>
    !d.ident.physFused.contains p && !d.ident.physHeld.contains p && !used.contains p)

/-- A logical core on a new physical one: zeros with poison 0, a clear page map and no retired pages. Its counters, and the slots
that have held its keys, are the logical core's, and so is what is on its way to it. -/
def Core.onNew (k : Core) (p : Nat) : Core :=
  { Core.reset with
    phys := some p, counters := k.counters, keyOwner := k.keyOwner, nextCopy := k.nextCopy, sc := k.sc, cyc := k.cyc,
    lastSc := k.lastSc, power := k.power, msgIn := k.msgIn, reqs := k.reqs }

/-- Map logical core c to a spare. -/
def Device.remap (d : Device) (c : Nat) : Device :=
  let old := d.physOf c
  match d.spareCore (d.quarterOf c) with
  | none => (d.onCore c (fun k => { k with absent := true, marked := false })).event 0x0010 0 1 c old 0xFF
  | some p =>
    let fuse := 0 < d.ident.repairLeft
    let d := { d with ident := { d.ident with
      physFused := if fuse then d.ident.physFused ++ [old] else d.ident.physFused,
      physHeld := if fuse then d.ident.physHeld else d.ident.physHeld ++ [old],
      repairLeft := d.ident.repairLeft - 1 } }
    (d.onCore c (fun k => k.onNew p)).event 0x0010 (b2n (!fuse)) 1 c old p

/-- CORE_REMAP (R549): the first moment at which no task slot is bound on a marked core. -/
def execCoreRemap (c : Nat) (s : State) : Res :=
  onUnit (fun d => d.hasCore c) (fun d =>
    if (d.core c).marked && !(d.core c).absent && d.slotsOn c == [] && d.boot.phase == .running then d.remap c else d) s

/-! ### Thermal shutdown (R607) -/

/-- The cause and unit of a hot sensor: 0 the hub, 1 to 4 the quarters, 5 to 12 the stacks. -/
def hotUnit (sensor : Nat) : Nat × Nat :=
  if sensor = 0 then (4, 0) else if sensor ≤ 4 then (2, sensor - 1) else (3, sensor - 5)

/-- THERMAL_SHUTDOWN (R607): the record; every region stops and every output idles, and every rail but VHUB and VIO goes off. -/
def execThermalShutdown (sensor : Nat) (s : State) : Res :=
  if sensor < 5 || (5 ≤ sensor && s.dev.grade.hasStack (sensor - 5)) then
    liftTime (fun d =>
      if d.boot.phase == .inReset || d.boot.phase == .shutdown then d
      else
        let (kind, n, die) := failedUnit (hotUnit sensor).1 (hotUnit sensor).2
        let d := d.log { HealthRec.reset with
          s := d.beat.s, code := 0x0205, cls := 2, cause := (hotUnit sensor).1, unitKind := kind, unit := n,
          masked := d.inPair, dHi := die }
        let e := d.inReset
        { e with
          boot := { e.boot with phase := .shutdown },
          pins := { e.pins with
            resetN := true, railsOff := [0, 1, 2, 3, 4] ++ (List.range 19).map (fun i => 7 + i) } }) s
  else .fault .noSuchUnit

end Sys2Proof.Machine
end

