-- ==== Sys2Proof/Machine/TwinRows.lean ====
section
/-! DEFINITION. Machine/TwinRows.lean: twin pairing (R501 to R536): seats and roles, the records of the twin stream as they arrive,
muting, attach, join and detach, and the twin repair window. -/

namespace Sys2Proof.Config

open Sys2Proof.Machine

/-- What a live package sends at a join beyond its memories (R533): the configuration, every task's context and state, the slip
buffers and the deferral area, in a layout that the spec does not give. Log 10. -/
opaque joinBytes : Device → List (BitVec 8)

/-- What a joining package makes of those bytes. Log 10. -/
opaque joinState : List (BitVec 8) → Device → Device

end Sys2Proof.Config

namespace Sys2Proof.Machine

open Sys2Proof

/-! ### Seats (R503, Table 22-2) -/

/-- Does seat 1 still wait for its role: the Chanter serves, and no role is chosen? -/
def Device.seatWaits (d : Device) : Bool := d.boot.phase == .running && !d.twin.roleKnown && d.pins.twinSeat == 1

/-- TWIN_SEAT_TIMEOUT (R503): TWIN_PEER_ALIVE has stayed low for 1.0 s. -/
def execTwinSeatTimeout (s : State) : Res :=
  lift (fun d => if d.seatWaits && !d.pins.peerAlive then d.setRole 0 0 else d) s

/-- TWIN_PEER_ALIVE_RISE (R503). -/
def execTwinPeerAliveRise (s : State) : Res :=
  lift (fun d =>
    let d := { d with pins := { d.pins with peerAlive := true } }
    if d.seatWaits then d.setRole 1 0 else d) s

/-! ### Survival (R523, R524) -/

/-- A command of a primary gets its arrival beat, the first wall beat to come (R508). -/
def Device.commandArrives (d : Device) (mb : Nat) : Device :=
  let d := d.onTwin (fun t => { t with cmds := t.cmds.filter (fun c => c.1 != mb) })
  d.onMbx mb (fun m => if m.st != 1 then m else { m with
    arrive := d.arrivalBeat, b := if d.beat.aligned then (if m.stampBeat = 0 then d.arrivalBeat else m.stampBeat) else 0 })

/-- The fault code that the partner showed last; 0 for none. -/
def Device.partnerCode (d : Device) : Nat :=
  match d.twin.faults.reverse with
  | f :: _ => f.1
  | [] => 0

/-- The package carries on alone: what waited for the partner waits no more. -/
def Device.becomeSolo (d : Device) : Device :=
  let code := d.partnerCode
  let d := d.twin.cmds.foldl (fun d c => d.commandArrives c.1) d
  let d := d.onTwin (fun t => { t with
    cmds := [], outbox := [], digests := [], peerDigests := [], faults := [], ownFaults := [], readyIn := [], acks := [],
    repairs := [], repairDue := [], noCtl := 0, missDecide := 0, muteReq := 0, values := [] })
  d.setRole 0 code

/-- An attach ends without a join (R534): the live package is SOLO again, and its TWIN_ATTACH completes. -/
def Device.abandon534 (d : Device) (status : Nat) : Device :=
  let mb := d.twin.attach.map (fun a => a.2.2)
  let d := d.onTwin (fun t => { t with attach := none, dirty := [], copyAt := 0, outbox := [] })
  let d := (d.setPartner 1 0).setRole 0 0
  match mb with
  | some m => d.finish m status 0 []
  | none => d

/-- TWIN_PEER_ALIVE_FALL (R523, R524, R526, R534): a shadow and a primary become SOLO; a shadow votes for a hold. -/
def execTwinPeerAliveFall (s : State) : Res :=
  lift (fun d =>
    let d := { d with pins := { d.pins with peerAlive := false } }
    match d.twin.role with
    | 5 => let e := d.becomeSolo; if e.beat.aligned then e.vote else e
    | 4 => d.becomeSolo
    | 2 => d.abandon534 6
    | 3 => d.standBy
    | _ => d) s

/-! ### Muting (R523, R526, R535) -/

/-- The package mutes itself with a cause: every task stops, and TWIN_TX_EN and TWIN_ALIVE go low. -/
def Device.mute (d : Device) (cause : Nat) : Device :=
  let d := d.boundSlots.foldl (fun d t => d.stopTask t) d
  let d := d.onTwin (fun t => { t with muteCause := cause, muteReq := 0, outbox := [], detachMb := none })
  d.setRole 6 0

/-- Is the own seat the one that a registered TWIN_DETACH names? -/
def Device.detachesSelf (d : Device) : Bool :=
  match d.twin.detachMb with
  | some (seat, _) => seat == d.pins.twinSeat
  | none => false

/-- TWIN_MUTE (R523, R535): at the wall beat edge after the cause. A TWIN_DETACH completes OK at that edge on either package. -/
def execTwinMute (s : State) : Res :=
  lift (fun d =>
    if !d.inPair then d
    else
      let own := d.detachesSelf
      let cause := if d.twin.muteReq != 0 then d.twin.muteReq else 2
      let mb := d.twin.detachMb.map (fun x => x.2)
      let d := d.changing mb 8
      let go := own || d.twin.muteReq != 0
      let d := match mb with
        | some m => (d.onTwin (fun t => { t with detachMb := none })).finish m 0 0 []
        | none => d
      if go then d.mute cause else d) s

/-- TWIN_LINK_LOSS (R526): a shadow mutes itself with cause 3. -/
def execTwinLinkLoss (s : State) : Res :=
  lift (fun d =>
    if d.twin.role == 5 && ((decide (4 ≤ d.twin.noCtl) && d.pins.peerAlive) || decide (16 ≤ d.twin.missDecide)) then d.mute 3
    else d) s

/-- TWIN_DETACH (R535). Outside a pair, and for a seat that is not 0 or 1, there is nothing to mute (log 49). -/
def execTwinDetach (mb : Nat) (s : State) : Res :=
  runRow mb 0x61 (fun d =>
    let seat := (d.mbx mb).body 0 1
    let bad := fun (e : Device) => !e.inPair || decide (1 < seat)
    if bad d then d.refuse mb bad
    else d.onTwin (fun t => { t with detachMb := some (seat, mb) })) s

/-! ### Attach and join (R531 to R534) -/

/-- Has a twin port completed steps 1 to 4 with a STANDBY partner of the same grade and stepping (R531)? -/
def Device.partnerReady (d : Device) : Bool :=
  d.grade.hasTwin && [32, 33].any (fun p => 4 ≤ (d.port p).step) && d.twin.partner == 1 && d.twin.partnerSame

/-- TWIN_ATTACH (R531). -/
def execTwinAttach (mb : Nat) (s : State) : Res :=
  runRow mb 0x60 (fun d =>
    let join := (d.mbx mb).body 0 8
    let stall := (d.mbx mb).body 8 2
    let bad := fun (e : Device) =>
      !(e.twin.role == 0 && e.twin.roleKnown) || !e.partnerReady || decide (join < e.beat.s + 4096) || stall == 0
        || decide (3000 < stall)
    if bad d then d.refuse mb bad
    else
      let d := (d.changing (some mb) 8).onTwin (fun t => { t with attach := some (join, stall, mb), dirty := [], copyAt := 0, outbox := [] })
      (d.setRole 2 0).setPartner 3 0) s

/-- The live package sends the rest of its state, and is PRIMARY. -/
def Device.joinLive (d : Device) : Device :=
  let mb := d.twin.attach.map (fun a => a.2.2)
  let d := d.changing mb 8
  let d := d.twin.dirty.foldl (fun d x => d.sendCopies (dirtyAt x).1 (dirtyAt x).2) d
  let d := (chunks 2048 (Config.joinBytes d)).foldl (fun d bs =>
    d.twinSend 0x0C d.beat.w 0 0xFF 0 (leBytes 8 (rzMake 0 0xE 0) ++ bs)) d
  let d := d.onTwin (fun t => { t with
    attach := none, dirty := [], copyAt := 0, noCtl := 0, ownFaults := [], faults := [], diverged := none })
  let d := d.boundSlots.foldl (fun d t => d.onTask t (fun k => { k with writeDigest := 0, lastCompare := d.gate.e })) d
  let d := (d.setPartner 5 0).setRole 4 0
  match mb with
  | some m => d.finish m 0 0 []
  | none => d

/-- The joining package takes the live package's state: tasks, configuration and contexts come from what was received, while its
memories, its own clocks, pins, fuses, power, meters and health log, and its twin ports, are its own. It is SHADOW. -/
def Device.joinPartner (d : Device) : Device :=
  let j := Config.joinState d.twin.joinIn d
  let own := [32, 33].map (fun p => (p, d.port p))
  let e : Device := { d with
    regions := j.regions, tasks := j.tasks, fabric := j.fabric, hold := j.hold, gate := j.gate, logger := j.logger,
    hub := { d.hub with
      mbx := j.hub.mbx, versions := j.hub.versions, parkNext := j.hub.parkNext, parkHeld := j.hub.parkHeld,
      bindNext := j.hub.bindNext, arrivals := j.hub.arrivals },
    power := { d.power with policy := j.power.policy, reg := j.power.reg } }
  let e := own.foldl (fun e x => e.onPort x.1 (fun _ => x.2)) e
  let e := (List.range e.grade.cores).foldl (fun e c => e.onCore c (fun k => { (j.core c) with
    spad := k.spad, pageUe := k.pageUe, retired := k.retired, counters := k.counters, phys := k.phys, marked := k.marked,
    absent := k.absent, power := k.power })) e
  let e := e.onTwin (fun t => { t with joinIn := [], noCtl := 0, missDecide := 0, decisions := [], diverged := none })
  (e.setPartner 4 0).setRole 5 0

/-- TWIN_JOIN (R533). -/
def execTwinJoin (s : State) : Res :=
  lift (fun d =>
    if d.twin.role == 2 then (if d.joinBeat then d.joinLive else d)
    else if d.twin.role == 3 then d.joinPartner
    else d) s

/-- Is the twin link lost: neither twin port has come as far as step 4? -/
def Device.twinLinkDown (d : Device) : Bool := [32, 33].all (fun p => (d.port p).step < 4)

/-- TWIN_ATTACH_ABANDON (R534): FAULTED when the link is lost or the partner has failed, BUSY when no join beat has come within
8,192 schedule beats of S_JOIN. The joining package goes back to STANDBY. -/
def execTwinAttachAbandon (s : State) : Res :=
  lift (fun d =>
    if d.twin.role == 3 then d.standBy
    else if d.twin.role == 2 then
      if d.twinLinkDown || !d.pins.peerAlive then d.abandon534 6
      else match d.twin.attach with
        | some (join, _, _) => if join + 8192 < d.gate.e + 1 then d.abandon534 1 else d
        | none => d
    else d) s

/-! ### Records of the twin stream (Table 22-5) -/

/-- AUX [5:0]: the port. -/
def auxPort (r : TwinRec) : Nat := bits r.aux 0 6
/-- AUX [13:6]: the position. -/
def auxPos (r : TwinRec) : Nat := bits r.aux 6 8

/-- DECIDE (R516): a shadow holds the decisions, the last one for each position, and acknowledges them. -/
def execTwDecide (r : TwinRec) (s : State) : Res :=
  lift (fun d =>
    if d.twin.role != 5 || !d.hasPort (auxPort r) || (auxPos r) % 16 != 0 then d
    else
      let d := (List.range 16).foldl (fun d i =>
        d.holdDecision (auxPort r) r.beat ((auxPos r) + i) (fieldLe r.data (8 * i) 8)) d
      (d.onTwin (fun t => { t with missDecide := 0 })).twinSend 2 r.beat 0 0xFF (r.aux % 2 ^ 14) []) s

/-- ACK (R508, R516): of positions, or with port 63 of the COMMAND of a mailbox (log 31). -/
def execTwAck (r : TwinRec) (s : State) : Res :=
  lift (fun d =>
    if d.twin.role != 4 then d
    else if auxPort r = 63 then (if d.twin.cmds.any (fun c => c.1 == (auxPos r)) then d.commandArrives (auxPos r) else d)
    else d.onTwin (fun t => { t with
      acks := t.acks.filter (fun a => d.beat.w ≤ a.2.1 + 1) ++ [((auxPort r), r.beat, (auxPos r))] })) s

/-- The primary's data for which a READY comes, with its CRC: an entry of the outbox, or with position 0 a packet of the
local-origin FIFO. -/
def Device.readyCheck (d : Device) (p k beat crc : Nat) : Device :=
  let q := d.port p
  if 0 < k then
    if q.outbox.any (fun o => o.1 == k && o.2.1 == beat && readyCrc o.2.2.1 o.2.2.2 != crc) then d.divergeAt p k beat else d
  else
    match (Sparse.get [] q.fifos 63).find? (fun x => x.v == beat) with
    | some x =>
      if x.readyCrc = crc then d
      else
        let d := d.onPort p (fun q => { q with fifos := Sparse.upd [] q.fifos 63 (fun l => l.erase x) })
        match (d.core x.srcCore).running with
        | some t => d.divergeTold t x.beat (255 + 256 * p) x.v
        | none => d
    | none => d

/-- READY (R515): the CRC is held; one that differs from that of the primary's data is a divergence, and the data is never
sent. -/
def execTwReady (r : TwinRec) (s : State) : Res :=
  lift (fun d =>
    if d.twin.role != 4 then d
    else
      let crc := fieldLe r.data 0 4
      let keep := fun (x : Nat × Nat × Nat × Nat) => x.2.1 == 0 || decide (d.gate.e ≤ x.2.2.1 + 4)
      let d := d.onTwin (fun t => { t with
        readyIn := t.readyIn.filter keep ++ [((auxPort r), (auxPos r), r.beat, crc)] })
      d.readyCheck (auxPort r) (auxPos r) r.beat crc) s

/-- The command area of a COMMAND record, as it is captured. -/
def cellsOf (bs : List (BitVec 8)) : List Host.Cell := Sparse.setMany 0 [] 0 bs

/-- COMMAND (R508): a shadow takes the command with the arrival beat of the record, and acknowledges it. -/
def execTwCommand (r : TwinRec) (s : State) : Res :=
  lift (fun d =>
    let mb := bits r.aux 0 4
    if d.twin.role != 5 then d
    else
      let d := d.onMbx mb (fun m => { m with cmd := cellsOf r.data, source := none, twin := true })
      (d.pend mb r.beat).twinSend 2 r.beat 0 0xFF (63 + mb * 2 ^ 6) []) s

/-- HOST_IN (R510): the bytes wait for their schedule beat. -/
def execTwHostIn (r : TwinRec) (s : State) : Res :=
  lift (fun d =>
    if d.twin.role != 5 then d
    else d.onTwin (fun t => { t with hostIn := t.hostIn ++ [(r.beat, fieldLe r.data 0 8, r.data.drop 8)] })) s

/-- VALUE (R513): held for the point that it names. -/
def execTwValue (r : TwinRec) (s : State) : Res :=
  lift (fun d =>
    if d.twin.role != 5 then d
    else d.onTwin (fun t => { t with
      values := t.values.filter (fun v => d.gate.e ≤ v.2.2.1 + 4)
        ++ [(bits r.aux 0 3, bits r.aux 3 4, r.beat, r.sc, r.core, fieldLe r.data 0 4)] })) s

/-- MISSED (R514): a primary that holds a good copy of the slot answers with FILL. -/
def execTwMissed (r : TwinRec) (s : State) : Res :=
  lift (fun d =>
    if d.twin.role != 4 || !d.hasPort (auxPort r) then d
    else
      match (d.port (auxPort r)).rxSlots.find? (fun x => x.1 == r.beat && x.2.1 == (auxPos r)) with
      | some x => if slotGood x.2.2 then d.twinSend 8 r.beat 0 0xFF (r.aux % 2 ^ 14) x.2.2 else d
      | none => d) s

/-- FILL (R514): the primary's good copy is filed as the shadow's own, and replaces a copy that was forwarded failed. -/
def execTwFill (r : TwinRec) (s : State) : Res :=
  lift (fun d =>
    let p := (auxPort r)
    let slot := slice r.data 0 512
    if d.twin.role != 5 || 32 ≤ p || !d.hasPort p || !slotGood slot then d
    else
      let d := d.onPort p (fun q => { q with
        rxSlots := q.rxSlots.map (fun x => if x.1 == r.beat && x.2.1 == (auxPos r) then (x.1, x.2.1, slot) else x) })
      (d.mendForward p r.beat (auxPos r) slot).fileSlot p r.beat (auxPos r) slot) s

/-- DIGEST (R520): the partner's digests of a compare point. -/
def execTwDigest (r : TwinRec) (s : State) : Res :=
  lift (fun d =>
    if !d.inPair then d
    else
      let t := bits r.aux 0 3
      (d.onTwin (fun w => { w with peerDigests := w.peerDigests ++ [(t, r.beat, r.data)] })).compareDigests t r.beat) s

/-- A divergence that the primary has seen: the shadow drops the packet concerned, and the task stops here too. -/
def Device.peerDiverged (d : Device) (t beat pos n : Nat) : Device :=
  let p := pos / 256
  let d := if pos % 256 = 255 then
      d.onPort p (fun q => { q with
        fifos := Sparse.upd [] q.fifos 63 (fun l => l.filter (fun x => x.v % 512 != n)) })
    else d
  d.diverge t beat (d.taskBeat t) pos

/-- FAULT (R28, R521, R522, R528, R534): the partner's record of a fault, or of a divergence that only the primary saw. A link
fault is one of the logical device. A fault of the partner ends an attach. -/
def execTwFault (r : TwinRec) (s : State) : Res :=
  lift (fun d =>
    if d.twin.role = 2 then d.abandon534 6
    else if !d.inPair then d
    else
      let code := bits r.aux 0 16
      let t := bits (fieldLe r.data 16 8) 17 3
      if code = 0x0401 then d.peerDiverged t r.beat (fieldLe r.data 0 8) (bits r.aux 16 9)
      else if classOf code = 3 then (if (d.task t).state == 2 then d.stopTask t else d)
      else
        let d := d.onTwin (fun w => { w with
          faults := w.faults ++ [(code, t, r.beat, r.sc, d.beat.w + 1)],
          peerPackage := if classOf code = 2 then
              w.peerPackage.filter (fun v => d.beat.w < v + 2 ^ 24) ++ [d.beat.w] else w.peerPackage })
        d.matchFaults t r.beat r.sc) s

/-- A STANDBY package sees that its partner has begun an attach (Table 22-2). -/
def Device.beginJoin (d : Device) : Device := if d.twin.role = 1 then (d.setPartner 2 0).setRole 3 0 else d

/-- STEER (R506, R517): the stamps, the bad slots, and from step 2 on the link-up step of each fabric port. -/
def execTwSteer (r : TwinRec) (s : State) : Res :=
  lift (fun d =>
    let d := d.beginJoin
    if !(d.twin.role == 3 || d.twin.role == 5) then d
    else
      let d := d.onTwin (fun t => { t with steer := [(r.beat, r.data)] })
      d.steerPorts.foldl (fun d p => d.onPort p (fun q =>
        let f := fun (i : Nat) => Config.steerField r.data p i
        { q with
          stamp := f 2, stampW := r.beat % 2 ^ 16,
          badRx := (r.beat - 1, (f 3).toNat) :: q.badRx.filter (fun e => e.1 != r.beat - 1),
          step := if 2 ≤ q.step then max 2 (min 6 (f 4).toNat) else q.step })) d) s

/-- Store bytes of state at a Rinaz address of device 0, as full-word writes of unmarked data. -/
def Device.storeState (d : Device) (a : Nat) (bs : List (BitVec 8)) : Device :=
  match rzSpace a with
  | 0 => d.onCore (rzCore a) (fun k => { k with spad := (k.spad.write 8 (rzCoreOff a) (unmarked bs)).mem })
  | 1 => { d with dram := (d.dram.write 32 (rzOff a) (unmarked bs)).mem }
  | _ => { d with staging := (d.staging.write 8 (rzOff a) (unmarked bs)).mem }

/-- The Rinaz address of a word that awaits twin repair, and its bytes. -/
def repairAddr (x : Nat × Nat × Nat) : Nat × Nat :=
  match x.1 with
  | 0 => (rzMake 0 0 (x.2.1 * 2 ^ 40 + x.2.2), 8)
  | 1 => (rzMake 0 2 x.2.2, 8)
  | _ => (rzMake 0 1 x.2.2, 32)

/-- Is the word still marked: no full-word write has cancelled its repair (R530)? -/
def Device.stillMarked (d : Device) (x : Nat × Nat × Nat) : Bool :=
  match x.1 with
  | 0 => Sparse.get false (d.core x.2.1).spad.poison (x.2.2 / 8)
  | 1 => Sparse.get false d.staging.poison (x.2.2 / 8)
  | _ => Sparse.get false d.dram.poison (x.2.2 / 32)

/-- The word at an address is sent to the partner, unless it is marked here too. -/
def Device.sendWord (d : Device) (a : Nat) : Device :=
  let kind := if rzSpace a = 0 then 0 else if rzSpace a = 1 then 2 else 1
  let x := (kind, if kind = 0 then rzCore a else 0, if kind = 0 then rzCoreOff a else rzOff a)
  if d.stillMarked x then d
  else d.twinSend 0x0C d.beat.w 0 0xFF 0 (leBytes 8 a ++ d.stateBytesAt a (repairAddr x).2)

/-- COPY (R530, R532, R533): state of the live package in an attach; in a pair a word for the twin repair window, or without bytes
the partner's request for one (log 48). -/
def execTwCopy (r : TwinRec) (s : State) : Res :=
  lift (fun d =>
    let d := d.beginJoin
    let a := fieldLe r.data 0 8
    let bs := r.data.drop 8
    if d.twin.role = 3 then
      if rzSpace a = 0xE then d.onTwin (fun t => { t with joinIn := t.joinIn ++ bs }) else d.storeState a bs
    else if !d.inPair then d
    else if bs == [] then d.sendWord a
    else
      match d.twin.repairs.find? (fun x => repairAddr x == (a, bs.length)) with
      | some x =>
        let d := if d.stillMarked x then d.storeState a bs else d
        d.onTwin (fun t => { t with repairs := t.repairs.erase x })
      | none => d) s

/-- Is a word in no window of a bound task? -/
def Device.noWindow (d : Device) (x : Nat × Nat × Nat) : Bool :=
  match x.1 with
  | 0 => d.spadWindowSlots x.2.1 x.2.2 8 == []
  | 1 => d.stageWindowSlots x.2.2 8 == []
  | _ => d.dramWindowSlots x.2.2 32 == []

/-- TWIN_SCRUB_REPAIR (R530): at the twin repair window the package asks its partner for the words that are due; words that have
been written since need no repair. -/
def execTwinScrubRepair (s : State) : Res :=
  lift (fun d =>
    if !d.inPair then d
    else
      let live := d.twin.repairs.filter d.stillMarked
      let due := live.filter (fun x => d.twin.repairDue.contains x || (d.beat.w % 1024 == 0 && d.noWindow x))
      let d := d.onTwin (fun t => { t with repairs := live, repairDue := [] })
      due.foldl (fun d x => d.twinSend 0x0C d.beat.w 0 0xFF 0 (leBytes 8 (repairAddr x).1)) d) s

end Sys2Proof.Machine
end

