-- ==== Sys2Proof/Machine/VectorSlots.lean ====
section
/-! DEFINITION. Machine/VectorSlots.lean: the rows of the vector operations (R215 to R233): each acts when the present bundle
of the core holds its opcode in the named slot. What an operation computes stands in Vector.lean, and what the slot reads
and sends on its way in Bundle.lean. -/

namespace Sys2Proof.Machine

open Sys2Proof

/-- The row of a vector operation in slot VA or VB. -/
def vectorRow (c : Nat) (sl : VSlot) (op : Nat) (s : State) : Res :=
  match sl with
  | .va => slotRow c 4 op 4 s
  | .vb => slotRow c 5 op 6 s

/-- V_NOP (R147): opcode 0x00. -/
def execVNop (c : Nat) (sl : VSlot) (s : State) : Res := vectorRow c sl 0x00 s

/-- V_ADD (R215): opcode 0x01. -/
def execVAdd (c : Nat) (sl : VSlot) (s : State) : Res := vectorRow c sl 0x01 s

/-- V_SUB (R215): opcode 0x02. -/
def execVSub (c : Nat) (sl : VSlot) (s : State) : Res := vectorRow c sl 0x02 s

/-- V_MUL (R215): opcode 0x03. -/
def execVMul (c : Nat) (sl : VSlot) (s : State) : Res := vectorRow c sl 0x03 s

/-- V_FMA (R215): opcode 0x04. -/
def execVFma (c : Nat) (sl : VSlot) (s : State) : Res := vectorRow c sl 0x04 s

/-- V_DIV (R223): opcode 0x05. -/
def execVDiv (c : Nat) (sl : VSlot) (s : State) : Res := vectorRow c sl 0x05 s

/-- V_SQRT (R223): opcode 0x06. -/
def execVSqrt (c : Nat) (sl : VSlot) (s : State) : Res := vectorRow c sl 0x06 s

/-- V_MAX (R105): opcode 0x07. -/
def execVMax (c : Nat) (sl : VSlot) (s : State) : Res := vectorRow c sl 0x07 s

/-- V_MIN (R105): opcode 0x08. -/
def execVMin (c : Nat) (sl : VSlot) (s : State) : Res := vectorRow c sl 0x08 s

/-- V_CMP (R104): opcode 0x09. -/
def execVCmp (c : Nat) (sl : VSlot) (s : State) : Res := vectorRow c sl 0x09 s

/-- V_SEL (R215): opcode 0x0A. -/
def execVSel (c : Nat) (sl : VSlot) (s : State) : Res := vectorRow c sl 0x0A s

/-- V_NEG (R215): opcode 0x0B. -/
def execVNeg (c : Nat) (sl : VSlot) (s : State) : Res := vectorRow c sl 0x0B s

/-- V_2SUM (R136): opcode 0x0C. -/
def execV2sum (c : Nat) (sl : VSlot) (s : State) : Res := vectorRow c sl 0x0C s

/-- V_2PROD (R136): opcode 0x0D. -/
def execV2prod (c : Nat) (sl : VSlot) (s : State) : Res := vectorRow c sl 0x0D s

/-- V_EXP2 (R226): opcode 0x10. -/
def execVExp2 (c : Nat) (sl : VSlot) (s : State) : Res := vectorRow c sl 0x10 s

/-- V_LOG2 (R226): opcode 0x11. -/
def execVLog2 (c : Nat) (sl : VSlot) (s : State) : Res := vectorRow c sl 0x11 s

/-- V_RCP (R226): opcode 0x12. -/
def execVRcp (c : Nat) (sl : VSlot) (s : State) : Res := vectorRow c sl 0x12 s

/-- V_RSQRT (R226): opcode 0x13. -/
def execVRsqrt (c : Nat) (sl : VSlot) (s : State) : Res := vectorRow c sl 0x13 s

/-- V_AND (R215): opcode 0x18. -/
def execVAnd (c : Nat) (sl : VSlot) (s : State) : Res := vectorRow c sl 0x18 s

/-- V_OR (R215): opcode 0x19. -/
def execVOr (c : Nat) (sl : VSlot) (s : State) : Res := vectorRow c sl 0x19 s

/-- V_XOR (R215): opcode 0x1A. -/
def execVXor (c : Nat) (sl : VSlot) (s : State) : Res := vectorRow c sl 0x1A s

/-- V_SHL (R119): opcode 0x1B. -/
def execVShl (c : Nat) (sl : VSlot) (s : State) : Res := vectorRow c sl 0x1B s

/-- V_SHR (R119): opcode 0x1C. -/
def execVShr (c : Nat) (sl : VSlot) (s : State) : Res := vectorRow c sl 0x1C s

/-- V_SRA (R119): opcode 0x1D. -/
def execVSra (c : Nat) (sl : VSlot) (s : State) : Res := vectorRow c sl 0x1D s

/-- V_MOV (R215): opcode 0x20. -/
def execVMov (c : Nat) (sl : VSlot) (s : State) : Res := vectorRow c sl 0x20 s

/-- V_PERM (R216): opcode 0x21. -/
def execVPerm (c : Nat) (sl : VSlot) (s : State) : Res := vectorRow c sl 0x21 s

/-- V_SHUF (R217): opcode 0x22. -/
def execVShuf (c : Nat) (sl : VSlot) (s : State) : Res := vectorRow c sl 0x22 s

/-- V_CVT (R120): opcode 0x23. -/
def execVCvt (c : Nat) (sl : VSlot) (s : State) : Res := vectorRow c sl 0x23 s

/-- V_UNPK (R396): opcode 0x24. -/
def execVUnpk (c : Nat) (sl : VSlot) (s : State) : Res := vectorRow c sl 0x24 s

/-- V_PACK (R396): opcode 0x25. -/
def execVPack (c : Nat) (sl : VSlot) (s : State) : Res := vectorRow c sl 0x25 s

/-- V_CMPR (R218): opcode 0x26. -/
def execVCmpr (c : Nat) (sl : VSlot) (s : State) : Res := vectorRow c sl 0x26 s

/-- V_EXPD (R219): opcode 0x27. -/
def execVExpd (c : Nat) (sl : VSlot) (s : State) : Res := vectorRow c sl 0x27 s

/-- V_BCOMB (R224): opcode 0x28. -/
def execVBcomb (c : Nat) (sl : VSlot) (s : State) : Res := vectorRow c sl 0x28 s

/-- V_RSUM (R220): opcode 0x30. -/
def execVRsum (c : Nat) (sl : VSlot) (s : State) : Res := vectorRow c sl 0x30 s

/-- V_RMAX (R105): opcode 0x31. -/
def execVRmax (c : Nat) (sl : VSlot) (s : State) : Res := vectorRow c sl 0x31 s

/-- V_RMIN (R105): opcode 0x32. -/
def execVRmin (c : Nat) (sl : VSlot) (s : State) : Res := vectorRow c sl 0x32 s

/-- V_XADD (R222): opcode 0x38. -/
def execVXadd (c : Nat) (sl : VSlot) (s : State) : Res := vectorRow c sl 0x38 s

/-- V_XRD (R140): opcode 0x39. -/
def execVXrd (c : Nat) (sl : VSlot) (s : State) : Res := vectorRow c sl 0x39 s

/-- V_XCLR (R225): opcode 0x3A. -/
def execVXclr (c : Nat) (sl : VSlot) (s : State) : Res := vectorRow c sl 0x3A s

/-- V_XST (R225): opcode 0x3B. -/
def execVXst (c : Nat) (sl : VSlot) (s : State) : Res := vectorRow c sl 0x3B s

/-- V_XLD (R141): opcode 0x3C. -/
def execVXld (c : Nat) (sl : VSlot) (s : State) : Res := vectorRow c sl 0x3C s

/-- V_SM0 (R228): opcode 0x40. -/
def execVSm0 (c : Nat) (sl : VSlot) (s : State) : Res := vectorRow c sl 0x40 s

/-- V_SM1 (R229): opcode 0x41. -/
def execVSm1 (c : Nat) (sl : VSlot) (s : State) : Res := vectorRow c sl 0x41 s

/-- V_SMR (R230): opcode 0x42. -/
def execVSmr (c : Nat) (sl : VSlot) (s : State) : Res := vectorRow c sl 0x42 s

/-- V_SM2 (R231): opcode 0x43. -/
def execVSm2 (c : Nat) (sl : VSlot) (s : State) : Res := vectorRow c sl 0x43 s

/-- V_SMN (R232): opcode 0x44. -/
def execVSmn (c : Nat) (sl : VSlot) (s : State) : Res := vectorRow c sl 0x44 s

/-- V_PSET (R207): opcode 0x48. -/
def execVPset (c : Nat) (sl : VSlot) (s : State) : Res := vectorRow c sl 0x48 s

/-- V_PBUF (R207): opcode 0x49. -/
def execVPbuf (c : Nat) (sl : VSlot) (s : State) : Res := vectorRow c sl 0x49 s

/-- V_BELL (R213): opcode 0x4A. -/
def execVBell (c : Nat) (sl : VSlot) (s : State) : Res := vectorRow c sl 0x4A s

end Sys2Proof.Machine
end

