-- ==== Sys2Proof/Machine/Dispatch.lean ====
section
/-! DEFINITION. Machine/Dispatch.lean: the meaning of every command and event, one direct call each. -/

namespace Sys2Proof.Machine

open Sys2Proof

/-- The effect of one command or event on everything but the queue. -/
def exec (i : Instr) (s : State) : Host.Outcome State Fault Refusal :=
  match i with
  | .registerWrite off size val => Sys2Proof.Machine.execRegisterWrite off size val s
  | .submit win size val => Sys2Proof.Machine.execSubmit win size val s
  | .relayAbandon win size val => Sys2Proof.Machine.execRelayAbandon win size val s
  | .ringConfigWrite off size val => Sys2Proof.Machine.execRingConfigWrite off size val s
  | .ringHeadWrite size val => Sys2Proof.Machine.execRingHeadWrite size val s
  | .bar2Write off data => Sys2Proof.Machine.execBar2Write off data s
  | .smbSetPointer pecOk ptr => Sys2Proof.Machine.execSmbSetPointer pecOk ptr s
  | .smbBlockWrite pecOk data => Sys2Proof.Machine.execSmbBlockWrite pecOk data s
  | .smbBlockRead pecOk => Sys2Proof.Machine.execSmbBlockRead pecOk s
  | .commandStart => Sys2Proof.Machine.execCommandStart s
  | .commandComplete mb => Sys2Proof.Machine.execCommandComplete mb s
  | .ringEntryWrite => Sys2Proof.Machine.execRingEntryWrite s
  | .identRead mb => Sys2Proof.Machine.execIdentRead mb s
  | .versionNegotiate mb => Sys2Proof.Machine.execVersionNegotiate mb s
  | .topoSet mb => Sys2Proof.Machine.execTopoSet mb s
  | .droneRole mb => Sys2Proof.Machine.execDroneRole mb s
  | .imageStage mb => Sys2Proof.Machine.execImageStage mb s
  | .imageCommit mb => Sys2Proof.Machine.execImageCommit mb s
  | .taskBind mb => Sys2Proof.Machine.execTaskBind mb s
  | .taskStart mb => Sys2Proof.Machine.execTaskStart mb s
  | .yieldReq mb => Sys2Proof.Machine.execYieldReq mb s
  | .taskStop mb => Sys2Proof.Machine.execTaskStop mb s
  | .ctxSave mb => Sys2Proof.Machine.execCtxSave mb s
  | .ctxRestore mb => Sys2Proof.Machine.execCtxRestore mb s
  | .planStop mb => Sys2Proof.Machine.execPlanStop mb s
  | .planSet mb => Sys2Proof.Machine.execPlanSet mb s
  | .planStart mb => Sys2Proof.Machine.execPlanStart mb s
  | .snapshot mb => Sys2Proof.Machine.execSnapshot mb s
  | .counterRead mb => Sys2Proof.Machine.execCounterRead mb s
  | .healthRead mb => Sys2Proof.Machine.execHealthRead mb s
  | .digestRead mb => Sys2Proof.Machine.execDigestRead mb s
  | .replayArm mb => Sys2Proof.Machine.execReplayArm mb s
  | .replayRun mb => Sys2Proof.Machine.execReplayRun mb s
  | .powerPolicy mb => Sys2Proof.Machine.execPowerPolicy mb s
  | .meterRead mb => Sys2Proof.Machine.execMeterRead mb s
  | .epochSet mb => Sys2Proof.Machine.execEpochSet mb s
  | .twinAttach mb => Sys2Proof.Machine.execTwinAttach mb s
  | .twinDetach mb => Sys2Proof.Machine.execTwinDetach mb s
  | .hostCopy mb => Sys2Proof.Machine.execHostCopy mb s
  | .taskStartEffect slot => Sys2Proof.Machine.execTaskStartEffect slot s
  | .planStopEffect => Sys2Proof.Machine.execPlanStopEffect s
  | .planStartEffect => Sys2Proof.Machine.execPlanStartEffect s
  | .snapshotLatch => Sys2Proof.Machine.execSnapshotLatch s
  | .powerPolicyEffect => Sys2Proof.Machine.execPowerPolicyEffect s
  | .mgmtPiece mb src off data last => Sys2Proof.Machine.execMgmtPiece mb src off data last s
  | .mgmtResponse src mb off data last => Sys2Proof.Machine.execMgmtResponse src mb off data last s
  | .ctNop c => Sys2Proof.Machine.execCtNop c s
  | .ctLoop c => Sys2Proof.Machine.execCtLoop c s
  | .ctJump c => Sys2Proof.Machine.execCtJump c s
  | .ctGate c => Sys2Proof.Machine.execCtGate c s
  | .ctYield c => Sys2Proof.Machine.execCtYield c s
  | .ctHint c => Sys2Proof.Machine.execCtHint c s
  | .ctFlagrd c => Sys2Proof.Machine.execCtFlagrd c s
  | .ctFlagclr c => Sys2Proof.Machine.execCtFlagclr c s
  | .ctEnd c => Sys2Proof.Machine.execCtEnd c s
  | .cuNop c => Sys2Proof.Machine.execCuNop c s
  | .cuCopy c => Sys2Proof.Machine.execCuCopy c s
  | .mxNop c => Sys2Proof.Machine.execMxNop c s
  | .mxPass c => Sys2Proof.Machine.execMxPass c s
  | .vNop c sl => Sys2Proof.Machine.execVNop c sl s
  | .vAdd c sl => Sys2Proof.Machine.execVAdd c sl s
  | .vSub c sl => Sys2Proof.Machine.execVSub c sl s
  | .vMul c sl => Sys2Proof.Machine.execVMul c sl s
  | .vFma c sl => Sys2Proof.Machine.execVFma c sl s
  | .vDiv c sl => Sys2Proof.Machine.execVDiv c sl s
  | .vSqrt c sl => Sys2Proof.Machine.execVSqrt c sl s
  | .vMax c sl => Sys2Proof.Machine.execVMax c sl s
  | .vMin c sl => Sys2Proof.Machine.execVMin c sl s
  | .vCmp c sl => Sys2Proof.Machine.execVCmp c sl s
  | .vSel c sl => Sys2Proof.Machine.execVSel c sl s
  | .vNeg c sl => Sys2Proof.Machine.execVNeg c sl s
  | .v2sum c sl => Sys2Proof.Machine.execV2sum c sl s
  | .v2prod c sl => Sys2Proof.Machine.execV2prod c sl s
  | .vExp2 c sl => Sys2Proof.Machine.execVExp2 c sl s
  | .vLog2 c sl => Sys2Proof.Machine.execVLog2 c sl s
  | .vRcp c sl => Sys2Proof.Machine.execVRcp c sl s
  | .vRsqrt c sl => Sys2Proof.Machine.execVRsqrt c sl s
  | .vAnd c sl => Sys2Proof.Machine.execVAnd c sl s
  | .vOr c sl => Sys2Proof.Machine.execVOr c sl s
  | .vXor c sl => Sys2Proof.Machine.execVXor c sl s
  | .vShl c sl => Sys2Proof.Machine.execVShl c sl s
  | .vShr c sl => Sys2Proof.Machine.execVShr c sl s
  | .vSra c sl => Sys2Proof.Machine.execVSra c sl s
  | .vMov c sl => Sys2Proof.Machine.execVMov c sl s
  | .vPerm c sl => Sys2Proof.Machine.execVPerm c sl s
  | .vShuf c sl => Sys2Proof.Machine.execVShuf c sl s
  | .vCvt c sl => Sys2Proof.Machine.execVCvt c sl s
  | .vUnpk c sl => Sys2Proof.Machine.execVUnpk c sl s
  | .vPack c sl => Sys2Proof.Machine.execVPack c sl s
  | .vCmpr c sl => Sys2Proof.Machine.execVCmpr c sl s
  | .vExpd c sl => Sys2Proof.Machine.execVExpd c sl s
  | .vBcomb c sl => Sys2Proof.Machine.execVBcomb c sl s
  | .vRsum c sl => Sys2Proof.Machine.execVRsum c sl s
  | .vRmax c sl => Sys2Proof.Machine.execVRmax c sl s
  | .vRmin c sl => Sys2Proof.Machine.execVRmin c sl s
  | .vXadd c sl => Sys2Proof.Machine.execVXadd c sl s
  | .vXrd c sl => Sys2Proof.Machine.execVXrd c sl s
  | .vXclr c sl => Sys2Proof.Machine.execVXclr c sl s
  | .vXst c sl => Sys2Proof.Machine.execVXst c sl s
  | .vXld c sl => Sys2Proof.Machine.execVXld c sl s
  | .vSm0 c sl => Sys2Proof.Machine.execVSm0 c sl s
  | .vSm1 c sl => Sys2Proof.Machine.execVSm1 c sl s
  | .vSmr c sl => Sys2Proof.Machine.execVSmr c sl s
  | .vSm2 c sl => Sys2Proof.Machine.execVSm2 c sl s
  | .vSmn c sl => Sys2Proof.Machine.execVSmn c sl s
  | .vPset c sl => Sys2Proof.Machine.execVPset c sl s
  | .vPbuf c sl => Sys2Proof.Machine.execVPbuf c sl s
  | .vBell c sl => Sys2Proof.Machine.execVBell c sl s
  | .qkNop c => Sys2Proof.Machine.execQkNop c s
  | .keyAdd c => Sys2Proof.Machine.execKeyAdd c s
  | .keyWait c => Sys2Proof.Machine.execKeyWait c s
  | .keyTake c => Sys2Proof.Machine.execKeyTake c s
  | .keyRead c => Sys2Proof.Machine.execKeyRead c s
  | .qSend c => Sys2Proof.Machine.execQSend c s
  | .qRecv c => Sys2Proof.Machine.execQRecv c s
  | .qSelect c => Sys2Proof.Machine.execQSelect c s
  | .entDraw c => Sys2Proof.Machine.execEntDraw c s
  | .timeRead c => Sys2Proof.Machine.execTimeRead c s
  | .cntRead c => Sys2Proof.Machine.execCntRead c s
  | .vectorWriteback c => Sys2Proof.Machine.execVectorWriteback c s
  | .mxFeedRead c => Sys2Proof.Machine.execMxFeedRead c s
  | .passResultLand c err => Sys2Proof.Machine.execPassResultLand c err s
  | .beatEdge env => Sys2Proof.Machine.execBeatEdge env s
  | .beatWorkDone region => Sys2Proof.Machine.execBeatWorkDone region s
  | .beatGateOpen stall => Sys2Proof.Machine.execBeatGateOpen stall s
  | .scrubCycle c => Sys2Proof.Machine.execScrubCycle c s
  | .yieldPoint slot => Sys2Proof.Machine.execYieldPoint slot s
  | .yieldOverdue slot => Sys2Proof.Machine.execYieldOverdue slot s
  | .bundleWaitOverdue c => Sys2Proof.Machine.execBundleWaitOverdue c s
  | .taskFaulted slot => Sys2Proof.Machine.execTaskFaulted slot s
  | .copyAccess c bank fresh => Sys2Proof.Machine.execCopyAccess c bank fresh s
  | .copyComplete c id => Sys2Proof.Machine.execCopyComplete c id s
  | .queueArrival c => Sys2Proof.Machine.execQueueArrival c s
  | .dramTick => Sys2Proof.Machine.execDramTick s
  | .forcedRefresh stack => Sys2Proof.Machine.execForcedRefresh stack s
  | .dramScrub stack => Sys2Proof.Machine.execDramScrub stack s
  | .stagingScrub => Sys2Proof.Machine.execStagingScrub s
  | .logGap => Sys2Proof.Machine.execLogGap s
  | .replayApply slot => Sys2Proof.Machine.execReplayApply slot s
  | .slotTransmit p => Sys2Proof.Machine.execSlotTransmit p s
  | .controlSlotTransmit p => Sys2Proof.Machine.execControlSlotTransmit p s
  | .outboxReady p pos => Sys2Proof.Machine.execOutboxReady p pos s
  | .slotReceive p slot => Sys2Proof.Machine.execSlotReceive p slot s
  | .controlSlotReceive p slot stamp => Sys2Proof.Machine.execControlSlotReceive p slot stamp s
  | .slipWrite p => Sys2Proof.Machine.execSlipWrite p s
  | .repairResend p => Sys2Proof.Machine.execRepairResend p s
  | .ledgerCheck p => Sys2Proof.Machine.execLedgerCheck p s
  | .linkTrainingDone p ok => Sys2Proof.Machine.execLinkTrainingDone p ok s
  | .linkFramingLock p => Sys2Proof.Machine.execLinkFramingLock p s
  | .openLink p => Sys2Proof.Machine.execOpenLink p s
  | .linkDelayDone p up => Sys2Proof.Machine.execLinkDelayDone p up s
  | .portFramingLoss p => Sys2Proof.Machine.execPortFramingLoss p s
  | .openWrite => Sys2Proof.Machine.execOpenWrite s
  | .openReadReq => Sys2Proof.Machine.execOpenReadReq s
  | .openReadData => Sys2Proof.Machine.execOpenReadData s
  | .openKeyAdd => Sys2Proof.Machine.execOpenKeyAdd s
  | .openQmsg => Sys2Proof.Machine.execOpenQmsg s
  | .openDone => Sys2Proof.Machine.execOpenDone s
  | .openHost => Sys2Proof.Machine.execOpenHost s
  | .droneInMarker deltaPs => Sys2Proof.Machine.execDroneInMarker deltaPs s
  | .droneInWord frame => Sys2Proof.Machine.execDroneInWord frame s
  | .droneLost => Sys2Proof.Machine.execDroneLost s
  | .freewheelExpired => Sys2Proof.Machine.execFreewheelExpired s
  | .freewheelExit => Sys2Proof.Machine.execFreewheelExit s
  | .droneLock => Sys2Proof.Machine.execDroneLock s
  | .droneRealign => Sys2Proof.Machine.execDroneRealign s
  | .standbyTakeover => Sys2Proof.Machine.execStandbyTakeover s
  | .refclkLost => Sys2Proof.Machine.execRefclkLost s
  | .refclkReturn => Sys2Proof.Machine.execRefclkReturn s
  | .pcieRefclkLost => Sys2Proof.Machine.execPcieRefclkLost s
  | .hostLinkUp => Sys2Proof.Machine.execHostLinkUp s
  | .powerCapUpdate => Sys2Proof.Machine.execPowerCapUpdate s
  | .meterEnergyShare => Sys2Proof.Machine.execMeterEnergyShare s
  | .railTelemetryRead readings => Sys2Proof.Machine.execRailTelemetryRead readings s
  | .railStatusRead faults => Sys2Proof.Machine.execRailStatusRead faults s
  | .thermalShutdown sensor => Sys2Proof.Machine.execThermalShutdown sensor s
  | .wakeComplete kind unit => Sys2Proof.Machine.execWakeComplete kind unit s
  | .coreRemap c => Sys2Proof.Machine.execCoreRemap c s
  | .resetAssert => Sys2Proof.Machine.execResetAssert s
  | .resetRelease seat smbAddr => Sys2Proof.Machine.execResetRelease seat smbAddr s
  | .dieAttestation q ok => Sys2Proof.Machine.execDieAttestation q ok s
  | .bootFrame => Sys2Proof.Machine.execBootFrame s
  | .bootSignature => Sys2Proof.Machine.execBootSignature s
  | .startupStep => Sys2Proof.Machine.execStartupStep s
  | .chanterReady => Sys2Proof.Machine.execChanterReady s
  | .twinSeatTimeout => Sys2Proof.Machine.execTwinSeatTimeout s
  | .twinPeerAliveFall => Sys2Proof.Machine.execTwinPeerAliveFall s
  | .twDecide r => Sys2Proof.Machine.execTwDecide r s
  | .twAck r => Sys2Proof.Machine.execTwAck r s
  | .twReady r => Sys2Proof.Machine.execTwReady r s
  | .twCommand r => Sys2Proof.Machine.execTwCommand r s
  | .twHostIn r => Sys2Proof.Machine.execTwHostIn r s
  | .twValue r => Sys2Proof.Machine.execTwValue r s
  | .twMissed r => Sys2Proof.Machine.execTwMissed r s
  | .twFill r => Sys2Proof.Machine.execTwFill r s
  | .twDigest r => Sys2Proof.Machine.execTwDigest r s
  | .twFault r => Sys2Proof.Machine.execTwFault r s
  | .twSteer r => Sys2Proof.Machine.execTwSteer r s
  | .twCopy r => Sys2Proof.Machine.execTwCopy r s
  | .twMbox14 off data last response => Sys2Proof.Machine.execTwMbox14 off data last response s
  | .openDeferralApply => Sys2Proof.Machine.execOpenDeferralApply s
  | .twinMute => Sys2Proof.Machine.execTwinMute s
  | .twinLinkLoss => Sys2Proof.Machine.execTwinLinkLoss s
  | .twinJoin => Sys2Proof.Machine.execTwinJoin s
  | .twinAttachAbandon => Sys2Proof.Machine.execTwinAttachAbandon s
  | .twinScrubRepair => Sys2Proof.Machine.execTwinScrubRepair s
  | .bypass => Sys2Proof.Machine.execBypass s
  | .idcode => Sys2Proof.Machine.execIdcode s
  | .samplePreload => Sys2Proof.Machine.execSamplePreload s
  | .extest => Sys2Proof.Machine.execExtest s
  | .clamp => Sys2Proof.Machine.execClamp s
  | .highz => Sys2Proof.Machine.execHighz s
  | .hostLinkDown => Sys2Proof.Machine.execHostLinkDown s
  | .linkUpTimeout p => Sys2Proof.Machine.execLinkUpTimeout p s
  | .twinPeerAliveRise => Sys2Proof.Machine.execTwinPeerAliveRise s
  | .lossOfPower => Sys2Proof.Machine.execLossOfPower s
  | .packageFault cause unit => Sys2Proof.Machine.execPackageFault cause unit s

end Sys2Proof.Machine
end

