-- ==== Sys2Proof/Safety.lean ====
section
/-! DEFINITION. Safety.lean: the words that claims about the machine use: the time base in step, memories in canonical form, a command
that completes, the rows that move the time base, and the units that a command names. -/

namespace Sys2Proof.Machine

open Sys2Proof

/-! ### Invariants -/

/-- The time base is in step: every wall beat is a schedule beat or a hold beat (R35). -/
abbrev Device.inStep (d : Device) : Prop := d.beat.w = d.beat.h + d.beat.s

/-- A protected memory is in canonical form. -/
def Mem.wf (m : Mem) : Bool := Sparse.wf 0 m.bytes && Sparse.wf false m.poison && Sparse.wf 0 m.ecc

/-- Every memory of the device is in canonical form: DRAM, hub staging, each scratchpad, the boot flash and host memory. -/
def Memory.wf (d : Device) : Bool :=
  d.dram.wf && d.staging.wf && Sparse.wf 0 d.host.mem && Sparse.wf 0xFF d.boot.flash && d.cores.all (fun e => e.2.spad.wf)

/-! ### Completion -/

/-- A command completes: it answers a next state, of which P holds. -/
def Completes (i : Instr) (s : State) (P : Device → Prop) : Prop := ∃ t, exec i s = .next t ∧ P t.dev

/-- A command completes with exactly these changes of the device; the queue and the time base stay. -/
def Becomes (i : Instr) (s : State) (d : Device) : Prop := exec i s = .next { s with dev := { d with beat := s.dev.beat } }

/-- The command in mailbox mb is answered: DONE with a status and DETAIL, or the outcome is decided and waits to be published
(R458, R612). -/
def Device.answered (d : Device) (mb status detail : Nat) : Bool :=
  let m := d.mbx mb
  (m.st == 3 && m.status == status && m.detail == detail)
    || (match m.outcome with
        | some (a, b, _) => a == status && b == detail
        | none => false)

/-! ### One unit changes -/

/-- Of d and e, only core c differs: it is k in e. -/
def Device.onlyCore (d e : Device) (c : Nat) (k : Core) : Prop :=
  e.core c = k ∧ (∀ x, x ≠ c → e.core x = d.core x) ∧ e = { d with cores := e.cores }

/-- Of d and e, only task slot t differs: it is k in e. -/
def Device.onlyTask (d e : Device) (t : Nat) (k : Task) : Prop :=
  e.task t = k ∧ (∀ x, x ≠ t → e.task x = d.task x) ∧ e = { d with tasks := e.tasks }

/-- Of d and e, only port p differs: it is k in e. -/
def Device.onlyPort (d e : Device) (p : Nat) (k : Port) : Prop :=
  e.port p = k ∧ (∀ x, x ≠ p → e.port x = d.port x) ∧ e = { d with fabric := { d.fabric with ports := e.fabric.ports } }

/-- The code, cause, unit kind and unit of the latest health record. -/
def Device.lastRecord (d : Device) : Option (Nat × Nat × Nat × Nat) :=
  d.hub.health.head?.map (fun r => (r.code, r.cause, r.unitKind, r.unit))

/-! ### A bundle of a core -/

/-- The next bundle of core c is w, of task t, and nothing keeps it from issuing: the core may issue, no empty bundles are due,
the bundle lies in the task's window with good parity, and neither a wait nor a fault stands against it (R148). -/
def Device.issues (d : Device) (c t : Nat) (w : BitVec 384) : Prop :=
  let k := d.core c
  d.ready c = some t ∧ k.fill = none ∧ k.pc < instrCount (k.bound t) ∧ k.bundleAt t k.pc = w ∧ k.parityBad t k.pc = []
    ∧ d.waitKind c t w k.pc (k.sc + 1) = none ∧ d.bundleBad c t w k.pc (k.sc + 1) = []

/-- Phase p of the present sc of core c is the next to run. -/
def Core.atPhase (k : Core) (p : Nat) : Prop := k.awaits p = true ∧ ∀ q, 1 ≤ q → q < p → k.awaits q = false

/-- Phase p of the present sc of core c has begun. -/
def Device.begun (d : Device) (c p : Nat) : Device := d.onIssue c (fun i => { i with done := i.done ++ [p] })

/-- An operand of a vector slot that is not read from the scratchpad: a register, a row of the bell queue head or a broadcast lane
(Table 9-4). -/
def Core.operandOf (k : Core) (kind v idx : Nat) : Vec :=
  match kind with
  | 2 => k.bellRow idx
  | 3 => Sys2Proof.Machine.lanes (fun _ => (lane (k.vreg v) idx, mark (k.vreg v) idx))
  | _ => k.vreg v

/-! ### Scrubbing -/

/-- Words of u bytes are as they were: bytes, poison bit and errors. -/
def Mem.sameWord (m n : Mem) (u i : Nat) : Prop :=
  (∀ j, j < u → Sparse.get 0 n.bytes (u * i + j) = Sparse.get 0 m.bytes (u * i + j))
    ∧ Sparse.get false n.poison i = Sparse.get false m.poison i ∧ Sparse.get 0 n.ecc i = Sparse.get 0 m.ecc i

/-- A word of u bytes is zero, without poison and without error. -/
def Mem.zeroed (n : Mem) (u i : Nat) : Prop :=
  (∀ j, j < u → Sparse.get 0 n.bytes (u * i + j) = 0) ∧ Sparse.get false n.poison i = false ∧ Sparse.get 0 n.ecc i = 0

/-- n is m after the scrubber has met the words of `hit` (Table 10-7, R538): a correctable error is corrected; an uncorrectable
one poisons a live word and zeroes any other; poison without error is cleared with its word where the word is not live and `clean`
says so; every other word stays. -/
def Mem.scrubbed (m n : Mem) (u : Nat) (live : Nat → Bool) (clean : Bool) (hit : Nat → Prop) : Prop :=
  ∀ i, (¬ hit i → m.sameWord n u i)
    ∧ (hit i → Sparse.get 0 m.ecc i = 0 → Sparse.get false m.poison i = true → live i = false → clean = true → n.zeroed u i)
    ∧ (hit i → Sparse.get 0 m.ecc i = 0 → (Sparse.get false m.poison i = false ∨ live i = true ∨ clean = false) →
        m.sameWord n u i)
    ∧ (hit i → Sparse.get 0 m.ecc i = 1 → ({ m with ecc := Sparse.set 0 m.ecc i 0 } : Mem).sameWord n u i)
    ∧ (hit i → 2 ≤ Sparse.get 0 m.ecc i → live i = true →
        (m.markWord i).sameWord n u i)
    ∧ (hit i → 2 ≤ Sparse.get 0 m.ecc i → live i = false → n.zeroed u i)

/-! ### The units that a command names -/

/-- Does the part have the unit that a command names? The mailboxes 0 to 15, the windows 0 to 13, the task slots 0 to 7, the
quarters 0 to 3, the sensors 0 to 12, and the cores, ports, stacks and regions of its grade. -/
def unitExists (d : Device) : Instr → Bool
  | .submit win _ _ => win < 14
  | .relayAbandon win _ _ => win == 12 || win == 13
  | .mgmtPiece mb _ _ _ _ => mb == 12 || mb == 13 || mb == 14
  | .mgmtResponse _ mb _ _ _ => mb == 12 || mb == 13
  | .commandComplete mb | .identRead mb | .versionNegotiate mb | .topoSet mb | .droneRole mb | .imageStage mb
  | .imageCommit mb | .taskBind mb | .taskStart mb | .yieldReq mb | .taskStop mb | .ctxSave mb | .ctxRestore mb
  | .planStop mb | .planSet mb | .planStart mb | .snapshot mb | .counterRead mb | .healthRead mb | .digestRead mb
  | .replayArm mb | .replayRun mb | .powerPolicy mb | .meterRead mb | .epochSet mb | .twinAttach mb | .twinDetach mb
  | .hostCopy mb => mb < 16
  | .taskStartEffect t | .yieldPoint t | .yieldOverdue t | .taskFaulted t | .replayApply t => t < 8
  | .ctNop c | .ctLoop c | .ctJump c | .ctGate c | .ctYield c | .ctHint c | .ctFlagrd c | .ctFlagclr c | .ctEnd c
  | .cuNop c | .cuCopy c | .mxNop c | .mxPass c
  | .vNop c _ | .vAdd c _ | .vSub c _ | .vMul c _ | .vFma c _ | .vDiv c _ | .vSqrt c _ | .vMax c _ | .vMin c _ | .vCmp c _
  | .vSel c _ | .vNeg c _ | .v2sum c _ | .v2prod c _ | .vExp2 c _ | .vLog2 c _ | .vRcp c _ | .vRsqrt c _
  | .vAnd c _ | .vOr c _ | .vXor c _ | .vShl c _ | .vShr c _ | .vSra c _ | .vMov c _ | .vPerm c _ | .vShuf c _ | .vCvt c _
  | .vUnpk c _ | .vPack c _ | .vCmpr c _ | .vExpd c _ | .vBcomb c _ | .vRsum c _ | .vRmax c _ | .vRmin c _
  | .vXadd c _ | .vXrd c _ | .vXclr c _ | .vXst c _ | .vXld c _ | .vSm0 c _ | .vSm1 c _ | .vSmr c _ | .vSm2 c _ | .vSmn c _
  | .vPset c _ | .vPbuf c _ | .vBell c _
  | .qkNop c | .keyAdd c | .keyWait c | .keyTake c | .keyRead c | .qSend c | .qRecv c | .qSelect c
  | .entDraw c | .timeRead c | .cntRead c | .vectorWriteback c | .mxFeedRead c | .passResultLand c _
  | .scrubCycle c | .bundleWaitOverdue c | .copyAccess c _ _ | .copyComplete c _ | .queueArrival c | .coreRemap c => d.hasCore c
  | .beatWorkDone r => d.hasRegion r && isSched r
  | .forcedRefresh k | .dramScrub k => d.grade.hasStack k
  | .slotTransmit p | .controlSlotTransmit p | .outboxReady p _ | .slotReceive p _ | .controlSlotReceive p _ _ | .slipWrite p
  | .repairResend p | .ledgerCheck p | .linkTrainingDone p _ | .linkFramingLock p | .openLink p | .linkDelayDone p _
  | .portFramingLoss p => d.hasPort p
  | .linkUpTimeout p => d.hasPort p
  | .packageFault cause u =>
    (cause == 0 && u < 26) || ((cause == 1 || cause == 2) && u < 4) || (cause == 3 && d.grade.hasStack u) || cause == 4
  | .thermalShutdown n => n < 5 || (5 ≤ n && d.grade.hasStack (n - 5))
  | .wakeComplete kind u => kind == 2 || (kind == 0 && d.hasCore u) || (kind == 1 && u < 4)
  | .dieAttestation q _ => q < 4
  | _ => true

/-! ### The rows that move the time base -/

/-- The rows that may change W, H and S: a beat edge, the alignments of R36 and R60, reset, loss of power and thermal shutdown. -/
def movesTime : Instr → Bool
  | .beatEdge _ | .droneInMarker _ | .droneRealign | .controlSlotReceive _ _ _ | .resetAssert | .resetRelease _ _
  | .thermalShutdown _ | .lossOfPower => true
  | _ => false

/-- The rows that end the running of the part: reset, loss of power, thermal shutdown. -/
def endsRun : Instr → Bool
  | .resetAssert | .resetRelease _ _ | .thermalShutdown _ | .lossOfPower => true
  | _ => false

/-! ### The vector operations by opcode (Table 9-6) -/

/-- The command of a vector operation, by its opcode. -/
def vectorCmd (op c : Nat) (sl : VSlot) : Option Instr :=
  match op with
  | 0x00 => some (.vNop c sl) | 0x01 => some (.vAdd c sl) | 0x02 => some (.vSub c sl) | 0x03 => some (.vMul c sl)
  | 0x04 => some (.vFma c sl) | 0x05 => some (.vDiv c sl) | 0x06 => some (.vSqrt c sl) | 0x07 => some (.vMax c sl)
  | 0x08 => some (.vMin c sl) | 0x09 => some (.vCmp c sl) | 0x0A => some (.vSel c sl) | 0x0B => some (.vNeg c sl)
  | 0x0C => some (.v2sum c sl) | 0x0D => some (.v2prod c sl)
  | 0x10 => some (.vExp2 c sl) | 0x11 => some (.vLog2 c sl) | 0x12 => some (.vRcp c sl) | 0x13 => some (.vRsqrt c sl)
  | 0x18 => some (.vAnd c sl) | 0x19 => some (.vOr c sl) | 0x1A => some (.vXor c sl) | 0x1B => some (.vShl c sl)
  | 0x1C => some (.vShr c sl) | 0x1D => some (.vSra c sl)
  | 0x20 => some (.vMov c sl) | 0x21 => some (.vPerm c sl) | 0x22 => some (.vShuf c sl) | 0x23 => some (.vCvt c sl)
  | 0x24 => some (.vUnpk c sl) | 0x25 => some (.vPack c sl) | 0x26 => some (.vCmpr c sl) | 0x27 => some (.vExpd c sl)
  | 0x28 => some (.vBcomb c sl)
  | 0x30 => some (.vRsum c sl) | 0x31 => some (.vRmax c sl) | 0x32 => some (.vRmin c sl)
  | 0x38 => some (.vXadd c sl) | 0x39 => some (.vXrd c sl) | 0x3A => some (.vXclr c sl) | 0x3B => some (.vXst c sl)
  | 0x3C => some (.vXld c sl)
  | 0x40 => some (.vSm0 c sl) | 0x41 => some (.vSm1 c sl) | 0x42 => some (.vSmr c sl) | 0x43 => some (.vSm2 c sl)
  | 0x44 => some (.vSmn c sl)
  | 0x48 => some (.vPset c sl) | 0x49 => some (.vPbuf c sl) | 0x4A => some (.vBell c sl)
  | _ => none

/-- The unit of a vector slot (Table 10-2), and its phase of the sc (R245). -/
def vUnit : VSlot → Nat × Nat
  | .va => (4, 4)
  | .vb => (5, 6)

end Sys2Proof.Machine
end

