-- ==== Sys2Proof/Certificates/Slice0/Obligations.lean ====
section
/-! DEFINITION. Certificates/Slice0/Obligations.lean: the statements about the machine, each with the rules of the spec that it
states or the sections that it rests on. -/

open Sys2Proof Sys2Proof.Machine

/-- O1, tier 1. A step runs the command at the front of the queue. The model's own rule (log 1): for every device, command
and queue, step of the state with the command in front of the queue is exec of that command on the state with the rest
of the queue; on an empty queue the step answers the state itself. (Rests on: spec/00_scope.md.) -/
def Obligations.StepRunsFront : Prop :=
  (∀ (d : Device) (c : Instr) (q : List Instr),
    step { dev := d, pending := c :: q } = exec c { dev := d, pending := q })
  ∧ ∀ d : Device, step { dev := d, pending := [] } = .next { dev := d, pending := [] }

/-- O2, tier 3. Every step keeps S = W - H, and a beat edge counts into H or S. For every state whose time base has W = H +
S, and every command at the front of its queue, if the step answers a next state then W = H + S there too. BEAT_EDGE
completes: at an edge of an aligned device that begins a hold beat H rises by 1 and S keeps its value, and at every
other S rises by 1 and H keeps its value. (Rules: R35.) -/
def Obligations.TimeBaseInStep : Prop :=
  (∀ s t : State, s.dev.inStep → step s = .next t → t.dev.inStep)
  ∧ ∀ (env : EdgeEnv) (s : State), s.dev.beat.aligned = true → Completes (.beatEdge env) s (fun e =>
      if s.dev.holdAt (s.dev.beat.w + 1) then e.beat.h = s.dev.beat.h + 1 ∧ e.beat.s = s.dev.beat.s
      else e.beat.h = s.dev.beat.h ∧ e.beat.s = s.dev.beat.s + 1)

/-- O3, tier 1. The invariants hold at reset. At State.reset W = H + S, the device is not aligned, W, H and S are 0 (R36),
every memory is in canonical form, and no command waits. (Rests on: R35, R36.) -/
def Obligations.TimeBaseAtReset : Prop :=
  State.reset.dev.inStep ∧ State.reset.dev.beat.aligned = false ∧ State.reset.dev.beat.w = 0 ∧ State.reset.dev.beat.h = 0
    ∧ State.reset.dev.beat.s = 0 ∧ Memory.wf State.reset.dev = true ∧ State.reset.pending = []

/-- O4, tier 3. Before alignment the numbers read 0; alignment sets them; then W and S never decrease, and W never skips a
value. A device that has not aligned reads W, H and S as 0: every step keeps that, and a beat edge there counts nothing.
At alignment a member takes W, H and S from the control slot of its active rootward port, and the root takes W from
DRONE_IN with H 0 and S = W. From then on, in every state with W = H + S (which every step keeps, O2), whatever command
runs other than reset, loss of power and thermal shutdown (which ends in the state of reset): if it answers a next
state, the device is still aligned, W and S are at least what they were, and W is the same or one more unless the
command is the realignment of R60. (Rules: R36.) -/
def Obligations.TimeNeverStepsBack : Prop :=
  (∀ s t : State, (s.dev.beat.aligned = false → s.dev.beat = Beat.reset) → step s = .next t →
    (t.dev.beat.aligned = false → t.dev.beat = Beat.reset))
  ∧ (∀ (env : EdgeEnv) (s : State), s.dev.beat.aligned = false → Completes (.beatEdge env) s (fun e => e.beat = s.dev.beat))
  ∧ (∀ (p : Nat) (slot : List (BitVec 8)) (x : Int) (s : State), s.dev.hasPort p = true → s.dev.alignsNow p slot = true →
    Completes (.controlSlotReceive p slot x) s (fun e => e.beat.aligned = true ∧ e.beat.w = ctlW slot
      ∧ (ctlS slot ≤ ctlW slot → e.beat.s = ctlS slot ∧ e.beat.h = ctlW slot - ctlS slot)))
  ∧ (∀ (x : Int) (w : Nat) (s : State), s.dev.beat.aligned = false → s.dev.drone.role = 1 → 3 ≤ s.dev.drone.goodEdges →
    -20000 ≤ x → x ≤ 20000 → s.dev.drone.prevWord = some w → s.dev.drone.lastWord = some (w + 1) →
    Completes (.droneInMarker x) s (fun e => e.beat = { w := w + 1, h := 0, s := w + 1, aligned := true }))
  ∧ ∀ (i : Instr) (s t : State), s.dev.inStep → s.dev.beat.aligned = true → endsRun i = false → exec i s = .next t →
    t.dev.beat.aligned = true ∧ s.dev.beat.w ≤ t.dev.beat.w ∧ s.dev.beat.s ≤ t.dev.beat.s
      ∧ (i ≠ .droneRealign → t.dev.beat.w = s.dev.beat.w ∨ t.dev.beat.w = s.dev.beat.w + 1)

/-- O5, tier 2. No command changes the queue of waiting commands. The model's own rule (log 1): whatever command runs and
whatever state it runs on, a next state has the queue that the command found. (Rests on: spec/00_scope.md.) -/
def Obligations.QueueUntouched : Prop :=
  ∀ (i : Instr) (s t : State), exec i s = .next t → t.pending = s.pending

/-- O6, tier 2. Only the rows of the time base change W, H, S and alignment. Apart from a beat edge, a marker edge of
DRONE_IN, a realignment, a control slot, reset, loss of power and thermal shutdown, no command changes W, H, S or
alignment, in any state. (Rests on: spec/02_beats_and_drone.md.) -/
def Obligations.TimeBaseFrame : Prop :=
  ∀ (i : Instr) (s t : State), movesTime i = false → exec i s = .next t → t.dev.beat = s.dev.beat

/-- O7, tier 2. Every command completes where its unit exists, and stops by name where it does not. For every command and
every state: if the part has the core, port, region, stack, mailbox, window, task slot, quarter or sensor that the
command names, exec answers a next state; if not, it answers the fault noSuchUnit (the model's own stop, log 8). No
command is refused. (Rests on: spec/00_scope.md, spec/98_reader.md.) -/
def Obligations.EveryCommandAnswers : Prop :=
  ∀ (i : Instr) (s : State),
    (unitExists s.dev i = true → ∃ t, exec i s = .next t)
    ∧ (unitExists s.dev i = false → exec i s = .fault .noSuchUnit)

/-- O8, tier 1. BEAT_EDGE: W counts every edge, H the hold beats, S the others. BEAT_EDGE completes in every state. In an
aligned device W rises by 1; in a hold beat (by the votes known for the new wall beat) H rises by 1 and S stays, in any
other S rises by 1 and H stays. A device that has not aligned keeps all three. (Rules: R34.) -/
def Obligations.BeatEdgeCounts : Prop :=
  ∀ (env : EdgeEnv) (s : State),
    Completes (.beatEdge env) s (fun e =>
      if s.dev.beat.aligned then
        e.beat.w = s.dev.beat.w + 1
        ∧ (if s.dev.holdAt (s.dev.beat.w + 1) then e.beat.h = s.dev.beat.h + 1 ∧ e.beat.s = s.dev.beat.s
           else e.beat.h = s.dev.beat.h ∧ e.beat.s = s.dev.beat.s + 1)
      else e.beat = s.dev.beat)

/-- O9, tier 2. BEAT_WORK_DONE and BEAT_GATE_OPEN: a region stops at its gate, and the gate opens. BEAT_WORK_DONE completes:
a core that runs in Active and has issued the sc of its beat, with no scrub cycle due, has finished the beat, and a copy
network of an aligned device has counted 1,600 and finished. BEAT_GATE_OPEN completes: when the gate may open (every
region has finished, the edge of the next schedule beat is past, what falls at the end of the beat is done, and no join
of an attach is due), the gate of the next schedule beat is the one that opened last. (Rests on:
spec/03_self_timed_regions.md, spec/15_holds.md, spec/22_twin_pairing.md.) -/
def Obligations.WorkAndGate : Prop :=
  (∀ (c : Nat) (s : State), s.dev.hasRegion c = true → c < 144 → (s.dev.region c).finished = false →
    (s.dev.core c).running.isSome = true → (s.dev.core c).power.state = 0 → s.dev.workSc c ≤ (s.dev.region c).count →
    s.dev.scrubDue c = false →
    Completes (.beatWorkDone c) s (fun e => (e.region c).finished = true))
  ∧ (∀ (r : Nat) (s : State), 144 ≤ r → r < 148 → s.dev.beat.aligned = true → (s.dev.region r).finished = false →
    Completes (.beatWorkDone r) s (fun e => (e.region r).finished = true ∧ (e.region r).count = 1600
      ∧ ∀ q, q ≠ r → e.region q = s.dev.region q))
  ∧ (∀ (stall : List (Nat × Nat)) (s : State), s.dev.gateReady = true →
    Completes (.beatGateOpen stall) s (fun e => e.gate.e = s.dev.gate.e + 1))

/-- O10, tier 1. DRONE_IN_MARKER and DRONE_IN_WORD: a root locks and takes W from the last word. DRONE_IN_MARKER completes:
an unaligned root aligns at the fourth consecutive good marker edge whose words are good and rise by 1, with W and S the
number of the last word and H 0, and shows locked; any other marker edge leaves the numbers.
DRONE_IN_WORD completes: a good word frame is held as the last word, a frame whose preamble or check is wrong ends the
count of good edges. (Rests on: spec/02_beats_and_drone.md.) -/
def Obligations.DroneAligns : Prop :=
  (∀ (x : Int) (w : Nat) (s : State), s.dev.beat.aligned = false → s.dev.drone.role = 1 → 3 ≤ s.dev.drone.goodEdges →
    -20000 ≤ x → x ≤ 20000 → s.dev.drone.prevWord = some w → s.dev.drone.lastWord = some (w + 1) →
    Completes (.droneInMarker x) s (fun e => e.beat = { w := w + 1, h := 0, s := w + 1, aligned := true } ∧ e.drone.st = 2
      ∧ e.drone.hops = 0 ∧ e.gate.e = w + 1))
  ∧ (∀ (x : Int) (s : State), s.dev.rootLock x = none →
    Completes (.droneInMarker x) s (fun e => e = { s.dev with drone := s.dev.drone.marker x } ∧ e.drone.markPs = some x))
  ∧ (∀ (f : Nat) (s : State),
    Completes (.droneInWord f) s (fun e =>
      if bits f 0 8 = 0x5D ∧ bits f 72 16 = crc16 64 (f / 256) then e.drone.lastWord = some (bits f 8 64)
      else e.drone.lastWord = none ∧ e.drone.goodEdges = 0))

/-- O11, tier 2. DRONE_LOST, FREEWHEEL_EXPIRED, FREEWHEEL_EXIT and DRONE_LOCK move the drone state as the spec says. Each
completes. An aligned device (no shadow) that is aligning, locked or slewing enters freewheel after 4 bad expected edges
(a root) or 4 wall beats without valid drone (a member), with a DRONE_LOST record of CAUSE 0 whose detail is the wall
beat. After 65,536 wall beats of freewheel it is freewheel expired, with CAUSE 1. A root with 4 good edges since, and a
member with 4 wall beats of valid drone, an upstream W that is its own, and a mean offset since below 512 ns, leaves
freewheel and shows slewing, unless a realignment is pending or refused. A member that aligns or slews, with no
realignment pending, is locked once the mean of its last 256 offsets is within 0.1 ns. None of them changes any core,
task, port or memory. (Rests on: spec/02_beats_and_drone.md.) -/
def Obligations.FreewheelRows : Prop :=
  let quiet := fun (s : State) (e : Device) =>
    e.cores = s.dev.cores ∧ e.tasks = s.dev.tasks ∧ e.fabric = s.dev.fabric ∧ e.dram = s.dev.dram ∧ e.staging = s.dev.staging
  (∀ s : State, s.dev.beat.aligned = true → s.dev.twin.role ≠ 5 →
    (s.dev.drone.st = 1 ∨ s.dev.drone.st = 2 ∨ s.dev.drone.st = 3) →
    (if s.dev.drone.role = 1 ∨ s.dev.drone.role = 3 then 4 ≤ s.dev.drone.badEdges else 4 ≤ s.dev.drone.noValid) →
    Completes .droneLost s (fun e => e.drone.st = 4 ∧ e.drone.freeStart = s.dev.beat.w ∧ e.drone.freeBeats = 0 ∧ quiet s e
      ∧ (e.hub.health.head?.map (fun r => (r.code, r.cause, r.dHi))) = some (0x0001, 0, s.dev.beat.w)))
  ∧ (∀ s : State, s.dev.drone.st = 4 → 65536 ≤ s.dev.drone.freeBeats →
    Completes .freewheelExpired s (fun e => e.drone = { s.dev.drone with st := 5 } ∧ quiet s e
      ∧ (e.hub.health.head?.map (fun r => (r.code, r.cause, r.dHi))) = some (0x0001, 1, s.dev.drone.freeStart)))
  ∧ (∀ s : State, s.dev.beat.aligned = true → s.dev.twin.role ≠ 5 → s.dev.drone.st = 4 → s.dev.drone.realign = 0 →
    (if s.dev.drone.role = 1 ∨ s.dev.drone.role = 3 then 4 ≤ s.dev.drone.relock
     else
      let l := s.dev.drone.thetas.take 1024
      4 ≤ s.dev.drone.valid ∧ s.dev.drone.upFits = true ∧ l ≠ []
        ∧ -(512000 * (l.length : Int)) < sumOf 1024 l ∧ sumOf 1024 l < 512000 * (l.length : Int)) →
    Completes .freewheelExit s (fun e => e.drone.st = 3 ∧ e.drone.freeBeats = 0 ∧ quiet s e))
  ∧ (∀ s : State, s.dev.beat.aligned = true → s.dev.drone.role ≠ 1 → s.dev.drone.role ≠ 3 →
    (s.dev.drone.st = 1 ∨ s.dev.drone.st = 3) → s.dev.drone.realigning = false →
    256 ≤ s.dev.drone.thetas.length → -(256 * 100) ≤ sumOf 256 s.dev.drone.thetas →
    sumOf 256 s.dev.drone.thetas ≤ 256 * 100 →
    Completes .droneLock s (fun e => e = { s.dev with drone := { s.dev.drone with st := 2 } }))

/-- O12, tier 2. DRONE_REALIGN takes both new numbers or neither. DRONE_REALIGN completes. Where the device realigns and the
new W and S are known (a member: those of its active rootward port; a root: the W of its words with its own H): when
neither steps back both are taken, and DRONE_LOST marked realigned holds the old and the new W; when either steps back
neither is taken, the record is marked refused, and the device stays in freewheel, or in freewheel expired where it had
been in that. (Rests on: spec/02_beats_and_drone.md.) -/
def Obligations.Realignment : Prop :=
  (∀ (s : State) (w n : Nat), s.dev.realignTo = some (w, n) → n ≤ w → s.dev.beat.w ≤ w → s.dev.beat.s ≤ n →
    Completes .droneRealign s (fun e => e.beat = { w := w, h := w - n, s := n, aligned := true } ∧ e.drone.realign = 0
      ∧ (e.hub.health.head?.map (fun r => (r.code, r.cause, r.dHi, r.dLo))) = some (0x0001, 2, s.dev.beat.w, w)))
  ∧ (∀ (s : State) (w n : Nat), s.dev.realignTo = some (w, n) → (w < s.dev.beat.w ∨ n < s.dev.beat.s) →
    Completes .droneRealign s (fun e => e.beat = s.dev.beat ∧ e.drone.realign = 2
      ∧ e.drone.st = (if s.dev.drone.realign = 3 then 5 else 4)
      ∧ (e.hub.health.head?.map (fun r => (r.code, r.cause, r.dHi, r.dLo))) = some (0x0001, 3, s.dev.beat.w, w)))
  ∧ (∀ (s : State), s.dev.beat.aligned = true → s.dev.drone.realigning = true →
    (s.dev.drone.role ≠ 1 → s.dev.drone.role ≠ 3 →
      s.dev.realignTo = s.dev.bestPort.map (fun p => ((s.dev.port p).rxW, (s.dev.port p).rxS)))
    ∧ (∀ n, s.dev.drone.role = 1 ∨ s.dev.drone.role = 3 → 4 ≤ s.dev.drone.goodEdges → s.dev.drone.lastWord = some n →
      s.dev.realignTo = some (n - 1, n - 1 - s.dev.beat.h)))

/-- O13, tier 1. STANDBY_TAKEOVER: the standby root becomes the acting root. STANDBY_TAKEOVER completes: in an aligned
device (no shadow) whose role is standby root, whose own marker edges have been good for 64 wall beats, whose root tree
has been gone for 64, and which has no realignment pending or refused, the role is acting root, the hop count 0, the state locked, TREE and TAKEOVER are set, and
nothing but the drone logic changes. A standby root for which one of those conditions has not held that long changes
nothing. (Rests on: spec/02_beats_and_drone.md.) -/
def Obligations.StandbyTakesOver : Prop :=
  (∀ s : State, s.dev.beat.aligned = true → s.dev.twin.role ≠ 5 → s.dev.drone.role = 2 → s.dev.drone.realign = 0 →
    64 ≤ s.dev.drone.rootBad → 64 ≤ s.dev.drone.ownGood →
    Completes .standbyTakeover s (fun e => e.drone.role = 3 ∧ e.drone.hops = 0 ∧ e.drone.st = 2 ∧ e.drone.tree = true
      ∧ e.drone.takeover = true ∧ e = { s.dev with drone := e.drone }))
  ∧ (∀ s : State, (s.dev.drone.rootBad < 64 ∨ s.dev.drone.ownGood < 64) → Completes .standbyTakeover s (fun e => e = s.dev))

/-- O14, tier 2. REFCLK_LOST, REFCLK_RETURN, PCIE_REFCLK_LOST, HOST_LINK_DOWN and HOST_LINK_UP. Each completes. Loss of
REFCLK records REFCLK_LOST, takes every port of the grade down, and puts an aligned, locked, slewing or aligning device
into freewheel; tasks and DRAM stay. Its return brings the clock back and nothing else. Loss of PCIE_REFCLK takes the
host link down with HOST_LINK's record and leaves cores, tasks and ports; the host link goes down for another reason
without that. HOST_LINK_UP brings the link up once the PCIe transmitters are released. (Rests on:
spec/03_self_timed_regions.md.) -/
def Obligations.ClockRows : Prop :=
  (∀ s : State, s.dev.pins.refclk = true →
    Completes .refclkLost s (fun e => e.pins.refclk = false ∧ (∀ p, s.dev.hasPort p = true → (e.port p).step = 0)
      ∧ (s.dev.beat.aligned = true → (s.dev.drone.st = 1 ∨ s.dev.drone.st = 2 ∨ s.dev.drone.st = 3) → e.drone.st = 4)
      ∧ e.tasks = s.dev.tasks ∧ e.cores = s.dev.cores ∧ e.dram = s.dev.dram))
  ∧ (∀ s : State, Becomes .refclkReturn s { s.dev with pins := { s.dev.pins with refclk := true } })
  ∧ (∀ s : State, s.dev.pins.pcieRefclk = true →
    Completes .pcieRefclkLost s (fun e => e.pins.pcieRefclk = false ∧ e.host.linkUp = false ∧ e.cores = s.dev.cores
      ∧ e.tasks = s.dev.tasks ∧ e.fabric = s.dev.fabric
      ∧ (e.hub.health.head?.map (fun r => (r.code, r.unitKind))) = some (0x0006, 4)))
  ∧ (∀ s : State, Becomes .hostLinkDown s { s.dev with host := { s.dev.host with linkUp := false } })
  ∧ (∀ s : State, s.dev.host.linkUp = false → s.dev.pins.pcieTx = true →
    Completes .hostLinkUp s (fun e => e.host.linkUp = true ∧ e.pins.pcieRefclk = true))

/-- O15, tier 2. REGISTER_WRITE and the ring rows: what a host write to BAR0 stores, and what it leaves. Each completes.
With the host link up and the Chanter serving, a 4 B or 8 B write at an aligned offset of the command area of mailbox n
(0 to 11), or of relay window 12 or 13, stores its bytes there, least significant first, and leaves every other byte of
the area and every other mailbox and window. A write of another size or at an unaligned offset changes nothing.
RING_BASE takes a multiple of 4,096, and RING_SIZE a power of 2 from 64 to 65,536, while ENABLE is 0; RING_HEAD takes a
value below RING_SIZE whose advance is at most the entries written and not yet read, and no other. (Rests on:
spec/20_chanter_mailboxes.md, spec/98_reader.md.) -/
def Obligations.HostRegisterWrites : Prop :=
  (∀ (s : State) (n o size v : Nat), s.dev.hostReaches = true → n < 14 → (size = 4 ∨ size = 8) → o % size = 0 →
    o + size ≤ 0x800 →
    Completes (.registerWrite (0x1000 * n + o) size v) s (fun e =>
      (∀ a, Sparse.get 0 (e.box n).area a =
        if o ≤ a ∧ a < o + size then BitVec.ofNat 8 (v / 256 ^ (a - o)) else Sparse.get 0 (s.dev.box n).area a)
      ∧ (∀ m, m ≠ n → e.box m = s.dev.box m) ∧ e.cores = s.dev.cores ∧ e.tasks = s.dev.tasks))
  ∧ (∀ (s : State) (off size v : Nat), (size ≠ 4 ∧ size ≠ 8 ∨ off % size ≠ 0) →
    Completes (.registerWrite off size v) s (fun e => e = s.dev))
  ∧ (∀ (s : State) (v : Nat), s.dev.hostReaches = true → s.dev.hub.ring.enable = false → v < 2 ^ 64 → v % 4096 = 0 →
    Completes (.ringConfigWrite 0xE038 8 v) s (fun e => e.hub.ring = { s.dev.hub.ring with base := v }))
  ∧ (∀ (s : State) (k : Nat), s.dev.hostReaches = true → s.dev.hub.ring.enable = false → 6 ≤ k → k ≤ 16 →
    Completes (.ringConfigWrite 0xE040 8 (2 ^ k)) s (fun e => e.hub.ring = { s.dev.hub.ring with size := 2 ^ k }))
  ∧ (∀ (s : State) (v : Nat), s.dev.hostReaches = true → v < 2 ^ 64 →
    Completes (.ringHeadWrite 8 v) s (fun e =>
      let r := s.dev.hub.ring
      if r.enable = true ∧ v < r.size ∧ (v + r.size - r.head) % max 1 r.size ≤ r.used then
        e.hub.ring.head = v ∧ e.hub.ring.used = r.used - (v + r.size - r.head) % max 1 r.size
      else e.hub.ring = r))

/-- O16, tier 2. SUBMIT makes a command PENDING, RELAY_ABANDON empties a window. The value of SUBMIT is that of an 8 B write, or
of a 4 B write with the high half as last written. SUBMIT completes: with bit 0 set and bits [63:32] equal to the SEQ of
the command area, in a mailbox of the host that holds no PENDING or STARTED command, it captures the command area and
makes the command PENDING, with its SEQ and CODE, in the wall beat after this one (0 before alignment); while the
mailbox is busy, or with bit 0 clear, the command in it stays. In a mailbox whose command area has another SEQ the
command is done with REJECTED_STATE and DETAIL TORN. In a relay window that is not busy, a command for another device
with a right layout is PENDING in the same way. RELAY_ABANDON completes: on a window that is PENDING or STARTED, with
bits 0 and 1 and its SEQ, the window becomes EMPTY. (Rests on: spec/20_chanter_mailboxes.md,
spec/22_twin_pairing.md.) -/
def Obligations.SubmitRows : Prop :=
  let seqOf := fun (cells : List Host.Cell) => bits (leNat (Sparse.getMany 0 cells 0 64)) 416 32
  (∀ (s : State) (n size val : Nat), s.dev.hostReaches = true → n < 12 → size = 4 ∨ size = 8 →
    let v := s.dev.submitVal n size val
    let m := s.dev.mbx n
    (v % 2 = 1 → m.busy = false → seqOf m.captured = v / 2 ^ 32 % 2 ^ 32 →
      Completes (.submit n size val) s (fun e => (e.mbx n).st = 1 ∧ (e.mbx n).seq = v / 2 ^ 32 % 2 ^ 32
        ∧ (e.mbx n).cmd = m.captured ∧ (e.mbx n).arrive = (if s.dev.beat.aligned then s.dev.beat.w + 1 else 0)
        ∧ ∀ x, x ≠ n → e.mbx x = s.dev.mbx x))
    ∧ (v % 2 = 1 → m.busy = true →
      Completes (.submit n size val) s (fun e => (e.mbx n).st = m.st ∧ (e.mbx n).cmd = m.cmd
        ∧ Sparse.get 0 e.hub.counters 10 = Sparse.get 0 s.dev.hub.counters 10 + 1))
    ∧ (v % 2 = 0 → Completes (.submit n size val) s (fun e => (e.mbx n).st = m.st ∧ (e.mbx n).cmd = m.cmd))
    ∧ (v % 2 = 1 → m.busy = false → seqOf m.captured ≠ v / 2 ^ 32 % 2 ^ 32 →
      Completes (.submit n size val) s (fun e => e.answered n 3 8 = true)))
  ∧ (∀ (s : State) (n size val : Nat), s.dev.hostReaches = true → (n = 12 ∨ n = 13) → size = 4 ∨ size = 8 →
    let v := s.dev.submitVal n size val
    let m := s.dev.window n
    let x : Mbx := { Mbx.reset with cmd := m.captured }
    v % 2 = 1 → m.busy = false → x.hSeq = v / 2 ^ 32 % 2 ^ 32 → x.layoutBad true = false → x.target ≠ s.dev.devNum →
    Completes (.submit n size val) s (fun e => (e.window n).st = 1 ∧ (e.window n).seq = x.hSeq ∧ (e.window n).code = x.hCode
      ∧ ∀ k, e.mbx k = s.dev.mbx k))
  ∧ (∀ (s : State) (n v : Nat), s.dev.hostReaches = true → (n = 12 ∨ n = 13) → v < 2 ^ 64 → v % 4 = 3 →
    (s.dev.window n).busy = true → v / 2 ^ 32 = (s.dev.window n).seq →
    Completes (.relayAbandon n 8 v) s (fun e => (e.window n).st = 0 ∧ e.cores = s.dev.cores ∧ e.tasks = s.dev.tasks))

/-- O17, tier 2. COMMAND_START, COMMAND_COMPLETE and RING_ENTRY_WRITE. Each completes. COMMAND_START on the command that is
next in ascending ordering key and that its checks pass makes it STARTED and gives it its objects to hold; one that a
header check refuses is answered with that check's status and DETAIL, and one that the state of the part bars is
answered REJECTED_STATE or SUPERSEDED. COMMAND_COMPLETE publishes a decided outcome that
need not wait for the host link: the mailbox is DONE with that status and DETAIL, DONE_W is the wall beat, and its holds
end. RING_ENTRY_WRITE writes the oldest held entry at RING_BASE + 32 x RING_TAIL while the ring is enabled and has room
and the host link is up, and the tail moves on. (Rests on: spec/20_chanter_mailboxes.md.) -/
def Obligations.CommandStartAndEnd : Prop :=
  (∀ (s : State) (mb : Nat), s.dev.smbServes = true → s.dev.nextCommand = some mb → s.dev.headerBad mb = none →
    s.dev.commandBad mb = false →
    Completes .commandStart s (fun e => (e.mbx mb).st = 2 ∧ (e.mbx mb).held = (s.dev.mbx mb).needs))
  ∧ (∀ (s : State) (mb a b : Nat), s.dev.smbServes = true → s.dev.nextCommand = some mb → s.dev.headerBad mb = some (a, b) →
    Completes .commandStart s (fun e => e.answered mb a b = true))
  ∧ (∀ (s : State) (mb : Nat), s.dev.smbServes = true → s.dev.nextCommand = some mb → s.dev.headerBad mb = none →
    s.dev.commandBad mb = true →
    Completes .commandStart s (fun e => e.answered mb 3 9 = true ∨ e.answered mb 2 0 = true))
  ∧ (∀ (s : State) (mb a b : Nat) (r : List (BitVec 8)), mb < 16 → (s.dev.mbx mb).st = 2 →
    (s.dev.mbx mb).outcome = some (a, b, r) → s.dev.publishWaits mb = false →
    Completes (.commandComplete mb) s (fun e => (e.mbx mb).st = 3 ∧ (e.mbx mb).status = a ∧ (e.mbx mb).detail = b
      ∧ (e.mbx mb).doneW = s.dev.beat.w ∧ (e.mbx mb).held = [] ∧ (e.mbx mb).outcome = none))
  ∧ (∀ (s : State) (x : List (BitVec 8)) (rest : List (List (BitVec 8))), s.dev.hub.ring.waiting = x :: rest →
    s.dev.hub.ring.enable = true → s.dev.hub.ring.used < s.dev.hub.ring.size → s.dev.host.linkUp = true →
    Completes .ringEntryWrite s (fun e => e.hub.ring.waiting = rest ∧ e.hub.ring.used = s.dev.hub.ring.used + 1
      ∧ e.hub.ring.tail = (s.dev.hub.ring.tail + 1) % max 1 s.dev.hub.ring.size
      ∧ (∀ i, i < 32 → Sparse.get 0 e.host.mem (s.dev.hub.ring.base + 32 * s.dev.hub.ring.tail + i)
          = BitVec.ofNat 8 ((leNat x + b2n s.dev.hub.ring.phase * 2 ^ 31) / 256 ^ i))
      ∧ ∀ a, (a < s.dev.hub.ring.base + 32 * s.dev.hub.ring.tail ∨ s.dev.hub.ring.base + 32 * s.dev.hub.ring.tail + 32 ≤ a) →
        Sparse.get 0 e.host.mem a = Sparse.get 0 s.dev.host.mem a))

/-- O18, tier 2. BAR2_WRITE and the SMBus rows of mailbox 15. Each completes. In a package that is neither PRIMARY nor
SHADOW, with the host link up, a BAR2 write of 1 to 2,048 bytes of which none is dropped stores its bytes in hub staging
from its offset, leaves every other byte of staging, and counts no dropped write; in a PRIMARY they wait for schedule
beat S + 3; one of which some byte is dropped raises BAR2_DROPPED by 1; a SHADOW takes none. Where the Chanter serves
mailbox 15: a good Write Word sets the pointer; a good Block Write of 1 to 32 bytes within the command area stores its
bytes at the pointer and moves it on, and one that writes the last byte of SUBMIT submits the command; a good Block Read
delivers 32 bytes and moves the pointer on by 32. A PEC error leaves the device as it was. (Rests on: spec/11_copies_and_dram.md,
spec/20_chanter_mailboxes.md.) -/
def Obligations.Bar2AndSmbus : Prop :=
  (∀ (s : State) (o : Nat) (data : List (BitVec 8)), s.dev.hostReaches = true → s.dev.twin.role ≠ 4 → s.dev.twin.role ≠ 5 →
    1 ≤ data.length → data.length ≤ 2048 → (∀ i, i < data.length → s.dev.bar2Lands (o + i) = true) →
    Completes (.bar2Write o data) s (fun e =>
      e.staging.bytes = Sparse.setMany 0 s.dev.staging.bytes o data
      ∧ Sparse.get 0 e.hub.counters 8 = Sparse.get 0 s.dev.hub.counters 8))
  ∧ (∀ (s : State) (o : Nat) (data : List (BitVec 8)), s.dev.hostReaches = true → s.dev.twin.role = 4 →
    1 ≤ data.length → data.length ≤ 2048 → (∀ i, i < data.length → s.dev.bar2Lands (o + i) = true) →
    Completes (.bar2Write o data) s (fun e => e.staging = s.dev.staging
      ∧ e.twin.hostIn = s.dev.twin.hostIn ++ [(s.dev.beat.s + 3, rzMake 0 2 o, data)]))
  ∧ (∀ (s : State) (o : Nat) (data : List (BitVec 8)), s.dev.twin.role = 5 →
    Completes (.bar2Write o data) s (fun e => e = s.dev))
  ∧ (∀ (s : State) (o : Nat) (data : List (BitVec 8)), s.dev.hostReaches = true → s.dev.twin.role ≠ 5 →
    (∃ i, i < data.length ∧ 0x9000000 ≤ o + i) →
    Completes (.bar2Write o data) s (fun e =>
      Sparse.get 0 e.hub.counters 8 = Sparse.get 0 s.dev.hub.counters 8 + 1))
  ∧ (∀ (s : State) (p : Nat), s.dev.smbServes = true →
    Becomes (.smbSetPointer true p) s { s.dev with hub := { s.dev.hub with smbPtr := p % 4096 } })
  ∧ (∀ (s : State) (data : List (BitVec 8)), s.dev.smbServes = true → 1 ≤ data.length → data.length ≤ 32 →
    s.dev.hub.smbPtr + data.length ≤ 0x800 →
    Completes (.smbBlockWrite true data) s (fun e => e.hub.smbPtr = s.dev.hub.smbPtr + data.length
      ∧ (e.mbx 15).area = Sparse.setMany 0 (s.dev.mbx 15).area s.dev.hub.smbPtr data))
  ∧ (∀ (s : State) (b : BitVec 8), s.dev.smbServes = true → s.dev.hub.smbPtr = 0x807 → (s.dev.mbx 15).busy = false →
    let m : Mbx := { s.dev.mbx 15 with area := Sparse.set 0 (s.dev.mbx 15).area 0x807 b }
    let v := leNat (Sparse.getMany 0 m.area 0x800 8)
    v % 2 = 1 → bits (leNat (Sparse.getMany 0 m.captured 0 64)) 416 32 = v / 2 ^ 32 →
    Completes (.smbBlockWrite true [b]) s (fun e => (e.mbx 15).st = 1 ∧ (e.mbx 15).cmd = m.captured
      ∧ (e.mbx 15).seq = v / 2 ^ 32))
  ∧ (∀ s : State, s.dev.smbServes = true →
    Completes (.smbBlockRead true) s (fun e => e.hub.smbPtr = (s.dev.hub.smbPtr + 32) % 4096
      ∧ e.host.smbOut = (List.range 32).map (fun i => (s.dev.mbx 15).readByte ((s.dev.hub.smbPtr + i) % 4096))))
  ∧ (∀ (s : State) (p : Nat) (data : List (BitVec 8)),
    Completes (.smbSetPointer false p) s (fun e => e = s.dev)
    ∧ Completes (.smbBlockWrite false data) s (fun e => e = s.dev) ∧ Completes (.smbBlockRead false) s (fun e => e = s.dev))

/-- O19, tier 2. IDENT, VERSION_NEGOTIATE, COUNTER_READ, HEALTH_READ, METER_READ and EPOCH_SET answer OK. Each completes in
the mailbox that holds it as a started command. IDENT is answered OK. VERSION_NEGOTIATE, with 1 to 16 versions among them
0x20, the one that the firmware supports, and no earlier command of its issuer open, is answered OK and 0x20 is the
issuer's version; where none is common it is answered REJECTED_VERSION with DETAIL NO_VERSION. COUNTER_READ of units of
its class that are present, METER_READ of a slot 0 to 7 or of every slot, and HEALTH_READ are answered OK, and
HEALTH_READ frees the parking records that it names. EPOCH_SET is answered OK: the device entry that was open ends in
this wall beat, and every entry open then begins in the next with HOST_TIME. (Rests on: spec/20_chanter_mailboxes.md, spec/23_reliability_and_observation.md, spec/24_power_metering_identity.md.) -/
def Obligations.QueryCommands : Prop :=
  (∀ (s : State) (mb : Nat), mb < 16 → s.dev.runs mb 0x01 = true →
    Completes (.identRead mb) s (fun e => e.answered mb 0 0 = true))
  ∧ (∀ (s : State) (mb : Nat), mb < 16 → s.dev.runs mb 0x02 = true → 1 ≤ (s.dev.mbx mb).body 0 1 →
    (s.dev.mbx mb).body 0 1 ≤ 16 → s.dev.earlierOpen mb = false →
    (∃ i, i < (s.dev.mbx mb).body 0 1 ∧ (s.dev.mbx mb).body (8 + i) 1 = 0x20) →
    Completes (.versionNegotiate mb) s (fun e => e.answered mb 0 0 = true
      ∧ Sparse.get 0 e.hub.versions (issuerOf mb) = 0x20))
  ∧ (∀ (s : State) (mb : Nat), mb < 16 → s.dev.runs mb 0x02 = true → 1 ≤ (s.dev.mbx mb).body 0 1 →
    (s.dev.mbx mb).body 0 1 ≤ 16 → s.dev.earlierOpen mb = false →
    (∀ i, i < (s.dev.mbx mb).body 0 1 → (s.dev.mbx mb).body (8 + i) 1 ≠ 0x20) →
    Completes (.versionNegotiate mb) s (fun e => e.answered mb 4 4 = true ∧ e.hub.versions = s.dev.hub.versions))
  ∧ (∀ (s : State) (mb : Nat), mb < 16 → s.dev.runs mb 0x41 = true → (s.dev.mbx mb).body 0 1 ≤ 4 →
    (s.dev.mbx mb).body 1 1 ≤ 1 →
    (∀ i, i < (s.dev.mbx mb).body 4 2 → s.dev.hasUnit ((s.dev.mbx mb).body 0 1) ((s.dev.mbx mb).body 2 2 + i) = true) →
    Completes (.counterRead mb) s (fun e => e.answered mb 0 0 = true))
  ∧ (∀ (s : State) (mb : Nat), mb < 16 → s.dev.runs mb 0x42 = true →
    Completes (.healthRead mb) s (fun e => e.answered mb 0 0 = true
      ∧ e.hub.parkHeld = s.dev.hub.parkHeld - (s.dev.mbx mb).body 12 4))
  ∧ (∀ (s : State) (mb : Nat), mb < 16 → s.dev.runs mb 0x51 = true →
    ((s.dev.mbx mb).body 0 1 ≤ 7 ∨ (s.dev.mbx mb).body 0 1 = 0xFF) →
    Completes (.meterRead mb) s (fun e => e.answered mb 0 0 = true))
  ∧ (∀ (s : State) (mb : Nat), mb < 16 → s.dev.runs mb 0x52 = true →
    Completes (.epochSet mb) s (fun e => e.answered mb 0 0 = true
      ∧ (∀ x ∈ e.ledger, x.isOpen = true → x.startW = s.dev.beat.w + 1 ∧ x.hostTime = (s.dev.mbx mb).body 0 8)
      ∧ ∀ x, (s.dev.ledger.filter (fun y => y.isOpen)).find? (fun y => y.device) = some x →
          ∃ y ∈ e.ledger, y.device = true ∧ y.isOpen = false ∧ y.epoch = x.epoch ∧ y.endW = s.dev.beat.w))

/-- O20, tier 2. TASK_START, YIELD_REQ, TASK_STOP, PLAN_STOP, PLAN_START, SNAPSHOT, POWER_POLICY and TWIN_DETACH record what
they name. Each completes as a registered command in the mailbox that holds it. TASK_START of a BOUND or YIELDED task
that R407 and R409 allow records S_start and the mailbox; YIELD_REQ of a RUNNING task records S_req, in place of a later
one that is pending, and is SUPERSEDED by one that is not later; TASK_STOP of a RUNNING task is registered; PLAN_STOP and PLAN_START above S record their schedule beats; SNAPSHOT
above W records W_SNAP, and a SNAPSHOT that names no later wall beat is answered REJECTED_STATE with DETAIL RULE;
POWER_POLICY within its ranges is held for W_EFFECT; TWIN_DETACH in a formed pair records the seat. The holds of each
end, except that TWIN_DETACH keeps its own. (Rests on: spec/20_chanter_mailboxes.md, spec/18_images_and_tasks.md,
spec/24_power_metering_identity.md, spec/22_twin_pairing.md.) -/
def Obligations.RegisteredCommands : Prop :=
  (∀ (s : State) (mb : Nat), mb < 16 → s.dev.runs mb 0x21 = true →
    ((s.dev.task (s.dev.mbx mb).slot).state = 1 ∨ (s.dev.task (s.dev.mbx mb).slot).state = 3) →
    s.dev.startBad (s.dev.mbx mb).slot ((s.dev.mbx mb).body 8 8) = false →
    Completes (.taskStart mb) s (fun e => (e.task (s.dev.mbx mb).slot).startS = some ((s.dev.mbx mb).body 8 8)
      ∧ (e.task (s.dev.mbx mb).slot).startMb = some mb ∧ (e.mbx mb).held = [] ∧ e.cores = s.dev.cores))
  ∧ (∀ (s : State) (mb : Nat), mb < 16 → s.dev.runs mb 0x22 = true → (s.dev.task (s.dev.mbx mb).slot).state = 2 →
    (s.dev.task (s.dev.mbx mb).slot).yieldS = none →
    Completes (.yieldReq mb) s (fun e => (e.task (s.dev.mbx mb).slot).yieldS = some ((s.dev.mbx mb).body 8 8)
      ∧ (e.task (s.dev.mbx mb).slot).yieldMb = some mb ∧ (e.mbx mb).held = [] ∧ e.cores = s.dev.cores))
  ∧ (∀ (s : State) (mb old : Nat), mb < 16 → s.dev.runs mb 0x22 = true → (s.dev.task (s.dev.mbx mb).slot).state = 2 →
    (s.dev.task (s.dev.mbx mb).slot).yieldS = some old →
    Completes (.yieldReq mb) s (fun e =>
      if (s.dev.mbx mb).body 8 8 < old then
        (e.task (s.dev.mbx mb).slot).yieldS = some ((s.dev.mbx mb).body 8 8)
          ∧ (e.task (s.dev.mbx mb).slot).yieldMb = some mb
      else e.tasks = s.dev.tasks ∧ e.answered mb 2 0 = true))
  ∧ (∀ (s : State) (mb : Nat), mb < 16 → s.dev.runs mb 0x23 = true → (s.dev.task (s.dev.mbx mb).slot).state = 2 →
    (s.dev.task (s.dev.mbx mb).slot).stopReg = false →
    Completes (.taskStop mb) s (fun e => (e.task (s.dev.mbx mb).slot).stopReg = true
      ∧ (e.task (s.dev.mbx mb).slot).stopMb = some mb ∧ (e.mbx mb).held = [] ∧ e.cores = s.dev.cores))
  ∧ (∀ (s : State) (mb : Nat), mb < 16 → s.dev.runs mb 0x30 = true → s.dev.beat.s < (s.dev.mbx mb).body 0 8 →
    s.dev.fabric.stopS = none →
    Completes (.planStop mb) s (fun e => e.fabric.stopS = some ((s.dev.mbx mb).body 0 8, mb) ∧ (e.mbx mb).held = []))
  ∧ (∀ (s : State) (mb : Nat), mb < 16 → s.dev.runs mb 0x32 = true → s.dev.beat.s < (s.dev.mbx mb).body 0 8 →
    s.dev.fabric.startS = none → s.dev.fabric.stopS = none → s.dev.fabric.planOn = false → s.dev.fabric.newPlan.isSome = true →
    Completes (.planStart mb) s (fun e => e.fabric.startS = some ((s.dev.mbx mb).body 0 8, mb) ∧ (e.mbx mb).held = []))
  ∧ (∀ (s : State) (mb : Nat), mb < 16 → s.dev.runs mb 0x40 = true → s.dev.beat.w < (s.dev.mbx mb).body 0 8 →
    Completes (.snapshot mb) s (fun e => e.shadow.reg = some ((s.dev.mbx mb).body 0 8, mb)
      ∧ e.shadow.units = s.dev.shadow.units))
  ∧ (∀ (s : State) (mb : Nat), mb < 16 → s.dev.runs mb 0x40 = true → (s.dev.mbx mb).body 0 8 ≤ s.dev.beat.w →
    Completes (.snapshot mb) s (fun e => e.shadow = s.dev.shadow ∧ e.answered mb 3 9 = true))
  ∧ (∀ (s : State) (mb : Nat), mb < 16 → s.dev.runs mb 0x50 = true → (s.dev.mbx mb).policyOk = true →
    s.dev.beat.w < (s.dev.mbx mb).body 0 8 → ((s.dev.mbx mb).policy.park = true → s.dev.mayPark = true) →
    Completes (.powerPolicy mb) s (fun e =>
      e.power.reg = s.dev.power.reg ++ [((s.dev.mbx mb).body 0 8, mb, (s.dev.mbx mb).policy)]
      ∧ e.power.policy = s.dev.power.policy ∧ (e.mbx mb).held = []))
  ∧ (∀ (s : State) (mb : Nat), mb < 16 → s.dev.runs mb 0x61 = true → s.dev.inPair = true → (s.dev.mbx mb).body 0 1 ≤ 1 →
    Completes (.twinDetach mb) s (fun e => e.twin.detachMb = some ((s.dev.mbx mb).body 0 1, mb)
      ∧ e.twin.role = s.dev.twin.role))

/-- O21, tier 2. CT_NOP, CT_LOOP, CT_JUMP, CT_GATE, CT_YIELD, CT_HINT, CT_FLAGRD and CT_FLAGCLR issue a bundle. Each
completes where its bundle is the next of the core, does not wait and breaks no check (R148). The sc opens: the core's
sc number and the region's count of the beat rise by 1, and no other core, task or memory changes. Then: nop goes on
with the next bundle, and at the end of a loop body with what the loops say (R154); loop with N = 0 passes the body, and
with N > 0 enters it; jump goes to TARGET; gate and yield are followed by empty bundles, and yield is noted; hint is
held for the next beat gate; flagrd sends the status word to register 31 of lane 0; flagclr holds the mask to clear.
(Rests on: spec/06_core.md, spec/16_contract_level1.md, spec/18_images_and_tasks.md.) -/
def Obligations.BundleIssuesControl : Prop :=
  let opens := fun (d e : Device) (c t : Nat) (w : BitVec 384) =>
    (e.core c).sc = (d.core c).sc + 1 ∧ (e.core c).lastSc = (d.region c).count ∧ (e.region c).count = (d.region c).count + 1
    ∧ (e.core c).wait = none ∧ (e.core c).issue.map (fun i => (i.word, i.index, i.slot, i.done)) = some (w, (d.core c).pc, t, [])
    ∧ (∀ x, x ≠ c → e.core x = d.core x ∧ e.region x = d.region x)
    ∧ e.tasks = d.tasks ∧ e.dram = d.dram ∧ e.staging = d.staging ∧ e.fabric = d.fabric ∧ e.hub = d.hub
    ∧ (e.core c).spad = (d.core c).spad ∧ (e.core c).lanes = (d.core c).lanes ∧ (e.core c).keys = (d.core c).keys
  ∀ (s : State) (c t : Nat) (w : BitVec 384), s.dev.hasCore c = true →
    let d := s.dev.closeSc c
    let k := d.core c
    let ct := slotOf w 1
    d.issues c t w →
    (opc ct = 0x00 → Completes (.ctNop c) s (fun e => opens d e c t w
      ∧ (e.core c).pc = (loopEnds k.loops (k.pc + 1)).1 ∧ (e.core c).loops = (loopEnds k.loops (k.pc + 1)).2))
    ∧ (opc ct = 0x01 → Completes (.ctLoop c) s (fun e => opens d e c t w
      ∧ (if bits ct 32 24 = 0 then (e.core c).pc = (loopEnds k.loops (k.pc + 1 + bits ct 19 13)).1
         else (e.core c).pc = k.pc + 1
           ∧ (e.core c).loops = { left := bits ct 32 24, start := k.pc + 1, len := bits ct 19 13 } :: k.loops)))
    ∧ (opc ct = 0x02 → Completes (.ctJump c) s (fun e => opens d e c t w ∧ (e.core c).pc = bits ct 5 14
      ∧ (e.core c).loops = k.loops))
    ∧ (opc ct = 0x03 → Completes (.ctGate c) s (fun e => opens d e c t w ∧ (e.core c).fill = some k.pc
      ∧ (e.core c).yielded = k.yielded))
    ∧ (opc ct = 0x04 → Completes (.ctYield c) s (fun e => opens d e c t w ∧ (e.core c).fill = some k.pc
      ∧ (e.core c).pc = k.pc + 1 ∧ (e.core c).yielded = true))
    ∧ (opc ct = 0x05 → Completes (.ctHint c) s (fun e => opens d e c t w
      ∧ (e.core c).power.hintNew = some (t, bits ct 32 24, bits ct 29 3) ∧ (e.core c).power.state = k.power.state))
    ∧ (opc ct = 0x06 → Completes (.ctFlagrd c) s (fun e => opens d e c t w
      ∧ (e.core c).flights = (k.endRuns 0 0 [31]).flights ++ [{ Flight.reset with
          due := k.sc + 1, unit := 1, issued := k.sc + 1, slot := t, regs := [(31 * 128, d.flagWord c t, false)] }]))
    ∧ (opc ct = 0x07 → Completes (.ctFlagclr c) s (fun e => opens d e c t w
      ∧ (e.core c).issue.map (fun i => i.flagClr) = some (bits ct 0 5) ∧ (e.core c).flags = k.flags))

/-- O22, tier 2. CT_END ends its core once its sc is over, and the task with its last core. CT_END completes where its
bundle is the next of the core, does not wait and breaks no check. The sc runs to its end. If that stops the task (a key
whose END_CHECK fails, R297), no core ends. Otherwise the core has ended for the task slot and its region has finished the
beat, but in a scrub beat only after its scrub cycle (R79); while another core of the task has not ended the task stays as
it is, and when every core of it has, the task ends. (Rests on: spec/06_core.md, spec/12_keys_and_queues.md, spec/18_images_and_tasks.md.) -/
def Obligations.CoreEnds : Prop :=
  ∀ (s : State) (c t : Nat) (w : BitVec 384), s.dev.hasCore c = true →
    let d := s.dev.closeSc c
    d.issues c t w → opc (slotOf w 1) = 0x08 →
    let u := (((d.openSc c t w (d.core c).pc).advance c).onIssue c (fun i => { i with ends := true })).closeSc c
    ((u.task t).stopping = true → Becomes (.ctEnd c) s u)
    ∧ ((u.task t).stopping = false → (∃ x ∈ (u.task t).cores, x ≠ c ∧ (u.core x).ended.contains t = false) →
        Completes (.ctEnd c) s (fun e => (e.core c).ended.contains t = true ∧ (e.region c).finished = !u.scrubDue c
          ∧ (e.core c).issue = none ∧ e.tasks = u.tasks ∧ e.dram = u.dram ∧ e.fabric = u.fabric
          ∧ ∀ x, x ≠ c → e.core x = u.core x))
    ∧ ((u.task t).stopping = false → (∀ x ∈ (u.task t).cores, x ≠ c → (u.core x).ended.contains t = true) →
        Becomes (.ctEnd c) s (((u.onCore c (fun k => { k with ended := insertNew t k.ended })).restRegion c).endTask t))

/-- O23, tier 2. A bundle that waits charges a local cycle, and one that breaks a check faults; neither issues. For the rows
of all CT operations, here CT_NOP for a bundle with opcode 0 in its CT slot: while the bundle has a reason to wait, the
row charges one local cycle and counts it under its kind, and neither issues nor faults, whatever the fields hold; when
none is left and a check fails, every failed check is recorded for the sc that the bundle would have issued, the count
of the beat stays, and no slot takes effect. (Rests on: spec/06_core.md.) -/
def Obligations.CoreWaitsAndFaults : Prop :=
  ∀ (s : State) (c t : Nat) (w : BitVec 384), s.dev.hasCore c = true →
    let d := s.dev.closeSc c
    let k := d.core c
    d.ready c = some t → k.fill = none → k.pc < instrCount (k.bound t) → k.bundleAt t k.pc = w → opc (slotOf w 1) = 0x00 →
    k.parityBad t k.pc = [] →
    (∀ kind, d.waitKind c t w k.pc (k.sc + 1) = some kind →
      Completes (.ctNop c) s (fun e => e.region c = d.region c ∧ (e.core c).pc = k.pc ∧ (e.core c).cyc = k.cyc + 1
        ∧ (e.core c).issue = k.issue ∧ (e.core c).wait.map (·.1) = some kind
        ∧ Sparse.get 0 (e.core c).counters kind = Sparse.get 0 k.counters kind + 1#64 ∧ e.tasks = d.tasks
        ∧ e.hub.health = d.hub.health ∧ ∀ x, x ≠ c → e.core x = d.core x))
    ∧ (d.waitKind c t w k.pc (k.sc + 1) = none → d.bundleBad c t w k.pc (k.sc + 1) ≠ [] →
      Completes (.ctNop c) s (fun e => (e.region c).count = (d.region c).count ∧ (e.core c).issue = k.issue
        ∧ (e.core c).pc = k.pc ∧ (e.core c).spad = k.spad ∧ (e.core c).lanes = k.lanes ∧ (e.core c).keys = k.keys
        ∧ (e.task t).stopping = true
        ∧ e.hub.healthNext = d.hub.healthNext + (d.bundleBad c t w k.pc (k.sc + 1)).length))

/-- O24, tier 2. QK_NOP, KEY_ADD, KEY_WAIT, KEY_TAKE and KEY_READ act on the key of the task's window, and nothing else.
Each completes in its phase of the sc. key.wait takes N off at the end of the sc; key.take does when the count at the
start of the cycle holds N, and faults the task with KEY_UNDERFLOW and leaves the key when it does not; key.read sends the
count at the start of the cycle to one lane, readable from sc s + 2; key.add brings N at the end of the sc, and with N = 0
nothing. What the end of the sc makes of a key that a task holds: where the count less what is taken off plus all that is
brought fits CAPACITY, that is its count; where it does not, the key stays as it was and its task is faulted with
KEY_OVERFLOW. (Rests on: spec/12_keys_and_queues.md.) -/
def Obligations.KeySlots : Prop :=
  (∀ (s : State) (c : Nat) (i : Issue), s.dev.hasCore c = true →
    let k := s.dev.core c
    k.issue = some i → k.atPhase 8 →
    let f := qf (slotOf i.word 6)
    let phys := kBase (k.bound i.slot) + f.key
    let start := Sparse.get 0 i.keys0 phys
    let i1 : Issue := { i with done := i.done ++ [8] }
    let k1 : Core := { k with issue := some i1 }
    (f.op = 0x00 → Completes (.qkNop c) s (fun e => s.dev.onlyCore e c k1))
    ∧ (f.op = 0x02 → Completes (.keyWait c) s (fun e =>
        s.dev.onlyCore e c { k with issue := some { i1 with keySub := i.keySub ++ [(phys, f.n)] } }))
    ∧ (f.op = 0x03 → f.n ≤ start → Completes (.keyTake c) s (fun e =>
        s.dev.onlyCore e c { k with issue := some { i1 with keySub := i.keySub ++ [(phys, f.n)] } }))
    ∧ (f.op = 0x03 → start < f.n → Completes (.keyTake c) s (fun e =>
        (e.core c).keys = k.keys ∧ e.lastRecord = some (0x0105, 1, 1, c)
        ∧ ((s.dev.task i.slot).state ≠ 5 → (e.task i.slot).stopping = true)))
    ∧ (f.op = 0x04 → Completes (.keyRead c) s (fun e => s.dev.onlyCore e c { k1 with
        flights := (k.endRuns 0 0 [f.kd]).flights ++ [{ Flight.reset with
          due := k.sc + 1, unit := 6, issued := k.sc, slot := i.slot,
          regs := [(128 * f.kd + f.klane, BitVec.ofNat 32 start, false)] }] }))
    ∧ (f.op = 0x01 → f.n = 0 → Completes (.keyAdd c) s (fun e => s.dev.onlyCore e c k1))
    ∧ (f.op = 0x01 → f.n ≠ 0 → Completes (.keyAdd c) s (fun e =>
        s.dev.onlyCore e c { k with issue := some { i1 with keyInc := i.keyInc ++ [(phys, f.n, true)] } })))
  ∧ (∀ (d : Device) (c phys taken t : Nat) (incs : List (Nat × Bool)), d.hasCore c = true → d.keyHolder c phys = some t →
    let k := d.core c
    let cap := keyCap (d.keyEntry c t (phys - kBase (k.bound t)))
    let cnt := Sparse.get 0 k.keys phys
    let brought := (incs.map (·.1)).sum
    taken ≤ cnt →
    (cnt - taken + brought ≤ cap →
      d.onlyCore (d.turnKey c phys taken incs) c { k with keys := Sparse.set 0 k.keys phys (cnt - taken + brought) })
    ∧ (cap < cnt - taken + brought → ((d.turnKey c phys taken incs).core c).keys = k.keys
      ∧ (d.turnKey c phys taken incs).lastRecord = some (0x0104, if incs.any (·.2) then 0 else 2, 1, c)
      ∧ ((d.task t).state ≠ 5 → ((d.turnKey c phys taken incs).task t).stopping = true)))

/-- O25, tier 2. Q_SEND, Q_RECV and Q_SELECT: a message leaves, or the head of a queue starts its copy. Each completes in
its phase of the sc. q.send reads its 64 B block; the send counter rises by 1, the send is in flight, and the descriptor
with SENDER and SEQ goes to the core it names on the own device, or as a QMSG packet into the local-origin FIFO of the
port that the route table names, behind what waits for its places; a read that the banks suppress sends nothing. q.recv and
q.select read the head entry of the queue chosen at the start of the sc; without poison its HEAD advances, COUNT and the
visible count fall by 1, and a receive of the descriptor and the first m bytes is in flight; q.select also writes the
number chosen to its lane, readable from sc s + 2, and under ROT keeps it. A poisoned head faults the task at once. An
issued receive of an OPEN queue sets VARIED, whatever its read gives. (Rests on: spec/12_keys_and_queues.md.) -/
def Obligations.QueueSlots : Prop :=
  ∀ (s : State) (c : Nat) (i : Issue), s.dev.hasCore c = true →
    let k := s.dev.core c
    k.issue = some i → k.atPhase 8 →
    let f := qf (slotOf i.word 6)
    let b := k.bound i.slot
    let sent := (s.dev.begun c 8).countCore c 26 1
    let asks := (s.dev.begun c 8).countCore c 27 1
    let asked := if k.recvVaries i.slot f then asks.onTask i.slot (fun x => { x with flagWord := Nat.lor x.flagWord 1 }) else asks
    (∀ bs d, f.op = 0x10 → sent.unitRead c i.slot 5 (f.addr * 32) 64 = (some bs, d) →
      let blk := bs.map (·.1)
      let seq := (Sparse.get 0 (d.core c).sendCtr i.slot).toNat
      let a := sendDest blk
      Completes (.qSend c) s (fun e =>
        Sparse.get 0 (e.core c).sendCtr i.slot = Sparse.get 0 (d.core c).sendCtr i.slot + 1#16
        ∧ (e.core c).sends = (d.core c).sends ++ [(d.core c).nextCopy] ∧ e.dram = d.dram ∧ e.staging = d.staging
        ∧ (rzDev a = d.devNum → (e.core (rzCore a)).msgIn = (d.core (rzCore a)).msgIn
            ++ [{ Msg.reset with desc := stampDesc blk c seq, dev := d.devNum, core := c, mq := bits a 0 7, sendS := d.gate.e,
                                 sendId := (d.core c).nextCopy + 1,
                                 poison := maskOf 4 (fun n => ((bs.drop (8 * n)).take 8).any (·.2)) }])
        ∧ (rzDev a ≠ d.devNum → ∃ pk : Packet,
            let r := Sparse.get 0 d.fabric.routes (rzDev a)
            Sparse.get [] (e.port r).fifos 63 ++ (e.port r).localWait
              = Sparse.get [] (d.port r).fifos 63 ++ (d.port r).localWait ++ [pk]
            ∧ pk.data = stampDesc blk c seq ∧ pk.hdr = mkHdr a 0 d.devNum c 4 32 (d.core c).nextCopy true 0 0 16)))
    ∧ (∀ d, f.op = 0x10 → sent.unitRead c i.slot 5 (f.addr * 32) 64 = (none, d) → Becomes (.qSend c) s d)
    ∧ (∀ r bs d, (f.op = 0x11 ∨ f.op = 0x12) → i.choice = some r →
        let q := k.qEntry i.slot r
        let mq := qBase b + r
        asked.unitRead c i.slot 5 (qRing q + 32 * (k.qState mq).head) 32 = (some bs, d) →
        bs.any (·.2) = false →
        let m := min (mdLen (leNat (bs.map (·.1)))) (qDataMax q)
        Completes (if f.op = 0x11 then .qRecv c else .qSelect c) s (fun e =>
          (e.core c).qState mq = { (d.core c).qState mq with
            head := ((k.qState mq).head + 1) % max 1 (qCap q), count := (k.qState mq).count - 1,
            visible := (k.qState mq).visible - 1 }
          ∧ (∃ x ∈ (e.core c).copies, x.receive = true ∧ x.head = bs.map (·.1) ∧ x.dstBase = spadPa b (f.addr * 32)
              ∧ x.readBytes = m ∧ x.writeBytes = 32 + m)
          ∧ (f.op = 0x12 → ({ Flight.reset with due := k.sc + 1, unit := 6, issued := k.sc, slot := i.slot,
                                                      regs := [(128 * f.qd + f.qlane, BitVec.ofNat 32 r, false)] } : Flight) ∈ (e.core c).flights)
          ∧ (f.op = 0x12 → f.rot = true → (e.core c).rot = BitVec.ofNat 8 (128 + r))))
    ∧ (∀ r bs d, (f.op = 0x11 ∨ f.op = 0x12) → i.choice = some r →
        asked.unitRead c i.slot 5 (qRing (k.qEntry i.slot r) + 32 * (k.qState (qBase b + r)).head) 32 = (some bs, d) →
        bs.any (·.2) = true →
        Completes (if f.op = 0x11 then .qRecv c else .qSelect c) s (fun e => e.lastRecord = some (0x0203, 0, 1, c)
          ∧ (e.core c).queues = (d.core c).queues))
    ∧ (∀ r d, (f.op = 0x11 ∨ f.op = 0x12) → i.choice = some r →
        asked.unitRead c i.slot 5 (qRing (k.qEntry i.slot r) + 32 * (k.qState (qBase b + r)).head) 32 = (none, d) →
        Becomes (if f.op = 0x11 then .qRecv c else .qSelect c) s d)

/-- O26, tier 2. ENT_DRAW, TIME_READ and CNT_READ deliver one value to a lane and set VARIED. Each completes in its phase of
the sc: the value goes to lane LANE of vD, readable from sc s + 2, and the task's word shows VARIED. The value is that
of the log's record in a replay, that of the primary's VALUE in a shadow, and else the live one: 32 bits of entropy (a
free value of the model, log 2, which is then drawn), half N of the W of its issue, or the low 32 bits of counter N of the core. (Rests
on: spec/16_contract_level1.md, spec/19_determinism.md, spec/22_twin_pairing.md.) -/
def Obligations.VaryingSlots : Prop :=
  ∀ (s : State) (c : Nat) (i : Issue), s.dev.hasCore c = true →
    let k := s.dev.core c
    let t := i.slot
    k.issue = some i → k.atPhase 8 →
    let f := qf (slotOf i.word 6)
    let value := fun (kind live : Nat) =>
      if (s.dev.task t).replay.isSome then ((s.dev.replayTake t kind c).1.map (fun x => bits x 0 32)).getD live
      else if s.dev.twin.role = 5 then (s.dev.heldValue t kind s.dev.gate.e k.lastSc c).getD live
      else live
    let done := fun (e : Device) (v : Nat) =>
      (e.core c).flights = (k.endRuns 0 0 [f.kd]).flights ++ [{ Flight.reset with
          due := k.sc + 1, unit := 6, issued := k.sc, slot := t,
          regs := [(128 * f.kd + f.klane, BitVec.ofNat 32 v, false)] }]
      ∧ (e.task t).flagWord = Nat.lor (s.dev.task t).flagWord 1 ∧ e.dram = s.dev.dram ∧ e.staging = s.dev.staging
      ∧ (e.core c).spad = k.spad ∧ (e.core c).lanes = k.lanes ∧ (∀ x, x ≠ c → e.core x = s.dev.core x)
    (f.op = 0x20 → Completes (.entDraw c) s (fun e =>
      done e (value 6 (Config.freeNat s.dev.free % 2 ^ 32)) ∧ e.free = s.dev.free + 1))
    ∧ (f.op = 0x21 → Completes (.timeRead c) s (fun e => done e (value 7 (bits i.w (32 * f.n) 32)) ∧ e.free = s.dev.free))
    ∧ (f.op = 0x22 → Completes (.cntRead c) s (fun e =>
        done e (value 8 ((Sparse.get 0 k.counters f.n).toNat % 2 ^ 32)) ∧ e.free = s.dev.free))

/-- O27, tier 2. CU_NOP, CU_COPY, MX_NOP and MX_PASS: a copy is taken into flight, a pass enters the feed. Each completes in
its phase of the sc. A no-operation only uses up its phase. A copy between scratchpads and DRAM takes a copy slot: it
joins the copies in flight with its ranges on the scoreboard, its descriptor stands advanced, COPIES rises by 1, and
nothing but its core changes (and the number that requests to crossings bear, log 80); of any kind, its effect is that of its issue (hub staging and remote ends also start to
move bytes). A pass becomes the current pass of an empty feed and else the next; the pass count rises by 1, and its
descriptor advances by its two advances, or stays under NOADV. (Rests on: spec/11_copies_and_dram.md,
spec/07_matrix_array.md, spec/16_contract_level1.md.) -/
def Obligations.CopyAndMatrixSlots : Prop :=
  ∀ (s : State) (c : Nat) (i : Issue), s.dev.hasCore c = true →
    let k := s.dev.core c
    k.issue = some i →
    let cu := slotOf i.word 2
    let mx := slotOf i.word 3
    let k1 := fun (p : Nat) => ({ k with issue := some { i with done := i.done ++ [p] } } : Core)
    (k.atPhase 1 → opc cu = 0 → Completes (.cuNop c) s (fun e => s.dev.onlyCore e c (k1 1)))
    ∧ (k.atPhase 1 → opc cu = 1 → Becomes (.cuCopy c) s ((s.dev.begun c 1).issueCopy c i.slot cu i.index k.lastSc))
    ∧ (k.atPhase 1 → opc cu = 1 →
        let desc := k.copyDescAt i.slot cu
        let x := cd desc
        let a := endAt c (k.bound i.slot) x.srcKind x.src
        let z := endAt c (k.bound i.slot) x.dstKind x.dst
        let r := k.copyRanges c i.slot cu
        a.1 ≠ 2 → a.1 ≠ 4 → z.1 ≠ 2 → z.1 ≠ 4 → k.copyOf k.nextCopy = none →
        Completes (.cuCopy c) s (fun e =>
          (e.core c).copies = k.copies ++ [{ Copy.reset with
            id := k.nextCopy, ready := k.cyc, slot := i.slot, desc := BitVec.ofNat 512 desc, srcKind := a.1, dstKind := z.1,
            srcBase := a.2, dstBase := z.2, readBytes := x.rowLen * x.rows, writeBytes := x.dstRow * x.rows,
            issueBundle := i.index, issueSc := k.lastSc, farAt := (s.dev.core (rzCore a.2)).cyc, farNum := s.dev.crossNum }]
          ∧ (e.core c).scoreboard = k.scoreboard
              ++ (r.1.map (fun y => (⟨y.1, y.1 + y.2 - 1, false, k.nextCopy⟩ : Range))
                ++ r.2.map (fun y => (⟨y.1, y.1 + y.2 - 1, true, k.nextCopy⟩ : Range)))
          ∧ Sparse.get 0 (e.core c).copyDesc (256 * i.slot + bits cu 48 8) = BitVec.ofNat 512 (advanceDesc desc cu)
          ∧ Sparse.get 0 (e.core c).counters 21 = Sparse.get 0 k.counters 21 + 1#64
          ∧ (∀ y, y ≠ c → e.core y = s.dev.core y)
          ∧ e = { s.dev with cores := e.cores, crossNum := s.dev.crossNum + 1 }))
    ∧ (k.atPhase 2 → opc mx = 0 → Completes (.mxNop c) s (fun e => s.dev.onlyCore e c (k1 2)))
    ∧ (k.atPhase 2 → opc mx = 1 →
        let f := mf mx
        let p0 := k.mkPass i.slot (s.dev.levelOf i.slot == 1) f i.index k.lastSc s.dev.gate.e k.sc
        let p := { p0 with s1 := passStart k.mx p0 }
        Completes (.mxPass c) s (fun e =>
          (if k.mx.cur = none then (e.core c).mx.cur = some p ∧ (e.core c).mx.nxt = k.mx.nxt
           else (e.core c).mx.cur = k.mx.cur ∧ (e.core c).mx.nxt = some p)
          ∧ (e.core c).mx.passesOpen = k.mx.passesOpen + 1 ∧ (e.core c).spad = k.spad ∧ (e.core c).flights = k.flights
          ∧ Sparse.get 0 (e.core c).mxDesc (64 * i.slot + f.md) = BitVec.ofNat 256
              (let d := k.mxDescAt i.slot f
               if f.noadv then d
               else setBits (setBits d 160 32 ((p.xAddr + bits d 224 32) % 2 ^ 32)) 128 32 ((p.wAddr + bits d 192 32) % 2 ^ 32))
          ∧ (∀ y, y ≠ c → e.core y = s.dev.core y) ∧ e = { s.dev with cores := e.cores }))

/-- O28, tier 2. The vector operations read their operands in sc s, and their results fly to the end of sc s + L - 1. Every
command of the 49 vector operations (V_NOP, V_ADD, V_SUB, V_MUL, V_FMA, V_DIV, V_SQRT, V_MAX, V_MIN, V_CMP, V_SEL,
V_NEG, V_2SUM, V_2PROD, V_EXP2, V_LOG2, V_RCP, V_RSQRT, V_AND, V_OR, V_XOR, V_SHL, V_SHR, V_SRA, V_MOV, V_PERM, V_SHUF,
V_CVT, V_UNPK, V_PACK, V_CMPR, V_EXPD, V_BCOMB, V_RSUM, V_RMAX, V_RMIN, V_XADD, V_XRD, V_XCLR, V_XST, V_XLD, V_SM0,
V_SM1, V_SMR, V_SM2, V_SMN, V_PSET, V_PBUF, V_BELL), in either slot, completes in its phase of the sc with the effect of
the slot. For the operations that compute (all but nop, unpack, the accumulators, pointers and release), with operands
from registers, the bell or a broadcast lane: the core gains one result, due at the end of sc s + L - 1 and to the
scratchpad or registers, computed from the operands as they stand in this sc; nothing else changes but the marks of the
sc and the runs of attention operations that this one ends (R233). What was due earlier is readable first: a result lands only in its sc (the statement of VECTOR_WRITEBACK), so a
consumer reads it from sc s + L. (Rests on: spec/09_vector_engine.md, spec/17_contract_level2.md.) -/
def Obligations.VectorSlots : Prop :=
  ∀ (s : State) (c op : Nat) (sl : VSlot) (i : Issue) (cmd : Instr) (o : VOp), s.dev.hasCore c = true →
    let k := s.dev.core c
    let u := (vUnit sl).1
    let ph := (vUnit sl).2
    let f := vf (slotOf i.word u)
    vectorCmd op c sl = some cmd → k.issue = some i → k.atPhase ph → f.op = op → vopOf op = some o →
    Becomes cmd s ((s.dev.begun c ph).phaseV c u)
    ∧ (op ∉ [0x00, 0x24, 0x38, 0x39, 0x3A, 0x3B, 0x3C, 0x48, 0x49, 0x4A] → f.ak ≠ 1 → f.bk ≠ 1 →
        let a := if o.useA = 0 then [] else k.operandOf f.ak f.a f.idx
        let b := if o.useB then k.operandOf f.bk f.b f.idx else []
        let run := k.endRuns f.chain f.d f.laneRegs
        let out := vCompute (s.dev.vEnvOf c i o f) a b (if o.useC then k.vreg f.c else []) (run.state f)
        Completes cmd s (fun e => s.dev.onlyCore e c { run with
          issue := some { i with done := i.done ++ [ph], rel := i.rel || f.releases,
                                 ptrStep := f.pointers.foldl (fun l p => insertNew p l) i.ptrStep },
          flights := run.flights ++ [vResult (s.dev.vFlight c u i o f) f o (Sparse.get 0 i.ptr0 f.dp) out] })
        ∧ (vResult (s.dev.vFlight c u i o f) f o (Sparse.get 0 i.ptr0 f.dp) out).due
            = k.sc + vLatency o f (s.dev.task i.slot).canonical - 1)

/-- O29, tier 2. V_NOP, V_BELL, V_PSET, V_PBUF, V_UNPK and the accumulator operations. Each completes in its phase of the
sc, with these effects. nop: none. bell: the head is released at the end of the sc. pset and pbuf: the pointer takes
ADDR and STEP, or BUF and POS, unless VA set that pointer in this bundle. xrd and xst: the accumulator as it stands is
read out, to a lane or as its 80 B image. xclr: a clear is on its way. xadd and xld: what they add is on its way, from
the 128 lanes or from an image read in this sc. unpk: the elements read in this sc are widened to registers. (Rests on:
spec/09_vector_engine.md, spec/05_stops_and_exact_sums.md.) -/
def Obligations.VectorSpecialSlots : Prop :=
  ∀ (s : State) (c op : Nat) (sl : VSlot) (i : Issue) (cmd : Instr) (o : VOp), s.dev.hasCore c = true →
    let k := s.dev.core c
    let u := (vUnit sl).1
    let ph := (vUnit sl).2
    let w := slotOf i.word u
    let f := vf w
    vectorCmd op c sl = some cmd → k.issue = some i → k.atPhase ph → f.op = op → vopOf op = some o →
    let i1 : Issue := { i with done := i.done ++ [ph], rel := i.rel || f.releases,
                               ptrStep := f.pointers.foldl (fun l p => insertNew p l) i.ptrStep }
    let run := k.endRuns f.chain f.d f.laneRegs
    let k1 : Core := { run with issue := some i1 }
    let entered := ((s.dev.begun c ph).vEnter c f).onCore c (fun x => x.endRuns f.chain f.d f.laneRegs)
    let fl := s.dev.vFlight c u i o f
    let acc := Sparse.get XAcc.reset k.xa (f.imm % 8)
    let p := bits w 53 3
    (op = 0x00 ∨ op = 0x4A → Completes cmd s (fun e => s.dev.onlyCore e c k1))
    ∧ (op = 0x48 → i.ptrSet.contains (2 * p) = false → i.ptrSet.contains (2 * p + 1) = false →
        Completes cmd s (fun e => s.dev.onlyCore e c { k1 with
          issue := some { i1 with ptrSet := i.ptrSet ++ [2 * p] },
          ptrs := Sparse.set 0 k.ptrs p (mkPtr (bits w 0 32) (bits w 32 16) (ptrBuf (k.ptr p)) (ptrPos (k.ptr p))) }))
    ∧ (op = 0x49 → i.ptrSet.contains (2 * p) = false → i.ptrSet.contains (2 * p + 1) = false →
        Completes cmd s (fun e => s.dev.onlyCore e c { k1 with
          issue := some { i1 with ptrSet := i.ptrSet ++ [2 * p + 1] },
          ptrs := Sparse.set 0 k.ptrs p
            (mkPtr (ptrAddr (k.ptr p)) (bits (k.ptr p).toNat 32 16) (bits w 32 16) (bits w 0 32)) }))
    ∧ (op = 0x48 ∨ op = 0x49 → i.ptrSet.contains (2 * p) = true ∨ i.ptrSet.contains (2 * p + 1) = true →
        Completes cmd s (fun e => (e.core c).ptrs = k.ptrs
          ∧ Sparse.get 0 (e.core c).counters 10 = Sparse.get 0 k.counters 10 + 1#64))
    ∧ (op = 0x39 → Completes cmd s (fun e => s.dev.onlyCore e c { k1 with
        flights := run.flights ++ [{ fl with
          regs := regWrites f [(0, f.idx, (acc.readOut (s.dev.vEnvOf c i o f).fmt ((s.dev.vEnvOf c i o f).rnd f.idx)).1,
            acc.poison)],
          flags := (acc.readOut (s.dev.vEnvOf c i o f).fmt ((s.dev.vEnvOf c i o f).rnd f.idx)).2 }] }))
    ∧ (op = 0x3A → Completes cmd s (fun e => s.dev.onlyCore e c { k1 with
        flights := run.flights ++ [{ fl with xaIdx := f.imm % 8, xaClr := true }] }))
    ∧ (op = 0x3B → Completes cmd s (fun e => s.dev.onlyCore e c { k1 with
        flights := run.flights ++ [{ fl with
          addr := ptrAddr (Sparse.get 0 i.ptr0 f.dp), data := acc.image, marks := acc.image.map (fun _ => acc.poison) }] }))
    ∧ (op = 0x38 → f.ak ≠ 1 → Completes cmd s (fun e => s.dev.onlyCore e c { k1 with
        flights := run.flights ++ [{ fl with
          xaIdx := f.imm % 8,
          xaAdd := some (xaddSum ((List.range 128).map (fun j =>
            xaddOf ((s.dev.vEnvOf c i o f).fmt.read (lane (k.operandOf f.ak f.a f.idx) j)) (bits f.imm 3 6)
              (mark (k.operandOf f.ak f.a f.idx) j)))) }] }))
    ∧ (∀ bs d, op = 0x3C → entered.unitRead c i.slot (u - 1) (ptrAddr (Sparse.get 0 i.ptr0 f.a)) 80
          = (some bs, d) →
        Completes cmd s (fun e => d.onlyCore e c { d.core c with
          flights := (d.core c).flights ++ [{ fl with
            xaIdx := f.imm % 8, xaAdd := some (imageAdd (bs.map (·.1)) (bs.any (·.2))) }] }))
    ∧ (∀ bs d, op = 0x24 →
        entered.unitRead c i.slot (u - 1) (ptrAddr (Sparse.get 0 i.ptr0 f.a)) f.aBytes = (some bs, d) →
        Completes cmd s (fun e => d.onlyCore e c { d.core c with
          flights := (d.core c).flights ++ [{ fl with regs := regWrites f (outVec 0 (opUnpk (fmtOfTy f.ty) bs)) }] }))

/-- O30, tier 2. VECTOR_WRITEBACK, MX_FEED_READ and PASS_RESULT_LAND. Each completes in its phase of the sc. Of the results
in flight exactly those due in this sc land and leave; one that lands alone writes every lane it names with its mark.
Where two land together, a lane that both name keeps the write of the earlier unit (R149). The feed makes the reads
planned for this sc: a weight vector enters the array in its sweep, and a stored row its place in the shadow tile. The
result vectors due in this sc land: the rows of one go into the last tiles of the bell queue, new ones where a tile begins
(too few free entries fault the task with BELL_OVERFLOW). A check of the array that fails (measured outside the model,
log 11) faults the task with RESIDUE_FAIL and marks the core. (Rests on: spec/09_vector_engine.md,
spec/07_matrix_array.md, spec/06_core.md.) -/
def Obligations.ResultsLand : Prop :=
  ∀ (s : State) (c : Nat) (i : Issue), s.dev.hasCore c = true →
    let k := s.dev.core c
    k.issue = some i →
    (∀ f : Flight, k.atPhase 9 → k.flights.filter (fun g => g.due == k.sc) = [f] → (f.regs.map (·.1)).Nodup →
      Completes (.vectorWriteback c) s (fun e => (e.core c).flights = k.flights.filter (fun g => g.due != k.sc)
        ∧ (∀ w ∈ f.regs, Sparse.get 0 (e.core c).lanes w.1 = w.2.1 ∧ Sparse.get false (e.core c).laneMarks w.1 = w.2.2)
        ∧ (∀ n, n ∉ f.regs.map (·.1) → Sparse.get 0 (e.core c).lanes n = Sparse.get 0 k.lanes n)
        ∧ (e.core c).spad = k.spad ∧ (∀ x, x ≠ c → e.core x = s.dev.core x) ∧ e.tasks = s.dev.tasks))
    ∧ (∀ f g : Flight, k.atPhase 9 → k.flights.filter (fun x => x.due == k.sc) = [f, g] → f.unit < g.unit → g.chain = 0 →
        (f.regs.map (·.1)).Nodup →
        Completes (.vectorWriteback c) s (fun e =>
          ∀ w ∈ f.regs, Sparse.get 0 (e.core c).lanes w.1 = w.2.1 ∧ Sparse.get false (e.core c).laneMarks w.1 = w.2.2))
    ∧ (k.atPhase 3 → k.feedDue = true → Becomes (.mxFeedRead c) s ((s.dev.begun c 3).phaseFeed c))
    ∧ (∀ p sweep v bs d, k.atPhase 3 → k.mx.cur = some p → p.weightAt k.sc = some (sweep, v) → p.tileAt k.sc = none →
        (∀ q, k.mx.nxt = some q → q.tileAt k.sc = none) →
        (s.dev.begun c 3).unitRead c p.slot 1 (p.wAddr + v * p.wStride) (readBytes p.format p.shape) = (some bs, d) →
        let r := weightRead k.mx p sweep v k.sc bs
        Completes (.mxFeedRead c) s (fun e => d.onlyCore e c { d.core c with mx := { r.1 with cur := some r.2 } }))
    ∧ (∀ p j bs d, k.atPhase 3 → k.mx.cur = some p → p.weightAt k.sc = none → p.tileAt k.sc = some j →
        (∀ q, k.mx.nxt = some q → q.tileAt k.sc = none) →
        (s.dev.begun c 3).unitRead c p.slot 2 (p.xAddr + j % tileRows p.shape * p.xStride) (rowBytes p.format p.shape)
          = (some bs, d) →
        Completes (.mxFeedRead c) s (fun e => d.onlyCore e c { d.core c with mx := { k.mx with cur := some { p with
          tile := loadRow p.format p.shape p.trans j bs p.tile,
          tilePoison := (j != 0 && p.tilePoison) || bs.any (·.2), readsDone := p.readsDone + 1 } } }))
    ∧ (k.atPhase 10 → k.mx.out.any (fun l => l.due == k.sc) = true →
        Becomes (.passResultLand c none) s ((s.dev.begun c 10).phasePass c))
    ∧ (∀ l : Landing, k.atPhase 10 → k.mx.out.filter (fun x => x.due == k.sc) = [l] →
        let opens := l.perRead * l.read % 128 = 0
        (opens → l.tiles ≤ 8 - k.bell.length → Completes (.passResultLand c none) s (fun e =>
          (e.core c).bell = landRows (k.bell ++ List.replicate l.tiles { BellTile.reset with horn := l.horn }) l
          ∧ (e.core c).mx = { k.mx with out := k.mx.out.erase l, passesOpen := k.mx.passesOpen - b2n l.closes }
          ∧ e = { s.dev with cores := e.cores }))
        ∧ (¬ opens → Completes (.passResultLand c none) s (fun e => (e.core c).bell = landRows k.bell l
          ∧ (e.core c).mx = { k.mx with out := k.mx.out.erase l, passesOpen := k.mx.passesOpen - b2n l.closes }
          ∧ e = { s.dev with cores := e.cores }))
        ∧ (opens → 8 - k.bell.length < l.tiles → Completes (.passResultLand c none) s (fun e =>
          (e.core c).bell = k.bell ∧ e.lastRecord = some (0x0108, 0, 1, c))))
    ∧ (∀ cause low, cause ≤ 2 → Completes (.passResultLand c (some (cause, low))) s (fun e =>
        (e.core c).marked = true ∧ e.lastRecord = some (0x0201, cause, 1, c)))

/-- O31, tier 2. A TB32 operation with a void operand delivers void and sets no flag; a max over a set with void is void.
For v.add, v.sub, v.mul, v.div, v.fma, v.sqrt, v.neg, the transcendentals, two-sum and two-product in TB32, in either
rounding mode: when an operand lane is void, the result is void and no flag rises, whatever the other operands are
(R101). x / 0 of a value that is not 0 delivers the largest value with the sign of x and DIVZ (R102), and 0 / 0 and the
root of a negative value deliver void with INV (R100). v.rmax over lanes of which one is void delivers void; v.rmin
delivers void exactly when every lane is void (R105). (Rests on: spec/04_number_formats.md, spec/09_vector_engine.md.) -/
def Obligations.VoidPropagates : Prop :=
  ∀ (e : VEnv) (i a b c : Nat), e.f.ty = 0 →
    ((Fmt.tb32.read a = none ∨ Fmt.tb32.read b = none) →
      opAdd e false i a b = (Fmt.tb32.voidCode, 0) ∧ opAdd e true i a b = (Fmt.tb32.voidCode, 0)
      ∧ opMul e i a b = (Fmt.tb32.voidCode, 0) ∧ opDiv e i a b = (Fmt.tb32.voidCode, 0)
      ∧ opFma e i a b c = (Fmt.tb32.voidCode, 0) ∧ opFma e i c a b = (Fmt.tb32.voidCode, 0)
      ∧ twoSum a b = ((Fmt.tb32.voidCode, 0), (Fmt.tb32.voidCode, 0))
      ∧ twoProd a b = ((Fmt.tb32.voidCode, 0), (Fmt.tb32.voidCode, 0)))
    ∧ (Fmt.tb32.read a = none → opSqrt e i a = (Fmt.tb32.voidCode, 0) ∧ opNeg e a = (Fmt.tb32.voidCode, 0)
      ∧ ∀ op, opTrans op a = (Fmt.tb32.voidCode, 0))
    ∧ (∀ x y, Fmt.tb32.read a = some x → Fmt.tb32.read b = some y → y.isZero = true →
      opDiv e i a b = (if x.isZero then (Fmt.tb32.voidCode, flagInv) else (Fmt.tb32.signedMax x.neg, flagDivz)))
    ∧ (∀ x, Fmt.tb32.read a = some x → x.isZero = false → x.neg = true → opSqrt e i a = (Fmt.tb32.voidCode, flagInv)
      ∧ opTrans 0x13 a = (Fmt.tb32.voidCode, flagInv) ∧ opTrans 0x11 a = (Fmt.tb32.voidCode, flagInv))
    ∧ ∀ v : Vec,
      ((∃ j, j < 128 ∧ Fmt.tb32.read (lane v j) = none) → opRext e true v = Fmt.tb32.voidCode)
      ∧ ((∀ j, j < 128 → Fmt.tb32.read (lane v j) = none) → opRext e false v = Fmt.tb32.voidCode)
      ∧ ((∃ j, j < 128 ∧ Fmt.tb32.read (lane v j) ≠ none) →
          opRext e false v ≠ Fmt.tb32.voidCode)

/-- O32, tier 1. v.cmp with a void operand: not-equal is true, every other comparison false, and no flag. For every TB32
comparison with a void operand: IMM 0 (equal), 2 (less), 3 (less or equal), 4 (greater) and 5 (greater or equal) give 0,
and IMM 1 (not equal) gives 1. Comparisons set no flag, in either type, on any operands. (Rules: R104.) -/
def Obligations.ComparisonsWithVoid : Prop :=
  (∀ (e : VEnv) (a b : Nat), e.f.ty = 0 → (Fmt.tb32.read a = none ∨ Fmt.tb32.read b = none) →
    (e.f.imm % 8 = 1 → opCmp e a b = 1) ∧ (e.f.imm % 8 ≠ 1 → opCmp e a b = 0))
  ∧ ∀ (e : VEnv) (a b c : Vec) (st : List Vec), e.f.op = 0x09 → (vCompute e a b c st).flags = 0

/-- O33, tier 2. HN32 add, subtract, multiply, negate and divide: exact, wrapped or saturated, with OVF and DIVZ. Table 4-5
at width 32: where the exact result fits it is delivered without a flag; where it does not, OVF is set and the wrapping
form delivers it modulo 2^32, the saturating form the nearer of MIN and MAX. A quotient is truncated toward zero; a
division by 0 delivers 0 with DIVZ. (Rests on: spec/04_number_formats.md.) -/
def Obligations.IntegerArithmetic : Prop :=
  ∀ (e : VEnv) (i a b : Nat), e.f.ty = 1 →
    let fits := fun (x : Int) (r : Nat × Nat) =>
      r.1 < 2 ^ 32 ∧ (if -(2 ^ 31 : Int) ≤ x ∧ x < 2 ^ 31 then toSigned r.1 32 = x ∧ r.2 = 0
        else r.2 = flagOvf ∧ (if e.f.sat then toSigned r.1 32 = (if x < 0 then -(2 ^ 31 : Int) else 2 ^ 31 - 1)
                              else (toSigned r.1 32 - x) % (2 ^ 32 : Int) = 0))
    fits (toSigned a 32 + toSigned b 32) (opAdd e false i a b)
    ∧ fits (toSigned a 32 - toSigned b 32) (opAdd e true i a b)
    ∧ fits (toSigned a 32 * toSigned b 32) (opMul e i a b)
    ∧ fits (-(toSigned a 32)) (opNeg e a)
    ∧ (toSigned b 32 ≠ 0 → fits ((toSigned a 32).tdiv (toSigned b 32)) (opDiv e i a b))
    ∧ (toSigned b 32 = 0 → opDiv e i a b = (0, flagDivz))

/-- O34, tier 2. Shifts take the whole count, never reduced, and set no flag. For 32-bit lanes: a count c of 0 to 31 shifts
by c; any greater count, however large, gives 0 for the left and the logical right shift, and the sign bit in every
place for the arithmetic right shift. v.shl, v.shr and v.sra set no flag, and each lane of their result is that of its
operation on the lanes of A and B. (Rules: R119.) -/
def Obligations.ShiftCounts : Prop :=
  (∀ a c : Nat, a < 2 ^ 32 →
    (c < 32 → opLogic 0x1B a c = a * 2 ^ c % 2 ^ 32 ∧ opLogic 0x1C a c = a / 2 ^ c
      ∧ toSigned (opLogic 0x1D a c) 32 = toSigned a 32 / (2 ^ c : Nat))
    ∧ (32 ≤ c → opLogic 0x1B a c = 0 ∧ opLogic 0x1C a c = 0
      ∧ opLogic 0x1D a c = (if toSigned a 32 < 0 then 2 ^ 32 - 1 else 0)))
  ∧ ∀ (e : VEnv) (a b c : Vec) (st : List Vec), e.f.op = 0x1B ∨ e.f.op = 0x1C ∨ e.f.op = 0x1D →
      (vCompute e a b c st).flags = 0
      ∧ ∀ j, j < 128 → (0, j, opLogic e.f.op (lane a j) (lane b j) % 2 ^ 32, mark a j || mark b j)
          ∈ (vCompute e a b c st).regs

/-- O35, tier 2. v.perm and v.shuf: which lane each lane of the result takes, and the poison of an index. v.perm: lane j of
the result is the lane of A that lane j of B names below 128, and 0 for any greater index; it is marked where the lane it
takes or any lane of B is (Table 10-4). v.shuf: lane j takes the lane
of Table 9-7 for each of the five patterns; a pattern of 5 to 7, or a butterfly k above 6, breaks the encoding of the
slot and faults at issue. (Rules: R216, R217.) -/
def Obligations.LaneMoves : Prop :=
  (∀ (a b : Vec) (j : Nat), j < 128 →
    lane (opPerm a b) j = (if lane b j < 128 then lane a (lane b j) else 0)
    ∧ mark (opPerm a b) j = ((decide (lane b j < 128) && mark a (lane b j)) || (List.range 128).any (mark b)))
  ∧ (∀ (e : VEnv) (a b : Vec) (j : Nat), j < 128 →
      let k := bits e.f.imm 0 7
      let r := lane (opShuf e a b) j
      (bits e.f.imm 8 3 = 0 → r = lane a (Nat.xor j (2 ^ k)))
      ∧ (bits e.f.imm 8 3 = 1 → r = lane a ((j + k) % 128))
      ∧ (bits e.f.imm 8 3 = 2 → r = (if j % 2 = 0 then lane a (j / 2) else lane b (j / 2)))
      ∧ (bits e.f.imm 8 3 = 3 → r = (if j % 2 = 0 then lane a (64 + j / 2) else lane b (64 + j / 2)))
      ∧ (bits e.f.imm 8 3 = 4 → r = (if j < 64 then lane a (2 * j) else lane b (2 * (j - 64) + 1))))
  ∧ ∀ (s level : Nat) (vb : Bool), (vf s).op = 0x22 →
      (5 ≤ bits (vf s).imm 8 3 ∨ (bits (vf s).imm 8 3 = 0 ∧ 6 < bits (vf s).imm 0 7)) → vEncBad s level vb = true

/-- O36, tier 2. v.cmpr packs the active lanes with their positions, and v.expd puts them back. v.cmpr, with the active
lanes those whose lane of B is not 0, P the low 22 bits of lane 0 of vC and n their number: register vD holds the active
lanes of A in ascending order and 0 from lane n on; vD+1 their positions (P + lane) mod 2^22 and 0xFFFFFFFF from lane n
on; lane 0 of vD+2 holds n and no other lane of vD+2 is written; OVF exactly when P + lane reaches 2^22 for an active
lane. v.cmpr with D above 29 breaks the encoding. v.expd: lane k receives the lane of A with the lowest number whose
lane of B is not 0xFFFFFFFF and is P + k, and 0 where there is none. (Rules: R218, R219.) -/
def Obligations.CompressAndExpand : Prop :=
  (∀ (a b c : Vec),
    let act := (List.range 128).filter (fun i => lane b i != 0)
    let p := lane c 0 % 2 ^ 22
    let out := opCmpr a b c
    (∀ i x, act[i]? = some x → (∃ m, (0, i, lane a x, m) ∈ out.regs) ∧ (∃ m, (1, i, (p + x) % 2 ^ 22, m) ∈ out.regs))
    ∧ (∀ i, i < 128 → act.length ≤ i → (∃ m, (0, i, 0, m) ∈ out.regs) ∧ (∃ m, (1, i, 0xFFFFFFFF, m) ∈ out.regs))
    ∧ (∃ m, (2, 0, act.length, m) ∈ out.regs) ∧ (∀ r ∈ out.regs, r.1 = 2 → r.2.1 = 0)
    ∧ out.flags = (if ∃ x ∈ act, 2 ^ 22 ≤ p + x then flagOvf else 0))
  ∧ (∀ (s level : Nat) (vb : Bool), (vf s).op = 0x26 → 29 < (vf s).d → vEncBad s level vb = true)
  ∧ (∀ (a b c : Vec) (k : Nat), k < 128 →
    let p := lane c 0 % 2 ^ 22
    let names := fun (i : Nat) => i < 128 ∧ lane b i ≠ 0xFFFFFFFF ∧ lane b i = p + k
    (∀ i, names i → (∀ j, j < i → ¬ names j) → lane (opExpd a b c) k = lane a i)
    ∧ ((∀ i, ¬ names i) → lane (opExpd a b c) k = 0))

/-- O37, tier 2. In normal mode v.rsum is the seven-level tree of adjacent pairs, in both types. For every 128 lanes: with
level 0 the lanes, and node i of each later level formed from nodes 2i and 2i + 1 of the level before (a TB32 node
rounds once to nearest, an HN32 node wraps or saturates under SAT), v.rsum of a task that is not Canonical delivers node
0 of level 7, and writes it into lane IDX of vD alone. (Rules: R220.) -/
def Obligations.SumTree : Prop :=
  ∀ (e : VEnv) (a b c : Vec) (st : List Vec), e.canonical = false → e.f.op = 0x30 →
    let node := fun (x y : Nat) =>
      if e.f.ty = 1 then (hnResult e.f.sat (toSigned x 32 + toSigned y 32)).1 else (tb2 x y .near Ex.add).1
    let level := fun (n : Nat) => Nat.rec (motive := fun _ => Nat → Nat) (fun j => lane a j)
      (fun _ below i => node (below (2 * i)) (below (2 * i + 1))) n
    (vCompute e a b c st).regs = [(0, e.f.idx, level 7 0, (List.range 128).any (mark a))]

/-- O38, tier 2. An exact sum does not depend on the order of what it adds. For any two orders of the same 128 lanes, v.rsum
of a Canonical task delivers the same code and flags, and what v.xadd adds to its accumulator is the same; and two adds
that reach an accumulator in either order leave the same value V and the same VOID. (Rests on:
spec/05_stops_and_exact_sums.md, spec/09_vector_engine.md.) -/
def Obligations.ExactSumsCommute : Prop :=
  (∀ (e : VEnv) (a b : Vec), e.canonical = true → a.length = 128 → a.Perm b → opRsum e a = opRsum e b)
  ∧ (∀ l m : List XAdd, l.Perm m → xaddSum l = xaddSum m)
  ∧ (∀ (x : XAcc) (p q : XAdd), ((x.addX p).addX q).v = ((x.addX q).addX p).v
      ∧ ((x.addX p).addX q).void = ((x.addX q).addX p).void)

/-- O39, tier 2. The 80 B image of an accumulator carries V, VOID and RANGE_LOST, and a foreign image sets VOID alone. The
image of an accumulator is 80 B with FORMAT 1, V in two's complement in its low 576 bits, VOID in bit 576 and RANGE_LOST
in bit 577, least significant byte first. Adding the image of y to x adds the two values exactly (RANGE_LOST also when
the sum leaves the range) and ORs VOID and RANGE_LOST. An image with another FORMAT sets VOID, and keeps V and
RANGE_LOST. (Rules: R141.) -/
def Obligations.AccumulatorReadOut : Prop :=
  (∀ x : XAcc, x.image.length = 80 ∧ bits (leNat x.image) 0 576 = x.v.toNat ∧ bitAt (leNat x.image) 576 = x.void
    ∧ bitAt (leNat x.image) 577 = x.lost ∧ bits (leNat x.image) 578 6 = 0 ∧ bits (leNat x.image) 584 8 = 1
    ∧ bits (leNat x.image) 592 48 = 0)
  ∧ (∀ (x y : XAcc) (m : Bool),
    let z := x.addX (imageAdd y.image m)
    z.v = x.v + y.v ∧ z.void = (x.void || y.void)
    ∧ z.lost = (x.lost || y.lost || decide (x.v.toInt + y.v.toInt < -(2 ^ 575 : Int))
        || decide ((2 ^ 575 : Int) ≤ x.v.toInt + y.v.toInt)))
  ∧ (∀ (x : XAcc) (bs : List (BitVec 8)) (m : Bool), bits (leNat bs) 584 8 ≠ 1 →
    let z := x.addX (imageAdd bs m)
    z.v = x.v ∧ z.void = true ∧ z.lost = x.lost)

/-- O40, tier 2. TASK_BIND, CTX_SAVE and CTX_RESTORE: checked whole, then done whole. Each completes as a started command.
TASK_BIND: where a check of Table 18-5 fails it is answered with that check's status (DETAIL RULE, or SUPERSEDED under
R456) and no task or core changes; where all pass, the slot is BOUND to the cores, level, mode and seed of the image and
the command is decided OK, unless an input buffer holds a poisoned word: then FAULTED, and the slot is UNBOUND. CTX_SAVE
of a YIELDED or FAULTED task with room for the record writes the record and is decided OK; otherwise it is refused.
CTX_RESTORE: where the record is refused, by its status, no task or core changes; else the record is loaded, the task is
YIELDED with its beats, and the command is decided OK. (Rests on: spec/18_images_and_tasks.md,
spec/17_contract_level2.md, spec/20_chanter_mailboxes.md.) -/
def Obligations.BindAndContexts : Prop :=
  ∀ (s : State) (mb : Nat), mb < 16 →
    let m := s.dev.mbx mb
    let t := m.slot
    let d := s.dev.onMbx mb (fun m => { m with ran := true })
    let refused := fun (e : Device) (status : Nat) =>
      e.tasks = s.dev.tasks ∧ e.cores = s.dev.cores
        ∧ (e.answered mb status 9 = true ∨ (status = 3 ∧ e.answered mb 2 0 = true))
    (s.dev.runs mb 0x20 = true →
      match d.bindCheck t (m.body 8 8) (m.body 16 8) with
      | (.inl status, _) => Completes (.taskBind mb) s (fun e => refused e status)
      | (.inr (_, g, v), _) => Completes (.taskBind mb) s (fun e =>
          ((e.task t).state = 1 ∧ (e.task t).cores = v.cores ∧ (e.task t).level = g.level
              ∧ (e.task t).canonical = (g.mode == 1) ∧ (e.task t).seed = BitVec.ofNat 64 g.seed ∧ e.answered mb 0 0 = true)
            ∨ (e.task t = Task.reset ∧ e.answered mb 6 0 = true)))
    ∧ (s.dev.runs mb 0x24 = true →
      let n := 4096 + 40960 * (s.dev.task t).cores.length
      (((s.dev.task t).state = 3 ∨ (s.dev.task t).state = 5) → n ≤ m.body 16 4 → s.dev.devOk (m.body 8 8) n = true →
        Becomes (.ctxSave mb) s (((d.contextRecord t).2.devWrite (m.body 8 8) (d.contextRecord t).1).outcome mb 0 0 []))
      ∧ (((s.dev.task t).state ≠ 3 ∧ (s.dev.task t).state ≠ 5) ∨ m.body 16 4 < n ∨ s.dev.devOk (m.body 8 8) n = false →
        Completes (.ctxSave mb) s (fun e => refused e 3 ∧ e.dram = s.dev.dram ∧ e.staging = s.dev.staging)))
    ∧ (s.dev.runs mb 0x25 = true →
      match d.restoreBad t (m.body 8 8) with
      | some status => Completes (.ctxRestore mb) s (fun e => e.tasks = s.dev.tasks ∧ e.cores = s.dev.cores
          ∧ (status ≠ 6 → refused e status) ∧ (status = 6 → e.answered mb 6 0 = true))
      | none => Completes (.ctxRestore mb) s (fun e => e.answered mb 0 0 = true
          ∧ e.tasks = (d.restore t (m.body 8 8)).tasks ∧ e.cores = (d.restore t (m.body 8 8)).cores
          ∧ (e.task t).state = 3 ∧ bitAt (e.task t).flagWord 2 = true))

/-- O41, tier 2. TOPO_SET, DRONE_ROLE, PLAN_SET and HOST_COPY take what they are given, or refuse it whole. Each completes
as a started command. TOPO_SET with no task bound and a block that breaks no rule sets the device number, manager,
device map and routes; a block that breaks one, or a bound task, leaves the fabric. DRONE_ROLE with no task bound sets
role, masks and offset, puts an aligned device back to aligning and keeps its numbers; a role above 2 or an offset
beyond 100,000 ps is refused. PLAN_SET under the base plan holds the plan that the parts build, and puts none in force.
HOST_COPY of 0 bytes is decided OK at once, one of more bytes to or from a place that exists begins to move them, one from
a package that attaches is answered BUSY, and one with a direction above 1 is refused. (Rests on: spec/20_chanter_mailboxes.md, spec/02_beats_and_drone.md, spec/13_fabric_links.md.) -/
def Obligations.ConfigurationCommands : Prop :=
  ∀ (s : State) (mb : Nat), mb < 16 →
    let m := s.dev.mbx mb
    let d := s.dev.onMbx mb (fun m => { m with ran := true })
    let refused := fun (e : Device) => e.answered mb 3 9 = true ∨ e.answered mb 2 0 = true
    (s.dev.runs mb 0x03 = true → s.dev.anyBound = false → m.body 8 4 = 8704 → s.dev.devOk (m.body 0 8) 8704 = true →
      let bs := (d.devRead (m.body 0 8) 8704).1.map (·.1)
      (d.topoBad bs = true → Completes (.topoSet mb) s (fun e => refused e ∧ e.fabric.map = s.dev.fabric.map
        ∧ e.fabric.routes = s.dev.fabric.routes ∧ e.fabric.device = s.dev.fabric.device))
      ∧ (d.topoBad bs = false → Completes (.topoSet mb) s (fun e => e.answered mb 0 0 = true ∧ e.fabric.topoSet = true
        ∧ e.fabric.device = some (bits (fieldLe bs 0 8) 0 12)
        ∧ e.fabric.manager = (if bitAt (fieldLe bs 0 8) 31 then some (bits (fieldLe bs 0 8) 16 12) else none)
        ∧ (∀ n, n < 4096 → Sparse.get 0 e.fabric.routes n = topoRoute bs n))))
    ∧ (s.dev.runs mb 0x03 = true → s.dev.anyBound = true → Completes (.topoSet mb) s (fun e => refused e
        ∧ e.fabric.map = s.dev.fabric.map ∧ e.fabric.routes = s.dev.fabric.routes))
    ∧ (s.dev.runs mb 0x04 = true → s.dev.anyBound = false → m.body 0 1 ≤ 2 → d.maskBad (m.body 8 8) = false →
      d.maskBad (m.body 16 8) = false → (m.body 0 1 = 1 → m.body 8 8 = 0) → (m.body 0 1 = 2 → m.body 16 8 = 0) →
      -100000 ≤ toSigned (m.body 4 4) 32 → toSigned (m.body 4 4) 32 ≤ 100000 →
      Completes (.droneRole mb) s (fun e => e.drone.role = m.body 0 1 ∧ e.drone.rootMask = m.body 8 8
        ∧ e.drone.standbyMask = m.body 16 8 ∧ e.drone.offsetPs = toSigned (m.body 4 4) 32
        ∧ (s.dev.beat.aligned = true → s.dev.drone.realign ≠ 2 → e.drone.st = 1)
        ∧ e.answered mb 0 0 = true ∧ e.cores = s.dev.cores ∧ e.tasks = s.dev.tasks))
    ∧ (s.dev.runs mb 0x04 = true →
      (2 < m.body 0 1 ∨ toSigned (m.body 4 4) 32 < -100000 ∨ 100000 < toSigned (m.body 4 4) 32) →
      Completes (.droneRole mb) s (fun e => refused e ∧ e.drone = s.dev.drone))
    ∧ (s.dev.runs mb 0x31 = true → s.dev.fabric.planOn = false → s.dev.devOk (m.body 0 8) (m.body 8 4) = true →
      match parsePlan (m.body 8 4 + 1) ((d.devRead (m.body 0 8) (m.body 8 4)).1.map (·.1)) with
      | none => Completes (.planSet mb) s (fun e => refused e ∧ e.fabric.newPlan = s.dev.fabric.newPlan)
      | some l =>
        match d.buildPlan (l ++ ((bitsOf 8 (m.body 12 1)).filter d.isBound).flatMap (fun t => (d.task t).plan)) with
        | none => Completes (.planSet mb) s (fun e => refused e ∧ e.fabric.newPlan = s.dev.fabric.newPlan)
        | some x => Completes (.planSet mb) s (fun e => e.answered mb 0 0 = true ∧ e.fabric.newPlan = some x
            ∧ e.fabric.planOn = false ∧ e.fabric.ports = s.dev.fabric.ports))
    ∧ (s.dev.runs mb 0x62 = true → s.dev.twin.role = 2 → Completes (.hostCopy mb) s (fun e => e.answered mb 1 0 = true))
    ∧ (s.dev.runs mb 0x62 = true → s.dev.twin.role ≠ 2 → 1 < m.hcDir →
      Completes (.hostCopy mb) s (fun e => e.answered mb 3 9 = true ∧ e.dram = s.dev.dram ∧ e.staging = s.dev.staging))
    ∧ (s.dev.runs mb 0x62 = true → s.dev.twin.role ≠ 2 → m.hcDir ≤ 1 →
      (rzSpace m.hcDev = 1 ∨ rzSpace m.hcDev = 2) → (m.hcDir = 1 → rzDev m.hcDev = s.dev.devNum) →
      d.hostDevOk m.hcDev m.hcLen = true →
      (m.hcDir = 0 → rzDev m.hcDev = s.dev.devNum → d.hostBarred (rzSpace m.hcDev) (rzOff m.hcDev) m.hcLen = false) →
      (m.hcLen = 0 → Completes (.hostCopy mb) s (fun e => e.answered mb 0 0 = true ∧ e.dram = s.dev.dram
        ∧ e.staging = s.dev.staging))
      ∧ (m.hcLen ≠ 0 → Becomes (.hostCopy mb) s
          ((d.onMbx mb (fun x => { x with copyLeft := some (0, m.hcLen) })).hostCopyFlow mb)))

/-- O42, tier 2. TWIN_ATTACH and the role events: who is SOLO, STANDBY, ATTACHING, JOINING, PRIMARY, SHADOW or MUTED. Each
completes, and each change of role is recorded as TWIN_ROLE. TWIN_ATTACH by a SOLO package with a ready partner, S_JOIN
at least 4,096 schedule beats ahead and MAX_STALL of 1 to 3,000 makes it ATTACHING; outside that it is refused and the
role stays. Seat 1 waits for its role: the timeout makes it SOLO, the rise of TWIN_PEER_ALIVE makes it STANDBY. The fall
makes a PRIMARY or SHADOW SOLO, ends an attach, and puts a JOINING package back to STANDBY. A mute cause makes a package
of a pair MUTED, with TWIN_ALIVE and TWIN_TX_EN low; so does the loss of the twin link in a shadow, with cause 3. At the
join beat the live package is PRIMARY and the joining one SHADOW. An abandoned attach leaves SOLO and STANDBY. The twin
repair window asks for the words that are due and changes no memory. (Rests on: spec/22_twin_pairing.md,
spec/20_chanter_mailboxes.md.) -/
def Obligations.TwinRoles : Prop :=
  let is := fun (e : Device) (role : Nat) => e.twin.role = role ∧ e.pins.twinAlive = (role != 6)
    ∧ e.pins.twinTxEn = (role == 0 || role == 4)
  (∀ (s : State) (mb : Nat), mb < 16 → s.dev.runs mb 0x60 = true →
    let m := s.dev.mbx mb
    let ok := s.dev.twin.role = 0 ∧ s.dev.twin.roleKnown = true ∧ s.dev.partnerReady = true
      ∧ s.dev.beat.s + 4096 ≤ m.body 0 8 ∧ 1 ≤ m.body 8 2 ∧ m.body 8 2 ≤ 3000
    (ok → Completes (.twinAttach mb) s (fun e => is e 2 ∧ e.twin.attach = some (m.body 0 8, m.body 8 2, mb)
      ∧ e.cores = s.dev.cores ∧ e.tasks = s.dev.tasks))
    ∧ (¬ ok → Completes (.twinAttach mb) s (fun e => e.twin.role = s.dev.twin.role
        ∧ (e.answered mb 3 9 = true ∨ e.answered mb 2 0 = true))))
  ∧ (∀ s : State, s.dev.seatWaits = true → s.dev.pins.peerAlive = false →
      Completes .twinSeatTimeout s (fun e => is e 0 ∧ e.twin.roleKnown = true ∧ e.lastRecord = some (0x0007, 0, 0, 0)))
  ∧ (∀ s : State, Completes .twinPeerAliveRise s (fun e => e.pins.peerAlive = true
      ∧ (if s.dev.seatWaits then is e 1 ∧ e.lastRecord = some (0x0007, 0, 0, 0) else e.twin = s.dev.twin)))
  ∧ (∀ s : State, Completes .twinPeerAliveFall s (fun e => e.pins.peerAlive = false
      ∧ (s.dev.twin.role = 4 ∨ s.dev.twin.role = 5 → is e 0 ∧ e.cores = s.dev.cores ∧ e.tasks = s.dev.tasks)
      ∧ (s.dev.twin.role = 5 → s.dev.beat.aligned = true → s.dev.beat.w ∈ e.hold.votes)
      ∧ (s.dev.twin.role = 2 → is e 0 ∧ e.twin.attach = none) ∧ (s.dev.twin.role = 3 → is e 1)
      ∧ (s.dev.twin.role = 0 ∨ s.dev.twin.role = 1 ∨ s.dev.twin.role = 6 → e.twin = s.dev.twin)))
  ∧ (∀ s : State, s.dev.inPair = true → s.dev.twin.muteReq ≠ 0 →
      Completes .twinMute s (fun e => is e 6 ∧ e.twin.muteCause = s.dev.twin.muteReq ∧ e.pins.serdesIdle = true))
  ∧ (∀ s : State, s.dev.twin.role = 5 → (4 ≤ s.dev.twin.noCtl ∧ s.dev.pins.peerAlive = true) ∨ 16 ≤ s.dev.twin.missDecide →
      Completes .twinLinkLoss s (fun e => is e 6 ∧ e.twin.muteCause = 3))
  ∧ (∀ s : State, s.dev.twin.role = 2 → s.dev.joinBeat = true → Completes .twinJoin s (fun e => is e 4 ∧ e.twin.attach = none))
  ∧ (∀ s : State, s.dev.twin.role = 3 → Completes .twinJoin s (fun e => is e 5 ∧ e.dram = s.dev.dram ∧ e.staging = s.dev.staging))
  ∧ (∀ s : State, s.dev.twin.role = 3 → Completes .twinAttachAbandon s (fun e => is e 1))
  ∧ (∀ s : State, s.dev.twin.role = 2 → (s.dev.twinLinkDown = true ∨ s.dev.pins.peerAlive = false) →
      Completes .twinAttachAbandon s (fun e => is e 0 ∧ e.twin.attach = none))
  ∧ (∀ (s : State) (join stall mb : Nat), s.dev.twin.role = 2 → s.dev.twin.attach = some (join, stall, mb) →
      join + 8192 < s.dev.gate.e + 1 → s.dev.twinLinkDown = false → s.dev.pins.peerAlive = true →
      Completes .twinAttachAbandon s (fun e => is e 0 ∧ e.twin.attach = none ∧ e.answered mb 1 0 = true))
  ∧ (∀ s : State, s.dev.inPair = true → Completes .twinScrubRepair s (fun e => e.twin.repairDue = []
      ∧ e.twin.repairs = s.dev.twin.repairs.filter s.dev.stillMarked ∧ e.dram = s.dev.dram ∧ e.staging = s.dev.staging
      ∧ e.cores = s.dev.cores))

/-- O43, tier 2. The records of the twin stream act in the role that takes them. Each completes. In a shadow: DECIDE is
held, word by word, and acknowledged, and the count of missed ones restarts; COMMAND is PENDING with the arrival beat of
the record and acknowledged; HOST_IN and VALUE wait for their points; FILL replaces the failed copy of its slot. In a
primary: ACK is held, or lets a command go its way; READY is held with its CRC; MISSED is answered with a good copy. In
a pair DIGEST is compared, a FAULT of the partner is held or, where it is of a link, stops the task here too, a COPY
without bytes asks for a word, and one with the bytes of a word that awaits repair mends it. A FAULT ends an attach. In a
joining package COPY stores state of the live package at its address; a COPY or STEER makes a STANDBY package JOINING.
STEER is held by a shadow. A command piece in MBOX14 goes to mailbox 14, and a response leaves no state. A record that reaches a package of a role that does not take it changes nothing. (Rests on:
spec/22_twin_pairing.md, spec/19_determinism.md.) -/
def Obligations.TwinRecords : Prop :=
  (∀ (r : TwinRec) (s : State), s.dev.twin.role = 5 → s.dev.hasPort (auxPort r) = true → auxPos r % 16 = 0 →
    Completes (.twDecide r) s (fun e => e.twin.missDecide = 0 ∧ e.twin.outbox.length = s.dev.twin.outbox.length + 1
      ∧ (∀ i, i < 16 → ({ port := auxPort r, w := r.beat, pos := auxPos r + i,
                          word := BitVec.ofNat 64 (fieldLe r.data (8 * i) 8) } : Decision) ∈ e.twin.decisions
          ∨ r.beat + 1 < s.dev.beat.w) ∧ e.cores = s.dev.cores ∧ e.fabric = s.dev.fabric))
  ∧ (∀ (r : TwinRec) (s : State), s.dev.twin.role = 4 → auxPort r ≠ 63 →
    Completes (.twAck r) s (fun e => (auxPort r, r.beat, auxPos r) ∈ e.twin.acks ∧ e.hub = s.dev.hub ∧ e.fabric = s.dev.fabric))
  ∧ (∀ (r : TwinRec) (s : State), s.dev.twin.role = 4 → auxPort r = 63 →
    Completes (.twAck r) s (fun e => e.twin.cmds = (if s.dev.twin.cmds.any (fun c => c.1 == auxPos r)
      then s.dev.twin.cmds.filter (fun c => c.1 != auxPos r) else s.dev.twin.cmds)))
  ∧ (∀ (r : TwinRec) (s : State), s.dev.twin.role = 4 →
    Completes (.twReady r) s (fun e => (auxPort r, auxPos r, r.beat, fieldLe r.data 0 4) ∈ e.twin.readyIn))
  ∧ (∀ (r : TwinRec) (s : State), s.dev.twin.role = 5 →
    Completes (.twCommand r) s (fun e => (e.mbx (bits r.aux 0 4)).st = 1 ∧ (e.mbx (bits r.aux 0 4)).arrive = r.beat
      ∧ (e.mbx (bits r.aux 0 4)).twin = true ∧ e.tasks = s.dev.tasks
      ∧ e.twin.outbox.getLast? = (s.dev.twinSend 2 r.beat 0 0xFF (63 + bits r.aux 0 4 * 2 ^ 6) []).twin.outbox.getLast?))
  ∧ (∀ (r : TwinRec) (s : State), s.dev.twin.role = 5 →
    Completes (.twHostIn r) s (fun e => e.twin.hostIn = s.dev.twin.hostIn ++ [(r.beat, fieldLe r.data 0 8, r.data.drop 8)]
      ∧ e = { s.dev with twin := e.twin }))
  ∧ (∀ (r : TwinRec) (s : State), s.dev.twin.role = 5 →
    Completes (.twValue r) s (fun e => (bits r.aux 0 3, bits r.aux 3 4, r.beat, r.sc, r.core, fieldLe r.data 0 4) ∈ e.twin.values
      ∧ e = { s.dev with twin := e.twin }))
  ∧ (∀ (r : TwinRec) (s : State) (x : Nat × Nat × List (BitVec 8)), s.dev.twin.role = 4 → s.dev.hasPort (auxPort r) = true →
    (s.dev.port (auxPort r)).rxSlots.find? (fun y => y.1 == r.beat && y.2.1 == auxPos r) = some x → slotGood x.2.2 = true →
    Becomes (.twMissed r) s (s.dev.twinSend 8 r.beat 0 0xFF (r.aux % 2 ^ 14) x.2.2))
  ∧ (∀ (r : TwinRec) (s : State), s.dev.twin.role = 5 → auxPort r < 32 → s.dev.hasPort (auxPort r) = true →
    slotGood (slice r.data 0 512) = true →
    let p := auxPort r
    let d := s.dev.onPort p (fun q => { q with rxSlots := q.rxSlots.map (fun x =>
      if x.1 == r.beat && x.2.1 == auxPos r then (x.1, x.2.1, slice r.data 0 512) else x) })
    Becomes (.twFill r) s ((d.mendForward p r.beat (auxPos r) (slice r.data 0 512)).fileSlot p r.beat (auxPos r) (slice r.data 0 512)))
  ∧ (∀ (r : TwinRec) (s : State), s.dev.inPair = true →
    Becomes (.twDigest r) s ((s.dev.onTwin (fun w => { w with
      peerDigests := w.peerDigests ++ [(bits r.aux 0 3, r.beat, r.data)] })).compareDigests (bits r.aux 0 3) r.beat))
  ∧ (∀ (r : TwinRec) (s : State), s.dev.inPair = true → bits r.aux 0 16 ≠ 0x0401 →
    let t := bits (fieldLe r.data 16 8) 17 3
    (classOf (bits r.aux 0 16) ≠ 3 → Completes (.twFault r) s (fun e => e.tasks = s.dev.tasks ∧ e.cores = s.dev.cores
      ∧ (classOf (bits r.aux 0 16) = 2 → s.dev.beat.w ∈ e.twin.peerPackage)))
    ∧ (classOf (bits r.aux 0 16) = 3 → (s.dev.task t).state = 2 →
        Completes (.twFault r) s (fun e => (e.task t).stopping = true ∧ e.hub = s.dev.hub ∧ e.twin = s.dev.twin))
    ∧ (classOf (bits r.aux 0 16) = 3 → (s.dev.task t).state ≠ 2 → Completes (.twFault r) s (fun e => e = s.dev)))
  ∧ (∀ (r : TwinRec) (s : State), s.dev.inPair = true → bits r.aux 0 16 = 0x0401 →
    Becomes (.twFault r) s
      (s.dev.peerDiverged (bits (fieldLe r.data 16 8) 17 3) r.beat (fieldLe r.data 0 8) (bits r.aux 16 9)))
  ∧ (∀ (r : TwinRec) (s : State), s.dev.twin.role = 2 →
    Completes (.twFault r) s (fun e => e.twin.role = 0 ∧ e.twin.attach = none ∧ e.tasks = s.dev.tasks))
  ∧ (∀ (r : TwinRec) (s : State), s.dev.twin.role = 1 ∨ s.dev.twin.role = 3 ∨ s.dev.twin.role = 5 →
    Completes (.twSteer r) s (fun e => e.twin.steer = [(r.beat, r.data)] ∧ e.cores = s.dev.cores ∧ e.tasks = s.dev.tasks
      ∧ (s.dev.twin.role = 1 → e.twin.role = 3)))
  ∧ (∀ (r : TwinRec) (s : State), s.dev.twin.role = 3 → rzSpace (fieldLe r.data 0 8) ≠ 0xE →
    Becomes (.twCopy r) s (s.dev.storeState (fieldLe r.data 0 8) (r.data.drop 8)))
  ∧ (∀ (r : TwinRec) (s : State), s.dev.twin.role = 3 → rzSpace (fieldLe r.data 0 8) = 0xE →
    Completes (.twCopy r) s (fun e => e.twin.joinIn = s.dev.twin.joinIn ++ r.data.drop 8 ∧ e = { s.dev with twin := e.twin }))
  ∧ (∀ (r : TwinRec) (s : State), s.dev.twin.role = 1 → Completes (.twCopy r) s (fun e => e.twin.role = 3))
  ∧ (∀ (r : TwinRec) (s : State), s.dev.inPair = true → r.data.drop 8 = [] →
    Becomes (.twCopy r) s (s.dev.sendWord (fieldLe r.data 0 8)))
  ∧ (∀ (r : TwinRec) (s : State) (x : Nat × Nat × Nat), s.dev.inPair = true → r.data.drop 8 ≠ [] →
    s.dev.twin.repairs.find? (fun y => repairAddr y == (fieldLe r.data 0 8, (r.data.drop 8).length)) = some x →
    Becomes (.twCopy r) s ((if s.dev.stillMarked x then s.dev.storeState (fieldLe r.data 0 8) (r.data.drop 8)
      else s.dev).onTwin (fun t => { t with repairs := t.repairs.erase x })))
  ∧ (∀ (off : Nat) (bs : List (BitVec 8)) (last : Bool) (s : State), Completes (.twMbox14 off bs last true) s (fun e => e = s.dev)
    ∧ Becomes (.twMbox14 off bs last false) s (s.dev.takePiece 14 0 (off % 4096) bs last))
  ∧ (∀ (r : TwinRec) (s : State), s.dev.twin.role = 0 ∨ s.dev.twin.role = 6 →
    Completes (.twDecide r) s (fun e => e = s.dev) ∧ Completes (.twAck r) s (fun e => e = s.dev)
    ∧ Completes (.twReady r) s (fun e => e = s.dev) ∧ Completes (.twCommand r) s (fun e => e = s.dev)
    ∧ Completes (.twHostIn r) s (fun e => e = s.dev) ∧ Completes (.twValue r) s (fun e => e = s.dev)
    ∧ Completes (.twMissed r) s (fun e => e = s.dev) ∧ Completes (.twFill r) s (fun e => e = s.dev)
    ∧ Completes (.twDigest r) s (fun e => e = s.dev) ∧ Completes (.twFault r) s (fun e => e = s.dev)
    ∧ Completes (.twSteer r) s (fun e => e = s.dev) ∧ Completes (.twCopy r) s (fun e => e = s.dev))

/-- O44, tier 2. DIE_ATTESTATION, BOOT_FRAME, BOOT_SIGNATURE, STARTUP_STEP, CHANTER_READY, IMAGE_STAGE and IMAGE_COMMIT.
Each completes. A quarter that attests is counted, the last of four opens the flash, and one that fails halts the boot.
BOOT_FRAME takes the next frame of the image, or of the recovery stream, into the buffer. BOOT_SIGNATURE of a signature
that verifies (an opaque check, log 10) loads the frames and begins the start-up steps; of one that does not, the image
fails. Each start-up step counts once. CHANTER_READY after the fourth step clears every scratchpad and starts the
Chanter, that of a recovery stream with another status. IMAGE_STAGE of a LENGTH that no image has is refused, one of
another waits for the host link; it copies the image and stages it, or answers the first failure of its checks with nothing
staged. IMAGE_COMMIT with nothing staged is refused. (Rests on: spec/21_startup.md.) -/
def Obligations.BootRows : Prop :=
  (∀ (q : Nat) (s : State), q < 4 → s.dev.boot.phase = .attest → s.dev.boot.attested.contains q = false →
    Completes (.dieAttestation q true) s (fun e =>
      (s.dev.boot.attested.length < 3 → e.boot.attested = s.dev.boot.attested ++ [q] ∧ e.boot.phase = .attest
        ∧ e.pins = s.dev.pins)
      ∧ (s.dev.boot.attested.length = 3 → e.pins.xspiOn = true))
    ∧ Completes (.dieAttestation q false) s (fun e => e.boot.phase = .halt))
  ∧ (∀ s : State, s.dev.boot.phase = .frames →
    Becomes .bootFrame s (if s.dev.boot.slot = 2 then s.dev.recoveryFrame else s.dev.imageFrame))
  ∧ (∀ s : State, s.dev.boot.phase = .sign → s.dev.boot.slot ≠ 2 →
    let n := s.dev.boot.frame
    let img := s.dev.buffered 0 (512 + 4096 * n)
    let sig := s.dev.flashRead (slotBase s.dev.boot.slot + 512 + 4096 * n) 96
    Completes .bootSignature s (fun e =>
      if signatureOk (img ++ sig) n then
        e.boot.phase = .steps ∧ e.boot.step = 0 ∧ e.boot.run = s.dev.boot.slot ∧ e.boot.header = img.take 512
        ∧ e.boot.personality = sha384 img
      else e.dram = s.dev.dram ∧ e.boot.codeMem = s.dev.boot.codeMem ∧ e.boot.run = s.dev.boot.run))
  ∧ (∀ s : State, s.dev.boot.phase = .sign → s.dev.boot.slot = 2 →
    Completes .bootSignature s (fun e => e.boot.phase = .steps ∧ e.boot.step = 0 ∧ e.boot.run = 2))
  ∧ (∀ s : State, s.dev.boot.phase = .steps → s.dev.boot.step < 4 → Becomes .startupStep s s.dev.bootStep)
  ∧ (∀ s : State, s.dev.boot.phase = .steps → s.dev.boot.step = 4 → s.dev.boot.run ≠ 2 →
    Completes .chanterReady s (fun e => e.boot.phase = .running ∧ e.hub.chanter = 2
      ∧ e.hub.ifMax = hdrField s.dev.boot.header 3840 8 ∧ ∀ c, s.dev.hasCore c = true → (e.core c).spad = Mem.reset))
  ∧ (∀ s : State, s.dev.boot.phase = .steps → s.dev.boot.step = 4 → s.dev.boot.run = 2 →
    Completes .chanterReady s (fun e => e.boot.phase = .recovery ∧ e.hub.chanter = 1 ∧ e.hub.ifMax = 0x20))
  ∧ (∀ (s : State) (mb : Nat), mb < 16 → s.dev.runs mb 0x10 = true → s.dev.host.linkUp = true →
    let n := (s.dev.mbx mb).body 8 4
    let img := s.dev.hostRead ((s.dev.mbx mb).body 0 8) n
    s.dev.lengthBad n = false →
    (∀ status, s.dev.stageBad img = some status → Completes (.imageStage mb) s (fun e =>
      e.boot.staged = none ∧ e.answered mb status 9 = true))
    ∧ (s.dev.stageBad img = none → Completes (.imageStage mb) s (fun e => e.boot.staged = some n
      ∧ (e.mbx mb).outcome = some (0, 0, img.take 512) ∧ e.staging = (s.dev.bufferWrite 0 img).staging)))
  ∧ (∀ (s : State) (mb : Nat), mb < 16 → s.dev.runs mb 0x10 = true → s.dev.lengthBad ((s.dev.mbx mb).body 8 4) = true →
    Completes (.imageStage mb) s (fun e => e.answered mb 3 9 = true ∧ e.boot = s.dev.boot ∧ e.staging = s.dev.staging))
  ∧ (∀ (s : State) (mb : Nat), mb < 16 → s.dev.host.linkUp = false → s.dev.lengthBad ((s.dev.mbx mb).body 8 4) = false →
    Completes (.imageStage mb) s (fun e => e = s.dev))
  ∧ (∀ (s : State) (mb : Nat), mb < 16 → s.dev.runs mb 0x11 = true → s.dev.boot.staged = none →
    Completes (.imageCommit mb) s (fun e => e.boot = s.dev.boot ∧ (e.answered mb 3 9 = true ∨ e.answered mb 2 0 = true)))
  ∧ (∀ (s : State) (mb n : Nat), mb < 16 → s.dev.runs mb 0x11 = true → s.dev.boot.staged = some n →
    (s.dev.mbx mb).body 0 1 ≤ 1 → (s.dev.mbx mb).body 1 1 ≤ 1 →
    Completes (.imageCommit mb) s (fun e => e.boot.staged = none ∧ (e.answered mb 0 0 = true ∨ e.answered mb 6 0 = true)))

/-- O45, tier 1. RESET_ASSERT, RESET_RELEASE, LOSS_OF_POWER and THERMAL_SHUTDOWN: what stops, what is driven, what survives.
Each completes. RESET_N low stops every region and task, idles every SerDes transmitter and DRONE_OUT, drives TWIN_ALIVE
and TWIN_TX_EN low, and leaves the buses undriven; the health log with its INDEX, the fuses and remaps and the flash
survive. Its release samples TWIN_SEAT and SMB_ADDR, and begins start-up. Loss of power also loses the health log and
the remaps that no fuse holds. Thermal shutdown records PACKAGE_FAULT with cause 2, 3 or 4, does the same as RESET_N
low, and turns every rail off but VHUB and VIO. (Rests on: spec/25_pins_and_electrical.md,
spec/23_reliability_and_observation.md.) -/
def Obligations.ResetAndPower : Prop :=
  let stopped := fun (e : Device) =>
    e.beat = Beat.reset ∧ e.cores = [] ∧ e.tasks = [] ∧ e.regions = [] ∧ e.fabric = Fabric.reset ∧ e.twin = Twin.reset
    ∧ e.pins.serdesIdle = true ∧ e.drone.outEdge = false ∧ e.pins.twinAlive = false ∧ e.pins.twinTxEn = false
    ∧ e.pins.xspiOn = false ∧ e.pins.pmbusOn = false
  (∀ s : State, Completes .resetAssert s (fun e => stopped e ∧ e.boot.phase = .inReset ∧ e.pins.resetN = false
    ∧ e.hub.health = s.dev.hub.health ∧ e.hub.healthNext = s.dev.hub.healthNext ∧ e.ident = s.dev.ident
    ∧ e.boot.flash = s.dev.boot.flash ∧ e.host.mem = s.dev.host.mem))
  ∧ (∀ (seat addr : Nat) (s : State), s.dev.boot.phase = .inReset → Completes (.resetRelease seat addr) s (fun e =>
    e.boot.phase = .attest ∧ e.pins.resetN = true ∧ e.pins.twinSeat = seat % 2 ∧ e.pins.smbAddr = addr % 4
    ∧ e.ident.physBuilt = s.dev.ident.physFused ++ s.dev.ident.physHeld ∧ e.hub = s.dev.hub))
  ∧ (∀ (seat addr : Nat) (s : State), s.dev.boot.phase ≠ .inReset → Completes (.resetRelease seat addr) s (fun e => e = s.dev))
  ∧ (∀ s : State, Completes .lossOfPower s (fun e => stopped e ∧ e.boot.phase = .inReset ∧ e.pins.powerGood = false
    ∧ e.hub = Hub.reset ∧ e.ident.physHeld = [] ∧ e.dram = Mem.reset ∧ e.boot.flash = s.dev.boot.flash))
  ∧ (∀ (n : Nat) (s : State), n < 5 ∨ (5 ≤ n ∧ s.dev.grade.hasStack (n - 5) = true) → s.dev.boot.phase ≠ .inReset → s.dev.boot.phase ≠ .shutdown →
    Completes (.thermalShutdown n) s (fun e => stopped e ∧ e.boot.phase = .shutdown
      ∧ (∀ r, r < 26 → (r ∈ e.pins.railsOff ↔ r ≠ 5 ∧ r ≠ 6))
      ∧ e.hub.healthNext = s.dev.hub.healthNext + 1
      ∧ e.hub.health.head?.map (fun r => (r.code, r.cause))
          = some (0x0205, if n = 0 then 4 else if n ≤ 4 then 2 else 3)))

/-- O46, tier 1. The JTAG instructions: BYPASS, IDCODE, SAMPLE/PRELOAD, EXTEST, CLAMP and HIGHZ. Each completes, and changes
the test access port alone. BYPASS captures 0 (log 23). IDCODE captures 0x19400B47 on stepping B0 (bits [31:28] hold the
stepping's letter). SAMPLE/PRELOAD captures the boundary register, whose order the spec does not state: a free value
(log 2), drawn. EXTEST, CLAMP and HIGHZ are in force only while RESET_N is low, and act as BYPASS at any other time.
(Rests on: spec/25_pins_and_electrical.md.) -/
def Obligations.TestPort : Prop :=
  let only := fun (s : State) (e : Device) (i : Jtag) (dr : Nat) =>
    e = { s.dev with pins := { s.dev.pins with jtagIr := i, jtagDr := dr }, free := e.free }
  ∀ s : State,
    Completes .bypass s (fun e => only s e .bypass 0)
    ∧ (s.dev.ident.stepping = 0x10 → Completes .idcode s (fun e => only s e .idcode 0x19400B47))
    ∧ Completes .idcode s (fun e => e.pins.jtagIr = .idcode ∧ bits e.pins.jtagDr 0 28 = 0x9400B47
        ∧ bits e.pins.jtagDr 28 4 = bits s.dev.ident.stepping 4 4)
    ∧ Completes .samplePreload s (fun e => only s e .samplePreload (Config.freeNat s.dev.free) ∧ e.free = s.dev.free + 1)
    ∧ (s.dev.pins.resetN = true → Completes .extest s (fun e => only s e .bypass 0)
        ∧ Completes .clamp s (fun e => only s e .bypass 0) ∧ Completes .highz s (fun e => only s e .bypass 0))
    ∧ (s.dev.pins.resetN = false → Completes .extest s (fun e => only s e .extest (Config.freeNat s.dev.free))
        ∧ Completes .clamp s (fun e => only s e .clamp 0) ∧ Completes .highz s (fun e => only s e .highz 0))

/-- O47, tier 2. YIELD_POINT, YIELD_OVERDUE, BUNDLE_WAIT_OVERDUE and TASK_FAULTED: where a task yields, goes on, stops or
faults. Each completes. At the end of a beat in which cores of a task issued ct.yield: if a core of it did not, the task
stops with CONTRACT_VIOLATION for the lowest such core; outside a pair, with a TASK_STOP registered and no copy in
flight the slot is UNBOUND; with a YIELD_REQ due it is YIELDED, its cores keep the next index and run it no more, and
the beat counts as run; otherwise it goes on, with the beat as its last yield point. Where no yield point is due nothing
changes. A task 4,096 schedule beats past its last yield point, and one whose bundle has waited 4,096 wall beats, stops
with WATCHDOG. A stopping task first ends the sc in which it stops; with nothing in flight it is then FAULTED, and its
cores run it no more. (Rests on: spec/18_images_and_tasks.md, spec/06_core.md, spec/23_reliability_and_observation.md.) -/
def Obligations.TaskEvents : Prop :=
  (∀ (s : State) (t : Nat), t < 8 →
    let d := s.dev
    let k := d.task t
    (d.yieldDue t = false → Becomes (.yieldPoint t) s d)
    ∧ (∀ c, d.yieldDue t = true → c < 144 → c ∈ k.cores → (d.core c).yielded = false →
        (∀ x, x < c → x ∈ k.cores → (d.core x).yielded = true) →
        Completes (.yieldPoint t) s (fun e => e.lastRecord = some (0x0102, 2, 1, c) ∧ (e.task t).stopping = true
          ∧ (e.task t).state = 2))
    ∧ (d.yieldDue t = true → (∀ c, c < 144 → c ∈ k.cores → (d.core c).yielded = true) → d.inPair = false →
        (k.stopReg = false → k.yieldsAt d.gate.e = false → Completes (.yieldPoint t) s (fun e =>
          (e.task t).state = 2 ∧ (e.task t).stopping = false ∧ (e.task t).lastYield = d.gate.e ∧ (e.task t).consumed = none
            ∧ ∀ c ∈ k.cores, (e.core c).yielded = false ∧ (e.core c).running = (d.core c).running))
        ∧ (k.stopReg = false → k.yieldsAt d.gate.e = true → Completes (.yieldPoint t) s (fun e =>
          (e.task t).state = 3 ∧ (e.task t).yieldS = none ∧ (e.task t).runBeats = k.runBeats + 1
            ∧ (e.task t).lastYield = d.gate.e
            ∧ ∀ c ∈ k.cores, (e.core c).running ≠ some t ∧ Sparse.get 0 (e.core c).resume t = (d.core c).pc))
        ∧ (k.stopReg = true → Completes (.yieldPoint t) s (fun e =>
          e.inFlight t = false → (e.task t).stopping = false → e.task t = Task.reset))
        ∧ (k.stopReg = true → (∀ c ∈ k.cores, (d.core c).issue = none ∧ ∀ x ∈ (d.core c).copies, x.slot ≠ t) →
          Completes (.yieldPoint t) s (fun e => e.task t = Task.reset)))
    ∧ (d.overdue t = true → d.yieldDue t = false → Completes (.yieldOverdue t) s (fun e =>
        e.lastRecord = some (0x010A, 1, 0, 0) ∧ (e.task t).stopping = true))
    ∧ (d.overdue t = false → Becomes (.yieldOverdue t) s d)
    ∧ (k.stopping = true →
        let q := d.closeScs t
        (q.inFlight t = false → (q.task t).stopReg = false → Completes (.taskFaulted t) s (fun e =>
          (e.task t).state = 5 ∧ (e.task t).stopping = false ∧ (e.task t).startS = none
            ∧ ∀ c ∈ (q.task t).cores, (e.core c).running ≠ some t))
        ∧ (q.inFlight t = true → Becomes (.taskFaulted t) s q))
    ∧ (k.stopping = false → Becomes (.taskFaulted t) s d))
  ∧ (∀ (s : State) (c t kind w0 : Nat), s.dev.hasCore c = true → (s.dev.core c).running = some t →
      (s.dev.core c).wait = some (kind, w0) → (s.dev.task t).stopping = false →
      (w0 + 4096 ≤ s.dev.beat.w → (s.dev.task t).state ≠ 5 → Completes (.bundleWaitOverdue c) s (fun e =>
        e.lastRecord = some (0x010A, 0, 1, c) ∧ (e.task t).stopping = true))
      ∧ (s.dev.beat.w < w0 + 4096 → Becomes (.bundleWaitOverdue c) s s.dev))

/-- O48, tier 2. TASK_START_EFFECT, PLAN_STOP_EFFECT, PLAN_START_EFFECT, SNAPSHOT_LATCH and POWER_POLICY_EFFECT. Each
completes at its moment. A BOUND task whose start is due is RUNNING with its cores Active: each runs the slot from
bundle 0 with registers 0 and an open beat, and the task counts no beat; a YIELDED one goes on with the index its core
kept. Four beats after S_STOP the base plan runs, on every port; at S_START the new plan, or else the stopped one, is in
force on every fabric port that is up, and LOCAL data is served from S_START on. At W_SNAP the shadows hold the counters
and words of the edge. A policy due takes effect, but one that asks for Parked where the device may not be is SUPERSEDED
and changes nothing. The command behind each completes OK. (Rests on: spec/18_images_and_tasks.md,
spec/13_fabric_links.md, spec/23_reliability_and_observation.md, spec/24_power_metering_identity.md.) -/
def Obligations.RegisteredEffects : Prop :=
  (∀ (s : State) (t : Nat), t < 8 → s.dev.startDue t = true → (∀ c ∈ (s.dev.task t).cores, (s.dev.core c).power.state = 0) →
    let d := s.dev
    let k := d.task t
    let runs := fun (e : Device) => (e.task t).state = 2 ∧ (e.task t).startS = none
      ∧ (e.task t).lastYield = k.startS.getD 0 - 1
      ∧ (∀ mb, k.startMb = some mb → e.answered mb 0 0 = true)
      ∧ (∀ c ∈ k.cores, (e.core c).running = some t ∧ (e.region c).count = 0 ∧ (e.region c).finished = false)
    (k.state = 1 → Completes (.taskStartEffect t) s (fun e => runs e ∧ (e.task t).runBeats = 0
      ∧ ∀ c ∈ k.cores, (e.core c).pc = 0 ∧ (e.core c).lanes = [] ∧ (e.core c).ptrs = [] ∧ (e.core c).xa = []
          ∧ (e.core c).loops = [] ∧ Sparse.get 0 (e.core c).flags t = 0))
    ∧ (k.state = 3 → Completes (.taskStartEffect t) s (fun e => runs e ∧ (e.task t).runBeats = k.runBeats)))
  ∧ (∀ (s : State) (t : Nat), t < 8 → s.dev.startDue t = false → Becomes (.taskStartEffect t) s s.dev)
  ∧ (∀ (s : State) (x mb : Nat), s.dev.fabric.stopS = some (x, mb) → s.dev.fabric.stopDone = true → x + 4 ≤ s.dev.beat.s →
      Completes .planStopEffect s (fun e => e.fabric.planOn = false ∧ e.fabric.planSlots = [] ∧ e.fabric.stopS = none
        ∧ (∀ p, s.dev.hasPort p = true → (e.port p).inPlan = false) ∧ e.answered mb 0 0 = true))
  ∧ (∀ (s : State) (x mb : Nat), s.dev.fabric.startS = some (x, mb) → x ≤ s.dev.beat.s → s.dev.fabric.stopS = none →
      let plan := (if s.dev.fabric.newPlan.isSome then s.dev.fabric.newPlan else s.dev.fabric.oldPlan).getD []
      Completes .planStartEffect s (fun e => e.fabric.planOn = true ∧ e.fabric.localFrom = x ∧ e.fabric.startS = none
        ∧ (∀ p, s.dev.hasPort p = true → (e.port p).plan = Sparse.get PlanEntry.reset plan p
            ∧ (e.port p).inPlan = ((s.dev.port p).up && decide (p < 32))) ∧ e.answered mb 0 0 = true))
  ∧ (∀ (s : State) (w mb : Nat), s.dev.shadow.reg = some (w, mb) → w ≤ s.dev.beat.w →
      Completes .snapshotLatch s (fun e => e.shadow = s.dev.latch w ∧ e.answered mb 0 0 = true))
  ∧ (∀ (s : State) (w mb : Nat) (p : Policy), s.dev.beat.aligned = true →
      s.dev.power.reg.find? (fun r => decide (r.1 ≤ s.dev.beat.w)) = some (w, mb, p) →
      (p.park = true → s.dev.mayPark = false → Completes .powerPolicyEffect s (fun e => e.answered mb 2 0 = true
        ∧ e.power = { s.dev.power with reg := s.dev.power.reg.erase (w, mb, p) } ∧ e.cores = s.dev.cores))
      ∧ (p.park = false ∨ s.dev.mayPark = true → Completes .powerPolicyEffect s (fun e => e.answered mb 0 0 = true
        ∧ e.power.policy = p ∧ e.power.reg = s.dev.power.reg.erase (w, mb, p)
        ∧ (p.park = true → e.power.device = 4)
        ∧ (p.park = false → s.dev.power.device = 4 → e.power.device = 5 ∧ e.power.devWake = 58594)
        ∧ (p.park = false → s.dev.power.device ≠ 4 → e.power.device = s.dev.power.device))))

/-- O49, tier 2. DIGEST_READ, REPLAY_ARM, REPLAY_RUN, LOG_GAP and REPLAY_APPLY. Each completes as a started command or
event. DIGEST_READ of an output of a YIELDED or ENDED task is decided with its signed tag, or FAULTED when a word is
poisoned; one whose compare point is open waits, and is FAULTED when the compare has failed; one of another state or entry
is refused, and one of a level-1 task answered REJECTED_VERSION. REPLAY_ARM of a task
below ENDED with a ring that breaks no rule arms the slot from record 0, and the first slot armed starts the ring and
LOG_BYTES anew; one that breaks a rule leaves the logger. REPLAY_RUN with a log that holds the span registers a start
with its records; without, the task is unchanged. Lost records are told once by a GAP record and event 0x000D. A record
of a replay that is due acts once, and leaves the replay. (Rests on: spec/19_determinism.md,
spec/20_chanter_mailboxes.md.) -/
def Obligations.ReplayCommands : Prop :=
  ∀ (s : State) (mb : Nat), mb < 16 →
    let m := s.dev.mbx mb
    let t := m.slot
    let d := s.dev.onMbx mb (fun m => { m with ran := true })
    let k := s.dev.task t
    let live := ((k.state = 3 ∨ k.state = 4) ∧ k.stopping = false ∧ k.startS = none)
    let refused := fun (e : Device) => e.answered mb 3 9 = true ∨ e.answered mb 2 0 = true
    (s.dev.runs mb 0x43 = true → m.compare = none →
      (live → k.level = 1 → Completes (.digestRead mb) s (fun e => e.answered mb 4 9 = true ∧ e.tasks = s.dev.tasks))
      ∧ (live → k.level ≠ 1 → (k.tags[m.body 1 1]?).map (·.role) = some 2 →
        (d.compareOpen t k.captureS = false → Becomes (.digestRead mb) s (d.digestTag mb))
        ∧ (d.compareOpen t k.captureS = true → Completes (.digestRead mb) s (fun e =>
            (e.mbx mb).compare = some k.captureS ∧ (e.mbx mb).st = 2 ∧ e.tasks = s.dev.tasks)))
      ∧ (¬ live ∨ (k.level ≠ 1 ∧ (k.tags[m.body 1 1]?).map (·.role) ≠ some 2) →
        Completes (.digestRead mb) s (fun e => refused e ∧ e.tasks = s.dev.tasks)))
    ∧ (∀ beat, s.dev.runs mb 0x43 = true → m.compare = some beat → d.compareOpen t beat = false →
        (((k.state = 3 ∨ k.state = 4) ∧ k.stopping = false) → Becomes (.digestRead mb) s (d.digestTag mb))
        ∧ (¬ ((k.state = 3 ∨ k.state = 4) ∧ k.stopping = false) →
            Completes (.digestRead mb) s (fun e => e.answered mb 6 0 = true ∧ e.tasks = s.dev.tasks)))
    ∧ (s.dev.runs mb 0x44 = true → m.body 1 1 = 1 → k.state ≠ 0 → k.state < 4 →
      (s.dev.armBad t (m.body 8 8) (m.body 16 8) = true →
        Completes (.replayArm mb) s (fun e => refused e ∧ e.logger = s.dev.logger ∧ e.tasks = s.dev.tasks))
      ∧ (s.dev.armBad t (m.body 8 8) (m.body 16 8) = false → Completes (.replayArm mb) s (fun e =>
          (e.task t).armed = true ∧ (e.task t).logSeq = 0 ∧ e.answered mb 0 0 = true
          ∧ ((∀ u ∈ s.dev.boundSlots, u ≠ t → (s.dev.task u).armed = false) →
              e.logger = { Logger.reset with ring := some (rzOff (m.body 8 8), m.body 16 8) }
                ∧ Sparse.get 0 e.hub.counters 13 = 0))))
    ∧ (s.dev.runs mb 0x44 = true → m.body 1 1 = 0 → k.state ≠ 0 → Completes (.replayArm mb) s (fun e =>
        (e.task t).armed = false ∧ e.answered mb 0 0 = true))
    ∧ (s.dev.runs mb 0x45 = true →
      match d.replayFind t (m.body 8 8) (m.body 16 8) (m.body 24 8) (m.body 32 8) (m.body 40 8) with
      | none => Completes (.replayRun mb) s (fun e => refused e ∧ e.tasks = s.dev.tasks)
      | some l => Completes (.replayRun mb) s (fun e => (e.task t).startS = some (m.body 32 8) ∧ (e.task t).startMb = some mb
          ∧ (e.task t).replay = some l ∧ (e.task t).replayLog = l ∧ (e.task t).replayEnd = m.body 40 8 ∧ (e.task t).state = k.state
          ∧ (e.mbx mb).st = 2))
    ∧ (s.dev.logger.lost = 0 → Becomes .logGap s s.dev)
    ∧ (s.dev.logger.lost ≠ 0 → (s.dev.logger.buffer.map List.length).foldl (· + ·) 0 + 32 ≤ 0x200000 →
        Completes .logGap s (fun e => e.logger.lost = 0 ∧ e.lastRecord = some (0x000D, 0, 4, 0)
          ∧ Sparse.get 0 e.hub.counters 14
              = Sparse.get 0 s.dev.hub.counters 14 + BitVec.ofNat 64 s.dev.logger.lost))
    ∧ (∀ u, u < 8 → (s.dev.dueRecord u = none → Becomes (.replayApply u) s s.dev)
        ∧ (∀ r, s.dev.dueRecord u = some r → Becomes (.replayApply u) s
            ((s.dev.onTask u (fun k => { k with replay := k.replay.map (fun l => l.erase r) })).applyRecord u r)))

/-- O50, tier 2. MGMT_PIECE and MGMT_RESPONSE: commands and responses that travel in pieces. Each completes. Before the
first TOPO_SET a piece for mailbox 12 or 13, or for a relay window, is only counted in MGMT_REFUSED. From the manager,
or from the partner for mailbox 14, a first piece that is also the last submits its bytes as the command: PENDING at the
mailbox, with its source. Other pieces in order are put together, and the last of them submits the whole; one out of
order changes nothing. A first piece from another device than the manager, or for a mailbox that is not done, leaves every mailbox as it is. A response piece from
the device a busy window sent to, with the SEQ of the window, gives it CODE, STATUS and DETAIL, and the window is DONE
when no result follows; from another device, or with another SEQ, it changes nothing. (Rests on:
spec/20_chanter_mailboxes.md, spec/22_twin_pairing.md.) -/
def Obligations.PiecesOfCommands : Prop :=
  (∀ (s : State) (mb src off : Nat) (data : List (BitVec 8)) (last : Bool), mb = 12 ∨ mb = 13 → s.dev.fabric.topoSet = false →
    Becomes (.mgmtPiece mb src off data last) s (s.dev.countHub 11 1)
    ∧ Becomes (.mgmtResponse src mb off data last) s (s.dev.countHub 11 1))
  ∧ (∀ (s : State) (mb src off : Nat) (data : List (BitVec 8)) (last : Bool), off < 4096 →
    (mb = 14 ∨ ((mb = 12 ∨ mb = 13) ∧ s.dev.takesMgmt = true)) →
    let m := s.dev.mbx mb
    let sender := mb = 14 ∨ s.dev.fabric.manager = some src
    (sender → m.busy = false → off = 0 → last = true → Completes (.mgmtPiece mb src off data last) s (fun e =>
      (e.mbx mb).st = 1 ∧ (e.mbx mb).cmd = Sparse.setMany 0 [] 0 data ∧ (e.mbx mb).asm = none
        ∧ (e.mbx mb).source = (if mb = 14 then none else some src) ∧ ∀ x, x ≠ mb → e.mbx x = s.dev.mbx x))
    ∧ (sender → m.busy = false → off = 0 → last = false → Completes (.mgmtPiece mb src off data last) s (fun e =>
      (e.mbx mb).st = m.st ∧ (e.mbx mb).area = Sparse.setMany 0 [] 0 data ∧ (e.mbx mb).asm = some data.length))
    ∧ (sender → m.busy = false → off ≠ 0 → m.asm = some off → last = false →
      Completes (.mgmtPiece mb src off data last) s (fun e => (e.mbx mb).st = m.st
        ∧ (e.mbx mb).area = Sparse.setMany 0 m.area off data ∧ (e.mbx mb).asm = some (off + data.length)))
    ∧ (sender → m.busy = false → off ≠ 0 → m.asm = some off → last = true →
      Completes (.mgmtPiece mb src off data last) s (fun e => (e.mbx mb).st = 1
        ∧ (e.mbx mb).cmd = Sparse.setMany 0 m.area off data ∧ (e.mbx mb).asm = none
        ∧ (e.mbx mb).source = (if mb = 14 then none else some src) ∧ ∀ x, x ≠ mb → e.mbx x = s.dev.mbx x))
    ∧ (sender → m.busy = false → off ≠ 0 → m.asm ≠ some off → Becomes (.mgmtPiece mb src off data last) s s.dev)
    ∧ (¬ sender ∨ m.busy = true → Completes (.mgmtPiece mb src off data last) s (fun e =>
      (∀ x, e.mbx x = s.dev.mbx x) ∧ e.tasks = s.dev.tasks ∧ e.cores = s.dev.cores)))
  ∧ (∀ (s : State) (mb src off : Nat) (data : List (BitVec 8)) (last : Bool), mb = 12 ∨ mb = 13 → s.dev.takesMgmt = true →
    off < 4096 →
    let x := s.dev.window mb
    let w := fieldLe data 0 8
    (x.target ≠ src ∨ x.busy = false → Becomes (.mgmtResponse src mb off data last) s s.dev)
    ∧ (x.target = src → x.busy = true → off = 0x808 → bits w 32 32 ≠ x.seq →
        Becomes (.mgmtResponse src mb off data last) s s.dev)
    ∧ (x.target = src → x.busy = true → off = 0x808 → bits w 32 32 = x.seq →
        Completes (.mgmtResponse src mb off data last) s (fun e =>
          (e.window mb).code = bits w 24 8 ∧ (e.window mb).status = bits w 16 4
            ∧ (e.window mb).detail = bits (fieldLe data 8 8) 0 16 ∧ (e.window mb).doneW = fieldLe data 24 8
            ∧ (bits w 20 4 ≠ 3 → (e.window mb).st = bits w 20 4)
            ∧ (bits w 20 4 = 3 → fieldLe data 16 8 ≠ 0 → (e.window mb).st = 2)
            ∧ (bits w 20 4 = 3 → fieldLe data 16 8 = 0 → (e.window mb).st = 3)
            ∧ (∀ y, e.mbx y = s.dev.mbx y))))

/-- O51, tier 2. A protected memory: what a write stores, what a read delivers, and what neither changes. For the
scratchpads, hub staging (words of 8 B) and DRAM (sectors of 32 B): a write stores its bytes and changes no other byte.
A word that it covers whole has no error after it, and poison exactly when marked data went into it; a word that it
covers in part also keeps the poison it had, and is poisoned when it held an uncorrectable error. A word that it does
not touch stays. A read delivers the stored bytes, marked where their word is poisoned or held an uncorrectable error;
it changes no byte, and leaves such a word poisoned without error. Both keep the canonical form. (Rests on:
spec/10_scratchpad.md, spec/11_copies_and_dram.md.) -/
def Obligations.ProtectedMemory : Prop :=
  ∀ (m : Mem) (u a : Nat) (data : List (BitVec 8 × Bool)), 0 < u → m.wf = true →
    let w := (m.write u a data).mem
    let marked := fun (i : Nat) => ∃ j, j < data.length ∧ (a + j) / u = i ∧ (nth data j (0, false)).2 = true
    w.wf = true
    ∧ (∀ j, j < data.length → Sparse.get 0 w.bytes (a + j) = (nth data j (0, false)).1)
    ∧ (∀ x, (x < a ∨ a + data.length ≤ x) → Sparse.get 0 w.bytes x = Sparse.get 0 m.bytes x)
    ∧ (∀ i, a ≤ i * u → i * u + u ≤ a + data.length →
        Sparse.get 0 w.ecc i = 0 ∧ (Sparse.get false w.poison i = true ↔ marked i))
    ∧ (∀ i, (i * u < a ∨ a + data.length < i * u + u) → i * u < a + data.length → a < i * u + u → data ≠ [] →
        Sparse.get 0 w.ecc i = 0 ∧ (Sparse.get false w.poison i = true ↔
          marked i ∨ Sparse.get false m.poison i = true ∨ Sparse.get 0 m.ecc i = 2))
    ∧ (∀ i, (a + data.length ≤ i * u ∨ i * u + u ≤ a ∨ data = []) →
        Sparse.get 0 w.ecc i = Sparse.get 0 m.ecc i ∧ Sparse.get false w.poison i = Sparse.get false m.poison i)
    ∧ (∀ n, (m.read u a n).mem.wf = true ∧ (m.read u a n).mem.bytes = m.bytes ∧ (m.read u a n).data.length = n
        ∧ (∀ j, j < n → nth (m.read u a n).data j (0, false) = (Sparse.get 0 m.bytes (a + j),
            Sparse.get false m.poison ((a + j) / u) || Sparse.get 0 m.ecc ((a + j) / u) == 2))
        ∧ (∀ i, i * u < a + n → a < i * u + u → 0 < n → Sparse.get 0 m.ecc i = 2 →
            Sparse.get 0 (m.read u a n).mem.ecc i = 0 ∧ Sparse.get false (m.read u a n).mem.poison i = true))

/-- O52, tier 2. SCRUB_CYCLE, DRAM_SCRUB and STAGING_SCRUB correct, poison or zero the words they meet, and no other. Each
completes. The scrub cycle of a core that is due meets the bank row of its scrub row; the DRAM scrubber meets the 8
sectors of one unit of its stack in a wall beat, and the staging scrubber 8 words in each of four blocks. Each word has
the outcome of Table 10-7 (R538 for DRAM, where poison without error stays), every other word of the memory stays, and
the scrubber moves on by one row, unit or word. A second one in the same wall beat, one that is not due, and one before
the memories take writes change nothing; nor does the scrub cycle of a core whose beat is still under way. Stated for
memories in canonical form. (Rests on: spec/10_scratchpad.md, spec/11_copies_and_dram.md,
spec/23_reliability_and_observation.md.) -/
def Obligations.Scrubbers : Prop :=
  (∀ (s : State) (c : Nat), s.dev.hasCore c = true → (s.dev.core c).running = none → (s.dev.core c).issue = none →
    (s.dev.core c).spad.wf = true →
    (s.dev.scrubDue c = true → Completes (.scrubCycle c) s (fun e =>
        (s.dev.core c).spad.scrubbed (e.core c).spad 8 (fun i => s.dev.livePage c (8 * i / 4096)) true
          (fun i => i / 512 = (s.dev.core c).scrubRow)
        ∧ (e.core c).scrubRow = ((s.dev.core c).scrubRow + 1) % 28672 ∧ (e.core c).scrubS = s.dev.gate.e + 1
        ∧ (e.region c).finished = true ∧ e.dram = s.dev.dram ∧ e.staging = s.dev.staging
        ∧ (∀ x, x ≠ c → e.core x = s.dev.core x))))
  ∧ (∀ (s : State) (c : Nat), s.dev.hasCore c = true →
    s.dev.scrubDue c = false ∨ ((s.dev.core c).rests = false ∧ (s.dev.region c).finished = false
      ∧ (s.dev.region c).count < s.dev.workSc c) →
    Becomes (.scrubCycle c) s s.dev)
  ∧ (∀ (s : State) (k : Nat), s.dev.grade.hasStack k = true → s.dev.dram.wf = true →
    (s.dev.writesOn = false ∨ s.dev.stackOn k = false ∨ (s.dev.stack k).scrubW = some s.dev.beat.w ∨ s.dev.twin.role = 2 →
      Becomes (.dramScrub k) s s.dev)
    ∧ (s.dev.writesOn = true → s.dev.stackOn k = true → (s.dev.stack k).scrubW ≠ some s.dev.beat.w → s.dev.twin.role ≠ 2 →
      let first := k * (stackBytes / 32) + 8 * (s.dev.stack k).scrub
      Completes (.dramScrub k) s (fun e =>
        s.dev.dram.scrubbed e.dram 32 (fun i => s.dev.liveDram (32 * i) 32) false (fun i => first ≤ i ∧ i < first + 8)
        ∧ (e.stack k).scrub = ((s.dev.stack k).scrub + 1) % 201326592 ∧ (e.stack k).scrubW = some s.dev.beat.w
        ∧ e.staging = s.dev.staging ∧ e.cores = s.dev.cores)))
  ∧ (∀ s : State, s.dev.staging.wf = true → s.dev.hub.scrub < 1048576 →
    (s.dev.writesOn = false ∨ s.dev.hub.scrubW = some s.dev.beat.w → Becomes .stagingScrub s s.dev)
    ∧ (s.dev.writesOn = true → s.dev.hub.scrubW ≠ some s.dev.beat.w → Completes .stagingScrub s (fun e =>
        s.dev.staging.scrubbed e.staging 8 (fun i => s.dev.liveStage (8 * i)) true
          (fun i => i < 4 * 8388608 ∧ i % 8388608 / 8 = s.dev.hub.scrub)
        ∧ e.hub.scrub = (s.dev.hub.scrub + 1) % 1048576 ∧ e.hub.scrubW = some s.dev.beat.w
        ∧ e.dram = s.dev.dram ∧ e.cores = s.dev.cores)))

/-- O53, tier 2. COPY_ACCESS, COPY_COMPLETE and QUEUE_ARRIVAL: the order at a bank, the end of a copy, the arrival of a
message. Each completes. In a copy cycle the engine of an Active core makes at most one access in each bank of the copy
group: that which became ready first (R244); then every copy that may go on does. A core with none, or one out of
service, stays as it is; one below Active is woken. A copy whose bytes have all landed leaves flight with its ranges: its KEY_KIND 1 key rises by KEY_N, and one
left short faults its task with CONTRACT_VIOLATION cause 4; a copy that is not complete stays. A message that arrives at
a queue that is bound, not overflowed, open for it and not full takes the entry TAIL; any other message is parked while
the area has room, and the task of a bound queue stops with Q_OVERFLOW. At a core below Active it forces the wake. Stated for a core with no sc under way and no open packet waiting. (Rests
on: spec/10_scratchpad.md, spec/11_copies_and_dram.md, spec/12_keys_and_queues.md.) -/
def Obligations.CopyRows : Prop :=
  (∀ (s : State) (c bank : Nat) (fresh : Bool), s.dev.hasCore c = true →
    let k := s.dev.core c
    let list := (s.dev.accesses c).filter (fun a => k.bankOf a.pa == bank && decide (a.ready < k.cyc))
    (k.absent = true ∨ (s.dev.accesses c).isEmpty = true → Becomes (.copyAccess c bank fresh) s s.dev)
    ∧ (k.absent = false → (s.dev.accesses c).isEmpty = false → k.power.state ≠ 0 →
        Completes (.copyAccess c bank fresh) s (fun e => e.tasks = s.dev.tasks ∧ (e.core c).spad = k.spad
          ∧ (k.power.state < 3 → (e.core c).power.waking.isSome = true)))
    ∧ (k.absent = false → (s.dev.accesses c).isEmpty = false → k.power.state = 0 → fresh = false →
        (inGroup (k.lastSc + k.extra) bank = false ∨ k.copyUsed.contains bank = true ∨ list.isEmpty = true →
          Becomes (.copyAccess c bank fresh) s s.dev.flowAll)
        ∧ (∀ a, inGroup (k.lastSc + k.extra) bank = true → k.copyUsed.contains bank = false →
          s.dev.bestAccess c bank = some a →
          Becomes (.copyAccess c bank fresh) s (a.run (s.dev.onCore c (fun k => { k with copyUsed := k.copyUsed ++ [bank] }))).flowAll
            ∧ ∀ x ∈ list, a.ready ≤ x.ready))
    ∧ (k.absent = false → (s.dev.accesses c).isEmpty = false → k.power.state = 0 → fresh = true →
        ((s.dev.region c).finished = true ∨ k.running = none →
          Becomes (.copyAccess c bank fresh) s ((s.dev.copyCycle c).accessBank c bank).flowAll)
        ∧ ((s.dev.region c).finished = false → k.running ≠ none →
          Becomes (.copyAccess c bank fresh) s s.dev)))
  ∧ (∀ (s : State) (c id : Nat), s.dev.hasCore c = true → (s.dev.core c).issue = none → s.dev.fabric.lasts = [] →
    let k := s.dev.core c
    (k.copyOf id = none → Becomes (.copyComplete c id) s s.dev)
    ∧ (∀ x : Copy, k.copyOf id = some x → x.complete = false → Becomes (.copyComplete c id) s s.dev)
    ∧ (∀ x : Copy, k.copyOf id = some x → x.complete = true → Completes (.copyComplete c id) s (fun e =>
        (∀ y ∈ (e.core c).copies, y.id ≠ id) ∧ (∀ r ∈ (e.core c).scoreboard, r.copy ≠ id)))
    ∧ (∀ (x : Copy) (t : Nat), k.copyOf id = some x → x.complete = true → x.writeBytes ≤ x.landedBytes →
        (cd x.desc.toNat).keyKind = 1 → 0 < (cd x.desc.toNat).keyN → (s.dev.task x.slot).stopReg = false →
        let key := kBase (k.bound x.slot) + (cd x.desc.toNat).keyNum
        s.dev.keyHolder c key = some t →
        s.dev.keyCount c key + (cd x.desc.toNat).keyN ≤ keyCap (s.dev.keyEntry c t (key - kBase (k.bound t))) →
        Completes (.copyComplete c id) s (fun e =>
          e.keyCount c key = s.dev.keyCount c key + (cd x.desc.toNat).keyN ∧ e.tasks = s.dev.tasks))
    ∧ (∀ x : Copy, k.copyOf id = some x → x.complete = true → x.landedBytes < x.writeBytes →
        (s.dev.task x.slot).stopReg = false → Completes (.copyComplete c id) s (fun e =>
          e.lastRecord = some (0x0102, 4, 1, c) ∧ ((s.dev.task x.slot).state ≠ 5 → (e.task x.slot).stopping = true))))
  ∧ (∀ (s : State) (c : Nat), s.dev.hasCore c = true → (s.dev.core c).issue = none →
    let k := s.dev.core c
    (nextMsg k.msgIn s.dev.msgWaits = none → Becomes (.queueArrival c) s s.dev)
    ∧ (∀ i, nextMsg k.msgIn s.dev.msgWaits = some i → k.power.state ≠ 0 →
        Becomes (.queueArrival c) s (s.dev.forceWake c (nth k.msgIn i Msg.reset).dev))
    ∧ (∀ i, nextMsg k.msgIn s.dev.msgWaits = some i → k.power.state = 0 →
        s.dev.queueHolder c (nth k.msgIn i Msg.reset).mq = none → s.dev.hub.parkHeld < parkRecords →
        Completes (.queueArrival c) s (fun d => d.hub.parkHeld = s.dev.hub.parkHeld + 1
          ∧ (d.core c).msgIn = k.msgIn.eraseIdx i ∧ (d.core c).queues = k.queues ∧ d.tasks = s.dev.tasks ∧ d.lastRecord = some (0x0008, 3, 1, c)))
    ∧ (∀ i t, nextMsg k.msgIn s.dev.msgWaits = some i → k.power.state = 0 →
        let m := nth k.msgIn i Msg.reset
        let e := k.qEntry t (m.mq - qBase (k.bound t))
        let q := k.qState m.mq
        let cause : Option Nat := if q.overflowed then some 2 else if m.openSlot && !qOpen e then some 1
          else if qCap e ≤ q.count then some 0 else none
        s.dev.queueHolder c m.mq = some t → ((s.dev.task t).replay = none ∨ qOpen e = false) → qCap e ≠ 0 →
        (cause = none →
          Completes (.queueArrival c) s (fun d => ((d.core c).qState m.mq).tail = (q.tail + 1) % qCap e
            ∧ ((d.core c).qState m.mq).count = q.count + 1 ∧ (d.core c).msgIn = k.msgIn.eraseIdx i
            ∧ (∀ x, x ≠ m.mq → (d.core c).qState x = k.qState x)))
        ∧ (∀ n, cause = some n → s.dev.hub.parkHeld < parkRecords → (s.dev.task t).state ≠ 5 →
          Completes (.queueArrival c) s (fun d => d.hub.parkHeld = s.dev.hub.parkHeld + 1
            ∧ ((d.core c).qState m.mq).overflowed = true ∧ (d.core c).msgIn = k.msgIn.eraseIdx i ∧ (d.task t).stopping = true
            ∧ d.lastRecord = some (0x0107, n, 1, c)))))

/-- O54, tier 2. DRAM_TICK and FORCED_REFRESH: windows, the hub window, planned and forced refreshes. Each completes. The
ticks of a beat run from 0 to 999 and end with it; tick 0 waits for the forced refreshes of its edge. A tick moves the
number on by 1; one that serves nothing, a window tick without an entry in force or a refresh tick other than 991 and
999, changes nothing but lets the copies go on that may. Before the memories take writes no tick has an effect. With tick 991 or 999 the groups whose planned refresh ends there have been refreshed in the
wall beat. Ticks 0 to 341 of a forced refresh serve nothing. In a window tick, a group whose core has no request is
counted in WINDOW_IDLE only, and a write stores the bytes of its request at its address and no other. A forced refresh
of a lapsed stack refreshes its 8 groups, sets the hold vote, is counted, and is recorded as REFRESH_FORCED; with no
group lapsed nothing changes. (Rests on: spec/11_copies_and_dram.md.) -/
def Obligations.DramRows : Prop :=
  (∀ s : State,
    let d := s.dev
    let waits := d.tick = 0 ∧ ∃ k, k < 8 ∧ d.lapsed k ≠ []
    (1000 ≤ d.tick → d.beat.aligned = true → Becomes .dramTick s d)
    ∧ (waits → Becomes .dramTick s d)
    ∧ (d.writesOn = false → d.tick < 1000 → Becomes .dramTick s d)
    ∧ (d.writesOn = false → d.tick = 1000 → d.beat.aligned = false → Becomes .dramTick s { d with tick := 0 })
    ∧ (d.writesOn = true → d.tick < 1000 → ¬ waits → Completes .dramTick s (fun e => e.tick = d.tick + 1))
    ∧ (d.writesOn = true → d.tick = 1000 → d.beat.aligned = false → Completes .dramTick s (fun e => e.tick = 1))
    ∧ (d.writesOn = true → d.tick < 960 → ¬ waits → (∀ k, k < 8 → ∀ x ∈ d.windowEntries, entryOn x.1 x.2 d.beat.s k d.tick = false) →
        Becomes .dramTick s ({ d with tick := d.tick + 1 } : Device).flowAll)
    ∧ (d.writesOn = true → 976 ≤ d.tick → d.tick < 1000 → d.tick ≠ 991 → d.tick ≠ 999 →
        Becomes .dramTick s ({ d with tick := d.tick + 1 } : Device).flowAll)
    ∧ (d.writesOn = true → d.tick = 991 ∨ d.tick = 999 → Completes .dramTick s (fun e => ∀ k g, k < 8 → g < 8 → d.stackOn k = true →
        d.refreshIn k g d.beat.w = some (d.tick == 999) → Sparse.get 0 (e.stack k).refreshed g = d.beat.w)))
  ∧ (∀ (d : Device) (k tick : Nat), (d.stack k).forced = some d.beat.w → tick ≤ 341 → d.windowTick k tick = d)
  ∧ (∀ (d : Device) (e k g : Nat),
    (weWrite e = true → d.dramWriteReq (weCore e) k g = none → d.serveGroup e k g = d.countCore (weCore e) 25 1)
    ∧ (weWrite e = false → d.dramReadReq (weCore e) k g = none → d.serveGroup e k g = d.countCore (weCore e) 25 1)
    ∧ (∀ x off a n, weWrite e = true → d.dramWriteReq (weCore e) k g = some (x, off, a, n) →
        (d.serveGroup e k g).dram.bytes = Sparse.setMany 0 d.dram.bytes a ((d.copyForm (weCore e) x off n).1.map (·.1))))
  ∧ (∀ (s : State) (k : Nat), s.dev.grade.hasStack k = true →
    (s.dev.lapsed k = [] ∨ s.dev.tick ≠ 0 ∨ s.dev.writesOn = false → Becomes (.forcedRefresh k) s s.dev)
    ∧ (s.dev.writesOn = true → s.dev.lapsed k ≠ [] → s.dev.tick = 0 → Completes (.forcedRefresh k) s (fun e =>
        (∀ g, g < 8 → Sparse.get 0 (e.stack k).refreshed g = s.dev.beat.w) ∧ (e.stack k).forced = some s.dev.beat.w
        ∧ e.hold.refreshVote = true ∧ e.lastRecord = some (0x0002, 0, 3, k)
        ∧ Sparse.get 0 (e.stack k).counters 0 = Sparse.get 0 (s.dev.stack k).counters 0 + 1
        ∧ e.lapsed k = [])))

/-- O55, tier 2. SLOT_TRANSMIT, CONTROL_SLOT_TRANSMIT, OUTBOX_READY and REPAIR_RESEND: what each position of a port carries.
For a SOLO package. Each completes. Position 0 goes out as a good control slot with W, S, the device number, the hop
count and the hold bit. Each later position goes out in turn as a good slot with its number, BEAT and SEQ: empty while
the port is not up, but for a LINK packet at position 9 once framing has locked; empty at a repair position with nothing
to send again, and on a twin port; with the ready data of its LOCAL entry, which leaves the outbox, is retained and
counted; empty and counted in ABSENT when that data is not ready; with the oldest open packet of the FIFO of its OPEN
entry, which leaves it; with what came in at the position that its FORWARD entry names, as it came when that slot had
failed. A retained slot to send again goes out in a repair position with REPAIR set. A port that does not transmit, or
is past its last position, stays as it is. Data of a LOCAL entry whose ready point every region has reached is read into
the outbox once. (Rests on: spec/13_fabric_links.md.) -/
def Obligations.SlotsSent : Prop :=
  ∀ (s : State) (p : Nat), s.dev.hasPort p = true → s.dev.twin.role = 0 →
    let d := s.dev
    let q := d.port p
    let k := q.txPos
    let e := d.txEntry p d.beat.s k
    let goes := fun (f : Device) (kind beat poison : Nat) (payload : List (BitVec 8)) =>
      let x := (f.port p).txOut
      slotGood x = true ∧ trKind x = kind ∧ trSlot x = k ∧ trBeat x = beat % 2 ^ 32 ∧ trPoison x = poison % 2 ^ 60
        ∧ trSeq x = d.beat.w % 2 ^ 16 ∧ trRepair x = false ∧ slotPayload x = slice payload 0 480 ∧ (f.port p).txPos = k + 1
    (d.transmits p = false ∨ k = 0 ∨ 224 ≤ k → Becomes (.slotTransmit p) s d)
    ∧ (d.transmits p = true → 1 ≤ k → k < 224 → (p < 32 → d.decisionAt p d.beat.w k = none) →
      (q.up = false → (k ≠ 9 ∨ q.step < 2) → Completes (.slotTransmit p) s (fun f => goes f 0 d.beat.s 0 []))
      ∧ (q.up = true → (k ≤ 8 ∧ q.nextResend = none) ∨ (32 ≤ p ∧ 9 ≤ k) →
          Completes (.slotTransmit p) s (fun f => goes f 0 d.beat.s 0 []))
      ∧ (q.up = false → k = 9 → 2 ≤ q.step → Completes (.slotTransmit p) s (fun f =>
          slotGood (f.port p).txOut = true ∧ trKind (f.port p).txOut = 3 ∧ (f.port p).txPos = 10))
      ∧ (∀ o, p < 32 → q.up = true → peKind e = 1 → q.outbox.find? (fun o => o.1 == k) = some o →
          Completes (.slotTransmit p) s (fun f => goes f 2 o.2.1 o.2.2.2 o.2.2.1 ∧ (f.port p).outbox = q.outbox.erase o
            ∧ (f.port p).sentNow = q.sentNow + 1 ∧ (f.port p).retain = q.retain ++ [(d.beat.w, k, (f.port p).txOut)]))
      ∧ (p < 32 → q.up = true → peKind e = 1 → q.outbox.find? (fun o => o.1 == k) = none → d.hold.now = false →
          Completes (.slotTransmit p) s (fun f => goes f 0 d.beat.s 0 [] ∧ (f.port p).outbox = q.outbox
            ∧ Sparse.get 0 (f.port p).counters 5 = Sparse.get 0 q.counters 5 + 1))
      ∧ (∀ y rest, p < 32 → q.up = true → peKind e = 3 → Sparse.get [] q.fifos (pePort e) = y :: rest →
          Completes (.slotTransmit p) s (fun f => goes f 3 d.beat.s y.poison y.payload
            ∧ (pePort e ≠ 63 → Sparse.get [] (f.port p).fifos (pePort e) = rest)
            ∧ (pePort e = 63 → Sparse.get [] (f.port p).fifos 63 = rest ++ q.localWait.take (32 - rest.length))))
      ∧ (∀ x, p < 32 → q.up = true → peKind e = 2 → d.forwardSlot e d.beat.w k = some x →
          (slotGood x = true → trKind x ≠ 0 → Completes (.slotTransmit p) s (fun f =>
            goes f (trKind x) (trBeat x) (trPoison x) (slotPayload x)))
          ∧ (slotGood x = false → Completes (.slotTransmit p) s (fun f =>
            (f.port p).txOut = x ∧ (f.port p).txPos = k + 1 ∧ (f.port p).retain = q.retain ++ [(d.beat.w, k, x)]))))
    ∧ (∀ (r : Nat × Nat) (x : List (BitVec 8)), d.transmits p = true → 1 ≤ k → k ≤ 8 → q.up = true →
        (p < 32 → d.decisionAt p d.beat.w k = none) → q.nextResend = some r → q.retained r.1 r.2 = some x → r.2 < 256 →
        r.1 ≤ d.beat.w → d.beat.w < r.1 + 2 ^ 15 → Completes (.repairResend p) s (fun f =>
          (f.port p).txOut = asRepair x ∧ trRepair (f.port p).txOut = true ∧ (f.port p).txPos = k + 1
            ∧ Sparse.get 0 (f.port p).counters 3 = Sparse.get 0 q.counters 3 + 1))
    ∧ (q.nextResend = none → Becomes (.repairResend p) s d)
    ∧ (d.transmits p = true → k = 0 → (p < 32 → d.decisionAt p d.beat.w 0 = none) →
        Completes (.controlSlotTransmit p) s (fun f =>
          let x := (f.port p).txOut
          ctlGood x = true ∧ ctlW x = d.beat.w % 2 ^ 64 ∧ ctlS x = d.beat.s % 2 ^ 64 ∧ ctlDevice x = d.devNum % 4096
            ∧ ctlHops x = d.drone.hops % 32 ∧ ctlHold x = d.hold.now ∧ trSlot x = 0 ∧ (f.port p).txPos = 1))
    ∧ (d.transmits p = false ∨ k ≠ 0 → Becomes (.controlSlotTransmit p) s d)
    ∧ (∀ pos, (d.outboxDue p pos = false → Becomes (.outboxReady p pos) s d)
        ∧ (d.outboxDue p pos = true →
          (d.netsReach (d.readyPoint p pos d.gate.e)).issuedAll (d.readyPoint p pos d.gate.e) = false →
          Becomes (.outboxReady p pos) s d)
        ∧ (d.outboxDue p pos = true →
          (d.netsReach (d.readyPoint p pos d.gate.e)).issuedAll (d.readyPoint p pos d.gate.e) = true →
          let x := d.txEntry p d.gate.e pos
          let bs := if peCore x = 0xFF then (d.stageRead (peAddr x) 480).1 else (d.spadRead (peCore x) (peAddr x) 480).1
          Completes (.outboxReady p pos) s (fun f =>
            (f.port p).outbox = q.outbox ++ [(pos, d.gate.e, bs.map (·.1), payloadMask bs)]
              ∧ f.outboxDue p pos = false)))

/-- O56, tier 2. SLOT_RECEIVE, CONTROL_SLOT_RECEIVE, SLIP_WRITE and LEDGER_CHECK: what a port makes of what arrives. Each
completes. On an up port the position rises by 1; a failed slot is counted and its NACK is pending; the first good copy
of a slot with a LOCAL receive entry stands in the port's slip buffer in staging with its poison, and of an open packet
for the device joins the arrived ones, or in a pair the deferral area, unless an earlier packet of the port must still be
repaired; a later copy is dropped and counted. On an aligned device a good control slot restarts the position and gives
the numbers of its sender; a failed one is counted; one whose hold bit differs from the device's own for its beat takes
an up port down with LEDGER_BREAK. A held slot whose beat has begun leaves the slip buffer: it is written where its
entry names in staging, or joins the requests at an Active core; a core below Active is woken first. The book of a wall beat that closes is followed by the next; one
that does not takes the port down with LEDGER_BREAK, and the bound tasks whose plan uses the port stop. (Rests on:
spec/13_fabric_links.md, spec/15_holds.md, spec/12_keys_and_queues.md.) -/
def Obligations.SlotsReceived : Prop :=
  (∀ (s : State) (p v : Nat) (x : List (BitVec 8)), s.dev.hasPort p = true →
    let d := s.dev
    let q := d.port p
    let k := q.rxPos
    q.nbrW = some v → q.up = true → 1 ≤ k → k < 224 →
    let key := (nearest 16 (trSeq x) v, trSlot x)
    let b := nearest 32 (trBeat x) d.beat.s
    (slotGood x = false → d.twin.role ≠ 5 → Completes (.slotReceive p x) s (fun e =>
      (e.port p).nacks = q.nacks ++ [(v, k)] ∧ (e.port p).rxPos = k + 1 ∧ (e.port p).rxFailedNow = q.rxFailedNow + 1
        ∧ Sparse.get 0 (e.port p).counters 2 = Sparse.get 0 q.counters 2 + 1))
    ∧ (slotGood x = true → 2 ≤ trKind x →
      (trRepair x = true ∨ (q.rxNonEmptyNow ≤ trLedger x ∧ trLedger x ≤ q.rxNonEmptyNow + q.rxFailedNow)) →
      (key ∈ q.rxGood → Completes (.slotReceive p x) s (fun e => (e.port p).slip = q.slip ∧ (e.port p).rxPos = k + 1
          ∧ (e.port p).rxNonEmptyNow = q.rxNonEmptyNow + 1 ∧ e.fabric.openIn = d.fabric.openIn
          ∧ Sparse.get 0 (e.port p).counters 7 = Sparse.get 0 q.counters 7 + 1))
      ∧ (key ∉ q.rxGood → p < 32 → trKind x = 2 → b ≤ d.gate.e + 2 → peKind (d.rxEntry p b (trSlot x)) = 1 →
          Completes (.slotReceive p x) s (fun e => (e.port p).rxPos = k + 1 ∧ key ∈ (e.port p).rxGood
            ∧ (e.port p).slip = q.slip ++ [(b, trSlot x)]
            ∧ (e.stageRead (slipAt p b (trSlot x)) 480).1 = markedBytes (trPoison x) (slotPayload x)))
      ∧ (let y := openOf p key.1 key.2 b x
         let waits := ({ q with rxGood := key :: q.rxGood } : Port).gapBefore key.1 key.2
         key ∉ q.rxGood → p < 32 → trKind x = 3 → rzDev y.dest = d.devNum → y.op < 8 → y.op ≠ 6 → q.openHeld = [] →
          Completes (.slotReceive p x) s (fun e => (e.port p).rxPos = k + 1 ∧ key ∈ (e.port p).rxGood
            ∧ (waits = true → (e.port p).openHeld = [y] ∧ e.fabric.openIn = d.fabric.openIn
                ∧ e.fabric.deferred = d.fabric.deferred)
            ∧ (waits = false → d.inPair = false → e.fabric.openIn = d.fabric.openIn ++ [y])
            ∧ (waits = false → d.inPair = true →
                ∃ z, e.fabric.deferred = d.fabric.deferred ++ [z] ∧ (e.takeDeferred z).1 = y)))))
  ∧ (∀ (s : State) (p : Nat) (x : List (BitVec 8)), s.dev.hasPort p = true →
      ((s.dev.port p).nbrW = none ∨ (s.dev.port p).step < 2 ∨ (s.dev.port p).rxPos = 0 ∨ 224 ≤ (s.dev.port p).rxPos) →
      Becomes (.slotReceive p x) s s.dev)
  ∧ (∀ (s : State) (p : Nat) (x : List (BitVec 8)) (stamp : Int), s.dev.hasPort p = true → s.dev.beat.aligned = true →
    let d := s.dev
    let q := d.port p
    (q.step = 0 → Becomes (.controlSlotReceive p x stamp) s d)
    ∧ (q.step ≠ 0 → ctlGood x = false → Completes (.controlSlotReceive p x stamp) s (fun e =>
        (e.port p).badCtl = (if slotGood x then 0 else q.badCtl + 1) ∧ (e.port p).goodCtl = 0 ∧ (e.port p).rxPos = 1
          ∧ (e.port p).nbrW = q.nbrW.map (· + 1) ∧ e.drone = d.drone))
    ∧ (q.step = 1 → ctlGood x = true → Completes (.controlSlotReceive p x stamp) s (fun e =>
        (e.port p).badCtl = 0 ∧ (e.port p).goodCtl = q.goodCtl + 1 ∧ (e.port p).rxPos = 1
          ∧ (e.port p).nbrW = some (ctlW x) ∧ e.drone = d.drone))
    ∧ (2 ≤ q.step → ctlGood x = true →
        (q.up = false ∨ ctlState x = 0 ∨ ctlW x = d.beat.w + 1 ∨ (d.holdWas (ctlW x)).getD (ctlHold x) = ctlHold x) →
        Completes (.controlSlotReceive p x stamp) s (fun e =>
          (e.port p).goodCtl = q.goodCtl + 1 ∧ (e.port p).badCtl = 0 ∧ (e.port p).rxPos = 1
            ∧ (e.port p).nbrW = some (ctlW x) ∧ (e.port p).rxHops = ctlHops x ∧ (e.port p).rxState = ctlState x
            ∧ (e.port p).stamp = stamp ∧ ctlW x ∈ (e.port p).ctlSeen))
    ∧ (q.up = true → ctlGood x = true → ctlState x ≠ 0 → ctlW x ≠ d.beat.w + 1 → d.holdWas (ctlW x) = some (!ctlHold x) →
        Completes (.controlSlotReceive p x stamp) s (fun e => (e.port p).step = 0
          ∧ ∃ r ∈ e.hub.health, r.code = 0x0301 ∧ r.unitKind = 2 ∧ r.unit = p ∧ r.dHi = ctlW x)))
  ∧ (∀ (s : State) (p : Nat), s.dev.hasPort p = true →
    let d := s.dev
    let q := d.port p
    (q.slip.find? (fun x => decide (x.1 ≤ d.gate.e)) = none → Becomes (.slipWrite p) s d)
    ∧ (∀ x, q.slip.find? (fun x => decide (x.1 ≤ d.gate.e)) = some x →
      let e := d.rxEntry p x.1 x.2
      let c := peCore e
      let bs := (d.stageRead (slipAt p x.1 x.2) 480).1
      (peKind e ≠ 1 → Completes (.slipWrite p) s (fun f => d.onlyPort f p { q with slip := q.slip.erase x }))
      ∧ (peKind e = 1 → c = 0xFF → Completes (.slipWrite p) s (fun f => (f.port p).slip = q.slip.erase x
        ∧ f.staging.bytes = Sparse.setMany 0 d.staging.bytes (peAddr e) (bs.map (·.1)) ∧ f.dram = d.dram ∧ f.cores = d.cores))
      ∧ (peKind e = 1 → c ≠ 0xFF → (d.core c).power.state = 0 → Completes (.slipWrite p) s (fun f =>
          (f.port p).slip = q.slip.erase x ∧ f.staging.bytes = d.staging.bytes ∧ f.dram = d.dram
            ∧ ∃ r, (f.core c).reqs = (d.core c).reqs ++ [r] ∧ r.write = true ∧ r.addr = peAddr e ∧ r.len = 480
              ∧ r.slip = some (p, x.2, if peKeyEn e then some (peKey e) else none) ∧ r.pk.marked.map (·.1) = bs.map (·.1)))
      ∧ (peKind e = 1 → c ≠ 0xFF → (d.core c).power.state ≠ 0 →
          Becomes (.slipWrite p) s (d.forceWake c q.nbrDev))))
  ∧ (∀ (s : State) (p : Nat), s.dev.hasPort p = true →
    let d := s.dev
    let q := d.port p
    (q.ledgerNext = none → Becomes (.ledgerCheck p) s d)
    ∧ (∀ v, q.ledgerNext = some v → (d.beat.aligned = false ∨ d.beat.w < v + 3 ∨ (q.up = true ∧ q.rxState = 0)) →
        Becomes (.ledgerCheck p) s d)
    ∧ (∀ v, q.ledgerNext = some v → d.beat.aligned = true → v + 3 ≤ d.beat.w → (q.up = false ∨ q.rxState ≠ 0) →
      (q.closes v = true → Completes (.ledgerCheck p) s (fun e => d.onlyPort e p { q with ledgerNext := some (v + 1) }))
      ∧ (q.closes v = false → Completes (.ledgerCheck p) s (fun e => (e.port p).step = 0 ∧ (e.port p).ledgerNext = none
          ∧ (∃ r ∈ e.hub.health, r.code = 0x0301 ∧ r.unitKind = 2 ∧ r.unit = p ∧ r.dHi = v)
          ∧ (∀ t ∈ d.boundSlots, d.planUses t p = true → (d.task t).state ≠ 5 → (e.task t).stopping = true)))))

/-- O57, tier 2. LINK_TRAINING_DONE, LINK_FRAMING_LOCK, OPEN_LINK, LINK_DELAY_DONE, PORT_FRAMING_LOSS and LINK_UP_TIMEOUT.
Each completes, and moves a port through the steps of Table 13-10. Training takes a port that may train to step 1, or
halts it with PORT_STATE; 16 good control slots take it from 1 to 2, with a nonce of its own; LINK packets in order are put
together, and the last one completes what they carry; a hello that offers version 2 takes it from 2 to 3, any other halts it
with LINK_AUTH; a proof that verifies under the neighbour's chain takes it from 3 on to 4, and to 5 where TOPO_SET
declares the neighbour seen or a twin port takes none, and halts a port with another neighbour with TOPO_MISMATCH; the
mean of 1,024 samples of the delay makes it up, with PORT_STATE. 16 failed control slots take a port down. The bound of a step takes framing back to the start, and halts any
other step with its record, but a port that waits for TOPO_SET waits on. In a step that is not its own an event changes
nothing. (Rests on: spec/13_fabric_links.md, spec/22_twin_pairing.md.) -/
def Obligations.LinkUp : Prop :=
  ∀ (s : State) (p : Nat), s.dev.hasPort p = true →
    let d := s.dev
    let q := d.port p
    let halts := fun (e : Device) (code : Nat) => (e.port p).step = 0 ∧ (e.port p).halted = true
      ∧ e.lastRecord = some (code, 0, 2, p)
    (∀ ok, d.mayTrain p = false → Becomes (.linkTrainingDone p ok) s d)
    ∧ (d.mayTrain p = true → Completes (.linkTrainingDone p true) s (fun e => (e.port p).step = 1 ∧ (e.port p).goodCtl = 0
        ∧ (e.port p).badCtl = 0) ∧ Completes (.linkTrainingDone p false) s (fun e => halts e 0x000F))
    ∧ (q.step = 1 → 16 ≤ q.goodCtl → Completes (.linkFramingLock p) s (fun e => (∃ n : Nat,
        e.port p = { q with step := 2, nonce := leBytes 48 n, linkIn := [], linkOut := 0, delaySamples := [] })
        ∧ ∀ x, x ≠ p → e.port x = d.port x))
    ∧ (q.step ≠ 1 ∨ q.goodCtl < 16 → Becomes (.linkFramingLock p) s d)
    ∧ (d.fabric.openIn.find? (fun k => k.op == 8 && k.port == p) = none → Becomes (.openLink p) s d)
    ∧ (∀ k, d.fabric.openIn.find? (fun k => k.op == 8 && k.port == p) = some k → d.ownLinkUp p = true →
      let all := (if k.tag = 0 then [] else q.linkIn) ++ k.data
      let inTurn := k.tag = 0 ∨ q.linkIn.length = 448 * k.tag
      (¬ inTurn → Completes (.openLink p) s (fun e => e.port p = { q with linkIn := [] }))
      ∧ (inTurn → k.last = false → Completes (.openLink p) s (fun e => e.port p = { q with linkIn := all }))
      ∧ (inTurn → k.last = true →
        (q.step = 2 → bitAt (Config.linkVersions all) 2 = true → Completes (.openLink p) s (fun e => (e.port p).step = 3
          ∧ (e.port p).linkVer = 2 ∧ (e.port p).seenDev = some (Config.linkDevice all % 4096)
          ∧ (e.port p).peerNonce = Config.linkNonce all ∧ (e.port p).peerChain = Config.linkChain all))
        ∧ (q.step = 2 → bitAt (Config.linkVersions all) 2 = false → Completes (.openLink p) s (fun e => halts e 0x0302))
        ∧ (q.step = 3 → Config.linkProof all = [] → Completes (.openLink p) s (fun e => (e.port p).step = 3))
        ∧ (q.step = 3 → Config.linkProof all ≠ [] →
          let proved := Config.linkAuth q.peerChain (d.linkDigest p false) (Config.linkProof all)
          (proved = false → Completes (.openLink p) s (fun e => halts e 0x0302))
          ∧ (proved = true → d.topoFree p = true → Completes (.openLink p) s (fun e => (e.port p).step = 5))
          ∧ (proved = true → d.topoFree p = false → d.fabric.topoSet = false →
              Completes (.openLink p) s (fun e => (e.port p).step = 4))
          ∧ (proved = true → d.fabric.topoSet = true → q.seenDev = some q.nbrDev ∧ q.seenPort = q.nbrPort →
              Completes (.openLink p) s (fun e => (e.port p).step = 5))
          ∧ (proved = true → d.fabric.topoSet = true → ¬ (q.seenDev = some q.nbrDev ∧ q.seenPort = q.nbrPort) →
              Completes (.openLink p) s (fun e => halts e 0x0303 ∧ (e.port p).enabled = false)))))
    ∧ Completes (.openLink p) s (fun e => ∀ k ∈ e.fabric.openIn, ¬ (k.op = 8 ∧ k.port = p))
    ∧ (∀ up, q.step = 5 → d.ownLinkUp p = true → 1024 ≤ q.delaySamples.length → Completes (.linkDelayDone p up) s (fun e =>
        (e.port p).up = true ∧ (e.port p).delayPs = meanPs up (q.delaySamples.map (·.1))
          ∧ (e.port p).thetaPs = meanPs up (q.delaySamples.map (·.2))
          ∧ (e.port p).ledgerNext = some (d.beat.w + 1) ∧ e.lastRecord = some (0x000F, 0, 2, p)))
    ∧ (∀ up, q.step ≠ 5 ∨ d.ownLinkUp p = false ∨ q.delaySamples.length < 1024 → Becomes (.linkDelayDone p up) s d)
    ∧ (1 ≤ q.step → 16 ≤ q.badCtl → Completes (.portFramingLoss p) s (fun e => (e.port p).step = 0
        ∧ (e.port p).halted = q.halted ∧ e.lastRecord = some (0x000F, 0, 2, p)))
    ∧ (q.step = 0 ∨ q.badCtl < 16 → Becomes (.portFramingLoss p) s d)
    ∧ (d.ownLinkUp p = false → 2 ≤ q.step → Becomes (.linkUpTimeout p) s d)
    ∧ (d.ownLinkUp p = true →
      (q.step = 0 → d.mayTrain p = false → Becomes (.linkUpTimeout p) s d)
      ∧ (q.step = 0 → d.mayTrain p = true → Completes (.linkUpTimeout p) s (fun e => halts e 0x000F))
      ∧ (q.step = 1 → Completes (.linkUpTimeout p) s (fun e => (e.port p).step = 0 ∧ (e.port p).halted = q.halted
          ∧ e.lastRecord = some (0x000F, 0, 2, p)))
      ∧ (q.step = 2 ∨ q.step = 3 → Completes (.linkUpTimeout p) s (fun e => halts e 0x0302))
      ∧ (q.step = 4 → d.fabric.topoSet = true → Completes (.linkUpTimeout p) s (fun e => halts e 0x0303
          ∧ (e.port p).enabled = false))
      ∧ (q.step = 4 → d.fabric.topoSet = false → Becomes (.linkUpTimeout p) s d)
      ∧ (q.step = 5 → Completes (.linkUpTimeout p) s (fun e => halts e 0x000F))
      ∧ (6 ≤ q.step → Becomes (.linkUpTimeout p) s d))

/-- O58, tier 2. OPEN_WRITE, OPEN_READ_REQ, OPEN_READ_DATA, OPEN_KEY_ADD, OPEN_QMSG, OPEN_DONE, OPEN_HOST,
OPEN_DEFERRAL_APPLY. Each completes. A row acts on the oldest packet that has arrived when it has the row's operation
and its answer has room, and changes nothing otherwise; the packet is taken, and answers to the device itself join
behind. A packet that lies in no bound task's window is counted in OPEN_REFUSED and writes nothing. Otherwise, for a
task that is not in replay: WRITE stores its bytes in staging, or waits for the DRAM or the core; READ_REQ of DRAM or of a
core waits for its ticks or its copy cycles; READ_DATA for no copy is refused; KEY_ADD whose data has landed raises its key; QMSG sends its descriptor
on to the core as an open arrival; KEY_ADD and QMSG are refused when the grade has no such core or the core is out of
service (the model's reading: log 59); DONE gives the copy its notice; HOST
stores in task staging without a window. The deferred packets that are due before the next beat are applied and the
others stay. (Rests on: spec/14_rinaz_space.md, spec/12_keys_and_queues.md, spec/20_chanter_mailboxes.md,
spec/22_twin_pairing.md.) -/
def Obligations.OpenPackets : Prop :=
  (∀ (s : State) (op : Nat) (i : Instr), (op, i) ∈ [(0, Instr.openWrite), (1, Instr.openReadReq), (2, Instr.openReadData),
      (3, Instr.openKeyAdd), (4, Instr.openQmsg), (5, Instr.openDone), (7, Instr.openHost)] →
    (s.dev.nextOpen op = none → Becomes i s s.dev)
    ∧ (∀ p, s.dev.nextOpen op = some p → Completes i s (fun e =>
        ∃ l, e.fabric.openIn = s.dev.fabric.openIn.erase p ++ l)))
  ∧ (∀ (s : State) (p : Packet),
    let d := s.dev
    let space := rzSpace p.dest
    let slots := d.openSlots p.dest p.len
    let refused := fun (e : Device) => Sparse.get 0 e.hub.counters 12 = Sparse.get 0 d.hub.counters 12 + 1
      ∧ e.dram = d.dram ∧ e.staging = d.staging
    (d.nextOpen 0 = some p → slots = [] → Completes .openWrite s refused)
    ∧ (∀ t r, d.nextOpen 0 = some p → slots = t :: r → (d.task t).replay = none → 0 < p.len →
      (space = 2 → Completes .openWrite s (fun e => e.dram = d.dram
        ∧ e.staging.bytes = Sparse.setMany 0 d.staging.bytes (rzOff p.dest) (p.marked.map (·.1))))
      ∧ (space = 1 → Completes .openWrite s (fun e => e.dram = d.dram ∧ e.staging = d.staging
        ∧ ∃ x, e.openReads = d.openReads ++ [x] ∧ x.write = true ∧ x.addr = rzOff p.dest ∧ x.len = p.len ∧ x.pk = p))
      ∧ (space = 0 → Completes .openWrite s (fun e => e.dram = d.dram ∧ e.staging = d.staging
        ∧ ∃ x, (e.core (rzCore p.dest)).reqs = (d.core (rzCore p.dest)).reqs ++ [x] ∧ x.write = true
            ∧ x.addr = rzCoreOff p.dest ∧ x.len = p.len ∧ x.pk = p)))
    ∧ (d.nextOpen 1 = some p → slots = [] → Completes .openReadReq s refused)
    ∧ (∀ t r, d.nextOpen 1 = some p → slots = t :: r → (d.task t).replay = none → space = 1 →
        Completes .openReadReq s (fun e => e.dram = d.dram ∧ e.staging = d.staging
          ∧ ∃ x, e.openReads = d.openReads ++ [x] ∧ x.write = false ∧ x.addr = rzOff p.dest ∧ x.len = p.len ∧ x.pk = p))
    ∧ (∀ t r, d.nextOpen 1 = some p → slots = t :: r → (d.task t).replay = none → space = 0 →
        Completes .openReadReq s (fun e => e.dram = d.dram ∧ e.staging = d.staging
          ∧ ∃ x, (e.core (rzCore p.dest)).reqs = (d.core (rzCore p.dest)).reqs ++ [x] ∧ x.write = false
            ∧ x.addr = rzCoreOff p.dest ∧ x.len = p.len ∧ x.pk = p))
    ∧ (d.nextOpen 2 = some p → p.srcDev = d.devNum → (d.core p.srcCore).copyOf p.tag = none →
        (∀ t r, slots = t :: r → (d.task t).replay = none) → Completes .openReadData s refused)
    ∧ (∀ t, d.nextOpen 3 = some p → d.fabric.lasts = [] → d.outstanding p = false → d.power.device = 0 →
        d.hasCore (rzCore p.dest) = true → (d.core (rzCore p.dest)).absent = false → (d.core (rzCore p.dest)).issue = none →
        d.landedOf p.who ≠ some 0 → 0 < p.keyN → (d.core (rzCore p.dest)).power.state = 0 →
        d.keyHolder (rzCore p.dest) (bits p.dest 0 6) = some t → (d.task t).replay = none →
        let c := rzCore p.dest
        let n := d.keyCount c (bits p.dest 0 6) + p.keyN
        n ≤ keyCap (d.keyEntry c t (bits p.dest 0 6 - kBase ((d.core c).bound t))) →
        Completes .openKeyAdd s (fun e => e.keyCount c (bits p.dest 0 6) = n))
    ∧ (d.nextOpen 4 = some p → d.power.device = 0 → d.hasCore (rzCore p.dest) = true →
        (d.core (rzCore p.dest)).absent = false → Completes .openQmsg s (fun e =>
        ∃ m, (e.core (rzCore p.dest)).msgIn = (d.core (rzCore p.dest)).msgIn ++ [m] ∧ m.desc = slice p.data 0 32
          ∧ m.openSlot = true ∧ m.mq = bits p.dest 0 7 ∧ m.dev = p.srcDev ∧ m.core = p.srcCore))
    ∧ (d.hasCore (rzCore p.dest) = false ∨ (d.core (rzCore p.dest)).absent = true →
        (d.nextOpen 3 = some p → Completes .openKeyAdd s refused)
        ∧ (d.nextOpen 4 = some p → Completes .openQmsg s refused))
    ∧ (∀ x, d.nextOpen 5 = some p → p.srcCore ≠ 0xFF → (d.core p.srcCore).copyOf p.tag = some x →
        (d.task x.slot).replay = none → Completes .openDone s (fun e =>
          (e.core p.srcCore).copyOf p.tag = some { x with notice := some p.aux }))
    ∧ (d.nextOpen 7 = some p → space = 2 → rzValid d.grade p.dest p.len = true →
        d.hostBarred 2 (rzOff p.dest) p.len = false → 0 < p.len → Completes .openHost s (fun e => e.dram = d.dram
          ∧ e.staging.bytes = Sparse.setMany 0 d.staging.bytes (rzOff p.dest) (p.marked.map (·.1))))
    ∧ (d.nextOpen 7 = some p → d.hostBarred space (rzOff p.dest) p.len = true → Completes .openHost s (fun e =>
        e.dram = d.dram ∧ e.staging = d.staging)))
  ∧ (∀ s : State,
    let due := fun (p : Nat × Packet) => decide (s.dev.schedOf p.2.v + 4 ≤ s.dev.gate.e + 1)
    (s.dev.fabric.deferred.any due = false → Becomes .openDeferralApply s s.dev)
    ∧ Completes .openDeferralApply s (fun e => e.fabric.deferred = s.dev.fabric.deferred.filter (fun p => !due p)))

/-- O59, tier 2. POWER_CAP_UPDATE, METER_ENERGY_SHARE, rail readings, WAKE_COMPLETE, CORE_REMAP and PACKAGE_FAULT. Each
completes. At its beat the power cap falls by 25 MHz above the limit and rises by 25 below 98 % of it, and stays from
800 to 2,150; a share-out gives every whole uJ that the rails have used to the open entries, the rest to the device
entry, and keeps the remainder; a reading of a rail is held with its energy, and the fourth out of range in a row is a
PACKAGE_FAULT; the status words are held. Off its beat a row changes nothing. A wake that is over makes the core Active,
the quarter and its cores on, or the device out of Parked with clear scratchpads, and POWER_STATUS shows it. A marked core that no task uses is
remapped to a spare physical core, empty, or is out of service without one. A PACKAGE_FAULT is recorded; in a pair it
asks for a mute, and otherwise stops the tasks it hits and takes the unit out of service. (Rests on:
spec/24_power_metering_identity.md, spec/03_self_timed_regions.md, spec/25_pins_and_electrical.md,
spec/23_reliability_and_observation.md.) -/
def Obligations.PowerRows : Prop :=
  (∀ s : State,
    let d := s.dev
    let due := fun (n : Nat) (last : Option Nat) => d.readsRails = true ∧ d.everyBeats n last = true
    (due 64 d.power.capW → Completes .powerCapUpdate s (fun e =>
      e.power.cap = capAfter d.power.cap d.packagePower (d.power.policy.limitW * 1000000)
        ∧ (800 ≤ d.power.cap → d.power.cap ≤ 2150 → 800 ≤ e.power.cap ∧ e.power.cap ≤ 2150)
        ∧ (d.power.policy.limitW * 1000000 < d.packagePower → 825 ≤ d.power.cap → e.power.cap + 25 = d.power.cap)
        ∧ e.power.capW = some d.beat.w))
    ∧ (¬ due 64 d.power.capW → Becomes .powerCapUpdate s d)
    ∧ (due 64 d.power.shareW → (d.ledger.filter (fun e => e.isOpen && e.device)).length = 1 →
      Completes .meterEnergyShare s (fun e =>
        (e.ledger.map (·.microJ)).sum
            = (d.ledger.map (·.microJ)).sum + ((List.range 26).map (fun r => Sparse.get 0 d.power.energy r / 10 ^ 9)).sum
          ∧ (∀ r, r < 26 → Sparse.get 0 e.power.energy r = Sparse.get 0 d.power.energy r % 10 ^ 9)
          ∧ e.power.shareW = some d.beat.w))
    ∧ (¬ due 64 d.power.shareW → Becomes .meterEnergyShare s d)
    ∧ (∀ r mv ma, due 32 d.power.railW → d.hasRail r = true →
      (d.railBad r mv = false → Completes (.railTelemetryRead [(r, mv, ma)]) s (fun e =>
        Sparse.get (0, 0) e.power.rails r = (mv, ma) ∧ Sparse.get 0 e.power.bad r = 0
          ∧ Sparse.get 0 e.power.energy r = Sparse.get 0 d.power.energy r + mv * ma * 32768 ∧ e.power.railW = some d.beat.w))
      ∧ (d.railBad r mv = true → Sparse.get 0 d.power.bad r = 3 → Completes (.railTelemetryRead [(r, mv, ma)]) s (fun e =>
          ∃ x ∈ e.hub.health, x.code = 0x0205 ∧ x.cause = 0 ∧ x.dLo = r)))
    ∧ (∀ l, ¬ due 32 d.power.railW → Becomes (.railTelemetryRead l) s d)
    ∧ (∀ l, due 1024 d.power.statusW → Completes (.railStatusRead l) s (fun e =>
        (∀ r, r ∈ e.power.status ↔ r < 26 ∧ r ∈ l ∧ d.hasRail r = true) ∧ e.power.statusW = some d.beat.w))
    ∧ (∀ l, ¬ due 1024 d.power.statusW → Becomes (.railStatusRead l) s d))
  ∧ (∀ (s : State) (c : Nat), s.dev.hasCore c = true →
    let d := s.dev
    let k := d.core c
    (k.power.waking = some 0 → Completes (.wakeComplete 0 c) s (fun e =>
        e.core c = { k with power := { k.power with state := 0, waking := none } } ∧ (∀ x, x ≠ c → e.core x = d.core x)
          ∧ e.tasks = d.tasks ∧ e.power.shown = e.powerWord))
    ∧ (k.power.waking ≠ some 0 → Becomes (.wakeComplete 0 c) s d)
    ∧ (k.marked = false ∨ k.absent = true ∨ d.slotsOn c ≠ [] ∨ d.boot.phase ≠ .running → Becomes (.coreRemap c) s d)
    ∧ (k.marked = true → k.absent = false → d.slotsOn c = [] → d.boot.phase = .running →
      (d.spareCore (d.quarterOf c) = none → Completes (.coreRemap c) s (fun e => (e.core c).absent = true
        ∧ (e.core c).marked = false ∧ e.lastRecord = some (0x0010, 0, 1, c)))
      ∧ (∀ p, d.spareCore (d.quarterOf c) = some p → Completes (.coreRemap c) s (fun e => (e.core c).phys = some p
          ∧ (e.core c).marked = false ∧ (e.core c).spad = Mem.reset ∧ (e.core c).retired = []
          ∧ (e.core c).counters = k.counters ∧ (∀ x, x ≠ c → e.core x = d.core x)
          ∧ e.lastRecord = some (0x0010, b2n (decide (d.ident.repairLeft = 0)), 1, c)))))
  ∧ (∀ (s : State) (q : Nat), q < 4 →
    let d := s.dev
    (Sparse.get 0 d.power.quarters q = 7 → Sparse.get 0 d.power.qWake q = 0 → Completes (.wakeComplete 1 q) s (fun e =>
      Sparse.get 0 e.power.quarters q = 0
        ∧ (∀ c ∈ d.coresOfQuarter q, (e.core c).power.state = 0 ∧ (e.core c).power.waking = none)
        ∧ (∀ x, x ∉ d.coresOfQuarter q → e.core x = d.core x) ∧ e.power.shown = e.powerWord))
    ∧ (Sparse.get 0 d.power.quarters q ≠ 7 ∨ Sparse.get 0 d.power.qWake q ≠ 0 → Becomes (.wakeComplete 1 q) s d))
  ∧ (∀ (s : State) (u : Nat),
    (s.dev.power.device = 5 → s.dev.power.devWake = 0 → Completes (.wakeComplete 2 u) s (fun e =>
      e.power.device = 0 ∧ (∀ c, s.dev.hasCore c = true → (e.core c).spad = Mem.reset) ∧ e.power.shown = e.powerWord))
    ∧ (s.dev.power.device ≠ 5 ∨ s.dev.power.devWake ≠ 0 → Becomes (.wakeComplete 2 u) s s.dev))
  ∧ (∀ (s : State) (cause unit : Nat), unitExists s.dev (.packageFault cause unit) = true →
    let d := s.dev
    Completes (.packageFault cause unit) s (fun e =>
      (∃ x ∈ e.hub.health, x.code = 0x0205 ∧ x.cause = cause ∧ x.index = d.hub.healthNext)
      ∧ (d.inPair = true → e.twin.muteReq = 1 ∧ e.cores = d.cores ∧ e.tasks = d.tasks)
      ∧ (d.inPair = false →
        (∀ t ∈ d.boundSlots, d.hitBy cause (if cause = 0 then 0 else unit) t = true → (d.task t).state ≠ 5 →
          (e.task t).stopping = true)
        ∧ (cause = 1 ∨ cause = 2 → ∀ c ∈ d.coresOfQuarter unit, (e.core c).absent = true)
        ∧ (cause = 3 → (e.stack unit).absent = true)
        ∧ (cause = 0 ∨ cause = 4 → ∀ p, d.hasPort p = true → (e.port p).step = 0))))

/-- O60, tier 2. Every memory has the canonical form at reset, and the rows that move memory bytes keep it. Scratchpads,
DRAM, hub staging, host memory and the boot flash have addresses that rise strictly and list nothing that equals what an
unlisted address reads as, at reset (the model's choice for the unlisted values: logs 5 and 47). BAR2_WRITE, CTX_SAVE,
SLIP_WRITE, OUTBOX_READY, TW_COPY, DRAM_SCRUB, STAGING_SCRUB, and SCRUB_CYCLE on a core with no sc under way keep that
form from every state that has it, so that equal memories stay equal data. (Rests on: spec/10_scratchpad.md,
spec/11_copies_and_dram.md, spec/13_fabric_links.md, spec/22_twin_pairing.md.) -/
def Obligations.MemoriesKeepTheirForm : Prop :=
  Memory.wf State.reset.dev = true
  ∧ ∀ (s t : State), Memory.wf s.dev = true →
    (∀ off data, exec (.bar2Write off data) s = .next t → Memory.wf t.dev = true)
    ∧ (∀ mb, exec (.ctxSave mb) s = .next t → Memory.wf t.dev = true)
    ∧ (∀ p, exec (.slipWrite p) s = .next t → Memory.wf t.dev = true)
    ∧ (∀ p pos, exec (.outboxReady p pos) s = .next t → Memory.wf t.dev = true)
    ∧ (∀ r, exec (.twCopy r) s = .next t → Memory.wf t.dev = true)
    ∧ (∀ k, exec (.dramScrub k) s = .next t → Memory.wf t.dev = true)
    ∧ (exec .stagingScrub s = .next t → Memory.wf t.dev = true)
    ∧ (∀ c, (s.dev.core c).issue = none → exec (.scrubCycle c) s = .next t → Memory.wf t.dev = true)
end

