-- ==== Sys2Proof/Laws/Sparse.lean ====
section
/-! SUPPORT. Laws/Sparse.lean: tables in canonical form: what a key reads after a write, and that every operation keeps the form. -/

namespace Sys2Proof.Machine

variable {α : Type}

theorem Sparse.get_nil (d : α) (k : Nat) : Sparse.get d [] k = d := rfl

/-- Keys below the lower bound of a rising table read as unlisted. -/
theorem Sparse.get_below (d : α) (m : Sparse α) (b k : Nat) (h : Sparse.rising b m = true) (hk : k < b) :
    Sparse.get d m k = d := by
  induction m generalizing b with
  | nil => rfl
  | cons e r ih =>
    obtain ⟨j, v⟩ := e
    simp only [Sparse.rising, Bool.and_eq_true, decide_eq_true_eq] at h
    have : ¬ j = k := by omega
    simp [Sparse.get, this, ih (j + 1) h.2 (by omega)]

theorem Sparse.rising_mono (m : Sparse α) (b c : Nat) (h : Sparse.rising b m = true) (hc : c ≤ b) :
    Sparse.rising c m = true := by
  cases m with
  | nil => rfl
  | cons e r =>
    obtain ⟨j, v⟩ := e
    simp only [Sparse.rising, Bool.and_eq_true, decide_eq_true_eq] at h ⊢
    exact ⟨by omega, h.2⟩

theorem Sparse.rising_filter (m : Sparse α) (b : Nat) (p : Nat × α → Bool) (h : Sparse.rising b m = true) :
    Sparse.rising b (m.filter p) = true := by
  induction m generalizing b with
  | nil => rfl
  | cons e r ih =>
    obtain ⟨j, v⟩ := e
    simp only [Sparse.rising, Bool.and_eq_true, decide_eq_true_eq] at h
    by_cases hp : p (j, v) = true
    · simp [hp, Sparse.rising, h.1, ih (j + 1) h.2]
    · simpa [hp] using ih b (Sparse.rising_mono r _ _ h.2 (by omega))

/-- Filtering keeps the canonical form. -/
theorem Sparse.wf_filter [DecidableEq α] (d : α) (m : Sparse α) (p : Nat × α → Bool) (h : Sparse.wf d m = true) :
    Sparse.wf d (m.filter p) = true := by
  simp only [Sparse.wf, Bool.and_eq_true] at h ⊢
  refine ⟨Sparse.rising_filter m 0 p h.1, ?_⟩
  rw [List.all_eq_true] at h ⊢
  exact fun e he => h.2 e (List.mem_filter.mp he).1

theorem Sparse.wf_erase [DecidableEq α] (d : α) (m : Sparse α) (k : Nat) (h : Sparse.wf d m = true) :
    Sparse.wf d (Sparse.erase m k) = true := Sparse.wf_filter d m _ h

theorem Sparse.rising_insert (m : Sparse α) (b k : Nat) (v : α) (h : Sparse.rising b m = true) (hb : b ≤ k)
    (hk : ∀ e ∈ m, e.1 ≠ k) : Sparse.rising b (Sparse.insert m k v) = true := by
  induction m generalizing b with
  | nil => simp [Sparse.insert, Sparse.rising, hb]
  | cons e r ih =>
    obtain ⟨j, w⟩ := e
    simp only [Sparse.rising, Bool.and_eq_true, decide_eq_true_eq] at h
    have hj : j ≠ k := hk (j, w) (by simp)
    by_cases hlt : k < j
    · simp only [Sparse.insert, if_pos hlt, Sparse.rising, Bool.and_eq_true, decide_eq_true_eq]
      exact ⟨hb, by omega, h.2⟩
    · simp only [Sparse.insert, if_neg hlt, Sparse.rising, Bool.and_eq_true, decide_eq_true_eq]
      exact ⟨h.1, ih (j + 1) h.2 (by omega) (fun e he => hk e (by simp [he]))⟩

theorem Sparse.mem_insert (m : Sparse α) (k : Nat) (v : α) (e : Nat × α) (h : e ∈ Sparse.insert m k v) :
    e = (k, v) ∨ e ∈ m := by
  induction m with
  | nil => simpa [Sparse.insert] using h
  | cons f r ih =>
    obtain ⟨j, w⟩ := f
    simp only [Sparse.insert] at h
    split at h <;> simp at h <;> grind

theorem Sparse.not_mem_erase (m : Sparse α) (k : Nat) : ∀ e ∈ Sparse.erase m k, e.1 ≠ k := by
  intro e he
  simpa [Sparse.erase] using (List.mem_filter.mp he).2

/-- A write keeps the canonical form. -/
theorem Sparse.wf_set [DecidableEq α] (d : α) (m : Sparse α) (k : Nat) (v : α) (h : Sparse.wf d m = true) :
    Sparse.wf d (Sparse.set d m k v) = true := by
  have he := Sparse.wf_erase d m k h
  by_cases hv : v = d
  · simpa [Sparse.set, hv] using he
  · simp only [Sparse.set, if_neg hv]
    simp only [Sparse.wf, Bool.and_eq_true] at he ⊢
    refine ⟨Sparse.rising_insert _ 0 k v he.1 (Nat.zero_le _) (Sparse.not_mem_erase m k), ?_⟩
    rw [List.all_eq_true] at he ⊢
    intro e hm
    rcases Sparse.mem_insert _ _ _ _ hm with rfl | hm
    · simpa using hv
    · exact he.2 e hm

/-- A write of many values keeps the canonical form. -/
theorem Sparse.wf_setMany [DecidableEq α] (d : α) (m : Sparse α) (k : Nat) (vs : List α) (h : Sparse.wf d m = true) :
    Sparse.wf d (Sparse.setMany d m k vs) = true := by
  induction vs generalizing m k with
  | nil => simpa [Sparse.setMany] using h
  | cons v r ih => simpa [Sparse.setMany] using ih _ _ (Sparse.wf_set d m k v h)

theorem Sparse.get_erase_same (d : α) (m : Sparse α) (k : Nat) : Sparse.get d (Sparse.erase m k) k = d := by
  induction m with
  | nil => rfl
  | cons e r ih =>
    obtain ⟨j, v⟩ := e
    by_cases hj : j = k <;> simp_all [Sparse.erase, Sparse.get]

theorem Sparse.get_erase_other (d : α) (m : Sparse α) (k i : Nat) (hi : i ≠ k) :
    Sparse.get d (Sparse.erase m k) i = Sparse.get d m i := by
  induction m with
  | nil => rfl
  | cons e r ih =>
    obtain ⟨j, v⟩ := e
    by_cases hj : j = k
    · have : ¬ j = i := by omega
      simp_all [Sparse.erase, Sparse.get]
    · simp_all [Sparse.erase, Sparse.get]

theorem Sparse.get_insert (d : α) (m : Sparse α) (k i : Nat) (v : α) (hk : ∀ e ∈ m, e.1 ≠ k) :
    Sparse.get d (Sparse.insert m k v) i = if i = k then v else Sparse.get d m i := by
  induction m with
  | nil => by_cases h : k = i <;> simp [Sparse.insert, Sparse.get, h, eq_comm]
  | cons e r ih =>
    obtain ⟨j, w⟩ := e
    have hj : j ≠ k := hk (j, w) (by simp)
    have ih := ih (fun e he => hk e (by simp [he]))
    by_cases hlt : k < j
    · rw [Sparse.insert, if_pos hlt]
      by_cases h : k = i
      · simp [Sparse.get, h]
      · simp [Sparse.get, h, Ne.symm h]
    · by_cases h : i = k
      · subst h; simp [Sparse.insert, hlt, Sparse.get, hj, ih]
      · simp [Sparse.insert, hlt, Sparse.get, ih, h]

/-- A read after a write to any key. -/
theorem Sparse.get_set [DecidableEq α] (d : α) (m : Sparse α) (k i : Nat) (v : α) :
    Sparse.get d (Sparse.set d m k v) i = if i = k then v else Sparse.get d m i := by
  by_cases hv : v = d
  · by_cases h : i = k
    · subst h; simp [Sparse.set, hv, Sparse.get_erase_same]
    · simp [Sparse.set, hv, h, Sparse.get_erase_other]
  · simp only [Sparse.set, if_neg hv]
    rw [Sparse.get_insert _ _ _ _ _ (Sparse.not_mem_erase m k)]
    by_cases h : i = k
    · simp [h]
    · simp [h, Sparse.get_erase_other]

@[simp] theorem Sparse.get_set_same [DecidableEq α] (d : α) (m : Sparse α) (k : Nat) (v : α) :
    Sparse.get d (Sparse.set d m k v) k = v := by simp [Sparse.get_set]

theorem Sparse.get_set_other [DecidableEq α] (d : α) (m : Sparse α) (k i : Nat) (v : α) (h : i ≠ k) :
    Sparse.get d (Sparse.set d m k v) i = Sparse.get d m i := by simp [Sparse.get_set, h]

/-- A read outside a write of many values. -/
theorem Sparse.get_setMany_outside [DecidableEq α] (d : α) (m : Sparse α) (k i : Nat) (vs : List α)
    (h : i < k ∨ k + vs.length ≤ i) : Sparse.get d (Sparse.setMany d m k vs) i = Sparse.get d m i := by
  induction vs generalizing m k with
  | nil => rfl
  | cons v r ih =>
    simp only [List.length_cons] at h
    rw [Sparse.setMany, ih _ _ (by omega), Sparse.get_set_other _ _ _ _ _ (by omega)]

/-- A read inside a write of many values. -/
theorem Sparse.get_setMany_inside [DecidableEq α] (d : α) (m : Sparse α) (k j : Nat) (vs : List α) (h : j < vs.length) :
    Sparse.get d (Sparse.setMany d m k vs) (k + j) = vs[j] := by
  induction vs generalizing m k j with
  | nil => simp at h
  | cons v r ih =>
    rw [Sparse.setMany]
    cases j with
    | zero => rw [Sparse.get_setMany_outside _ _ _ _ _ (by omega)]; simp
    | succ j =>
      simp only [List.length_cons, Nat.add_lt_add_iff_right] at h
      have := ih (Sparse.set d m k v) (k + 1) j h
      rw [show k + (j + 1) = k + 1 + j by omega, this]
      simp

end Sys2Proof.Machine
end

