-- ==== Sys2Proof/Laws/State.lean ====
section
/-! SUPPORT. Laws/State.lean: what each update of the device leaves alone, and what it changes: one lemma per field per update. -/

namespace Sys2Proof.Machine

/-! ### setCore -/

@[simp] theorem Device.setCore_beat (d : Device) (c : Nat) (k : Core) : (d.setCore c k).beat = d.beat := rfl
@[simp] theorem Device.setCore_ident (d : Device) (c : Nat) (k : Core) : (d.setCore c k).ident = d.ident := rfl
@[simp] theorem Device.setCore_pins (d : Device) (c : Nat) (k : Core) : (d.setCore c k).pins = d.pins := rfl
@[simp] theorem Device.setCore_drone (d : Device) (c : Nat) (k : Core) : (d.setCore c k).drone = d.drone := rfl
@[simp] theorem Device.setCore_hold (d : Device) (c : Nat) (k : Core) : (d.setCore c k).hold = d.hold := rfl
@[simp] theorem Device.setCore_gate (d : Device) (c : Nat) (k : Core) : (d.setCore c k).gate = d.gate := rfl
@[simp] theorem Device.setCore_regions (d : Device) (c : Nat) (k : Core) : (d.setCore c k).regions = d.regions := rfl
@[simp] theorem Device.setCore_tasks (d : Device) (c : Nat) (k : Core) : (d.setCore c k).tasks = d.tasks := rfl
@[simp] theorem Device.setCore_dram (d : Device) (c : Nat) (k : Core) : (d.setCore c k).dram = d.dram := rfl
@[simp] theorem Device.setCore_stackRecs (d : Device) (c : Nat) (k : Core) : (d.setCore c k).stackRecs = d.stackRecs := rfl
@[simp] theorem Device.setCore_tick (d : Device) (c : Nat) (k : Core) : (d.setCore c k).tick = d.tick := rfl
@[simp] theorem Device.setCore_openReads (d : Device) (c : Nat) (k : Core) : (d.setCore c k).openReads = d.openReads := rfl
@[simp] theorem Device.setCore_staging (d : Device) (c : Nat) (k : Core) : (d.setCore c k).staging = d.staging := rfl
@[simp] theorem Device.setCore_fabric (d : Device) (c : Nat) (k : Core) : (d.setCore c k).fabric = d.fabric := rfl
@[simp] theorem Device.setCore_host (d : Device) (c : Nat) (k : Core) : (d.setCore c k).host = d.host := rfl
@[simp] theorem Device.setCore_hub (d : Device) (c : Nat) (k : Core) : (d.setCore c k).hub = d.hub := rfl
@[simp] theorem Device.setCore_shadow (d : Device) (c : Nat) (k : Core) : (d.setCore c k).shadow = d.shadow := rfl
@[simp] theorem Device.setCore_power (d : Device) (c : Nat) (k : Core) : (d.setCore c k).power = d.power := rfl
@[simp] theorem Device.setCore_ledger (d : Device) (c : Nat) (k : Core) : (d.setCore c k).ledger = d.ledger := rfl
@[simp] theorem Device.setCore_logger (d : Device) (c : Nat) (k : Core) : (d.setCore c k).logger = d.logger := rfl
@[simp] theorem Device.setCore_twin (d : Device) (c : Nat) (k : Core) : (d.setCore c k).twin = d.twin := rfl
@[simp] theorem Device.setCore_boot (d : Device) (c : Nat) (k : Core) : (d.setCore c k).boot = d.boot := rfl
@[simp] theorem Device.setCore_free (d : Device) (c : Nat) (k : Core) : (d.setCore c k).free = d.free := rfl
@[simp] theorem Device.setCore_cross (d : Device) (c : Nat) (k : Core) : (d.setCore c k).cross = d.cross := rfl
@[simp] theorem Device.setCore_crossNum (d : Device) (c : Nat) (k : Core) : (d.setCore c k).crossNum = d.crossNum := rfl

/-! ### onCore -/

@[simp] theorem Device.onCore_beat (d : Device) (c : Nat) (f : Core → Core) : (d.onCore c f).beat = d.beat := rfl
@[simp] theorem Device.onCore_ident (d : Device) (c : Nat) (f : Core → Core) : (d.onCore c f).ident = d.ident := rfl
@[simp] theorem Device.onCore_pins (d : Device) (c : Nat) (f : Core → Core) : (d.onCore c f).pins = d.pins := rfl
@[simp] theorem Device.onCore_drone (d : Device) (c : Nat) (f : Core → Core) : (d.onCore c f).drone = d.drone := rfl
@[simp] theorem Device.onCore_hold (d : Device) (c : Nat) (f : Core → Core) : (d.onCore c f).hold = d.hold := rfl
@[simp] theorem Device.onCore_gate (d : Device) (c : Nat) (f : Core → Core) : (d.onCore c f).gate = d.gate := rfl
@[simp] theorem Device.onCore_regions (d : Device) (c : Nat) (f : Core → Core) : (d.onCore c f).regions = d.regions := rfl
@[simp] theorem Device.onCore_tasks (d : Device) (c : Nat) (f : Core → Core) : (d.onCore c f).tasks = d.tasks := rfl
@[simp] theorem Device.onCore_dram (d : Device) (c : Nat) (f : Core → Core) : (d.onCore c f).dram = d.dram := rfl
@[simp] theorem Device.onCore_stackRecs (d : Device) (c : Nat) (f : Core → Core) : (d.onCore c f).stackRecs = d.stackRecs := rfl
@[simp] theorem Device.onCore_tick (d : Device) (c : Nat) (f : Core → Core) : (d.onCore c f).tick = d.tick := rfl
@[simp] theorem Device.onCore_openReads (d : Device) (c : Nat) (f : Core → Core) : (d.onCore c f).openReads = d.openReads := rfl
@[simp] theorem Device.onCore_staging (d : Device) (c : Nat) (f : Core → Core) : (d.onCore c f).staging = d.staging := rfl
@[simp] theorem Device.onCore_fabric (d : Device) (c : Nat) (f : Core → Core) : (d.onCore c f).fabric = d.fabric := rfl
@[simp] theorem Device.onCore_host (d : Device) (c : Nat) (f : Core → Core) : (d.onCore c f).host = d.host := rfl
@[simp] theorem Device.onCore_hub (d : Device) (c : Nat) (f : Core → Core) : (d.onCore c f).hub = d.hub := rfl
@[simp] theorem Device.onCore_shadow (d : Device) (c : Nat) (f : Core → Core) : (d.onCore c f).shadow = d.shadow := rfl
@[simp] theorem Device.onCore_power (d : Device) (c : Nat) (f : Core → Core) : (d.onCore c f).power = d.power := rfl
@[simp] theorem Device.onCore_ledger (d : Device) (c : Nat) (f : Core → Core) : (d.onCore c f).ledger = d.ledger := rfl
@[simp] theorem Device.onCore_logger (d : Device) (c : Nat) (f : Core → Core) : (d.onCore c f).logger = d.logger := rfl
@[simp] theorem Device.onCore_twin (d : Device) (c : Nat) (f : Core → Core) : (d.onCore c f).twin = d.twin := rfl
@[simp] theorem Device.onCore_boot (d : Device) (c : Nat) (f : Core → Core) : (d.onCore c f).boot = d.boot := rfl
@[simp] theorem Device.onCore_free (d : Device) (c : Nat) (f : Core → Core) : (d.onCore c f).free = d.free := rfl
@[simp] theorem Device.onCore_cross (d : Device) (c : Nat) (f : Core → Core) : (d.onCore c f).cross = d.cross := rfl
@[simp] theorem Device.onCore_crossNum (d : Device) (c : Nat) (f : Core → Core) : (d.onCore c f).crossNum = d.crossNum := rfl

/-! ### setTask -/

@[simp] theorem Device.setTask_beat (d : Device) (t : Nat) (k : Task) : (d.setTask t k).beat = d.beat := rfl
@[simp] theorem Device.setTask_ident (d : Device) (t : Nat) (k : Task) : (d.setTask t k).ident = d.ident := rfl
@[simp] theorem Device.setTask_pins (d : Device) (t : Nat) (k : Task) : (d.setTask t k).pins = d.pins := rfl
@[simp] theorem Device.setTask_drone (d : Device) (t : Nat) (k : Task) : (d.setTask t k).drone = d.drone := rfl
@[simp] theorem Device.setTask_hold (d : Device) (t : Nat) (k : Task) : (d.setTask t k).hold = d.hold := rfl
@[simp] theorem Device.setTask_gate (d : Device) (t : Nat) (k : Task) : (d.setTask t k).gate = d.gate := rfl
@[simp] theorem Device.setTask_regions (d : Device) (t : Nat) (k : Task) : (d.setTask t k).regions = d.regions := rfl
@[simp] theorem Device.setTask_cores (d : Device) (t : Nat) (k : Task) : (d.setTask t k).cores = d.cores := rfl
@[simp] theorem Device.setTask_dram (d : Device) (t : Nat) (k : Task) : (d.setTask t k).dram = d.dram := rfl
@[simp] theorem Device.setTask_stackRecs (d : Device) (t : Nat) (k : Task) : (d.setTask t k).stackRecs = d.stackRecs := rfl
@[simp] theorem Device.setTask_tick (d : Device) (t : Nat) (k : Task) : (d.setTask t k).tick = d.tick := rfl
@[simp] theorem Device.setTask_openReads (d : Device) (t : Nat) (k : Task) : (d.setTask t k).openReads = d.openReads := rfl
@[simp] theorem Device.setTask_staging (d : Device) (t : Nat) (k : Task) : (d.setTask t k).staging = d.staging := rfl
@[simp] theorem Device.setTask_fabric (d : Device) (t : Nat) (k : Task) : (d.setTask t k).fabric = d.fabric := rfl
@[simp] theorem Device.setTask_host (d : Device) (t : Nat) (k : Task) : (d.setTask t k).host = d.host := rfl
@[simp] theorem Device.setTask_hub (d : Device) (t : Nat) (k : Task) : (d.setTask t k).hub = d.hub := rfl
@[simp] theorem Device.setTask_shadow (d : Device) (t : Nat) (k : Task) : (d.setTask t k).shadow = d.shadow := rfl
@[simp] theorem Device.setTask_power (d : Device) (t : Nat) (k : Task) : (d.setTask t k).power = d.power := rfl
@[simp] theorem Device.setTask_ledger (d : Device) (t : Nat) (k : Task) : (d.setTask t k).ledger = d.ledger := rfl
@[simp] theorem Device.setTask_logger (d : Device) (t : Nat) (k : Task) : (d.setTask t k).logger = d.logger := rfl
@[simp] theorem Device.setTask_twin (d : Device) (t : Nat) (k : Task) : (d.setTask t k).twin = d.twin := rfl
@[simp] theorem Device.setTask_boot (d : Device) (t : Nat) (k : Task) : (d.setTask t k).boot = d.boot := rfl
@[simp] theorem Device.setTask_free (d : Device) (t : Nat) (k : Task) : (d.setTask t k).free = d.free := rfl
@[simp] theorem Device.setTask_cross (d : Device) (t : Nat) (k : Task) : (d.setTask t k).cross = d.cross := rfl
@[simp] theorem Device.setTask_crossNum (d : Device) (t : Nat) (k : Task) : (d.setTask t k).crossNum = d.crossNum := rfl

/-! ### onTask -/

@[simp] theorem Device.onTask_beat (d : Device) (t : Nat) (f : Task → Task) : (d.onTask t f).beat = d.beat := rfl
@[simp] theorem Device.onTask_ident (d : Device) (t : Nat) (f : Task → Task) : (d.onTask t f).ident = d.ident := rfl
@[simp] theorem Device.onTask_pins (d : Device) (t : Nat) (f : Task → Task) : (d.onTask t f).pins = d.pins := rfl
@[simp] theorem Device.onTask_drone (d : Device) (t : Nat) (f : Task → Task) : (d.onTask t f).drone = d.drone := rfl
@[simp] theorem Device.onTask_hold (d : Device) (t : Nat) (f : Task → Task) : (d.onTask t f).hold = d.hold := rfl
@[simp] theorem Device.onTask_gate (d : Device) (t : Nat) (f : Task → Task) : (d.onTask t f).gate = d.gate := rfl
@[simp] theorem Device.onTask_regions (d : Device) (t : Nat) (f : Task → Task) : (d.onTask t f).regions = d.regions := rfl
@[simp] theorem Device.onTask_cores (d : Device) (t : Nat) (f : Task → Task) : (d.onTask t f).cores = d.cores := rfl
@[simp] theorem Device.onTask_dram (d : Device) (t : Nat) (f : Task → Task) : (d.onTask t f).dram = d.dram := rfl
@[simp] theorem Device.onTask_stackRecs (d : Device) (t : Nat) (f : Task → Task) : (d.onTask t f).stackRecs = d.stackRecs := rfl
@[simp] theorem Device.onTask_tick (d : Device) (t : Nat) (f : Task → Task) : (d.onTask t f).tick = d.tick := rfl
@[simp] theorem Device.onTask_openReads (d : Device) (t : Nat) (f : Task → Task) : (d.onTask t f).openReads = d.openReads := rfl
@[simp] theorem Device.onTask_staging (d : Device) (t : Nat) (f : Task → Task) : (d.onTask t f).staging = d.staging := rfl
@[simp] theorem Device.onTask_fabric (d : Device) (t : Nat) (f : Task → Task) : (d.onTask t f).fabric = d.fabric := rfl
@[simp] theorem Device.onTask_host (d : Device) (t : Nat) (f : Task → Task) : (d.onTask t f).host = d.host := rfl
@[simp] theorem Device.onTask_hub (d : Device) (t : Nat) (f : Task → Task) : (d.onTask t f).hub = d.hub := rfl
@[simp] theorem Device.onTask_shadow (d : Device) (t : Nat) (f : Task → Task) : (d.onTask t f).shadow = d.shadow := rfl
@[simp] theorem Device.onTask_power (d : Device) (t : Nat) (f : Task → Task) : (d.onTask t f).power = d.power := rfl
@[simp] theorem Device.onTask_ledger (d : Device) (t : Nat) (f : Task → Task) : (d.onTask t f).ledger = d.ledger := rfl
@[simp] theorem Device.onTask_logger (d : Device) (t : Nat) (f : Task → Task) : (d.onTask t f).logger = d.logger := rfl
@[simp] theorem Device.onTask_twin (d : Device) (t : Nat) (f : Task → Task) : (d.onTask t f).twin = d.twin := rfl
@[simp] theorem Device.onTask_boot (d : Device) (t : Nat) (f : Task → Task) : (d.onTask t f).boot = d.boot := rfl
@[simp] theorem Device.onTask_free (d : Device) (t : Nat) (f : Task → Task) : (d.onTask t f).free = d.free := rfl
@[simp] theorem Device.onTask_cross (d : Device) (t : Nat) (f : Task → Task) : (d.onTask t f).cross = d.cross := rfl
@[simp] theorem Device.onTask_crossNum (d : Device) (t : Nat) (f : Task → Task) : (d.onTask t f).crossNum = d.crossNum := rfl

/-! ### onStack -/

@[simp] theorem Device.onStack_beat (d : Device) (k : Nat) (f : Stack → Stack) : (d.onStack k f).beat = d.beat := rfl
@[simp] theorem Device.onStack_ident (d : Device) (k : Nat) (f : Stack → Stack) : (d.onStack k f).ident = d.ident := rfl
@[simp] theorem Device.onStack_pins (d : Device) (k : Nat) (f : Stack → Stack) : (d.onStack k f).pins = d.pins := rfl
@[simp] theorem Device.onStack_drone (d : Device) (k : Nat) (f : Stack → Stack) : (d.onStack k f).drone = d.drone := rfl
@[simp] theorem Device.onStack_hold (d : Device) (k : Nat) (f : Stack → Stack) : (d.onStack k f).hold = d.hold := rfl
@[simp] theorem Device.onStack_gate (d : Device) (k : Nat) (f : Stack → Stack) : (d.onStack k f).gate = d.gate := rfl
@[simp] theorem Device.onStack_regions (d : Device) (k : Nat) (f : Stack → Stack) : (d.onStack k f).regions = d.regions := rfl
@[simp] theorem Device.onStack_cores (d : Device) (k : Nat) (f : Stack → Stack) : (d.onStack k f).cores = d.cores := rfl
@[simp] theorem Device.onStack_tasks (d : Device) (k : Nat) (f : Stack → Stack) : (d.onStack k f).tasks = d.tasks := rfl
@[simp] theorem Device.onStack_dram (d : Device) (k : Nat) (f : Stack → Stack) : (d.onStack k f).dram = d.dram := rfl
@[simp] theorem Device.onStack_tick (d : Device) (k : Nat) (f : Stack → Stack) : (d.onStack k f).tick = d.tick := rfl
@[simp] theorem Device.onStack_openReads (d : Device) (k : Nat) (f : Stack → Stack) : (d.onStack k f).openReads = d.openReads := rfl
@[simp] theorem Device.onStack_staging (d : Device) (k : Nat) (f : Stack → Stack) : (d.onStack k f).staging = d.staging := rfl
@[simp] theorem Device.onStack_fabric (d : Device) (k : Nat) (f : Stack → Stack) : (d.onStack k f).fabric = d.fabric := rfl
@[simp] theorem Device.onStack_host (d : Device) (k : Nat) (f : Stack → Stack) : (d.onStack k f).host = d.host := rfl
@[simp] theorem Device.onStack_hub (d : Device) (k : Nat) (f : Stack → Stack) : (d.onStack k f).hub = d.hub := rfl
@[simp] theorem Device.onStack_shadow (d : Device) (k : Nat) (f : Stack → Stack) : (d.onStack k f).shadow = d.shadow := rfl
@[simp] theorem Device.onStack_power (d : Device) (k : Nat) (f : Stack → Stack) : (d.onStack k f).power = d.power := rfl
@[simp] theorem Device.onStack_ledger (d : Device) (k : Nat) (f : Stack → Stack) : (d.onStack k f).ledger = d.ledger := rfl
@[simp] theorem Device.onStack_logger (d : Device) (k : Nat) (f : Stack → Stack) : (d.onStack k f).logger = d.logger := rfl
@[simp] theorem Device.onStack_twin (d : Device) (k : Nat) (f : Stack → Stack) : (d.onStack k f).twin = d.twin := rfl
@[simp] theorem Device.onStack_boot (d : Device) (k : Nat) (f : Stack → Stack) : (d.onStack k f).boot = d.boot := rfl
@[simp] theorem Device.onStack_free (d : Device) (k : Nat) (f : Stack → Stack) : (d.onStack k f).free = d.free := rfl
@[simp] theorem Device.onStack_cross (d : Device) (k : Nat) (f : Stack → Stack) : (d.onStack k f).cross = d.cross := rfl
@[simp] theorem Device.onStack_crossNum (d : Device) (k : Nat) (f : Stack → Stack) : (d.onStack k f).crossNum = d.crossNum := rfl

/-! ### onRegion -/

@[simp] theorem Device.onRegion_beat (d : Device) (r : Nat) (f : Region → Region) : (d.onRegion r f).beat = d.beat := rfl
@[simp] theorem Device.onRegion_ident (d : Device) (r : Nat) (f : Region → Region) : (d.onRegion r f).ident = d.ident := rfl
@[simp] theorem Device.onRegion_pins (d : Device) (r : Nat) (f : Region → Region) : (d.onRegion r f).pins = d.pins := rfl
@[simp] theorem Device.onRegion_drone (d : Device) (r : Nat) (f : Region → Region) : (d.onRegion r f).drone = d.drone := rfl
@[simp] theorem Device.onRegion_hold (d : Device) (r : Nat) (f : Region → Region) : (d.onRegion r f).hold = d.hold := rfl
@[simp] theorem Device.onRegion_gate (d : Device) (r : Nat) (f : Region → Region) : (d.onRegion r f).gate = d.gate := rfl
@[simp] theorem Device.onRegion_cores (d : Device) (r : Nat) (f : Region → Region) : (d.onRegion r f).cores = d.cores := rfl
@[simp] theorem Device.onRegion_tasks (d : Device) (r : Nat) (f : Region → Region) : (d.onRegion r f).tasks = d.tasks := rfl
@[simp] theorem Device.onRegion_dram (d : Device) (r : Nat) (f : Region → Region) : (d.onRegion r f).dram = d.dram := rfl
@[simp] theorem Device.onRegion_stackRecs (d : Device) (r : Nat) (f : Region → Region) : (d.onRegion r f).stackRecs = d.stackRecs := rfl
@[simp] theorem Device.onRegion_tick (d : Device) (r : Nat) (f : Region → Region) : (d.onRegion r f).tick = d.tick := rfl
@[simp] theorem Device.onRegion_openReads (d : Device) (r : Nat) (f : Region → Region) : (d.onRegion r f).openReads = d.openReads := rfl
@[simp] theorem Device.onRegion_staging (d : Device) (r : Nat) (f : Region → Region) : (d.onRegion r f).staging = d.staging := rfl
@[simp] theorem Device.onRegion_fabric (d : Device) (r : Nat) (f : Region → Region) : (d.onRegion r f).fabric = d.fabric := rfl
@[simp] theorem Device.onRegion_host (d : Device) (r : Nat) (f : Region → Region) : (d.onRegion r f).host = d.host := rfl
@[simp] theorem Device.onRegion_hub (d : Device) (r : Nat) (f : Region → Region) : (d.onRegion r f).hub = d.hub := rfl
@[simp] theorem Device.onRegion_shadow (d : Device) (r : Nat) (f : Region → Region) : (d.onRegion r f).shadow = d.shadow := rfl
@[simp] theorem Device.onRegion_power (d : Device) (r : Nat) (f : Region → Region) : (d.onRegion r f).power = d.power := rfl
@[simp] theorem Device.onRegion_ledger (d : Device) (r : Nat) (f : Region → Region) : (d.onRegion r f).ledger = d.ledger := rfl
@[simp] theorem Device.onRegion_logger (d : Device) (r : Nat) (f : Region → Region) : (d.onRegion r f).logger = d.logger := rfl
@[simp] theorem Device.onRegion_twin (d : Device) (r : Nat) (f : Region → Region) : (d.onRegion r f).twin = d.twin := rfl
@[simp] theorem Device.onRegion_boot (d : Device) (r : Nat) (f : Region → Region) : (d.onRegion r f).boot = d.boot := rfl
@[simp] theorem Device.onRegion_free (d : Device) (r : Nat) (f : Region → Region) : (d.onRegion r f).free = d.free := rfl
@[simp] theorem Device.onRegion_cross (d : Device) (r : Nat) (f : Region → Region) : (d.onRegion r f).cross = d.cross := rfl
@[simp] theorem Device.onRegion_crossNum (d : Device) (r : Nat) (f : Region → Region) : (d.onRegion r f).crossNum = d.crossNum := rfl

/-! ### onPort -/

@[simp] theorem Device.onPort_planOn (d : Device) (p : Nat) (f : Port → Port) : (d.onPort p f).fabric.planOn = d.fabric.planOn := rfl
@[simp] theorem Device.onPort_base (d : Device) (p : Nat) (f : Port → Port) : (d.onPort p f).fabric.base = d.fabric.base := rfl
@[simp] theorem Device.onPort_beat (d : Device) (p : Nat) (f : Port → Port) : (d.onPort p f).beat = d.beat := rfl
@[simp] theorem Device.onPort_ident (d : Device) (p : Nat) (f : Port → Port) : (d.onPort p f).ident = d.ident := rfl
@[simp] theorem Device.onPort_pins (d : Device) (p : Nat) (f : Port → Port) : (d.onPort p f).pins = d.pins := rfl
@[simp] theorem Device.onPort_drone (d : Device) (p : Nat) (f : Port → Port) : (d.onPort p f).drone = d.drone := rfl
@[simp] theorem Device.onPort_hold (d : Device) (p : Nat) (f : Port → Port) : (d.onPort p f).hold = d.hold := rfl
@[simp] theorem Device.onPort_gate (d : Device) (p : Nat) (f : Port → Port) : (d.onPort p f).gate = d.gate := rfl
@[simp] theorem Device.onPort_regions (d : Device) (p : Nat) (f : Port → Port) : (d.onPort p f).regions = d.regions := rfl
@[simp] theorem Device.onPort_cores (d : Device) (p : Nat) (f : Port → Port) : (d.onPort p f).cores = d.cores := rfl
@[simp] theorem Device.onPort_tasks (d : Device) (p : Nat) (f : Port → Port) : (d.onPort p f).tasks = d.tasks := rfl
@[simp] theorem Device.onPort_dram (d : Device) (p : Nat) (f : Port → Port) : (d.onPort p f).dram = d.dram := rfl
@[simp] theorem Device.onPort_stackRecs (d : Device) (p : Nat) (f : Port → Port) : (d.onPort p f).stackRecs = d.stackRecs := rfl
@[simp] theorem Device.onPort_tick (d : Device) (p : Nat) (f : Port → Port) : (d.onPort p f).tick = d.tick := rfl
@[simp] theorem Device.onPort_openReads (d : Device) (p : Nat) (f : Port → Port) : (d.onPort p f).openReads = d.openReads := rfl
@[simp] theorem Device.onPort_staging (d : Device) (p : Nat) (f : Port → Port) : (d.onPort p f).staging = d.staging := rfl
@[simp] theorem Device.onPort_host (d : Device) (p : Nat) (f : Port → Port) : (d.onPort p f).host = d.host := rfl
@[simp] theorem Device.onPort_hub (d : Device) (p : Nat) (f : Port → Port) : (d.onPort p f).hub = d.hub := rfl
@[simp] theorem Device.onPort_shadow (d : Device) (p : Nat) (f : Port → Port) : (d.onPort p f).shadow = d.shadow := rfl
@[simp] theorem Device.onPort_power (d : Device) (p : Nat) (f : Port → Port) : (d.onPort p f).power = d.power := rfl
@[simp] theorem Device.onPort_ledger (d : Device) (p : Nat) (f : Port → Port) : (d.onPort p f).ledger = d.ledger := rfl
@[simp] theorem Device.onPort_logger (d : Device) (p : Nat) (f : Port → Port) : (d.onPort p f).logger = d.logger := rfl
@[simp] theorem Device.onPort_twin (d : Device) (p : Nat) (f : Port → Port) : (d.onPort p f).twin = d.twin := rfl
@[simp] theorem Device.onPort_boot (d : Device) (p : Nat) (f : Port → Port) : (d.onPort p f).boot = d.boot := rfl
@[simp] theorem Device.onPort_free (d : Device) (p : Nat) (f : Port → Port) : (d.onPort p f).free = d.free := rfl
@[simp] theorem Device.onPort_cross (d : Device) (p : Nat) (f : Port → Port) : (d.onPort p f).cross = d.cross := rfl
@[simp] theorem Device.onPort_crossNum (d : Device) (p : Nat) (f : Port → Port) : (d.onPort p f).crossNum = d.crossNum := rfl

/-! ### onMbx -/

@[simp] theorem Device.onMbx_beat (d : Device) (m : Nat) (f : Mbx → Mbx) : (d.onMbx m f).beat = d.beat := rfl
@[simp] theorem Device.onMbx_ident (d : Device) (m : Nat) (f : Mbx → Mbx) : (d.onMbx m f).ident = d.ident := rfl
@[simp] theorem Device.onMbx_pins (d : Device) (m : Nat) (f : Mbx → Mbx) : (d.onMbx m f).pins = d.pins := rfl
@[simp] theorem Device.onMbx_drone (d : Device) (m : Nat) (f : Mbx → Mbx) : (d.onMbx m f).drone = d.drone := rfl
@[simp] theorem Device.onMbx_hold (d : Device) (m : Nat) (f : Mbx → Mbx) : (d.onMbx m f).hold = d.hold := rfl
@[simp] theorem Device.onMbx_gate (d : Device) (m : Nat) (f : Mbx → Mbx) : (d.onMbx m f).gate = d.gate := rfl
@[simp] theorem Device.onMbx_regions (d : Device) (m : Nat) (f : Mbx → Mbx) : (d.onMbx m f).regions = d.regions := rfl
@[simp] theorem Device.onMbx_cores (d : Device) (m : Nat) (f : Mbx → Mbx) : (d.onMbx m f).cores = d.cores := rfl
@[simp] theorem Device.onMbx_tasks (d : Device) (m : Nat) (f : Mbx → Mbx) : (d.onMbx m f).tasks = d.tasks := rfl
@[simp] theorem Device.onMbx_dram (d : Device) (m : Nat) (f : Mbx → Mbx) : (d.onMbx m f).dram = d.dram := rfl
@[simp] theorem Device.onMbx_stackRecs (d : Device) (m : Nat) (f : Mbx → Mbx) : (d.onMbx m f).stackRecs = d.stackRecs := rfl
@[simp] theorem Device.onMbx_tick (d : Device) (m : Nat) (f : Mbx → Mbx) : (d.onMbx m f).tick = d.tick := rfl
@[simp] theorem Device.onMbx_openReads (d : Device) (m : Nat) (f : Mbx → Mbx) : (d.onMbx m f).openReads = d.openReads := rfl
@[simp] theorem Device.onMbx_staging (d : Device) (m : Nat) (f : Mbx → Mbx) : (d.onMbx m f).staging = d.staging := rfl
@[simp] theorem Device.onMbx_fabric (d : Device) (m : Nat) (f : Mbx → Mbx) : (d.onMbx m f).fabric = d.fabric := rfl
@[simp] theorem Device.onMbx_host (d : Device) (m : Nat) (f : Mbx → Mbx) : (d.onMbx m f).host = d.host := rfl
@[simp] theorem Device.onMbx_shadow (d : Device) (m : Nat) (f : Mbx → Mbx) : (d.onMbx m f).shadow = d.shadow := rfl
@[simp] theorem Device.onMbx_power (d : Device) (m : Nat) (f : Mbx → Mbx) : (d.onMbx m f).power = d.power := rfl
@[simp] theorem Device.onMbx_ledger (d : Device) (m : Nat) (f : Mbx → Mbx) : (d.onMbx m f).ledger = d.ledger := rfl
@[simp] theorem Device.onMbx_logger (d : Device) (m : Nat) (f : Mbx → Mbx) : (d.onMbx m f).logger = d.logger := rfl
@[simp] theorem Device.onMbx_twin (d : Device) (m : Nat) (f : Mbx → Mbx) : (d.onMbx m f).twin = d.twin := rfl
@[simp] theorem Device.onMbx_boot (d : Device) (m : Nat) (f : Mbx → Mbx) : (d.onMbx m f).boot = d.boot := rfl
@[simp] theorem Device.onMbx_free (d : Device) (m : Nat) (f : Mbx → Mbx) : (d.onMbx m f).free = d.free := rfl
@[simp] theorem Device.onMbx_cross (d : Device) (m : Nat) (f : Mbx → Mbx) : (d.onMbx m f).cross = d.cross := rfl
@[simp] theorem Device.onMbx_crossNum (d : Device) (m : Nat) (f : Mbx → Mbx) : (d.onMbx m f).crossNum = d.crossNum := rfl

/-! ### onHub -/

@[simp] theorem Device.onHub_beat (d : Device) (f : Hub → Hub) : (d.onHub f).beat = d.beat := rfl
@[simp] theorem Device.onHub_ident (d : Device) (f : Hub → Hub) : (d.onHub f).ident = d.ident := rfl
@[simp] theorem Device.onHub_pins (d : Device) (f : Hub → Hub) : (d.onHub f).pins = d.pins := rfl
@[simp] theorem Device.onHub_drone (d : Device) (f : Hub → Hub) : (d.onHub f).drone = d.drone := rfl
@[simp] theorem Device.onHub_hold (d : Device) (f : Hub → Hub) : (d.onHub f).hold = d.hold := rfl
@[simp] theorem Device.onHub_gate (d : Device) (f : Hub → Hub) : (d.onHub f).gate = d.gate := rfl
@[simp] theorem Device.onHub_regions (d : Device) (f : Hub → Hub) : (d.onHub f).regions = d.regions := rfl
@[simp] theorem Device.onHub_cores (d : Device) (f : Hub → Hub) : (d.onHub f).cores = d.cores := rfl
@[simp] theorem Device.onHub_tasks (d : Device) (f : Hub → Hub) : (d.onHub f).tasks = d.tasks := rfl
@[simp] theorem Device.onHub_dram (d : Device) (f : Hub → Hub) : (d.onHub f).dram = d.dram := rfl
@[simp] theorem Device.onHub_stackRecs (d : Device) (f : Hub → Hub) : (d.onHub f).stackRecs = d.stackRecs := rfl
@[simp] theorem Device.onHub_tick (d : Device) (f : Hub → Hub) : (d.onHub f).tick = d.tick := rfl
@[simp] theorem Device.onHub_openReads (d : Device) (f : Hub → Hub) : (d.onHub f).openReads = d.openReads := rfl
@[simp] theorem Device.onHub_staging (d : Device) (f : Hub → Hub) : (d.onHub f).staging = d.staging := rfl
@[simp] theorem Device.onHub_fabric (d : Device) (f : Hub → Hub) : (d.onHub f).fabric = d.fabric := rfl
@[simp] theorem Device.onHub_host (d : Device) (f : Hub → Hub) : (d.onHub f).host = d.host := rfl
@[simp] theorem Device.onHub_shadow (d : Device) (f : Hub → Hub) : (d.onHub f).shadow = d.shadow := rfl
@[simp] theorem Device.onHub_power (d : Device) (f : Hub → Hub) : (d.onHub f).power = d.power := rfl
@[simp] theorem Device.onHub_ledger (d : Device) (f : Hub → Hub) : (d.onHub f).ledger = d.ledger := rfl
@[simp] theorem Device.onHub_logger (d : Device) (f : Hub → Hub) : (d.onHub f).logger = d.logger := rfl
@[simp] theorem Device.onHub_twin (d : Device) (f : Hub → Hub) : (d.onHub f).twin = d.twin := rfl
@[simp] theorem Device.onHub_boot (d : Device) (f : Hub → Hub) : (d.onHub f).boot = d.boot := rfl
@[simp] theorem Device.onHub_free (d : Device) (f : Hub → Hub) : (d.onHub f).free = d.free := rfl
@[simp] theorem Device.onHub_cross (d : Device) (f : Hub → Hub) : (d.onHub f).cross = d.cross := rfl
@[simp] theorem Device.onHub_crossNum (d : Device) (f : Hub → Hub) : (d.onHub f).crossNum = d.crossNum := rfl

/-! ### onFabric -/

@[simp] theorem Device.onFabric_beat (d : Device) (f : Fabric → Fabric) : (d.onFabric f).beat = d.beat := rfl
@[simp] theorem Device.onFabric_ident (d : Device) (f : Fabric → Fabric) : (d.onFabric f).ident = d.ident := rfl
@[simp] theorem Device.onFabric_pins (d : Device) (f : Fabric → Fabric) : (d.onFabric f).pins = d.pins := rfl
@[simp] theorem Device.onFabric_drone (d : Device) (f : Fabric → Fabric) : (d.onFabric f).drone = d.drone := rfl
@[simp] theorem Device.onFabric_hold (d : Device) (f : Fabric → Fabric) : (d.onFabric f).hold = d.hold := rfl
@[simp] theorem Device.onFabric_gate (d : Device) (f : Fabric → Fabric) : (d.onFabric f).gate = d.gate := rfl
@[simp] theorem Device.onFabric_regions (d : Device) (f : Fabric → Fabric) : (d.onFabric f).regions = d.regions := rfl
@[simp] theorem Device.onFabric_cores (d : Device) (f : Fabric → Fabric) : (d.onFabric f).cores = d.cores := rfl
@[simp] theorem Device.onFabric_tasks (d : Device) (f : Fabric → Fabric) : (d.onFabric f).tasks = d.tasks := rfl
@[simp] theorem Device.onFabric_dram (d : Device) (f : Fabric → Fabric) : (d.onFabric f).dram = d.dram := rfl
@[simp] theorem Device.onFabric_stackRecs (d : Device) (f : Fabric → Fabric) : (d.onFabric f).stackRecs = d.stackRecs := rfl
@[simp] theorem Device.onFabric_tick (d : Device) (f : Fabric → Fabric) : (d.onFabric f).tick = d.tick := rfl
@[simp] theorem Device.onFabric_openReads (d : Device) (f : Fabric → Fabric) : (d.onFabric f).openReads = d.openReads := rfl
@[simp] theorem Device.onFabric_staging (d : Device) (f : Fabric → Fabric) : (d.onFabric f).staging = d.staging := rfl
@[simp] theorem Device.onFabric_host (d : Device) (f : Fabric → Fabric) : (d.onFabric f).host = d.host := rfl
@[simp] theorem Device.onFabric_hub (d : Device) (f : Fabric → Fabric) : (d.onFabric f).hub = d.hub := rfl
@[simp] theorem Device.onFabric_shadow (d : Device) (f : Fabric → Fabric) : (d.onFabric f).shadow = d.shadow := rfl
@[simp] theorem Device.onFabric_power (d : Device) (f : Fabric → Fabric) : (d.onFabric f).power = d.power := rfl
@[simp] theorem Device.onFabric_ledger (d : Device) (f : Fabric → Fabric) : (d.onFabric f).ledger = d.ledger := rfl
@[simp] theorem Device.onFabric_logger (d : Device) (f : Fabric → Fabric) : (d.onFabric f).logger = d.logger := rfl
@[simp] theorem Device.onFabric_twin (d : Device) (f : Fabric → Fabric) : (d.onFabric f).twin = d.twin := rfl
@[simp] theorem Device.onFabric_boot (d : Device) (f : Fabric → Fabric) : (d.onFabric f).boot = d.boot := rfl
@[simp] theorem Device.onFabric_free (d : Device) (f : Fabric → Fabric) : (d.onFabric f).free = d.free := rfl
@[simp] theorem Device.onFabric_cross (d : Device) (f : Fabric → Fabric) : (d.onFabric f).cross = d.cross := rfl
@[simp] theorem Device.onFabric_crossNum (d : Device) (f : Fabric → Fabric) : (d.onFabric f).crossNum = d.crossNum := rfl

/-! ### onTwin -/

@[simp] theorem Device.onTwin_beat (d : Device) (f : Twin → Twin) : (d.onTwin f).beat = d.beat := rfl
@[simp] theorem Device.onTwin_ident (d : Device) (f : Twin → Twin) : (d.onTwin f).ident = d.ident := rfl
@[simp] theorem Device.onTwin_pins (d : Device) (f : Twin → Twin) : (d.onTwin f).pins = d.pins := rfl
@[simp] theorem Device.onTwin_drone (d : Device) (f : Twin → Twin) : (d.onTwin f).drone = d.drone := rfl
@[simp] theorem Device.onTwin_hold (d : Device) (f : Twin → Twin) : (d.onTwin f).hold = d.hold := rfl
@[simp] theorem Device.onTwin_gate (d : Device) (f : Twin → Twin) : (d.onTwin f).gate = d.gate := rfl
@[simp] theorem Device.onTwin_regions (d : Device) (f : Twin → Twin) : (d.onTwin f).regions = d.regions := rfl
@[simp] theorem Device.onTwin_cores (d : Device) (f : Twin → Twin) : (d.onTwin f).cores = d.cores := rfl
@[simp] theorem Device.onTwin_tasks (d : Device) (f : Twin → Twin) : (d.onTwin f).tasks = d.tasks := rfl
@[simp] theorem Device.onTwin_dram (d : Device) (f : Twin → Twin) : (d.onTwin f).dram = d.dram := rfl
@[simp] theorem Device.onTwin_stackRecs (d : Device) (f : Twin → Twin) : (d.onTwin f).stackRecs = d.stackRecs := rfl
@[simp] theorem Device.onTwin_tick (d : Device) (f : Twin → Twin) : (d.onTwin f).tick = d.tick := rfl
@[simp] theorem Device.onTwin_openReads (d : Device) (f : Twin → Twin) : (d.onTwin f).openReads = d.openReads := rfl
@[simp] theorem Device.onTwin_staging (d : Device) (f : Twin → Twin) : (d.onTwin f).staging = d.staging := rfl
@[simp] theorem Device.onTwin_fabric (d : Device) (f : Twin → Twin) : (d.onTwin f).fabric = d.fabric := rfl
@[simp] theorem Device.onTwin_host (d : Device) (f : Twin → Twin) : (d.onTwin f).host = d.host := rfl
@[simp] theorem Device.onTwin_hub (d : Device) (f : Twin → Twin) : (d.onTwin f).hub = d.hub := rfl
@[simp] theorem Device.onTwin_shadow (d : Device) (f : Twin → Twin) : (d.onTwin f).shadow = d.shadow := rfl
@[simp] theorem Device.onTwin_power (d : Device) (f : Twin → Twin) : (d.onTwin f).power = d.power := rfl
@[simp] theorem Device.onTwin_ledger (d : Device) (f : Twin → Twin) : (d.onTwin f).ledger = d.ledger := rfl
@[simp] theorem Device.onTwin_logger (d : Device) (f : Twin → Twin) : (d.onTwin f).logger = d.logger := rfl
@[simp] theorem Device.onTwin_boot (d : Device) (f : Twin → Twin) : (d.onTwin f).boot = d.boot := rfl
@[simp] theorem Device.onTwin_free (d : Device) (f : Twin → Twin) : (d.onTwin f).free = d.free := rfl
@[simp] theorem Device.onTwin_cross (d : Device) (f : Twin → Twin) : (d.onTwin f).cross = d.cross := rfl
@[simp] theorem Device.onTwin_crossNum (d : Device) (f : Twin → Twin) : (d.onTwin f).crossNum = d.crossNum := rfl

/-! ### countCore -/

@[simp] theorem Device.countCore_beat (d : Device) (c i n : Nat) : (d.countCore c i n).beat = d.beat := by unfold Device.countCore; split <;> rfl
@[simp] theorem Device.countCore_ident (d : Device) (c i n : Nat) : (d.countCore c i n).ident = d.ident := by unfold Device.countCore; split <;> rfl
@[simp] theorem Device.countCore_pins (d : Device) (c i n : Nat) : (d.countCore c i n).pins = d.pins := by unfold Device.countCore; split <;> rfl
@[simp] theorem Device.countCore_drone (d : Device) (c i n : Nat) : (d.countCore c i n).drone = d.drone := by unfold Device.countCore; split <;> rfl
@[simp] theorem Device.countCore_hold (d : Device) (c i n : Nat) : (d.countCore c i n).hold = d.hold := by unfold Device.countCore; split <;> rfl
@[simp] theorem Device.countCore_gate (d : Device) (c i n : Nat) : (d.countCore c i n).gate = d.gate := by unfold Device.countCore; split <;> rfl
@[simp] theorem Device.countCore_regions (d : Device) (c i n : Nat) : (d.countCore c i n).regions = d.regions := by unfold Device.countCore; split <;> rfl
@[simp] theorem Device.countCore_tasks (d : Device) (c i n : Nat) : (d.countCore c i n).tasks = d.tasks := by unfold Device.countCore; split <;> rfl
@[simp] theorem Device.countCore_dram (d : Device) (c i n : Nat) : (d.countCore c i n).dram = d.dram := by unfold Device.countCore; split <;> rfl
@[simp] theorem Device.countCore_stackRecs (d : Device) (c i n : Nat) : (d.countCore c i n).stackRecs = d.stackRecs := by unfold Device.countCore; split <;> rfl
@[simp] theorem Device.countCore_tick (d : Device) (c i n : Nat) : (d.countCore c i n).tick = d.tick := by unfold Device.countCore; split <;> rfl
@[simp] theorem Device.countCore_openReads (d : Device) (c i n : Nat) : (d.countCore c i n).openReads = d.openReads := by unfold Device.countCore; split <;> rfl
@[simp] theorem Device.countCore_staging (d : Device) (c i n : Nat) : (d.countCore c i n).staging = d.staging := by unfold Device.countCore; split <;> rfl
@[simp] theorem Device.countCore_fabric (d : Device) (c i n : Nat) : (d.countCore c i n).fabric = d.fabric := by unfold Device.countCore; split <;> rfl
@[simp] theorem Device.countCore_host (d : Device) (c i n : Nat) : (d.countCore c i n).host = d.host := by unfold Device.countCore; split <;> rfl
@[simp] theorem Device.countCore_hub (d : Device) (c i n : Nat) : (d.countCore c i n).hub = d.hub := by unfold Device.countCore; split <;> rfl
@[simp] theorem Device.countCore_shadow (d : Device) (c i n : Nat) : (d.countCore c i n).shadow = d.shadow := by unfold Device.countCore; split <;> rfl
@[simp] theorem Device.countCore_power (d : Device) (c i n : Nat) : (d.countCore c i n).power = d.power := by unfold Device.countCore; split <;> rfl
@[simp] theorem Device.countCore_ledger (d : Device) (c i n : Nat) : (d.countCore c i n).ledger = d.ledger := by unfold Device.countCore; split <;> rfl
@[simp] theorem Device.countCore_logger (d : Device) (c i n : Nat) : (d.countCore c i n).logger = d.logger := by unfold Device.countCore; split <;> rfl
@[simp] theorem Device.countCore_twin (d : Device) (c i n : Nat) : (d.countCore c i n).twin = d.twin := by unfold Device.countCore; split <;> rfl
@[simp] theorem Device.countCore_boot (d : Device) (c i n : Nat) : (d.countCore c i n).boot = d.boot := by unfold Device.countCore; split <;> rfl
@[simp] theorem Device.countCore_free (d : Device) (c i n : Nat) : (d.countCore c i n).free = d.free := by unfold Device.countCore; split <;> rfl

/-! ### countPort -/

@[simp] theorem Device.countPort_beat (d : Device) (c i n : Nat) : (d.countPort c i n).beat = d.beat := by unfold Device.countPort; split <;> rfl
@[simp] theorem Device.countPort_ident (d : Device) (c i n : Nat) : (d.countPort c i n).ident = d.ident := by unfold Device.countPort; split <;> rfl
@[simp] theorem Device.countPort_pins (d : Device) (c i n : Nat) : (d.countPort c i n).pins = d.pins := by unfold Device.countPort; split <;> rfl
@[simp] theorem Device.countPort_drone (d : Device) (c i n : Nat) : (d.countPort c i n).drone = d.drone := by unfold Device.countPort; split <;> rfl
@[simp] theorem Device.countPort_hold (d : Device) (c i n : Nat) : (d.countPort c i n).hold = d.hold := by unfold Device.countPort; split <;> rfl
@[simp] theorem Device.countPort_gate (d : Device) (c i n : Nat) : (d.countPort c i n).gate = d.gate := by unfold Device.countPort; split <;> rfl
@[simp] theorem Device.countPort_regions (d : Device) (c i n : Nat) : (d.countPort c i n).regions = d.regions := by unfold Device.countPort; split <;> rfl
@[simp] theorem Device.countPort_cores (d : Device) (c i n : Nat) : (d.countPort c i n).cores = d.cores := by unfold Device.countPort; split <;> rfl
@[simp] theorem Device.countPort_tasks (d : Device) (c i n : Nat) : (d.countPort c i n).tasks = d.tasks := by unfold Device.countPort; split <;> rfl
@[simp] theorem Device.countPort_dram (d : Device) (c i n : Nat) : (d.countPort c i n).dram = d.dram := by unfold Device.countPort; split <;> rfl
@[simp] theorem Device.countPort_stackRecs (d : Device) (c i n : Nat) : (d.countPort c i n).stackRecs = d.stackRecs := by unfold Device.countPort; split <;> rfl
@[simp] theorem Device.countPort_tick (d : Device) (c i n : Nat) : (d.countPort c i n).tick = d.tick := by unfold Device.countPort; split <;> rfl
@[simp] theorem Device.countPort_openReads (d : Device) (c i n : Nat) : (d.countPort c i n).openReads = d.openReads := by unfold Device.countPort; split <;> rfl
@[simp] theorem Device.countPort_staging (d : Device) (c i n : Nat) : (d.countPort c i n).staging = d.staging := by unfold Device.countPort; split <;> rfl
@[simp] theorem Device.countPort_host (d : Device) (c i n : Nat) : (d.countPort c i n).host = d.host := by unfold Device.countPort; split <;> rfl
@[simp] theorem Device.countPort_hub (d : Device) (c i n : Nat) : (d.countPort c i n).hub = d.hub := by unfold Device.countPort; split <;> rfl
@[simp] theorem Device.countPort_shadow (d : Device) (c i n : Nat) : (d.countPort c i n).shadow = d.shadow := by unfold Device.countPort; split <;> rfl
@[simp] theorem Device.countPort_power (d : Device) (c i n : Nat) : (d.countPort c i n).power = d.power := by unfold Device.countPort; split <;> rfl
@[simp] theorem Device.countPort_ledger (d : Device) (c i n : Nat) : (d.countPort c i n).ledger = d.ledger := by unfold Device.countPort; split <;> rfl
@[simp] theorem Device.countPort_logger (d : Device) (c i n : Nat) : (d.countPort c i n).logger = d.logger := by unfold Device.countPort; split <;> rfl
@[simp] theorem Device.countPort_twin (d : Device) (c i n : Nat) : (d.countPort c i n).twin = d.twin := by unfold Device.countPort; split <;> rfl
@[simp] theorem Device.countPort_boot (d : Device) (c i n : Nat) : (d.countPort c i n).boot = d.boot := by unfold Device.countPort; split <;> rfl
@[simp] theorem Device.countPort_free (d : Device) (c i n : Nat) : (d.countPort c i n).free = d.free := by unfold Device.countPort; split <;> rfl

/-! ### countStack -/

@[simp] theorem Device.countStack_beat (d : Device) (c i n : Nat) : (d.countStack c i n).beat = d.beat := by unfold Device.countStack; split <;> rfl
@[simp] theorem Device.countStack_ident (d : Device) (c i n : Nat) : (d.countStack c i n).ident = d.ident := by unfold Device.countStack; split <;> rfl
@[simp] theorem Device.countStack_pins (d : Device) (c i n : Nat) : (d.countStack c i n).pins = d.pins := by unfold Device.countStack; split <;> rfl
@[simp] theorem Device.countStack_drone (d : Device) (c i n : Nat) : (d.countStack c i n).drone = d.drone := by unfold Device.countStack; split <;> rfl
@[simp] theorem Device.countStack_hold (d : Device) (c i n : Nat) : (d.countStack c i n).hold = d.hold := by unfold Device.countStack; split <;> rfl
@[simp] theorem Device.countStack_gate (d : Device) (c i n : Nat) : (d.countStack c i n).gate = d.gate := by unfold Device.countStack; split <;> rfl
@[simp] theorem Device.countStack_regions (d : Device) (c i n : Nat) : (d.countStack c i n).regions = d.regions := by unfold Device.countStack; split <;> rfl
@[simp] theorem Device.countStack_cores (d : Device) (c i n : Nat) : (d.countStack c i n).cores = d.cores := by unfold Device.countStack; split <;> rfl
@[simp] theorem Device.countStack_tasks (d : Device) (c i n : Nat) : (d.countStack c i n).tasks = d.tasks := by unfold Device.countStack; split <;> rfl
@[simp] theorem Device.countStack_dram (d : Device) (c i n : Nat) : (d.countStack c i n).dram = d.dram := by unfold Device.countStack; split <;> rfl
@[simp] theorem Device.countStack_tick (d : Device) (c i n : Nat) : (d.countStack c i n).tick = d.tick := by unfold Device.countStack; split <;> rfl
@[simp] theorem Device.countStack_openReads (d : Device) (c i n : Nat) : (d.countStack c i n).openReads = d.openReads := by unfold Device.countStack; split <;> rfl
@[simp] theorem Device.countStack_staging (d : Device) (c i n : Nat) : (d.countStack c i n).staging = d.staging := by unfold Device.countStack; split <;> rfl
@[simp] theorem Device.countStack_fabric (d : Device) (c i n : Nat) : (d.countStack c i n).fabric = d.fabric := by unfold Device.countStack; split <;> rfl
@[simp] theorem Device.countStack_host (d : Device) (c i n : Nat) : (d.countStack c i n).host = d.host := by unfold Device.countStack; split <;> rfl
@[simp] theorem Device.countStack_hub (d : Device) (c i n : Nat) : (d.countStack c i n).hub = d.hub := by unfold Device.countStack; split <;> rfl
@[simp] theorem Device.countStack_shadow (d : Device) (c i n : Nat) : (d.countStack c i n).shadow = d.shadow := by unfold Device.countStack; split <;> rfl
@[simp] theorem Device.countStack_power (d : Device) (c i n : Nat) : (d.countStack c i n).power = d.power := by unfold Device.countStack; split <;> rfl
@[simp] theorem Device.countStack_ledger (d : Device) (c i n : Nat) : (d.countStack c i n).ledger = d.ledger := by unfold Device.countStack; split <;> rfl
@[simp] theorem Device.countStack_logger (d : Device) (c i n : Nat) : (d.countStack c i n).logger = d.logger := by unfold Device.countStack; split <;> rfl
@[simp] theorem Device.countStack_twin (d : Device) (c i n : Nat) : (d.countStack c i n).twin = d.twin := by unfold Device.countStack; split <;> rfl
@[simp] theorem Device.countStack_boot (d : Device) (c i n : Nat) : (d.countStack c i n).boot = d.boot := by unfold Device.countStack; split <;> rfl
@[simp] theorem Device.countStack_free (d : Device) (c i n : Nat) : (d.countStack c i n).free = d.free := by unfold Device.countStack; split <;> rfl

/-! ### countHub -/

@[simp] theorem Device.countHub_beat (d : Device) (i n : Nat) : (d.countHub i n).beat = d.beat := by unfold Device.countHub; split <;> rfl
@[simp] theorem Device.countHub_ident (d : Device) (i n : Nat) : (d.countHub i n).ident = d.ident := by unfold Device.countHub; split <;> rfl
@[simp] theorem Device.countHub_pins (d : Device) (i n : Nat) : (d.countHub i n).pins = d.pins := by unfold Device.countHub; split <;> rfl
@[simp] theorem Device.countHub_drone (d : Device) (i n : Nat) : (d.countHub i n).drone = d.drone := by unfold Device.countHub; split <;> rfl
@[simp] theorem Device.countHub_hold (d : Device) (i n : Nat) : (d.countHub i n).hold = d.hold := by unfold Device.countHub; split <;> rfl
@[simp] theorem Device.countHub_gate (d : Device) (i n : Nat) : (d.countHub i n).gate = d.gate := by unfold Device.countHub; split <;> rfl
@[simp] theorem Device.countHub_regions (d : Device) (i n : Nat) : (d.countHub i n).regions = d.regions := by unfold Device.countHub; split <;> rfl
@[simp] theorem Device.countHub_cores (d : Device) (i n : Nat) : (d.countHub i n).cores = d.cores := by unfold Device.countHub; split <;> rfl
@[simp] theorem Device.countHub_tasks (d : Device) (i n : Nat) : (d.countHub i n).tasks = d.tasks := by unfold Device.countHub; split <;> rfl
@[simp] theorem Device.countHub_dram (d : Device) (i n : Nat) : (d.countHub i n).dram = d.dram := by unfold Device.countHub; split <;> rfl
@[simp] theorem Device.countHub_stackRecs (d : Device) (i n : Nat) : (d.countHub i n).stackRecs = d.stackRecs := by unfold Device.countHub; split <;> rfl
@[simp] theorem Device.countHub_tick (d : Device) (i n : Nat) : (d.countHub i n).tick = d.tick := by unfold Device.countHub; split <;> rfl
@[simp] theorem Device.countHub_openReads (d : Device) (i n : Nat) : (d.countHub i n).openReads = d.openReads := by unfold Device.countHub; split <;> rfl
@[simp] theorem Device.countHub_staging (d : Device) (i n : Nat) : (d.countHub i n).staging = d.staging := by unfold Device.countHub; split <;> rfl
@[simp] theorem Device.countHub_fabric (d : Device) (i n : Nat) : (d.countHub i n).fabric = d.fabric := by unfold Device.countHub; split <;> rfl
@[simp] theorem Device.countHub_host (d : Device) (i n : Nat) : (d.countHub i n).host = d.host := by unfold Device.countHub; split <;> rfl
@[simp] theorem Device.countHub_shadow (d : Device) (i n : Nat) : (d.countHub i n).shadow = d.shadow := by unfold Device.countHub; split <;> rfl
@[simp] theorem Device.countHub_power (d : Device) (i n : Nat) : (d.countHub i n).power = d.power := by unfold Device.countHub; split <;> rfl
@[simp] theorem Device.countHub_ledger (d : Device) (i n : Nat) : (d.countHub i n).ledger = d.ledger := by unfold Device.countHub; split <;> rfl
@[simp] theorem Device.countHub_logger (d : Device) (i n : Nat) : (d.countHub i n).logger = d.logger := by unfold Device.countHub; split <;> rfl
@[simp] theorem Device.countHub_twin (d : Device) (i n : Nat) : (d.countHub i n).twin = d.twin := by unfold Device.countHub; split <;> rfl
@[simp] theorem Device.countHub_boot (d : Device) (i n : Nat) : (d.countHub i n).boot = d.boot := by unfold Device.countHub; split <;> rfl
@[simp] theorem Device.countHub_free (d : Device) (i n : Nat) : (d.countHub i n).free = d.free := by unfold Device.countHub; split <;> rfl

/-! ### A unit after its own update, and any other unit -/

@[simp] theorem Device.core_onCore_same (d : Device) (c : Nat) (f : Core → Core) : (d.onCore c f).core c = f (d.core c) :=
  Sparse.get_set_same _ _ _ _
theorem Device.core_onCore_other (d : Device) (c i : Nat) (f : Core → Core) (h : i ≠ c) : (d.onCore c f).core i = d.core i :=
  Sparse.get_set_other _ _ _ _ _ h
@[simp] theorem Device.task_onTask_same (d : Device) (c : Nat) (f : Task → Task) : (d.onTask c f).task c = f (d.task c) :=
  Sparse.get_set_same _ _ _ _
theorem Device.task_onTask_other (d : Device) (c i : Nat) (f : Task → Task) (h : i ≠ c) : (d.onTask c f).task i = d.task i :=
  Sparse.get_set_other _ _ _ _ _ h
@[simp] theorem Device.stack_onStack_same (d : Device) (c : Nat) (f : Stack → Stack) : (d.onStack c f).stack c = f (d.stack c) :=
  Sparse.get_set_same _ _ _ _
theorem Device.stack_onStack_other (d : Device) (c i : Nat) (f : Stack → Stack) (h : i ≠ c) : (d.onStack c f).stack i = d.stack i :=
  Sparse.get_set_other _ _ _ _ _ h
@[simp] theorem Device.region_onRegion_same (d : Device) (c : Nat) (f : Region → Region) : (d.onRegion c f).region c = f (d.region c) :=
  Sparse.get_set_same _ _ _ _
theorem Device.region_onRegion_other (d : Device) (c i : Nat) (f : Region → Region) (h : i ≠ c) : (d.onRegion c f).region i = d.region i :=
  Sparse.get_set_other _ _ _ _ _ h
@[simp] theorem Device.port_onPort_same (d : Device) (c : Nat) (f : Port → Port) : (d.onPort c f).port c = f (d.port c) :=
  Sparse.get_set_same _ _ _ _
theorem Device.port_onPort_other (d : Device) (c i : Nat) (f : Port → Port) (h : i ≠ c) : (d.onPort c f).port i = d.port i :=
  Sparse.get_set_other _ _ _ _ _ h
@[simp] theorem Device.mbx_onMbx_same (d : Device) (c : Nat) (f : Mbx → Mbx) : (d.onMbx c f).mbx c = f (d.mbx c) :=
  Sparse.get_set_same _ _ _ _
theorem Device.mbx_onMbx_other (d : Device) (c i : Nat) (f : Mbx → Mbx) (h : i ≠ c) : (d.onMbx c f).mbx i = d.mbx i :=
  Sparse.get_set_other _ _ _ _ _ h

@[simp] theorem Device.core_setTask (d : Device) (t : Nat) (k : Task) (i : Nat) : (d.setTask t k).core i = d.core i := rfl
@[simp] theorem Device.core_onTask (d : Device) (t : Nat) (f : Task → Task) (i : Nat) : (d.onTask t f).core i = d.core i := rfl
@[simp] theorem Device.core_onStack (d : Device) (k : Nat) (f : Stack → Stack) (i : Nat) : (d.onStack k f).core i = d.core i := rfl
@[simp] theorem Device.core_onRegion (d : Device) (r : Nat) (f : Region → Region) (i : Nat) : (d.onRegion r f).core i = d.core i := rfl
@[simp] theorem Device.core_onPort (d : Device) (p : Nat) (f : Port → Port) (i : Nat) : (d.onPort p f).core i = d.core i := rfl
@[simp] theorem Device.core_onMbx (d : Device) (m : Nat) (f : Mbx → Mbx) (i : Nat) : (d.onMbx m f).core i = d.core i := rfl
@[simp] theorem Device.core_onHub (d : Device) (f : Hub → Hub) (i : Nat) : (d.onHub f).core i = d.core i := rfl
@[simp] theorem Device.core_onFabric (d : Device) (f : Fabric → Fabric) (i : Nat) : (d.onFabric f).core i = d.core i := rfl
@[simp] theorem Device.core_onTwin (d : Device) (f : Twin → Twin) (i : Nat) : (d.onTwin f).core i = d.core i := rfl
@[simp] theorem Device.task_setCore (d : Device) (c : Nat) (k : Core) (i : Nat) : (d.setCore c k).task i = d.task i := rfl
@[simp] theorem Device.task_onCore (d : Device) (c : Nat) (f : Core → Core) (i : Nat) : (d.onCore c f).task i = d.task i := rfl
@[simp] theorem Device.task_onStack (d : Device) (k : Nat) (f : Stack → Stack) (i : Nat) : (d.onStack k f).task i = d.task i := rfl
@[simp] theorem Device.task_onRegion (d : Device) (r : Nat) (f : Region → Region) (i : Nat) : (d.onRegion r f).task i = d.task i := rfl
@[simp] theorem Device.task_onPort (d : Device) (p : Nat) (f : Port → Port) (i : Nat) : (d.onPort p f).task i = d.task i := rfl
@[simp] theorem Device.task_onMbx (d : Device) (m : Nat) (f : Mbx → Mbx) (i : Nat) : (d.onMbx m f).task i = d.task i := rfl
@[simp] theorem Device.task_onHub (d : Device) (f : Hub → Hub) (i : Nat) : (d.onHub f).task i = d.task i := rfl
@[simp] theorem Device.task_onFabric (d : Device) (f : Fabric → Fabric) (i : Nat) : (d.onFabric f).task i = d.task i := rfl
@[simp] theorem Device.task_onTwin (d : Device) (f : Twin → Twin) (i : Nat) : (d.onTwin f).task i = d.task i := rfl
@[simp] theorem Device.stack_setCore (d : Device) (c : Nat) (k : Core) (i : Nat) : (d.setCore c k).stack i = d.stack i := rfl
@[simp] theorem Device.stack_onCore (d : Device) (c : Nat) (f : Core → Core) (i : Nat) : (d.onCore c f).stack i = d.stack i := rfl
@[simp] theorem Device.stack_setTask (d : Device) (t : Nat) (k : Task) (i : Nat) : (d.setTask t k).stack i = d.stack i := rfl
@[simp] theorem Device.stack_onTask (d : Device) (t : Nat) (f : Task → Task) (i : Nat) : (d.onTask t f).stack i = d.stack i := rfl
@[simp] theorem Device.stack_onRegion (d : Device) (r : Nat) (f : Region → Region) (i : Nat) : (d.onRegion r f).stack i = d.stack i := rfl
@[simp] theorem Device.stack_onPort (d : Device) (p : Nat) (f : Port → Port) (i : Nat) : (d.onPort p f).stack i = d.stack i := rfl
@[simp] theorem Device.stack_onMbx (d : Device) (m : Nat) (f : Mbx → Mbx) (i : Nat) : (d.onMbx m f).stack i = d.stack i := rfl
@[simp] theorem Device.stack_onHub (d : Device) (f : Hub → Hub) (i : Nat) : (d.onHub f).stack i = d.stack i := rfl
@[simp] theorem Device.stack_onFabric (d : Device) (f : Fabric → Fabric) (i : Nat) : (d.onFabric f).stack i = d.stack i := rfl
@[simp] theorem Device.stack_onTwin (d : Device) (f : Twin → Twin) (i : Nat) : (d.onTwin f).stack i = d.stack i := rfl
@[simp] theorem Device.region_setCore (d : Device) (c : Nat) (k : Core) (i : Nat) : (d.setCore c k).region i = d.region i := rfl
@[simp] theorem Device.region_onCore (d : Device) (c : Nat) (f : Core → Core) (i : Nat) : (d.onCore c f).region i = d.region i := rfl
@[simp] theorem Device.region_setTask (d : Device) (t : Nat) (k : Task) (i : Nat) : (d.setTask t k).region i = d.region i := rfl
@[simp] theorem Device.region_onTask (d : Device) (t : Nat) (f : Task → Task) (i : Nat) : (d.onTask t f).region i = d.region i := rfl
@[simp] theorem Device.region_onStack (d : Device) (k : Nat) (f : Stack → Stack) (i : Nat) : (d.onStack k f).region i = d.region i := rfl
@[simp] theorem Device.region_onPort (d : Device) (p : Nat) (f : Port → Port) (i : Nat) : (d.onPort p f).region i = d.region i := rfl
@[simp] theorem Device.region_onMbx (d : Device) (m : Nat) (f : Mbx → Mbx) (i : Nat) : (d.onMbx m f).region i = d.region i := rfl
@[simp] theorem Device.region_onHub (d : Device) (f : Hub → Hub) (i : Nat) : (d.onHub f).region i = d.region i := rfl
@[simp] theorem Device.region_onFabric (d : Device) (f : Fabric → Fabric) (i : Nat) : (d.onFabric f).region i = d.region i := rfl
@[simp] theorem Device.region_onTwin (d : Device) (f : Twin → Twin) (i : Nat) : (d.onTwin f).region i = d.region i := rfl
@[simp] theorem Device.port_setCore (d : Device) (c : Nat) (k : Core) (i : Nat) : (d.setCore c k).port i = d.port i := rfl
@[simp] theorem Device.port_onCore (d : Device) (c : Nat) (f : Core → Core) (i : Nat) : (d.onCore c f).port i = d.port i := rfl
@[simp] theorem Device.port_setTask (d : Device) (t : Nat) (k : Task) (i : Nat) : (d.setTask t k).port i = d.port i := rfl
@[simp] theorem Device.port_onTask (d : Device) (t : Nat) (f : Task → Task) (i : Nat) : (d.onTask t f).port i = d.port i := rfl
@[simp] theorem Device.port_onStack (d : Device) (k : Nat) (f : Stack → Stack) (i : Nat) : (d.onStack k f).port i = d.port i := rfl
@[simp] theorem Device.port_onRegion (d : Device) (r : Nat) (f : Region → Region) (i : Nat) : (d.onRegion r f).port i = d.port i := rfl
@[simp] theorem Device.port_onMbx (d : Device) (m : Nat) (f : Mbx → Mbx) (i : Nat) : (d.onMbx m f).port i = d.port i := rfl
@[simp] theorem Device.port_onHub (d : Device) (f : Hub → Hub) (i : Nat) : (d.onHub f).port i = d.port i := rfl
@[simp] theorem Device.port_onTwin (d : Device) (f : Twin → Twin) (i : Nat) : (d.onTwin f).port i = d.port i := rfl
@[simp] theorem Device.mbx_setCore (d : Device) (c : Nat) (k : Core) (i : Nat) : (d.setCore c k).mbx i = d.mbx i := rfl
@[simp] theorem Device.mbx_onCore (d : Device) (c : Nat) (f : Core → Core) (i : Nat) : (d.onCore c f).mbx i = d.mbx i := rfl
@[simp] theorem Device.mbx_setTask (d : Device) (t : Nat) (k : Task) (i : Nat) : (d.setTask t k).mbx i = d.mbx i := rfl
@[simp] theorem Device.mbx_onTask (d : Device) (t : Nat) (f : Task → Task) (i : Nat) : (d.onTask t f).mbx i = d.mbx i := rfl
@[simp] theorem Device.mbx_onStack (d : Device) (k : Nat) (f : Stack → Stack) (i : Nat) : (d.onStack k f).mbx i = d.mbx i := rfl
@[simp] theorem Device.mbx_onRegion (d : Device) (r : Nat) (f : Region → Region) (i : Nat) : (d.onRegion r f).mbx i = d.mbx i := rfl
@[simp] theorem Device.mbx_onPort (d : Device) (p : Nat) (f : Port → Port) (i : Nat) : (d.onPort p f).mbx i = d.mbx i := rfl
@[simp] theorem Device.mbx_onFabric (d : Device) (f : Fabric → Fabric) (i : Nat) : (d.onFabric f).mbx i = d.mbx i := rfl
@[simp] theorem Device.mbx_onTwin (d : Device) (f : Twin → Twin) (i : Nat) : (d.onTwin f).mbx i = d.mbx i := rfl
@[simp] theorem Device.task_countCore (d : Device) (c i n : Nat) (j : Nat) : (d.countCore c i n).task j = d.task j := by unfold Device.countCore; split <;> rfl
@[simp] theorem Device.stack_countCore (d : Device) (c i n : Nat) (j : Nat) : (d.countCore c i n).stack j = d.stack j := by unfold Device.countCore; split <;> rfl
@[simp] theorem Device.region_countCore (d : Device) (c i n : Nat) (j : Nat) : (d.countCore c i n).region j = d.region j := by unfold Device.countCore; split <;> rfl
@[simp] theorem Device.port_countCore (d : Device) (c i n : Nat) (j : Nat) : (d.countCore c i n).port j = d.port j := by unfold Device.countCore; split <;> rfl
@[simp] theorem Device.mbx_countCore (d : Device) (c i n : Nat) (j : Nat) : (d.countCore c i n).mbx j = d.mbx j := by unfold Device.countCore; split <;> rfl
@[simp] theorem Device.core_countPort (d : Device) (c i n : Nat) (j : Nat) : (d.countPort c i n).core j = d.core j := by unfold Device.countPort; split <;> rfl
@[simp] theorem Device.task_countPort (d : Device) (c i n : Nat) (j : Nat) : (d.countPort c i n).task j = d.task j := by unfold Device.countPort; split <;> rfl
@[simp] theorem Device.stack_countPort (d : Device) (c i n : Nat) (j : Nat) : (d.countPort c i n).stack j = d.stack j := by unfold Device.countPort; split <;> rfl
@[simp] theorem Device.region_countPort (d : Device) (c i n : Nat) (j : Nat) : (d.countPort c i n).region j = d.region j := by unfold Device.countPort; split <;> rfl
@[simp] theorem Device.mbx_countPort (d : Device) (c i n : Nat) (j : Nat) : (d.countPort c i n).mbx j = d.mbx j := by unfold Device.countPort; split <;> rfl
@[simp] theorem Device.core_countStack (d : Device) (c i n : Nat) (j : Nat) : (d.countStack c i n).core j = d.core j := by unfold Device.countStack; split <;> rfl
@[simp] theorem Device.task_countStack (d : Device) (c i n : Nat) (j : Nat) : (d.countStack c i n).task j = d.task j := by unfold Device.countStack; split <;> rfl
@[simp] theorem Device.region_countStack (d : Device) (c i n : Nat) (j : Nat) : (d.countStack c i n).region j = d.region j := by unfold Device.countStack; split <;> rfl
@[simp] theorem Device.port_countStack (d : Device) (c i n : Nat) (j : Nat) : (d.countStack c i n).port j = d.port j := by unfold Device.countStack; split <;> rfl
@[simp] theorem Device.mbx_countStack (d : Device) (c i n : Nat) (j : Nat) : (d.countStack c i n).mbx j = d.mbx j := by unfold Device.countStack; split <;> rfl
@[simp] theorem Device.core_countHub (d : Device) (i n : Nat) (j : Nat) : (d.countHub i n).core j = d.core j := by unfold Device.countHub; split <;> rfl
@[simp] theorem Device.task_countHub (d : Device) (i n : Nat) (j : Nat) : (d.countHub i n).task j = d.task j := by unfold Device.countHub; split <;> rfl
@[simp] theorem Device.stack_countHub (d : Device) (i n : Nat) (j : Nat) : (d.countHub i n).stack j = d.stack j := by unfold Device.countHub; split <;> rfl
@[simp] theorem Device.region_countHub (d : Device) (i n : Nat) (j : Nat) : (d.countHub i n).region j = d.region j := by unfold Device.countHub; split <;> rfl
@[simp] theorem Device.port_countHub (d : Device) (i n : Nat) (j : Nat) : (d.countHub i n).port j = d.port j := by unfold Device.countHub; split <;> rfl
@[simp] theorem Device.mbx_countHub (d : Device) (i n m : Nat) : (d.countHub i n).mbx m = d.mbx m := by unfold Device.countHub; split <;> rfl

end Sys2Proof.Machine
end

