-- ==== Sys2Proof/Laws/Ops.lean ====
section
/-! SUPPORT. Laws/Ops.lean: what the shared forms of a meaning can do: `lift`, `liftTime`, `liftBeat`, `onUnit`, `runRow`,
`slotRow` and `vectorRow`. A proof about a command cites these and does not unfold them. -/

namespace Sys2Proof.Machine

open Sys2Proof

/-! ### lift: every meaning outside the time base -/

theorem lift_eq (f : Device → Device) (s : State) :
    lift f s = .next { s with dev := { f s.dev with beat := s.dev.beat } } := rfl

/-- What a lifted meaning can do: a next state, with the queue and the time base as they were. -/
theorem lift_next {f : Device → Device} {s t : State} (h : lift f s = .next t) :
    t.pending = s.pending ∧ t.dev.beat = s.dev.beat ∧ t.dev = { f s.dev with beat := s.dev.beat } := by
  cases h; exact ⟨rfl, rfl, rfl⟩

theorem lift_not_fault (f : Device → Device) (s : State) (r : Fault) : lift f s ≠ .fault r := by simp [lift]

theorem lift_not_refused (f : Device → Device) (s : State) (r : Refusal) : lift f s ≠ .refused r := by simp [lift]

/-! ### liftTime and liftBeat: the commands of the time base -/

theorem liftTime_next {f : Device → Device} {s t : State} (h : liftTime f s = .next t) :
    t.pending = s.pending ∧ t.dev = f s.dev := by
  cases h; exact ⟨rfl, rfl⟩

theorem liftBeat_next {g : Device → Beat} {f : Device → Device} {s t : State} (h : liftBeat g f s = .next t) :
    t.pending = s.pending ∧ t.dev.beat = g s.dev := by
  cases h; exact ⟨rfl, rfl⟩

/-! ### onUnit: the commands that name a unit -/

theorem onUnit_ok {ok : Device → Bool} {f : Device → Device} {s : State} (h : ok s.dev = true) :
    onUnit ok f s = .next { s with dev := { f s.dev with beat := s.dev.beat } } := by simp [onUnit, h, lift]

theorem onUnit_absent {ok : Device → Bool} {f : Device → Device} {s : State} (h : ok s.dev = false) :
    onUnit ok f s = .fault .noSuchUnit := by simp [onUnit, h]

/-- What a command that names a unit can do: the unit exists, and the meaning is lifted. -/
theorem onUnit_next {ok : Device → Bool} {f : Device → Device} {s t : State} (h : onUnit ok f s = .next t) :
    ok s.dev = true ∧ t.pending = s.pending ∧ t.dev.beat = s.dev.beat ∧ t.dev = { f s.dev with beat := s.dev.beat } := by
  unfold onUnit at h
  split at h
  · rename_i hk; exact ⟨hk, lift_next h⟩
  · cases h

theorem onUnit_not_refused (ok : Device → Bool) (f : Device → Device) (s : State) (r : Refusal) :
    onUnit ok f s ≠ .refused r := by unfold onUnit; split <;> simp [lift]

/-! ### runRow: the own row of a command -/

theorem runRow_runs {mb code : Nat} {f : Device → Device} {s : State} (hm : mb < 16) (h : s.dev.runs mb code = true) :
    runRow mb code f s = .next { s with dev := { f (s.dev.onMbx mb (fun m => { m with ran := true })) with
      beat := s.dev.beat } } := by
  rw [runRow, onUnit_ok (by simpa using hm)]; simp [h]

theorem runRow_idle {mb code : Nat} {f : Device → Device} {s : State} (hm : mb < 16) (h : s.dev.runs mb code = false) :
    runRow mb code f s = .next s := by
  rw [runRow, onUnit_ok (by simpa using hm)]; simp [h]

/-! ### slotRow and vectorRow: the rows of a bundle's slots -/

theorem slotRow_ready {c slot op phase : Nat} {s : State} (hc : s.dev.hasCore c = true)
    (h : s.dev.slotReady c slot op phase = true) :
    slotRow c slot op phase s = .next { s with dev := { s.dev.phasesTo c phase with beat := s.dev.beat } } := by
  rw [slotRow, onUnit_ok hc]; simp [h]

theorem slotRow_idle {c slot op phase : Nat} {s : State} (hc : s.dev.hasCore c = true)
    (h : s.dev.slotReady c slot op phase = false) : slotRow c slot op phase s = .next s := by
  rw [slotRow, onUnit_ok hc]; simp [h]

/-- The unit of a vector slot: 4 for VA, 5 for VB. -/
theorem vectorRow_va (c op : Nat) (s : State) : vectorRow c .va op s = slotRow c 4 op 4 s := rfl

theorem vectorRow_vb (c op : Nat) (s : State) : vectorRow c .vb op s = slotRow c 5 op 6 s := rfl

/-! ### Sums of the time base -/

/-- The numbers of an alignment keep W = H + S. -/
theorem Beat.at_sum (w n : Nat) : (Beat.at w n).w = (Beat.at w n).h + (Beat.at w n).s := by
  simp only [Beat.at]; omega

/-- A beat edge keeps W = H + S. -/
theorem Device.nextBeat_sum (d : Device) (h : d.beat.w = d.beat.h + d.beat.s) :
    d.nextBeat.w = d.nextBeat.h + d.nextBeat.s := by
  unfold Device.nextBeat
  simp only
  split
  · exact h
  · split <;> simp <;> omega

end Sys2Proof.Machine
end

