-- ==== Sys2Proof/Laws/Memory.lean ====
section
/-! SUPPORT. Laws/Memory.lean: every operation over a memory keeps its canonical form, reads change no byte, and a write changes the
bytes it names and no other. -/

namespace Sys2Proof.Machine

/-! ### Tables under a fold -/

theorem Sparse.wf_foldl_set {α β : Type} [DecidableEq α] (d : α) (l : List β) (k : β → Nat) (v : β → α) (m : Sparse α)
    (h : Sparse.wf d m = true) : Sparse.wf d (l.foldl (fun p i => Sparse.set d p (k i) (v i)) m) = true := by
  induction l generalizing m with
  | nil => exact h
  | cons b r ih => exact ih _ (Sparse.wf_set d m _ _ h)

theorem Sparse.wf_foldl_mark {α β : Type} [DecidableEq α] (d : α) (l : List β) (k : β → Nat) (v : Sparse α → β → α)
    (m : Sparse α) (h : Sparse.wf d m = true) :
    Sparse.wf d (l.foldl (fun p i => Sparse.set d p (k i) (v m i)) m) = true :=
  Sparse.wf_foldl_set d l k (v m) m h

theorem Sparse.wf_nil {α : Type} [DecidableEq α] (d : α) : Sparse.wf d ([] : Sparse α) = true := rfl

/-! ### One protected memory -/

theorem Mem.wf_iff (m : Mem) : m.wf = true ↔
    Sparse.wf 0 m.bytes = true ∧ Sparse.wf false m.poison = true ∧ Sparse.wf 0 m.ecc = true := by
  simp [Mem.wf, and_assoc]

theorem Mem.reset_wf : Mem.reset.wf = true := rfl

/-- A read changes no byte. -/
@[simp] theorem Mem.read_bytes (m : Mem) (u a n : Nat) : (m.read u a n).mem.bytes = m.bytes := rfl

/-- A read delivers the bytes under its addresses. -/
theorem Mem.read_data (m : Mem) (u a n : Nat) :
    (m.read u a n).data.map (·.1) = (List.range n).map (fun i => Sparse.get 0 m.bytes (a + i)) := by
  simp [Mem.read]

theorem Mem.read_wf (m : Mem) (u a n : Nat) (h : m.wf = true) : (m.read u a n).mem.wf = true := by
  rw [Mem.wf_iff] at h ⊢
  exact ⟨h.1, Sparse.wf_foldl_set _ _ _ _ _ h.2.1, Sparse.wf_foldl_set _ _ _ _ _ h.2.2⟩

/-- What a write makes of the bytes. -/
@[simp] theorem Mem.write_bytes (m : Mem) (u a : Nat) (data : List (BitVec 8 × Bool)) :
    (m.write u a data).mem.bytes = Sparse.setMany 0 m.bytes a (data.map (·.1)) := rfl

/-- A write leaves every byte outside its range. -/
theorem Mem.write_outside (m : Mem) (u a i : Nat) (data : List (BitVec 8 × Bool)) (h : i < a ∨ a + data.length ≤ i) :
    Sparse.get 0 (m.write u a data).mem.bytes i = Sparse.get 0 m.bytes i := by
  rw [Mem.write_bytes, Sparse.get_setMany_outside]
  simpa using h

theorem Mem.write_wf (m : Mem) (u a : Nat) (data : List (BitVec 8 × Bool)) (h : m.wf = true) :
    (m.write u a data).mem.wf = true := by
  rw [Mem.wf_iff] at h ⊢
  exact ⟨Sparse.wf_setMany _ _ _ _ h.1, Sparse.wf_foldl_set _ _ _ _ _ h.2.1, Sparse.wf_foldl_set _ _ _ _ _ h.2.2⟩

theorem Mem.zeroWord_wf (m : Mem) (u i : Nat) (h : m.wf = true) : (m.zeroWord u i).wf = true := by
  rw [Mem.wf_iff] at h ⊢
  simp only [Mem.zeroWord]
  exact ⟨Sparse.wf_setMany _ _ _ _ h.1, Sparse.wf_set _ _ _ _ h.2.1, Sparse.wf_set _ _ _ _ h.2.2⟩

theorem Mem.fixWord_wf (m : Mem) (i : Nat) (h : m.wf = true) : (m.fixWord i).wf = true := by
  rw [Mem.wf_iff] at h ⊢
  simp only [Mem.fixWord]
  exact ⟨h.1, h.2.1, Sparse.wf_set _ _ _ _ h.2.2⟩

theorem Mem.markWord_wf (m : Mem) (i : Nat) (h : m.wf = true) : (m.markWord i).wf = true := by
  rw [Mem.wf_iff] at h ⊢
  simp only [Mem.markWord, Mem.fixWord]
  exact ⟨h.1, Sparse.wf_set _ _ _ _ h.2.1, Sparse.wf_set _ _ _ _ h.2.2⟩

theorem Mem.keep_wf (m : Mem) (u : Nat) (p : Nat → Bool) (h : m.wf = true) : (m.keep u p).wf = true := by
  rw [Mem.wf_iff] at h ⊢
  exact ⟨Sparse.wf_filter _ _ _ h.1, Sparse.wf_filter _ _ _ h.2.1, Sparse.wf_filter _ _ _ h.2.2⟩

/-! ### All memories of a device -/

/-- The memories of a device: those that Memory.wf looks at. -/
def memsOf (d : Device) : Mem × Mem × List Host.Cell × List Host.Cell × List (Nat × Mem) :=
  (d.dram, d.staging, d.host.mem, d.boot.flash, d.cores.map (fun e => (e.1, e.2.spad)))

/-- Two devices with the same memories have them in the same form. -/
theorem Memory.wf_congr {d e : Device} (h : memsOf d = memsOf e) : Memory.wf d = Memory.wf e := by
  simp only [memsOf, Prod.mk.injEq] at h
  obtain ⟨h1, h2, h3, h4, h5⟩ := h
  have h6 : d.cores.all (fun e => e.2.spad.wf) = e.cores.all (fun e => e.2.spad.wf) := by
    have : ∀ l : List (Nat × Core), l.all (fun e => e.2.spad.wf) = (l.map (fun e => (e.1, e.2.spad))).all (fun e => e.2.wf) := by
      intro l; induction l with
      | nil => rfl
      | cons a r ih => simp [ih]
    rw [this, this, h5]
  simp only [Memory.wf, h1, h2, h3, h4, h6]

theorem Memory.reset_wf : Memory.wf State.reset.dev = true := rfl

/-- The scratchpad of every core of a device in canonical form is in canonical form. -/
theorem Memory.core_wf {d : Device} (h : Memory.wf d = true) (c : Nat) : (d.core c).spad.wf = true := by
  have h : d.cores.all (fun e => e.2.spad.wf) = true := by
    simp only [Memory.wf, Bool.and_eq_true] at h; exact h.2
  unfold Device.core
  generalize d.cores = m at h
  induction m with
  | nil => rfl
  | cons e r ih =>
    simp only [List.all_cons, Bool.and_eq_true] at h
    unfold Sparse.get
    split
    · simpa using h.1
    · exact ih h.2

/-- Putting a core whose scratchpad is in canonical form keeps the form. -/
theorem Memory.wf_setCore {d : Device} {k : Core} (c : Nat) (h : Memory.wf d = true) (hk : k.spad.wf = true) :
    Memory.wf (d.setCore c k) = true := by
  simp only [Memory.wf, Bool.and_eq_true] at h ⊢
  refine ⟨h.1, ?_⟩
  rw [List.all_eq_true] at h ⊢
  intro e he
  simp only [Device.setCore, Sparse.set] at he
  split at he
  · exact h.2 e (List.mem_filter.mp he).1
  · rcases Sparse.mem_insert _ _ _ _ he with rfl | he
    · exact hk
    · exact h.2 e (List.mem_filter.mp he).1

theorem Memory.wf_onCore {d : Device} {f : Core → Core} (c : Nat) (h : Memory.wf d = true)
    (hf : (f (d.core c)).spad.wf = true) : Memory.wf (d.onCore c f) = true := Memory.wf_setCore c h hf

theorem Memory.wf_countCore {d : Device} (c i n : Nat) (h : Memory.wf d = true) : Memory.wf (d.countCore c i n) = true := by
  unfold Device.countCore
  split
  · exact h
  · exact Memory.wf_onCore c h (Memory.core_wf h c)

theorem Memory.wf_countHub {d : Device} (i n : Nat) (h : Memory.wf d = true) : Memory.wf (d.countHub i n) = true := by
  unfold Device.countHub; split <;> exact h

theorem Memory.wf_countStack {d : Device} (k i n : Nat) (h : Memory.wf d = true) :
    Memory.wf (d.countStack k i n) = true := by
  unfold Device.countStack; split <;> exact h

theorem Memory.wf_log {d : Device} (r : HealthRec) (h : Memory.wf d = true) : Memory.wf (d.log r) = true := by
  unfold Device.log
  simp only
  split
  · exact h
  · exact Memory.wf_countHub 17 1 h

theorem Memory.wf_event {d : Device} (a b c e f g : Nat) (h : Memory.wf d = true) :
    Memory.wf (d.event a b c e f g) = true := Memory.wf_log _ h

theorem Memory.wf_retirePage {d : Device} (c g : Nat) (h : Memory.wf d = true) : Memory.wf (d.retirePage c g) = true := by
  unfold Device.retirePage
  split
  · exact h
  · refine Memory.wf_event _ _ _ _ _ _ (Memory.wf_countCore _ _ _ ?_)
    have h1 : Memory.wf (d.onCore c (fun k => { k with retired := Sparse.set false k.retired g true })) = true :=
      Memory.wf_onCore c h (Memory.core_wf h c)
    exact Memory.wf_onCore c h1 (Memory.core_wf h1 c)

theorem Memory.wf_spadUe {d : Device} (c a cause : Nat) (h : Memory.wf d = true) : Memory.wf (d.spadUe c a cause) = true := by
  unfold Device.spadUe
  have h1 : ∀ n, Memory.wf (d.onCore c (fun k => { k with pageUe := Sparse.set 0 k.pageUe (a / 4096) n })) = true :=
    fun n => Memory.wf_onCore c h (Memory.core_wf h c)
  simp only
  split
  · exact Memory.wf_retirePage _ _ (Memory.wf_event _ _ _ _ _ _ (h1 _))
  · exact Memory.wf_event _ _ _ _ _ _ (h1 _)

/-- A fold whose every step keeps the form keeps it. -/
theorem Memory.wf_foldl {β : Type} (l : List β) (f : Device → β → Device)
    (hf : ∀ d b, Memory.wf d = true → Memory.wf (f d b) = true) {d : Device} (h : Memory.wf d = true) :
    Memory.wf (l.foldl f d) = true := by
  induction l generalizing d with
  | nil => exact h
  | cons b r ih => exact ih (hf d b h)

/-- A read of a scratchpad keeps every memory in canonical form. -/
theorem Memory.wf_spadRead {d : Device} (c a n : Nat) (h : Memory.wf d = true) : Memory.wf (d.spadRead c a n).2 = true := by
  unfold Device.spadRead
  refine Memory.wf_foldl _ _ (fun d b h => Memory.wf_spadUe _ _ _ h) ?_
  refine Memory.wf_countCore _ _ _ (Memory.wf_countCore _ _ _ (Memory.wf_countCore _ _ _ ?_))
  exact Memory.wf_onCore c h (Mem.read_wf _ _ _ _ (Memory.core_wf h c))

theorem Memory.wf_digestWrite {d : Device} (l : List Nat) (pa : Nat) (bs : List (BitVec 8)) (h : Memory.wf d = true) :
    Memory.wf (d.digestWrite l pa bs) = true := by
  unfold Device.digestWrite
  split
  · exact Memory.wf_foldl _ _ (fun d b h => (Memory.wf_congr (by simp [memsOf])).trans h) h
  · exact h

theorem Memory.wf_markDirty {d : Device} (kind k : Nat) (h : Memory.wf d = true) : Memory.wf (d.markDirty kind k) = true := by
  unfold Device.markDirty; split <;> exact h

/-- A write of a scratchpad keeps every memory in canonical form. -/
theorem Memory.wf_spadWrite {d : Device} (c a : Nat) (data : List (BitVec 8 × Bool)) (h : Memory.wf d = true) :
    Memory.wf (d.spadWrite c a data) = true := by
  unfold Device.spadWrite
  refine Memory.wf_foldl _ _ (fun d b h => Memory.wf_markDirty _ _ h) ?_
  refine Memory.wf_digestWrite _ _ _ (Memory.wf_foldl _ _ (fun d b h => Memory.wf_spadUe _ _ _ h) ?_)
  refine Memory.wf_countCore _ _ _ (Memory.wf_countCore _ _ _ ?_)
  exact Memory.wf_onCore c h (Mem.write_wf _ _ _ _ (Memory.core_wf h c))

theorem Memory.wf_staging {d : Device} {m : Mem} (h : Memory.wf d = true) (hm : m.wf = true) :
    Memory.wf { d with staging := m } = true := by
  simp only [Memory.wf, Bool.and_eq_true] at h ⊢
  exact ⟨⟨⟨⟨h.1.1.1.1, hm⟩, h.1.1.2⟩, h.1.2⟩, h.2⟩

theorem Memory.wf_dram {d : Device} {m : Mem} (h : Memory.wf d = true) (hm : m.wf = true) :
    Memory.wf { d with dram := m } = true := by
  simp only [Memory.wf, Bool.and_eq_true] at h ⊢
  exact ⟨⟨⟨⟨hm, h.1.1.1.2⟩, h.1.1.2⟩, h.1.2⟩, h.2⟩

theorem Memory.staging_wf {d : Device} (h : Memory.wf d = true) : d.staging.wf = true := by
  simp only [Memory.wf, Bool.and_eq_true] at h; exact h.1.1.1.2

theorem Memory.dram_wf {d : Device} (h : Memory.wf d = true) : d.dram.wf = true := by
  simp only [Memory.wf, Bool.and_eq_true] at h; exact h.1.1.1.1

theorem Memory.wf_stageRead {d : Device} (a n : Nat) (h : Memory.wf d = true) : Memory.wf (d.stageRead a n).2 = true := by
  unfold Device.stageRead
  refine Memory.wf_foldl _ _ (fun d b h => Memory.wf_event _ _ _ _ _ _ h) ?_
  refine Memory.wf_countHub _ _ (Memory.wf_countHub _ _ (Memory.wf_countHub _ _ ?_))
  exact Memory.wf_staging h (Mem.read_wf _ _ _ _ (Memory.staging_wf h))

theorem Memory.wf_stagePut {d : Device} (a : Nat) (data : List (BitVec 8 × Bool)) (h : Memory.wf d = true) :
    Memory.wf (d.stagePut a data) = true := by
  unfold Device.stagePut
  refine Memory.wf_foldl _ _ (fun d b h => Memory.wf_markDirty _ _ h) ?_
  refine Memory.wf_foldl _ _ (fun d b h => Memory.wf_event _ _ _ _ _ _ h) ?_
  refine Memory.wf_countHub _ _ (Memory.wf_countHub _ _ ?_)
  exact Memory.wf_staging h (Mem.write_wf _ _ _ _ (Memory.staging_wf h))

theorem Memory.wf_stageWrite {d : Device} (a : Nat) (data : List (BitVec 8 × Bool)) (h : Memory.wf d = true) :
    Memory.wf (d.stageWrite a data) = true :=
  Memory.wf_stagePut _ _ (Memory.wf_digestWrite _ _ _ h)

theorem Memory.wf_retireBlock {d : Device} (b : Nat) (h : Memory.wf d = true) : Memory.wf (d.retireBlock b) = true := by
  unfold Device.retireBlock
  simp only
  split
  · exact h
  · exact Memory.wf_event _ _ _ _ _ _ (Memory.wf_countStack _ _ _ h)

theorem Memory.wf_dramUe {d : Device} (a cause : Nat) (h : Memory.wf d = true) : Memory.wf (d.dramUe a cause) = true := by
  unfold Device.dramUe
  simp only
  split
  · exact Memory.wf_retireBlock _ (Memory.wf_event _ _ _ _ _ _ (Memory.wf_countStack _ _ _ h))
  · exact Memory.wf_event _ _ _ _ _ _ (Memory.wf_countStack _ _ _ h)

theorem Memory.wf_dramRead {d : Device} (a n : Nat) (h : Memory.wf d = true) : Memory.wf (d.dramRead a n).2 = true := by
  unfold Device.dramRead
  refine Memory.wf_foldl _ _ (fun d b h => Memory.wf_dramUe _ _ h) ?_
  refine Memory.wf_foldl _ _ (fun d b h => Memory.wf_countStack _ _ _ h) ?_
  exact Memory.wf_dram h (Mem.read_wf _ _ _ _ (Memory.dram_wf h))

theorem Memory.wf_dramWrite {d : Device} (a : Nat) (data : List (BitVec 8 × Bool)) (h : Memory.wf d = true) :
    Memory.wf (d.dramWrite a data) = true := by
  unfold Device.dramWrite
  refine Memory.wf_foldl _ _ (fun d b h => Memory.wf_markDirty _ _ h) ?_
  refine Memory.wf_digestWrite _ _ _ (Memory.wf_foldl _ _ (fun d b h => Memory.wf_dramUe _ _ h) ?_)
  refine Memory.wf_foldl _ _ (fun d b h => Memory.wf_countStack _ _ _ h) ?_
  exact Memory.wf_dram h (Mem.write_wf _ _ _ _ (Memory.dram_wf h))

/-- A write to host memory keeps the form. -/
theorem Memory.wf_hostWrite {d : Device} (a : Nat) (bs : List (BitVec 8)) (h : Memory.wf d = true) :
    Memory.wf (d.hostWrite a bs) = true := by
  unfold Device.hostWrite
  simp only [Memory.wf, Bool.and_eq_true] at h ⊢
  exact ⟨⟨⟨h.1.1.1, Sparse.wf_setMany _ _ _ _ h.1.1.2⟩, h.1.2⟩, h.2⟩

/-- Programming the flash keeps the form. -/
theorem Memory.wf_flashWrite {d : Device} (a n : Nat) (bs : List (BitVec 8)) (h : Memory.wf d = true) :
    Memory.wf (d.flashWrite a n bs) = true := by
  unfold Device.flashWrite
  simp only [Memory.wf, Bool.and_eq_true] at h ⊢
  exact ⟨⟨h.1.1, Sparse.wf_setMany _ _ _ _ (Sparse.wf_filter _ _ _ h.1.2)⟩, h.2⟩

/-! ### Reading a byte back -/

/-- A scratchpad read leaves every byte of every scratchpad, and delivers what stands there. -/
theorem Device.spadRead_data (d : Device) (c a n : Nat) :
    (d.spadRead c a n).1.map (·.1) = (List.range n).map (fun i => Sparse.get 0 (d.core c).spad.bytes (a + i)) :=
  Mem.read_data _ _ _ _

end Sys2Proof.Machine
end

