-- ==== Sys2Proof/Laws/Slots.lean ====
section
/-! SUPPORT. Laws/Slots.lean: byte strings and their numbers, and the fields of a slot that the part builds: every slot of
`mkSlot` is 512 B with a good CRC, and each field of its trailer reads as it was given. -/

namespace Sys2Proof.Machine

open Sys2Proof

/-! ### Byte strings -/

@[simp] theorem leBytes_length (n x : Nat) : (leBytes n x).length = n := by
  induction n generalizing x with
  | zero => rfl
  | succ n ih => simp [leBytes, ih]

theorem leNat_leBytes (n x : Nat) : leNat (leBytes n x) = x % 256 ^ n := by
  induction n generalizing x with
  | zero => simp [leBytes, leNat, Nat.mod_one]
  | succ n ih =>
    rw [leBytes, leNat, ih, BitVec.toNat_ofNat, show (2 : Nat) ^ 8 = 256 from rfl, Nat.pow_succ' (n := n), Nat.mod_mul]

theorem leNat_append (a b : List (BitVec 8)) : leNat (a ++ b) = leNat a + 256 ^ a.length * leNat b := by
  induction a with
  | nil => simp [leNat]
  | cons x a ih => rw [List.cons_append, leNat, ih, leNat, List.length_cons, Nat.pow_succ', Nat.mul_add, Nat.mul_assoc, Nat.add_assoc]

theorem leNat_lt (a : List (BitVec 8)) : leNat a < 256 ^ a.length := by
  induction a with
  | nil => simp [leNat]
  | cons x a ih =>
    have := x.isLt
    simp only [leNat, List.length_cons, Nat.pow_succ']; omega

@[simp] theorem slice_length (bs : List (BitVec 8)) (off n : Nat) : (slice bs off n).length = n := by
  simp only [slice, List.length_append, List.length_replicate, List.length_take, List.length_drop]; omega

theorem slice_append_right (a b : List (BitVec 8)) (n : Nat) (h : b.length = n) : slice (a ++ b) a.length n = b := by
  subst h; simp [slice]

theorem slice_append_left (a b : List (BitVec 8)) (n : Nat) (h : a.length = n) : slice (a ++ b) 0 n = a := by
  subst h; simp [slice]

/-! ### The CRC -/

theorem maskOf_lt (n : Nat) (p : Nat → Bool) : maskOf n p < 2 ^ n := by
  induction n with
  | zero => simp [maskOf]
  | succ n ih =>
    have h : maskOf (n + 1) p = if p n then maskOf n p + 2 ^ n else maskOf n p := by
      simp [maskOf, List.range_succ, List.foldl_append]
    rw [h, Nat.pow_succ]; split <;> omega

theorem crc32c_lt (bs : List (BitVec 8)) : crc32c bs < 2 ^ 32 :=
  Nat.xor_lt_two_pow (maskOf_lt 32 _) (by decide)

/-! ### A slot that the part builds -/

/-- The trailer of a built slot below its CRC, as one number. -/
def trailerOf (beat poison slot kind : Nat) (repair : Bool) (seq ledger : Nat) (nack : Option (Nat × Nat)) (votes : Nat) : Nat :=
  votes % 4 * 2 ^ 70 + (match nack with
    | some (w, p) => 2 ^ 96 + w % 2 ^ 16 * 2 ^ 80 + p % 2 ^ 8 * 2 ^ 72
    | none => 0) + ledger % 256 * 2 ^ 97 + seq % 2 ^ 16 * 2 ^ 105 + b2n repair * 2 ^ 121 + kind % 4 * 2 ^ 122
    + slot % 256 * 2 ^ 124 + poison % 2 ^ 60 * 2 ^ 132 + beat % 2 ^ 32 * 2 ^ 192

theorem trailerOf_lt (beat poison slot kind : Nat) (repair : Bool) (seq ledger : Nat) (nack : Option (Nat × Nat)) (votes : Nat) :
    trailerOf beat poison slot kind repair seq ledger nack votes < 256 ^ 28 := by
  unfold trailerOf b2n; split <;> split <;> omega

variable (payload : List (BitVec 8)) (beat poison slot kind : Nat) (repair : Bool) (seq ledger : Nat)
  (nack : Option (Nat × Nat)) (votes : Nat)

theorem mkSlot_eq : mkSlot payload beat poison slot kind repair seq ledger nack votes
    = (slice payload 0 480 ++ leBytes 28 (trailerOf beat poison slot kind repair seq ledger nack votes))
      ++ leBytes 4 (crc32c (slice payload 0 480 ++ leBytes 28 (trailerOf beat poison slot kind repair seq ledger nack votes))) := by
  cases nack <;> rfl

@[simp] theorem mkSlot_length : (mkSlot payload beat poison slot kind repair seq ledger nack votes).length = 512 := by
  simp [mkSlot_eq]

@[simp] theorem mkSlot_payload :
    slotPayload (mkSlot payload beat poison slot kind repair seq ledger nack votes) = slice payload 0 480 := by
  rw [mkSlot_eq, slotPayload, List.append_assoc, slice_append_left _ _ _ (by simp)]

theorem mkSlot_trailer : slotTr (mkSlot payload beat poison slot kind repair seq ledger nack votes)
    = trailerOf beat poison slot kind repair seq ledger nack votes
      + 2 ^ 224 * crc32c (slice payload 0 480 ++ leBytes 28 (trailerOf beat poison slot kind repair seq ledger nack votes)) := by
  rw [mkSlot_eq, slotTr, List.append_assoc]
  have h := slice_append_right (slice payload 0 480)
    (leBytes 28 (trailerOf beat poison slot kind repair seq ledger nack votes)
      ++ leBytes 4 (crc32c (slice payload 0 480 ++ leBytes 28 (trailerOf beat poison slot kind repair seq ledger nack votes)))) 32
    (by simp)
  rw [slice_length] at h
  rw [h, leNat_append, leNat_leBytes, leNat_leBytes, Nat.mod_eq_of_lt (trailerOf_lt ..), leBytes_length,
    Nat.mod_eq_of_lt (by have := crc32c_lt (slice payload 0 480
      ++ leBytes 28 (trailerOf beat poison slot kind repair seq ledger nack votes)); omega), show 256 ^ 28 = 2 ^ 224 from rfl]

/-- A slot that the part builds is good. -/
@[simp] theorem mkSlot_good : slotGood (mkSlot payload beat poison slot kind repair seq ledger nack votes) = true := by
  have ht := mkSlot_trailer payload beat poison slot kind repair seq ledger nack votes
  have hb := trailerOf_lt beat poison slot kind repair seq ledger nack votes
  have hc := crc32c_lt (slice payload 0 480 ++ leBytes 28 (trailerOf beat poison slot kind repair seq ledger nack votes))
  simp only [slotGood, mkSlot_length, beq_self_eq_true, Bool.true_and, beq_iff_eq, ht, bits]
  have hl : (slice payload 0 480 ++ leBytes 28 (trailerOf beat poison slot kind repair seq ledger nack votes)).length = 508 := by simp
  have htake : (mkSlot payload beat poison slot kind repair seq ledger nack votes).take 508
      = slice payload 0 480 ++ leBytes 28 (trailerOf beat poison slot kind repair seq ledger nack votes) := by
    rw [mkSlot_eq, List.take_append_of_le_length (by omega), List.take_of_length_le (by omega)]
  rw [htake]
  omega

/-- The fields of the trailer of a built slot are those that it was built from. -/
theorem mkSlot_fields :
    let x := mkSlot payload beat poison slot kind repair seq ledger nack votes
    trBeat x = beat % 2 ^ 32 ∧ trPoison x = poison % 2 ^ 60 ∧ trSlot x = slot % 256 ∧ trKind x = kind % 4
      ∧ trRepair x = repair ∧ trSeq x = seq % 2 ^ 16 ∧ trLedger x = ledger % 256 ∧ trVotes x = votes % 4
      ∧ trNackV x = nack.isSome := by
  simp only [trBeat, trPoison, trSlot, trKind, trRepair, trSeq, trLedger, trVotes, trNackV, mkSlot_trailer, bitAt, bits]
  generalize crc32c _ = c
  have hr : (b2n repair = 0 ∧ repair = false) ∨ (b2n repair = 1 ∧ repair = true) := by cases repair <;> simp [b2n]
  obtain ⟨n, hn, hlt, hv⟩ : ∃ n, trailerOf beat poison slot kind repair seq ledger nack votes = votes % 4 * 2 ^ 70 + n * 2 ^ 72
      + ledger % 256 * 2 ^ 97 + seq % 2 ^ 16 * 2 ^ 105 + b2n repair * 2 ^ 121 + kind % 4 * 2 ^ 122 + slot % 256 * 2 ^ 124
      + poison % 2 ^ 60 * 2 ^ 132 + beat % 2 ^ 32 * 2 ^ 192 ∧ n < 2 ^ 25
        ∧ n / 2 ^ 24 = b2n nack.isSome := by
    cases nack with
    | none => exact ⟨0, by simp [trailerOf], by omega, by simp [b2n]⟩
    | some x => exact ⟨2 ^ 24 + x.1 % 2 ^ 16 * 2 ^ 8 + x.2 % 2 ^ 8, by simp only [trailerOf]; omega, by omega,
        by simp only [b2n, Option.isSome, if_true]; omega⟩
  rw [hn]
  generalize hb : b2n repair = b at hr ⊢
  refine ⟨?_, ?_, ?_, ?_, ?_, ?_, ?_, ?_, ?_⟩
  case refine_5 => rcases hr with ⟨rfl, rfl⟩ | ⟨rfl, rfl⟩ <;> simp only [beq_eq_false_iff_ne, beq_iff_eq] <;> omega
  case refine_9 =>
    have : b ≤ 1 := by omega
    cases nack <;> simp only [Option.isSome, b2n] at hv ⊢ <;> simp only [beq_eq_false_iff_ne, beq_iff_eq] <;> simp at hv <;> omega
  all_goals (have : b ≤ 1 := by omega); clear hr hb hn; omega

end Sys2Proof.Machine
end

