-- ==== Sys2Proof/WellFormed.lean ====
section
/-! DEFINITION. WellFormed.lean: operands that the table of operations and events admits: unit numbers that some grade has,
access sizes and byte counts that the spec gives. A part of a smaller grade has fewer units: exec stops there by name. -/

namespace Sys2Proof

/-- A logical core of some grade (R3). -/
def coreOk (c : Nat) : Bool := decide (c < 144)
/-- A mailbox (R446). -/
def mailboxOk (mb : Nat) : Bool := decide (mb < 16)
/-- A port of some grade: F0 to F31, T0 and T1 (R319). -/
def portOk (p : Nat) : Bool := decide (p < 34)
/-- A task slot (R408). -/
def slotOk (t : Nat) : Bool := decide (t < 8)
/-- A stack of some grade (R15). -/
def stackOk (k : Nat) : Bool := decide (k < 8)
/-- A region of Table 3-1. -/
def regionOk (r : Nat) : Bool := decide (r < 170)
/-- A quarter. -/
def quarterOk (q : Nat) : Bool := decide (q < 4)
/-- A mailbox of BAR0 or a relay window (R446, R464). -/
def windowOk (n : Nat) : Bool := decide (n < 14)
/-- An access size of R447. -/
def sizeOk (n : Nat) : Bool := n == 4 || n == 8
/-- A sensor of R607: the hub, a quarter or a stack. -/
def sensorOk (n : Nat) : Bool := decide (n < 13)
/-- A slot of the line, of 512 B (R29). -/
def slotBytesOk (bs : List (BitVec 8)) : Bool := bs.length == 512
/-- A position of the wall beat (R33, R338). -/
def positionOk (k : Nat) : Bool := decide (k < 224)
/-- A logical device number (R344). -/
def deviceOk (n : Nat) : Bool := decide (n < 4096)
/-- A seat (R501). -/
def seatOk (n : Nat) : Bool := decide (n < 2)
/-- SMB_ADDR (R587). -/
def strapOk (n : Nat) : Bool := decide (n < 4)
/-- Rails by number (Table 25-4). -/
def railsOk (l : List Nat) : Bool := l.all (fun r => decide (r < 26))
/-- Readings of rails. -/
def readingsOk (l : List (Nat × Nat × Nat)) : Bool := l.all (fun x => decide (x.1 < 26))
/-- A scratchpad bank (R235). -/
def bankOk (b : Nat) : Bool := decide (b < 64)
/-- The bits of a word frame of DRONE_IN (Table 2-3). -/
def frameOk (f : Nat) : Bool := decide (f < 2 ^ 88)
/-- Readings at a beat edge: regions and stacks that exist, temperatures that the word of R91 holds. -/
def envOk (e : EdgeEnv) : Bool :=
  e.tj.all (fun x => regionOk x.1 && decide (x.2 < 1024)) && e.rate.all (fun x => regionOk x.1)
    && e.stackTemp.all (fun x => stackOk x.1) && e.slack.all (fun x => decide (x.1 < 148))
    && e.count.all (fun x => decide (144 ≤ x.1) && decide (x.1 < 148) && decide (x.2 < 1600))
/-- Stalls at a gate: of cores, in local cycles (R26, R161). -/
def stallOk (l : List (Nat × Nat)) : Bool := l.all (fun x => coreOk x.1)
/-- A record of the twin stream: its fields fit Table 22-4. -/
def recOk (r : TwinRec) : Bool :=
  decide (r.beat < 2 ^ 64) && decide (r.sc < 2048) && decide (r.core < 256) && decide (r.aux < 2 ^ 25)
    && decide (r.data.length ≤ 4064)
/-- A piece of R463: at most 448 B, within the command area. -/
def pieceOk (off : Nat) (data : List (BitVec 8)) : Bool := decide (data.length ≤ 448) && decide (off < 4096)

/-- Is a command or event well-formed? -/
def Instr.wf : Instr → Bool
  | .registerWrite _ size _ | .ringConfigWrite _ size _ | .ringHeadWrite size _ => sizeOk size
  | .submit win size _ | .relayAbandon win size _ => windowOk win && sizeOk size
  | .bar2Write _ _ | .smbSetPointer _ _ | .smbBlockWrite _ _ | .smbBlockRead _ | .commandStart | .ringEntryWrite
  | .planStopEffect | .planStartEffect | .snapshotLatch | .powerPolicyEffect | .dramTick | .stagingScrub | .logGap
  | .openWrite | .openReadReq | .openReadData | .openKeyAdd | .openQmsg | .openDone | .openHost | .droneInMarker _
  | .droneLost | .freewheelExpired | .freewheelExit | .droneLock | .droneRealign | .standbyTakeover | .refclkLost
  | .refclkReturn | .pcieRefclkLost | .hostLinkUp | .powerCapUpdate | .meterEnergyShare | .resetAssert | .bootFrame
  | .bootSignature | .startupStep | .chanterReady | .twinSeatTimeout | .twinPeerAliveFall | .openDeferralApply | .twinMute
  | .twinLinkLoss | .twinJoin | .twinAttachAbandon | .twinScrubRepair | .bypass | .idcode | .samplePreload | .extest
  | .clamp | .highz | .hostLinkDown | .twinPeerAliveRise | .lossOfPower => true
  | .commandComplete mb | .identRead mb | .versionNegotiate mb | .topoSet mb | .droneRole mb | .imageStage mb
  | .imageCommit mb | .taskBind mb | .taskStart mb | .yieldReq mb | .taskStop mb | .ctxSave mb | .ctxRestore mb
  | .planStop mb | .planSet mb | .planStart mb | .snapshot mb | .counterRead mb | .healthRead mb | .digestRead mb
  | .replayArm mb | .replayRun mb | .powerPolicy mb | .meterRead mb | .epochSet mb | .twinAttach mb | .twinDetach mb
  | .hostCopy mb => mailboxOk mb
  | .taskStartEffect slot | .yieldPoint slot | .yieldOverdue slot | .taskFaulted slot | .replayApply slot => slotOk slot
  | .mgmtPiece mb src off data _ => mailboxOk mb && deviceOk src && pieceOk off data
  | .mgmtResponse src mb off data _ => deviceOk src && mailboxOk mb && pieceOk off data
  | .ctNop c | .ctLoop c | .ctJump c | .ctGate c | .ctYield c | .ctHint c | .ctFlagrd c | .ctFlagclr c | .ctEnd c
  | .cuNop c | .cuCopy c | .mxNop c | .mxPass c | .vNop c _ | .vAdd c _ | .vSub c _ | .vMul c _ | .vFma c _ | .vDiv c _
  | .vSqrt c _ | .vMax c _ | .vMin c _ | .vCmp c _ | .vSel c _ | .vNeg c _ | .v2sum c _ | .v2prod c _ | .vExp2 c _
  | .vLog2 c _ | .vRcp c _ | .vRsqrt c _ | .vAnd c _ | .vOr c _ | .vXor c _ | .vShl c _ | .vShr c _ | .vSra c _
  | .vMov c _ | .vPerm c _ | .vShuf c _ | .vCvt c _ | .vUnpk c _ | .vPack c _ | .vCmpr c _ | .vExpd c _ | .vBcomb c _
  | .vRsum c _ | .vRmax c _ | .vRmin c _ | .vXadd c _ | .vXrd c _ | .vXclr c _ | .vXst c _ | .vXld c _ | .vSm0 c _
  | .vSm1 c _ | .vSmr c _ | .vSm2 c _ | .vSmn c _ | .vPset c _ | .vPbuf c _ | .vBell c _ | .qkNop c | .keyAdd c
  | .keyWait c | .keyTake c | .keyRead c | .qSend c | .qRecv c | .qSelect c | .entDraw c | .timeRead c | .cntRead c
  | .vectorWriteback c | .mxFeedRead c | .passResultLand c _ | .scrubCycle c | .bundleWaitOverdue c | .copyComplete c _
  | .queueArrival c | .coreRemap c => coreOk c
  | .beatEdge env => envOk env
  | .beatWorkDone region => regionOk region
  | .beatGateOpen stall => stallOk stall
  | .copyAccess c bank _ => coreOk c && bankOk bank
  | .forcedRefresh stack | .dramScrub stack => stackOk stack
  | .slotTransmit p | .controlSlotTransmit p | .slipWrite p | .repairResend p | .ledgerCheck p | .linkTrainingDone p _
  | .linkFramingLock p | .openLink p | .linkDelayDone p _ | .portFramingLoss p | .linkUpTimeout p => portOk p
  | .outboxReady p pos => portOk p && positionOk pos
  | .slotReceive p slot | .controlSlotReceive p slot _ => portOk p && slotBytesOk slot
  | .droneInWord frame => frameOk frame
  | .railTelemetryRead readings => readingsOk readings
  | .railStatusRead faults => railsOk faults
  | .thermalShutdown sensor => sensorOk sensor
  | .wakeComplete kind unit => decide (kind < 3) && coreOk unit
  | .resetRelease seat smbAddr => seatOk seat && strapOk smbAddr
  | .dieAttestation q _ => quarterOk q
  | .twDecide r | .twAck r | .twReady r | .twCommand r | .twHostIn r | .twValue r | .twMissed r | .twFill r | .twDigest r
  | .twFault r | .twSteer r | .twCopy r => recOk r
  | .twMbox14 off data _ _ => pieceOk off data
  | .packageFault cause unit => decide (cause < 5) && decide (unit < 26)

end Sys2Proof
end

