-- ==== Sys2Proof/Tests/Slice0.lean ====
section
/-! SUPPORT. Tests/Slice0.lean: ill-formed commands, which the check refuses; the spec's worked examples; a witness for the hypotheses of each
statement. -/

namespace Sys2Proof.Tests

set_option Elab.async false

open Sys2Proof Sys2Proof.Machine

/-! ### Ill-formed operands: one for each check of WellFormed.lean -/

theorem test_wf_core : (Instr.ctNop 144).wf = false ∧ (Instr.ctNop 143).wf = true := by decide
theorem test_wf_mailbox : (Instr.identRead 16).wf = false ∧ (Instr.identRead 15).wf = true := by decide
theorem test_wf_port : (Instr.slotTransmit 34).wf = false ∧ (Instr.slotTransmit 33).wf = true := by decide
theorem test_wf_slot : (Instr.yieldPoint 8).wf = false ∧ (Instr.yieldPoint 7).wf = true := by decide
theorem test_wf_stack : (Instr.dramScrub 8).wf = false ∧ (Instr.forcedRefresh 7).wf = true := by decide
theorem test_wf_region : (Instr.beatWorkDone 170).wf = false ∧ (Instr.beatWorkDone 147).wf = true := by decide
theorem test_wf_quarter : (Instr.dieAttestation 4 true).wf = false ∧ (Instr.dieAttestation 3 true).wf = true := by decide
theorem test_wf_window : (Instr.submit 14 8 1).wf = false ∧ (Instr.submit 13 8 1).wf = true := by decide
theorem test_wf_size : (Instr.registerWrite 0 2 0).wf = false ∧ (Instr.registerWrite 0 4 0).wf = true := by decide
theorem test_wf_sensor : (Instr.thermalShutdown 13).wf = false ∧ (Instr.thermalShutdown 12).wf = true := by decide
theorem test_wf_slotBytes : (Instr.slotReceive 0 []).wf = false ∧ (Instr.slotReceive 0 (List.replicate 512 0)).wf = true := by
  decide +kernel
theorem test_wf_position : (Instr.outboxReady 0 224).wf = false ∧ (Instr.outboxReady 0 223).wf = true := by decide
theorem test_wf_device : (Instr.mgmtPiece 12 4096 0 [] true).wf = false ∧ (Instr.mgmtPiece 12 4095 0 [] true).wf = true := by
  decide
theorem test_wf_piece : (Instr.twMbox14 4096 [] true true).wf = false ∧ (Instr.twMbox14 4095 [] true true).wf = true := by decide
theorem test_wf_seat_and_strap : (Instr.resetRelease 2 0).wf = false ∧ (Instr.resetRelease 0 4).wf = false
    ∧ (Instr.resetRelease 1 3).wf = true := by decide
theorem test_wf_rails : (Instr.railStatusRead [26]).wf = false ∧ (Instr.railTelemetryRead [(26, 0, 0)]).wf = false
    ∧ (Instr.railStatusRead [25]).wf = true := by decide
theorem test_wf_bank : (Instr.copyAccess 0 64 true).wf = false ∧ (Instr.copyAccess 0 63 true).wf = true := by decide
theorem test_wf_frame : (Instr.droneInWord (2 ^ 88)).wf = false ∧ (Instr.droneInWord (2 ^ 88 - 1)).wf = true := by decide
theorem test_wf_edge : (Instr.beatEdge { tj := [(0, 1024)], rate := [], stackTemp := [], slack := [], count := [] }).wf = false
    ∧ (Instr.beatEdge { tj := [(169, 1023)], rate := [], stackTemp := [(7, 85)], slack := [(147, 0)], count := [(144, 1599)] }).wf = true := by decide
theorem test_wf_record : (Instr.twDecide ⟨0, 2048, 0, 0, []⟩).wf = false ∧ (Instr.twDecide ⟨0, 2047, 0, 0, []⟩).wf = true := by
  decide
theorem test_wf_wake : (Instr.wakeComplete 3 0).wf = false ∧ (Instr.wakeComplete 2 0).wf = true := by decide
theorem test_wf_fault_unit : (Instr.packageFault 5 0).wf = false ∧ (Instr.packageFault 0 26).wf = false
    ∧ (Instr.packageFault 4 0).wf = true := by decide

/-- The table of operations gives no row bits: no word spells a command. -/
theorem test_no_word_spells_a_command : decodeTableWord 32 0xFFFF = none ∧ (State.reset.withFetchWord 32 0xFFFF) = State.reset := by
  decide +kernel

/-! ### The spec's worked examples -/

/-- Table 4-7: Tuba32 values to Fife8, to nearest. -/
theorem test_table_4_7_fife8 :
    convert .tb32 .ff8 0x3FC40000 .near = (0x38, flagInex) ∧ convert .tb32 .ff8 0x41F58000 .near = (0x7F, flagInex)
    ∧ convert .tb32 .ff8 0x41FC0000 .near = (0x7F, flagOvf + flagInex) := by decide +kernel

/-- The example after R123: 1 + 3/256 to Bassoon16 rounds to the even neighbour. -/
theorem test_bassoon_half : convert .tb32 .bn16 0x3FC0C000 .near = (0x3F82, flagInex) := by decide +kernel

/-- The example after R119: Horn32 at the edges of its range, and counts that are not reduced. -/
theorem test_horn_edges :
    hnResult false (-(toSigned 0x80000000 32)) = (0x80000000, flagOvf) ∧ hnResult true (-(toSigned 0x80000000 32)) = (0x7FFFFFFF, flagOvf)
    ∧ hnDiv false 17 0 = (0, flagDivz) ∧ hnDiv false 0xFFFFFFF9 2 = (0xFFFFFFFD, 0)
    ∧ opLogic 0x1B 1 40 = 0 ∧ opLogic 0x1D 0xFFFFFFF8 40 = 0xFFFFFFFF := by decide +kernel

/-- Table 5-5: the pieces of x and w, and the sum at stop 1. -/
theorem test_pieces_of_table_5_5 :
    (Fmt.tb32.round ((Fmt.tb32.read 0x3FC00C04).map pieceHi) .near).1 = 0x3FC01000
    ∧ ((Fmt.tb32.read 0x3FC00C04).map (fun x => (pieceLo x).units (-22))) = some (-1020)
    ∧ ((Fmt.tb32.read 0x3FC00001).map (fun x => (pieceLo x).units (-22))) = some 1 := by decide +kernel

/-- Table 9-8: the lanes 1, 3, 4 and 7 of A packed from position 0x100000, and put back from base 0x100004. -/
theorem test_table_9_8 :
    let a := lanes (fun i => ([10, 11, 12, 13, 14, 15, 16, 17].getD i 0, false))
    let b := lanes (fun i => (if i = 1 ∨ i = 3 ∨ i = 4 ∨ i = 7 then 1 else 0, false))
    let c := lanes (fun _ => (0x00100000, false))
    let d := lanes (fun i => ([11, 13, 14, 17].getD i 0, false))
    let e := lanes (fun i => ([0x00100001, 0x00100003, 0x00100004, 0x00100007].getD i 0xFFFFFFFF, false))
    let x := opExpd d e (lanes (fun _ => (0x00100004, false)))
    ((opCmpr a b c).regs.filter (fun r => decide (r.2.1 < 5)) = [(0, 0, 11, false), (0, 1, 13, false), (0, 2, 14, false), (0, 3, 17, false),
        (0, 4, 0, false), (1, 0, 0x00100001, false), (1, 1, 0x00100003, false), (1, 2, 0x00100004, false), (1, 3, 0x00100007, false),
        (1, 4, 0xFFFFFFFF, false), (2, 0, 4, false)])
    ∧ (List.range 8).map (lane x) = [14, 0, 0, 17, 0, 0, 0, 0] := by decide +kernel

/-- Table 10-9: the banks of the two operands with and without rotation, and the copy groups that they meet. -/
theorem test_table_10_9_banks :
    let k := { Core.reset with pageMap := [(1056, 4), (1057, 12)] }
    k.bankOf (0x0400 * 4096 + 0x20200) = 12 ∧ k.bankOf (0x0400 * 4096 + 0x21200) = 20
    ∧ Core.reset.bankOf (0x0400 * 4096 + 0x20200) = 8 ∧ Core.reset.bankOf (0x0400 * 4096 + 0x21200) = 8
    ∧ inGroup 100 16 = true ∧ inGroup 104 16 = false ∧ inGroup 104 32 = true := by decide +kernel

/-! ### A running part -/

/-- An aligned part at W 100, H 10, S 90, whose gate of beat 90 has opened, with the Chanter running and the host link up. -/
def part : Device :=
  { Device.reset with
    beat := { w := 100, h := 10, s := 90, aligned := true }, gate := { e := 90 },
    boot := { Boot.reset with phase := .running }, host := { HostSide.reset with linkUp := true } }

/-- A device with no command waiting. -/
def st (d : Device) : State := { dev := d, pending := [] }

/-- Task 0 runs on core 0, with some bundles of zeros. -/
def busyPart : Device :=
  { part with
    tasks := [(0, { Task.reset with state := 2, level := 2, cores := [0], lastYield := 80 })],
    cores := [(0, { Core.reset with running := some 0 })], regions := [(0, { Region.reset with finished := false })] }

/-- Mailbox 0 holds a started command with a code and the bytes of its body. -/
def ordered (code : Nat) (body : List (BitVec 8)) (d : Device) : Device :=
  d.onMbx 0 (fun m => { m with st := 2, cmd := Sparse.setMany 0 [(51, BitVec.ofNat 8 code)] 0x40 body })

/-- A little-endian field of a body. -/
def le (n x : Nat) : List (BitVec 8) := leBytes n x

theorem test_ordered : (ordered 0x20 [3] part).runs 0 0x20 = true ∧ ((ordered 0x20 [3] part).mbx 0).slot = 3 := by decide +kernel

/-! ### Witnesses for the statements about the time base -/

/-- O2, O4, O5, O6: a state in step that aligns, and one that does not; a command that moves no time and answers a next state. -/
theorem test_time_base :
    (st part).dev.inStep ∧ (st part).dev.beat.aligned = true ∧ (st part).dev.holdAt 101 = false
    ∧ ({ part with hold := { Hold.reset with votes := [99] } } : Device).holdAt 101 = true
    ∧ movesTime .refclkReturn = false ∧ endsRun .refclkReturn = false
    ∧ (∃ t, step { dev := part, pending := [.refclkReturn] } = .next t) :=
  ⟨by decide, by decide, by decide, by decide, by decide, by decide, ⟨_, rfl⟩⟩

/-- Table 2-2: a vote in wall beat 1,000 makes 1,002 a hold beat. -/
theorem test_table_2_2 :
    let d := fun (w s : Nat) => ({ part with beat := { w := w, h := 100, s := s, aligned := true },
                                              hold := { Hold.reset with votes := [1000] } } : Device)
    (d 1000 900).nextBeat = { w := 1001, h := 100, s := 901, aligned := true }
    ∧ (d 1001 901).nextBeat = { w := 1002, h := 101, s := 901, aligned := true } := by decide +kernel

/-- O4, O10: a root that locks. -/
theorem test_root_locks :
    let d := { Device.reset with drone := { Drone.reset with role := 1, goodEdges := 3, prevWord := some 6, lastWord := some 7 } }
    d.beat.aligned = false ∧ d.drone.role = 1 ∧ 3 ≤ d.drone.goodEdges ∧ d.drone.prevWord = some 6 ∧ d.drone.lastWord = some (6 + 1)
    ∧ d.rootLock 20000 = some 7 ∧ d.rootLock 20001 = none ∧ d.rootLock (-20000) = some 7 := by decide +kernel

/-- The control slot of a root at W 100, S 90. -/
def goodCtl : List (BitVec 8) :=
  mkSlot (({ part with drone := { Drone.reset with role := 1, st := 2 } } : Device).ctlPayload 0) 90 0 0 1 false 100 0 none 0

theorem goodCtl_facts : ctlGood goodCtl = true ∧ trNackV goodCtl = false ∧ trVotes goodCtl = 0 ∧ ctlW goodCtl = 100 ∧ ctlS goodCtl = 90
    ∧ ctlHold goodCtl = false ∧ ctlState goodCtl = 2 ∧ ctlHops goodCtl = 0 ∧ ctlVote goodCtl = false := by
  have h := mkSlot_fields (({ part with drone := { Drone.reset with role := 1, st := 2 } } : Device).ctlPayload 0) 90 0 0 1 false 100 0
    none 0
  refine ⟨?_, h.2.2.2.2.2.2.2.2, h.2.2.2.2.2.2.2.1, ?_⟩
  · rw [ctlGood, show slotGood goodCtl = true from mkSlot_good .., show trKind goodCtl = 1 from h.2.2.2.1]; decide +kernel
  · decide +kernel

/-- O4: an unaligned member aligns by it. -/
theorem test_member_aligns :
    let d := { Device.reset with
      drone := { Drone.reset with rootMask := 1 }, fabric := { Fabric.reset with ports := [(0, { Port.reset with step := 2 })] } }
    d.hasPort 0 = true ∧ d.alignsNow 0 goodCtl = true := by
  obtain ⟨g, n, v, -⟩ := goodCtl_facts
  refine ⟨by decide, ?_⟩
  simp only [Device.alignsNow, Device.ctlReceive, Device.seeVotes, g, n, v]
  decide +kernel

/-- O9: a core with its work done, a copy network, and a part whose regions have all finished before the next edge. -/
theorem test_work_and_gate :
    let d := busyPart.onRegion 0 (fun r => { r with count := 1600 })
    (d.hasRegion 0 = true ∧ (d.region 0).finished = false ∧ (d.core 0).running.isSome = true ∧ (d.core 0).power.state = 0
      ∧ d.workSc 0 ≤ (d.region 0).count ∧ d.scrubDue 0 = false)
    ∧ ((busyPart.onRegion 147 (fun r => { r with finished := false })).region 147).finished = false
    ∧ ({ part with gate := { e := 89 } } : Device).gateReady = true := by decide +kernel

/-- O10: a marker edge that locks nothing. -/
theorem test_marker_of_a_member : part.rootLock 0 = none := by decide

/-- O11, O13: a root that loses its reference, a freewheel that expires, one that ends, a member that locks, and a standby that takes
over. -/
theorem test_drone_states :
    let d := fun (x : Drone) => ({ part with drone := x } : Device)
    let a := d { Drone.reset with role := 1, st := 2, badEdges := 4 }
    let b := d { Drone.reset with st := 2, noValid := 4 }
    let c := d { Drone.reset with st := 4, freeBeats := 65536 }
    let e := d { Drone.reset with st := 4, valid := 4, upFits := true, thetas := [511999] }
    let r := d { Drone.reset with role := 1, st := 4, relock := 4 }
    let f := d { Drone.reset with st := 1, thetas := List.replicate 256 100 }
    let g := d { Drone.reset with role := 2, rootBad := 64, ownGood := 64 }
    (a.beat.aligned = true ∧ a.twin.role ≠ 5 ∧ a.drone.st = 2 ∧ a.drone.role = 1 ∧ 4 ≤ a.drone.badEdges)
    ∧ (b.drone.role ≠ 1 ∧ b.drone.role ≠ 3 ∧ 4 ≤ b.drone.noValid) ∧ (c.drone.st = 4 ∧ 65536 ≤ c.drone.freeBeats)
    ∧ (e.drone.realign = 0 ∧ 4 ≤ e.drone.valid ∧ e.drone.upFits = true ∧ sumOf 1024 (e.drone.thetas.take 1024) = 511999)
    ∧ (r.drone.st = 4 ∧ r.drone.realign = 0 ∧ 4 ≤ r.drone.relock)
    ∧ (f.drone.st = 1 ∧ f.drone.realigning = false ∧ 256 ≤ f.drone.thetas.length ∧ sumOf 256 f.drone.thetas = 25600)
    ∧ (g.drone.role = 2 ∧ g.drone.realign = 0 ∧ 64 ≤ g.drone.rootBad ∧ 64 ≤ g.drone.ownGood) := by decide +kernel

/-- O12: a member that realigns forward, one whose new numbers step back, and a root that has found its words again. -/
theorem test_realignments :
    let d := fun (w n : Nat) => ({ part with
      drone := { Drone.reset with st := 4, realign := 1, rootMask := 2 },
      fabric := { Fabric.reset with ports := [(1, { Port.reset with rxValid := true, rxW := w, rxS := n })] } } : Device)
    let r := { part with drone := { Drone.reset with role := 1, realign := 3, goodEdges := 4, lastWord := some 121 } }
    (d 100 90).realignTo = some (100, 90) ∧ (d 200 95).realignTo = some (200, 95) ∧ (d 200 89).realignTo = some (200, 89)
    ∧ (d 200 89).beat.s = 90 ∧ (d 100 90).drone.realigning = true ∧ (d 100 90).drone.role ≠ 1 ∧ (d 100 90).drone.role ≠ 3
    ∧ r.drone.realigning = true ∧ r.realignTo = some (120, 110) := by decide +kernel

/-- O14: the clocks run, and a host link that can come up. -/
theorem test_clocks :
    part.pins.refclk = true ∧ part.pins.pcieRefclk = true
    ∧ ({ Device.reset with pins := { Pins.reset with pcieTx := true } } : Device).host.linkUp = false := by decide

/-! ### The host and the mailboxes -/

/-- O15: the host reaches the registers; the first and the last offset; a ring that is off, and one that is on with an entry. -/
theorem test_host_writes :
    let r : Ring := { Ring.reset with size := 64, enable := true, used := 1, tail := 1 }
    part.hostReaches = true ∧ 0x7F8 % 8 = 0 ∧ 0x7F8 + 8 ≤ 0x800 ∧ part.hub.ring.enable = false
    ∧ (let v := 1; r.enable = true ∧ v < r.size ∧ (v + r.size - r.head) % max 1 r.size ≤ r.used) := by decide

/-- O16: an empty mailbox with SEQ 7 in its command area, a busy one, and a busy relay window. -/
theorem test_submits :
    let d := part.onMbx 11 (fun m => { m with area := [(52, 7)] })
    let b := part.onMbx 11 (fun m => { m with st := 1 })
    let w := part.onWindow 13 (fun m => { m with st := 2, seq := 7 })
    d.hostReaches = true ∧ (d.mbx 11).busy = false ∧ bits (leNat (Sparse.getMany 0 (d.mbx 11).captured 0 64)) 416 32 = 7
    ∧ b.hostReaches = true ∧ (b.mbx 11).busy = true ∧ w.hostReaches = true ∧ (w.window 13).busy = true ∧ (w.window 13).seq = 7 := by
  decide +kernel

/-- O16: the values of SUBMIT, whole and with its high half as last written, and a command for device 5 in a relay window. -/
theorem test_submit_values :
    let d := part.onMbx 11 (fun m => { m with area := [(52, 7)], submitHi := 7 })
    let r := part.onWindow 13 (fun m => { m with area := [(48, 0x50), (51, 1), (52, 7)] })
    let x : Mbx := { Mbx.reset with cmd := (r.window 13).captured }
    d.submitVal 11 8 (7 * 2 ^ 32 + 1) = 7 * 2 ^ 32 + 1 ∧ d.submitVal 11 4 1 = 7 * 2 ^ 32 + 1 ∧ d.submitVal 11 4 0 % 2 = 0
    ∧ (r.window 13).busy = false ∧ x.layoutBad true = false ∧ x.hSeq = 7 ∧ x.target = 5 ∧ r.devNum = 0 := by decide +kernel

/-- O17: an IDENT that starts, a command that boot halt bars, one of another rank, a decided outcome, and a ring that has room. -/
theorem test_start_and_end :
    let pend := fun (rank : BitVec 8) => part.onMbx 0 (fun m => { m with st := 1, cmd := [(51, 1), (56, rank)] })
    let done := part.onMbx 0 (fun m => { m with st := 2, outcome := some (0, 0, []) })
    let halted := { part with boot := { Boot.reset with phase := .halt } }.onMbx 0 (fun m =>
      { m with st := 1, cmd := [(46, 0x80), (51, 2), (56, 2)] })
    (pend 2).smbServes = true ∧ (pend 2).nextCommand = some 0 ∧ (pend 2).headerBad 0 = none ∧ (pend 2).commandBad 0 = false
    ∧ halted.smbServes = true ∧ halted.nextCommand = some 0 ∧ halted.headerBad 0 = none ∧ halted.commandBad 0 = true
    ∧ (pend 1).nextCommand = some 0 ∧ (pend 1).headerBad 0 = some (5, 5)
    ∧ (done.mbx 0).outcome = some (0, 0, []) ∧ done.publishWaits 0 = false := by decide +kernel

theorem test_ring_has_room :
    let d := { part with hub := { Hub.reset with ring := { Ring.reset with size := 64, enable := true, used := 63, waiting := [[]] } } }
    d.hub.ring.waiting = [[]] ∧ d.hub.ring.enable = true ∧ d.hub.ring.used < d.hub.ring.size ∧ d.host.linkUp = true := by decide

/-- O18: a byte that lands, and the first beyond BAR2's aperture. -/
theorem test_bar2 :
    part.hostReaches = true ∧ part.twin.role ≠ 4 ∧ part.twin.role ≠ 5 ∧ part.bar2Lands 0x4000000 = true ∧ part.smbServes = true
    ∧ (∃ i, i < [0, (0 : BitVec 8)].length ∧ 0x9000000 ≤ 0x8FFFFFF + i) := ⟨by decide, by decide, by decide, by decide +kernel,
      by decide, ⟨1, by decide, by decide⟩⟩

/-- O18: packages of a pair, and mailbox 15 with its pointer at the last byte of SUBMIT. -/
theorem test_bar2_in_a_pair :
    let r := fun (n : Nat) => ({ part with twin := { Twin.reset with role := n } } : Device)
    let d := { part with hub := { Hub.reset with smbPtr := 0x807 } }.onMbx 15 (fun m => { m with area := [(0x800, 1)] })
    let m : Mbx := { d.mbx 15 with area := Sparse.set 0 (d.mbx 15).area 0x807 0 }
    (r 4).hostReaches = true ∧ (r 4).bar2Lands 0x4000000 = true ∧ (r 5).twin.role = 5
    ∧ d.smbServes = true ∧ d.hub.smbPtr = 0x807 ∧ (d.mbx 15).busy = false ∧ leNat (Sparse.getMany 0 m.area 0x800 8) = 1
    ∧ bits (leNat (Sparse.getMany 0 m.captured 0 64)) 416 32 = 1 / 2 ^ 32 := by decide +kernel

/-- O19: the query commands, each started in mailbox 0. -/
theorem test_queries :
    let n := ordered 0x02 ([1, 0, 0, 0, 0, 0, 0, 0, 0x20]) part
    let n0 := ordered 0x02 ([1, 0, 0, 0, 0, 0, 0, 0, 0x10]) part
    let c := ordered 0x41 [4, 1, 169, 0, 1, 0] part
    (ordered 0x01 [] part).runs 0 0x01 = true
    ∧ (n.runs 0 0x02 = true ∧ (n.mbx 0).body 0 1 = 1 ∧ n.earlierOpen 0 = false
      ∧ maxOr0 (((List.range ((n.mbx 0).body 0 1)).map (fun i => (n.mbx 0).body (8 + i) 1)).filter
          (fun x => supportedVersions.contains x)) = 0x20)
    ∧ (n0.runs 0 0x02 = true ∧ n0.earlierOpen 0 = false ∧ ∀ i, i < (n0.mbx 0).body 0 1 → (n0.mbx 0).body (8 + i) 1 ≠ 0x20)
    ∧ (c.runs 0 0x41 = true ∧ (c.mbx 0).body 0 1 ≤ 4 ∧ (c.mbx 0).body 1 1 ≤ 1
      ∧ ∀ i, i < (c.mbx 0).body 4 2 → c.hasUnit ((c.mbx 0).body 0 1) ((c.mbx 0).body 2 2 + i) = true)
    ∧ (ordered 0x42 [] part).runs 0 0x42 = true
    ∧ ((ordered 0x51 [0xFF] part).runs 0 0x51 = true ∧ ((ordered 0x51 [0xFF] part).mbx 0).body 0 1 = 0xFF)
    ∧ (ordered 0x52 [] part).runs 0 0x52 = true := by decide +kernel

/-- O20: the registered commands. -/
theorem test_registered :
    let task := fun (k : Task) (d : Device) => ({ d with tasks := [(0, k)] } : Device)
    let start := task { Task.reset with state := 1 } (ordered 0x21 ([0, 0, 0, 0, 0, 0, 0, 0] ++ le 8 91) part)
    let req := task { Task.reset with state := 2 } (ordered 0x22 [] part)
    let again := task { Task.reset with state := 2, yieldS := some 95 } (ordered 0x22 [] part)
    let stop := task { Task.reset with state := 2 } (ordered 0x23 [] part)
    let plan := ordered 0x30 (le 8 91) part
    let go := ordered 0x32 (le 8 91) { part with fabric := { Fabric.reset with newPlan := some [] } }
    let snap := ordered 0x40 (le 8 101) part
    let late := ordered 0x40 (le 8 100) part
    let pol := ordered 0x50 (le 8 101 ++ le 2 3400 ++ le 2 2150 ++ le 2 800 ++ le 2 800 ++ le 2 800 ++ le 2 850 ++ [3]) part
    let det := ordered 0x61 [1] { part with twin := { Twin.reset with role := 4 } }
    (start.runs 0 0x21 = true ∧ (start.task (start.mbx 0).slot).state = 1 ∧ start.startBad 0 ((start.mbx 0).body 8 8) = false)
    ∧ (req.runs 0 0x22 = true ∧ (req.task (req.mbx 0).slot).state = 2 ∧ (req.task (req.mbx 0).slot).yieldS = none)
    ∧ (again.runs 0 0x22 = true ∧ (again.task (again.mbx 0).slot).yieldS = some 95)
    ∧ (stop.runs 0 0x23 = true ∧ (stop.task 0).state = 2 ∧ (stop.task 0).stopReg = false)
    ∧ (plan.runs 0 0x30 = true ∧ plan.beat.s < (plan.mbx 0).body 0 8 ∧ plan.fabric.stopS = none)
    ∧ (go.runs 0 0x32 = true ∧ go.beat.s < (go.mbx 0).body 0 8 ∧ go.fabric.startS = none ∧ go.fabric.stopS = none
      ∧ go.fabric.planOn = false ∧ go.fabric.newPlan.isSome = true)
    ∧ (snap.runs 0 0x40 = true ∧ snap.beat.w < (snap.mbx 0).body 0 8)
    ∧ (late.runs 0 0x40 = true ∧ (late.mbx 0).body 0 8 ≤ late.beat.w)
    ∧ (pol.runs 0 0x50 = true ∧ (pol.mbx 0).policyOk = true ∧ pol.beat.w < (pol.mbx 0).body 0 8 ∧ (pol.mbx 0).policy.park = false)
    ∧ (det.runs 0 0x61 = true ∧ det.inPair = true ∧ (det.mbx 0).body 0 1 = 1) := by decide +kernel

/-! ### Bundles -/

/-- A bundle from its six slots. -/
def bundle (ct cu mx va vb qk : Nat) : BitVec 384 :=
  BitVec.ofNat 384 (ct + cu * 2 ^ 64 + mx * 2 ^ 128 + va * 2 ^ 192 + vb * 2 ^ 256 + qk * 2 ^ 320)

/-- The windows of task 0: 4 bundles, 256 pages, 48 keys and 8 queues. -/
def windows : BitVec 256 := BitVec.ofNat 256 (4 * 2 ^ 228 + 256 * 2 ^ 198 + 48 * 2 ^ 78 + 8 * 2 ^ 90)

/-- Task 0 runs on core 0 and its next bundle is w. -/
def loaded (w : BitVec 384) (d : Device := busyPart) : Device :=
  d.onCore 0 (fun k => { k with bounds := [(0, windows)], istore := [(0, w)] })

/-- Core 0 runs the sc of bundle w, whose phases up to n are over. -/
def issuing (w : BitVec 384) (n : Nat) (d : Device := busyPart) : Device :=
  (loaded w d).onCore 0 (fun k => { k with
    issue := some { Issue.reset with word := w, done := (List.range n).map (· + 1) }, sc := 1, lastSc := 15 })

/-- The issue of core 0. -/
def issueOf (d : Device) : Issue := (d.core 0).issue.getD Issue.reset

/-- O21, O22: a bundle of each CT operation that issues, and the two ways a task's last core and another core end. -/
theorem test_bundles_issue :
    (List.range 9).all (fun op =>
      let w := bundle (op * 2 ^ 56 + (if op = 1 then 2 ^ 32 + 2 ^ 19 else 0)) 0 0 0 0 0
      let d := (loaded w).closeSc 0
      d.hasCore 0 && d.ready 0 == some 0 && (d.core 0).fill == none && decide ((d.core 0).pc < instrCount ((d.core 0).bound 0))
        && (d.core 0).bundleAt 0 0 == w && (d.core 0).parityBad 0 0 == [] && opc (slotOf w 1) == op
        && (op == 4 || op == 8 || (d.waitKind 0 0 w 0 1 == none && d.bundleBad 0 0 w 0 1 == []))) = true := by decide +kernel

/-- O21, O22: a yield at a bundle that the image lists, and an end with another core of the task still running or ended. -/
theorem test_yield_and_end :
    let y := loaded (bundle (4 * 2 ^ 56) 0 0 0 0 0) (busyPart.onTask 0 (fun k => { k with yields := [[0]] }))
    let e := loaded (bundle (8 * 2 ^ 56) 0 0 0 0 0) (busyPart.onTask 0 (fun k => { k with cores := [0, 1] }))
    let u := (((e.openSc 0 0 (bundle (8 * 2 ^ 56) 0 0 0 0 0) 0).advance 0).onIssue 0 (fun i => { i with ends := true })).closeSc 0
    y.waitKind 0 0 (bundle (4 * 2 ^ 56) 0 0 0 0 0) 0 1 = none ∧ y.bundleBad 0 0 (bundle (4 * 2 ^ 56) 0 0 0 0 0) 0 1 = []
    ∧ e.waitKind 0 0 (bundle (8 * 2 ^ 56) 0 0 0 0 0) 0 1 = none ∧ e.bundleBad 0 0 (bundle (8 * 2 ^ 56) 0 0 0 0 0) 0 1 = []
    ∧ (u.task 0).stopping = false ∧ (∃ x ∈ (u.task 0).cores, x ≠ 0 ∧ (u.core x).ended.contains 0 = false)
    ∧ (∀ x ∈ ((loaded 0).task 0).cores, x ≠ 0 → ((loaded 0).core x).ended.contains 0 = true) := by decide +kernel

/-- O22: an end whose sc stops the task, since a key does not hold its END value (END_CHECK). -/
theorem test_end_check_stops :
    let w := bundle (8 * 2 ^ 56) 0 0 0 0 0
    let d := (loaded w).onCore 0 (fun k => { k with keyMap := [(0, BitVec.ofNat 64 (2 ^ 48 + 2 ^ 16 + 2 ^ 15))] })
    let u := (((d.openSc 0 0 w 0).advance 0).onIssue 0 (fun i => { i with ends := true })).closeSc 0
    d.waitKind 0 0 w 0 1 = none ∧ d.bundleBad 0 0 w 0 1 = [] ∧ (u.task 0).stopping = true := by decide +kernel

/-- O23: a bundle that waits for key 0, and one whose QK opcode no table lists. -/
theorem test_wait_and_fault :
    let w := bundle 0 0 0 0 0 (2 * 2 ^ 56 + 2 ^ 34)
    let d := (loaded w).onCore 0 (fun k => { k with keyMap := [(0, BitVec.ofNat 64 (2 ^ 48))] })
    let x := bundle 0 0 0 0 0 (0xFF * 2 ^ 56)
    (d.closeSc 0).ready 0 = some 0 ∧ (d.closeSc 0).waitKind 0 0 w 0 1 = some 1
    ∧ (loaded x).waitKind 0 0 x 0 1 = none ∧ (loaded x).bundleBad 0 0 x 0 1 ≠ [] := by decide +kernel

/-- O24: phase 8 of a sc, with the key at its capacity of 5 and below. -/
theorem test_key_phase :
    let d := (issuing (bundle 0 0 0 0 0 (2 ^ 56 + 2 ^ 34)) 7).onCore 0 (fun k => { k with
      keys := [(0, 5)], keyMap := [(0, BitVec.ofNat 64 (5 * 2 ^ 48))] })
    let e := d.onCore 0 (fun k => { k with keys := [(0, 4)] })
    (d.core 0).issue.isSome = true ∧ (d.core 0).awaits 8 = true ∧ (∀ q, 1 ≤ q → q < 8 → (d.core 0).awaits q = false)
    ∧ (qf (slotOf (issueOf d).word 6)).op = 1 ∧ (qf (slotOf (issueOf d).word 6)).n ≠ 0 ∧ d.keyHolder 0 0 = some 0
    ∧ keyCap (d.keyEntry 0 0 0) < Sparse.get 0 (d.core 0).keys 0 + 1
    ∧ Sparse.get 0 (e.core 0).keys 0 + 1 ≤ keyCap (e.keyEntry 0 0 0) := by
  refine ⟨by decide +kernel, by decide +kernel, ?_, by decide +kernel, by decide +kernel, by decide +kernel, by decide +kernel,
    by decide +kernel⟩
  intro q h1 h2
  have : q = 1 ∨ q = 2 ∨ q = 3 ∨ q = 4 ∨ q = 5 ∨ q = 6 ∨ q = 7 := by omega
  rcases this with rfl | rfl | rfl | rfl | rfl | rfl | rfl <;> decide +kernel

/-- O24: takes that the count at the start of the cycle covers exactly, and by one too little. -/
theorem test_key_take :
    (qf (3 * 2 ^ 56 + 5 * 2 ^ 34)).op = 3 ∧ (qf (3 * 2 ^ 56 + 5 * 2 ^ 34)).n = 5
    ∧ Sparse.get 0 ({ Issue.reset with keys0 := [(0, 5)] } : Issue).keys0 0 = 5
    ∧ Sparse.get 0 ({ Issue.reset with keys0 := [(0, 4)] } : Issue).keys0 0 < 5 := by decide +kernel

/-- O24: a key at the end of a sc: 4 and 1 fit its CAPACITY of 5, 4 and 2 do not. -/
theorem test_key_turn :
    let d := (loaded 0).onCore 0 (fun k => { k with keys := [(0, 4)], keyMap := [(0, BitVec.ofNat 64 (5 * 2 ^ 48))] })
    d.keyHolder 0 0 = some 0 ∧ Sparse.get 0 (d.core 0).keys 0 = 4
    ∧ keyCap (d.keyEntry 0 0 (0 - kBase ((d.core 0).bound 0))) = 5 ∧ (d.task 0).state ≠ 5 := by decide +kernel

/-- O25: sends to the own device and to another whose blocks are read, one whose read the banks suppress, and receives whose head is
read, is marked and is suppressed. -/
theorem test_queue_phase :
    let taken := fun (a : Nat) (d : Device) => d.onCore 0 (fun k => { k with issue := k.issue.map (fun i => { i with taken := [(8, 1, a, true)] }) })
    let s := issuing (bundle 0 0 0 0 0 (0x10 * 2 ^ 56 + 16 * 2 ^ 6)) 7
    let far := s.onCore 0 (fun k => { k with spad := { Mem.reset with bytes := [(512 + 38, 0x10)] } })
    let r := (issuing (bundle 0 0 0 0 0 (0x11 * 2 ^ 56)) 7).onCore 0 (fun k => { k with
      issue := k.issue.map (fun i => { i with choice := some 0 }), queues := [(0, { QState.reset with count := 1, visible := 1 })],
      queueMap := [(0, BitVec.ofNat 128 (2 ^ 112 + 0x2200 * 2 ^ 32))] })
    let bad := r.onCore 0 (fun k => { k with spad := { Mem.reset with poison := [(0x2200 / 8, true)] } })
    let block := fun (d : Device) => (((d.begun 0 8).countCore 0 26 1).unitRead 0 0 5 512 64).1
    let head := fun (d : Device) => (((d.begun 0 8).countCore 0 27 1).unitRead 0 0 5 0x2200 32).1
    s.devNum = 0 ∧ ((block s).map (fun bs => rzDev (sendDest (bs.map (·.1))))) = some 0
    ∧ ((block far).map (fun bs => rzDev (sendDest (bs.map (·.1))))) = some 1 ∧ block (taken 0x100000 s) = none
    ∧ (r.core 0).recvVaries 0 (qf (slotOf (issueOf r).word 6)) = false ∧ (issueOf r).choice = some 0
    ∧ qRing ((r.core 0).qEntry 0 0) = 0x2200 ∧ ((r.core 0).qState 0).head = 0
    ∧ ((head r).map (fun bs => bs.any (·.2))) = some false ∧ ((head bad).map (fun bs => bs.any (·.2))) = some true
    ∧ head (taken 0x2200 r) = none := by decide +kernel

/-- O26: a varying slot live, in a shadow and in a replay. -/
theorem test_varying_phase :
    let d := issuing (bundle 0 0 0 0 0 (0x20 * 2 ^ 56)) 7
    let sh := { d with twin := { Twin.reset with role := 5 } }
    let re := d.onTask 0 (fun k => { k with replay := some [] })
    (d.core 0).awaits 8 = true ∧ (qf (slotOf (issueOf d).word 6)).op = 0x20 ∧ (d.task 0).replay.isSome = false ∧ d.twin.role ≠ 5
    ∧ sh.twin.role = 5 ∧ (re.task 0).replay.isSome = true := by decide +kernel

/-- O27: a copy from DRAM to the scratchpad, and a pass into an empty and into a busy feed. -/
theorem test_copy_and_pass :
    let c := (issuing (bundle 0 (2 ^ 56) 0 0 0 0) 0).onCore 0 (fun k => { k with
      copyDesc := [(0, BitVec.ofNat 512 (64 * 2 ^ 184 + 2 ^ 168 + 1 * 2 ^ 146))] })
    let m := issuing (bundle 0 0 (2 ^ 56) 0 0 0) 1
    let x := cd ((c.core 0).copyDescAt 0 (slotOf (issueOf c).word 2))
    let a := endAt 0 ((c.core 0).bound 0) x.srcKind x.src
    let z := endAt 0 ((c.core 0).bound 0) x.dstKind x.dst
    (c.core 0).awaits 1 = true ∧ opc (slotOf (issueOf c).word 2) = 1 ∧ a.1 ≠ 2 ∧ a.1 ≠ 4 ∧ z.1 ≠ 2 ∧ z.1 ≠ 4
    ∧ (c.core 0).copyOf (c.core 0).nextCopy = none
    ∧ (m.core 0).awaits 1 = false ∧ (m.core 0).awaits 2 = true ∧ opc (slotOf (issueOf m).word 3) = 1 ∧ (m.core 0).mx.cur = none := by
  decide +kernel

/-- O28, O29: each vector operation in VA and in VB, each in its phase. -/
theorem test_vector_phases :
    (List.range 256).all (fun op =>
      (vopOf op).isNone || (let a := issuing (bundle 0 0 0 (op * 2 ^ 56) 0 0) 3
        let b := issuing (bundle 0 0 0 0 (op * 2 ^ 56) 0) 5
        (vectorCmd op 0 .va).isSome && (vectorCmd op 0 .vb).isSome && (a.core 0).awaits 4 && !(a.core 0).awaits 3
          && (b.core 0).awaits 6 && !(b.core 0).awaits 5 && (vf (slotOf (issueOf a).word 4)).op == op
          && (vf (slotOf (issueOf b).word 5)).op == op)) = true := by decide +kernel

/-- O29: a pointer that VA has set, an image and packed elements that are read. -/
theorem test_vector_reads :
    let entered := fun (d : Device) (f : VF) =>
      ((d.begun 0 4).vEnter 0 f).onCore 0 (fun x => x.endRuns f.chain f.d f.laneRegs)
    let d := issuing (bundle 0 0 0 (0x3C * 2 ^ 56 + 2 ^ 42) 0 0) 3
    let u := issuing (bundle 0 0 0 (0x24 * 2 ^ 56 + 2 ^ 42) 0 0) 3
    ([2] : List Nat).contains (2 * 1) = true
    ∧ ((entered d (vf (0x3C * 2 ^ 56 + 2 ^ 42))).unitRead 0 0 3 0 80).1.isSome = true
    ∧ ((entered u (vf (0x24 * 2 ^ 56 + 2 ^ 42))).unitRead 0 0 3 0 512).1.isSome = true := by decide +kernel

/-- O30: one result that lands, two that meet in a lane, a feed with a read due and an array with a result due. -/
theorem test_results_due :
    let f := fun (u : Nat) (x : BitVec 32) => ({ Flight.reset with due := 1, unit := u, regs := [(0, x, false)] } : Flight)
    let fl := [f 4 1, f 5 2]
    let d := (issuing 0 2).onCore 0 (fun k => { k with mx := { Mx.reset with cur := some { Pass.reset with count := 1, s1 := 1 } } })
    let o := (issuing 0 9).onCore 0 (fun k => { k with mx := { Mx.reset with out := [{ Landing.reset with due := 1 }] } })
    (fl.filter (fun g => g.due == 1) = [f 4 1, f 5 2]) ∧ (f 4 1).unit < (f 5 2).unit ∧ (f 5 2).chain = 0 ∧ ((f 4 1).regs.map (·.1)).Nodup
    ∧ (d.core 0).awaits 3 = true ∧ (d.core 0).feedDue = true
    ∧ (o.core 0).awaits 10 = true ∧ (o.core 0).mx.out.any (fun l => l.due == (o.core 0).sc) = true := by decide +kernel

/-- O30: a weight read, a tile read, and result vectors that open a tile, that find no free entry, and that go on with one. -/
theorem test_matrix_reads :
    let feed := fun (p : Pass) => (issuing 0 2).onCore 0 (fun k => { k with mx := { Mx.reset with cur := some p } })
    let w : Pass := { Pass.reset with count := 1, s1 := 1, keep := true }
    let x : Pass := { Pass.reset with count := 1, s1 := 129 }
    let l : Landing := { Landing.reset with due := 1, perRead := 1, tiles := 1 }
    (w.weightAt 1 = some (0, 0) ∧ w.tileAt 1 = none
      ∧ ((((feed w).begun 0 3).unitRead 0 0 1 w.wAddr (readBytes w.format w.shape)).1).isSome = true)
    ∧ (x.weightAt 1 = none ∧ x.tileAt 1 = some 0
      ∧ ((((feed x).begun 0 3).unitRead 0 0 2 x.xAddr (rowBytes x.format x.shape)).1).isSome = true)
    ∧ (l.perRead * l.read % 128 = 0 ∧ l.tiles ≤ 8 - ([] : List BellTile).length)
    ∧ 8 - (List.replicate 8 BellTile.reset).length < l.tiles ∧ 1 * 1 % 128 ≠ 0 := by decide +kernel

/-! ### The operations of the vector engine -/

/-- The environment of a vector operation in round to nearest. -/
def env (op ty imm : Nat) (sat canonical : Bool := false) : VEnv :=
  { f := { vf 0 with op := op, ty := ty, imm := imm, sat := sat }, canonical := canonical, seed := 0, coreField := 0, buffer := 0xFFFF, pos := 0 }

/-- O31, O32: void, zero, a negative value, and lanes with one void, all void and none. -/
theorem test_void_lanes :
    Fmt.tb32.read 0x7FFFFFFF = none ∧ Fmt.tb32.read 0xFFFFFFFF = none ∧ (Fmt.tb32.read 0x00000001).map Ex.isZero = some true
    ∧ (Fmt.tb32.read 0xBFC00000).map (fun x => (x.isZero, x.neg)) = some (false, true)
    ∧ Fmt.tb32.read (lane (lanes (fun i => (if i = 127 then 0x7FFFFFFF else 0, false))) 127) = none
    ∧ (∀ j, j < 128 → Fmt.tb32.read (lane (lanes (fun _ => (0x7FFFFFFF, false))) j) = none)
    ∧ Fmt.tb32.read (lane (lanes (fun _ => (0, false))) 0) ≠ none ∧ (env 9 0 1).f.ty = 0 ∧ (env 9 0 1).f.imm % 8 = 1 := by decide +kernel

/-- O33: sums at both ends of the range, and a divisor of 0 and of -1. -/
theorem test_integer_ranges :
    (env 1 1 0).f.ty = 1 ∧ toSigned 0x7FFFFFFF 32 + toSigned 1 32 = 2 ^ 31 ∧ toSigned 0x80000000 32 = -(2 ^ 31) ∧ toSigned 0xFFFFFFFF 32 = -1
    ∧ toSigned 0 32 = 0 := by decide +kernel

/-- O34 to O37: the operations and the counts, patterns, lanes and positions at their bounds. -/
theorem test_lane_bounds :
    (env 0x1B 1 0).f.op = 0x1B ∧ opLogic 0x1B 1 31 = 2 ^ 31 ∧ opLogic 0x1B 1 32 = 0 ∧ opLogic 0x1D 0x80000000 32 = 2 ^ 32 - 1
    ∧ bits (env 0x22 0 0x404).f.imm 8 3 = 4 ∧ (vf (0x22 * 2 ^ 56 + 0x500)).op = 0x22 ∧ bits (vf (0x22 * 2 ^ 56 + 0x500)).imm 8 3 = 5
    ∧ bits (vf (0x22 * 2 ^ 56 + 7)).imm 0 7 = 7 ∧ (vf (0x26 * 2 ^ 56 + 30 * 2 ^ 51)).op = 0x26 ∧ 29 < (vf (0x26 * 2 ^ 56 + 30 * 2 ^ 51)).d
    ∧ (env 0x30 0 0).canonical = false ∧ (env 0x30 0 0).f.op = 0x30 := by decide +kernel

/-- O38: 128 lanes and another order of them, and the environment of a Canonical task. -/
theorem test_other_order :
    (env 0x30 0 0 false true).canonical = true ∧ (lanes (fun i => (i, false))).length = 128
    ∧ (lanes (fun i => (i, false))).Perm (lanes (fun i => (i, false))).reverse :=
  ⟨rfl, by decide +kernel, (List.reverse_perm _).symm⟩

/-- O39: a foreign image. -/
theorem test_foreign_image : bits (leNat (List.replicate 80 (0 : BitVec 8))) 584 8 ≠ 1 := by decide +kernel

/-! ### The commands that move tasks, contexts and the configuration -/

/-- O40: a bind that a check refuses, a save with room and without. -/
theorem test_bind_and_save :
    let b := ordered 0x20 [] part
    let d := fun (room : Nat) => ordered 0x24 ([0, 0, 0, 0, 0, 0, 0, 0] ++ le 8 (2 ^ 48) ++ le 4 room)
      { part with tasks := [(0, { Task.reset with state := 3, cores := [0] })] }
    b.runs 0 0x20 = true ∧ (b.bindCheck 0 0 0).1.isLeft = true
    ∧ (d 45056).runs 0 0x24 = true ∧ ((d 45056).task 0).state = 3 ∧ 4096 + 40960 * ((d 45056).task 0).cores.length = ((d 45056).mbx 0).body 16 4
    ∧ (d 45056).devOk (((d 45056).mbx 0).body 8 8) 45056 = true ∧ ((d 45055).mbx 0).body 16 4 < 45056 := by decide +kernel

/-- O40: a restore that is refused, and one of a record without core blocks. -/
theorem test_restores :
    let d := fun (cells : List Host.Cell) => ordered 0x25 ([0, 0, 0, 0, 0, 0, 0, 0] ++ le 8 (2 ^ 48))
      { part with tasks := [(0, { Task.reset with state := 3 })], dram := { Mem.reset with bytes := cells } }
    (d []).runs 0 0x25 = true ∧ (d []).restoreBad 0 (2 ^ 48) = some 3
    ∧ (d [(66, 1), (124, 0x71), (125, 0x0E), (126, 0xA5), (127, 0xC7)]).restoreBad 0 (2 ^ 48) = none := by decide +kernel

/-- O41: roles, plans and host copies. -/
theorem test_configuration :
    let role := ordered 0x04 ([2] ++ [0, 0, 0] ++ le 4 100000 ++ le 8 1 ++ le 8 0) (part.onPort 0 (fun q => { q with enabled := true }))
    let far := ordered 0x04 ([1] ++ [0, 0, 0] ++ le 4 100001) part
    let plan := ordered 0x31 (le 8 (2 ^ 48) ++ le 4 8) part
    let att := ordered 0x62 [] { part with twin := { Twin.reset with role := 2 } }
    let bad := ordered 0x62 [2] part
    let some0 := ordered 0x62 ([1] ++ [0, 0, 0, 0, 0, 0, 0] ++ le 8 0 ++ le 8 (2 ^ 48) ++ le 8 64) part
    let none0 := ordered 0x62 ([1] ++ [0, 0, 0, 0, 0, 0, 0] ++ le 8 0 ++ le 8 (2 ^ 48)) part
    (role.runs 0 0x04 = true ∧ role.anyBound = false ∧ (role.mbx 0).body 0 1 = 2 ∧ role.maskBad ((role.mbx 0).body 8 8) = false
      ∧ role.maskBad ((role.mbx 0).body 16 8) = false ∧ (role.mbx 0).body 16 8 = 0 ∧ toSigned ((role.mbx 0).body 4 4) 32 = 100000)
    ∧ (far.runs 0 0x04 = true ∧ 100000 < toSigned ((far.mbx 0).body 4 4) 32)
    ∧ (plan.runs 0 0x31 = true ∧ plan.fabric.planOn = false ∧ plan.devOk ((plan.mbx 0).body 0 8) ((plan.mbx 0).body 8 4) = true
      ∧ (parsePlan 9 ((plan.devRead (2 ^ 48) 8).1.map (·.1))).isSome = true ∧ (parsePlan 8 [0]).isNone = true)
    ∧ (att.runs 0 0x62 = true ∧ att.twin.role = 2) ∧ (bad.runs 0 0x62 = true ∧ 1 < (bad.mbx 0).hcDir)
    ∧ (none0.runs 0 0x62 = true ∧ (none0.mbx 0).hcLen = 0 ∧ (none0.mbx 0).hcDir = 1 ∧ rzSpace (none0.mbx 0).hcDev = 1
      ∧ none0.hostDevOk (none0.mbx 0).hcDev 0 = true ∧ none0.hostBarred 1 0 0 = false)
    ∧ (some0.runs 0 0x62 = true ∧ (some0.mbx 0).hcLen = 64 ∧ some0.hostDevOk (some0.mbx 0).hcDev 64 = true
      ∧ rzDev (some0.mbx 0).hcDev = some0.devNum) := by decide +kernel

/-- O41: a topology block that gives no part its own entry, and one that gives device 0 as an LMX-9410. -/
theorem test_topology :
    let t := ordered 0x03 (le 8 (2 ^ 48) ++ le 4 8704) part
    t.runs 0 0x03 = true ∧ t.anyBound = false ∧ (t.mbx 0).body 8 4 = 8704 ∧ t.devOk ((t.mbx 0).body 0 8) 8704 = true
    ∧ t.topoBad [] = true ∧ busyPart.anyBound = true := by decide +kernel

theorem topoRoute_short (bs : List (BitVec 8)) (n : Nat) (h : bs.length ≤ 0x1200) : topoRoute bs n = 0 := by
  unfold topoRoute Machine.fieldLe slice
  rw [List.drop_eq_nil_of_le (by omega)]
  rfl

theorem test_topology_good : part.topoBad (List.replicate 512 0 ++ [0x80]) = false := by
  have h := fun n => topoRoute_short (List.replicate 512 0 ++ [0x80]) n (by decide +kernel)
  generalize hb : List.replicate 512 (0 : BitVec 8) ++ [0x80] = bs at h ⊢
  simp only [Device.topoBad, h]
  rw [show (List.range 4096).any (fun _ => decide (31 < 0)) = false by simp, ← hb]
  decide +kernel

/-! ### Twin pairing -/

/-- A package in a role of Table 22-1. -/
def inRole (r : Nat) (d : Device := part) : Device := { d with twin := { d.twin with role := r, roleKnown := true } }

/-- O42: an attach that may begin, at the least S_JOIN and the greatest MAX_STALL. -/
theorem test_attach :
    let d := ordered 0x60 (le 8 4186 ++ le 2 3000) ({ part with twin := { Twin.reset with roleKnown := true, partner := 1, partnerSame := true } }.onPort
      32 (fun q => { q with step := 4 }))
    d.runs 0 0x60 = true ∧ d.twin.role = 0 ∧ d.twin.roleKnown = true ∧ d.partnerReady = true ∧ d.beat.s + 4096 ≤ (d.mbx 0).body 0 8
    ∧ 1 ≤ (d.mbx 0).body 8 2 ∧ (d.mbx 0).body 8 2 ≤ 3000 ∧ ((ordered 0x60 [] part).runs 0 0x60 = true ∧ part.partnerReady = false) := by
  decide +kernel

/-- O42: the events of the roles. -/
theorem test_role_events :
    let seat1 := { part with pins := { Pins.reset with twinSeat := 1 } }
    let mute := inRole 4 { part with twin := { Twin.reset with muteReq := 1 } }
    let cut := inRole 5 { part with twin := { Twin.reset with missDecide := 16 } }
    let join := inRole 2 { part with twin := { Twin.reset with attach := some (91, 1, 0), copyAt := part.copyTotal } }
    (seat1.seatWaits = true ∧ seat1.pins.peerAlive = false) ∧ (mute.inPair = true ∧ mute.twin.muteReq ≠ 0)
    ∧ (cut.twin.role = 5 ∧ 16 ≤ cut.twin.missDecide) ∧ (join.twin.role = 2 ∧ join.joinBeat = true) ∧ (inRole 3).twin.role = 3
    ∧ ((inRole 2).twin.role = 2 ∧ (inRole 2).twinLinkDown = true) ∧ (inRole 5).inPair = true
    ∧ (let late := inRole 2 ({ part with gate := { e := 9000 }, pins := { Pins.reset with peerAlive := true },
                                         twin := { Twin.reset with attach := some (100, 1, 0) } }.onPort 32 (fun q => { q with step := 6 }))
      late.twin.attach = some (100, 1, 0) ∧ 100 + 8192 < late.gate.e + 1 ∧ late.twinLinkDown = false
        ∧ late.pins.peerAlive = true) := by decide +kernel

/-- O43: the fields of records. -/
theorem test_twin_records :
    let r : TwinRec := { beat := 99, sc := 0, core := 0xFF, aux := 33 + 16 * 2 ^ 6, data := List.replicate 128 0 }
    (inRole 5).hasPort (auxPort r) = true ∧ auxPos r % 16 = 0 ∧ auxPort r ≠ 63 ∧ auxPort { r with aux := 63 } = 63
    ∧ bits (0x0205 : Nat) 0 16 ≠ 0x0401 ∧ classOf 0x0205 = 2 ∧ rzSpace (fieldLe (le 8 (2 ^ 48)) 0 8) ≠ 0xE
    ∧ (le 8 (2 ^ 48)).drop 8 = [] ∧ (le 8 (2 ^ 48) ++ [1]).drop 8 ≠ []
    ∧ classOf 0x0301 = 3 ∧ bits (fieldLe (le 24 0) 16 8) 17 3 = 0 ∧ ((inRole 4 busyPart).task 0).state = 2
    ∧ ((inRole 4).task 0).state ≠ 2 ∧ rzSpace (fieldLe (le 8 (0xE * 2 ^ 48)) 0 8) = 0xE
    ∧ ([(2, 0, 0)] : List (Nat × Nat × Nat)).find? (fun y => repairAddr y == (fieldLe (le 8 (2 ^ 48)) 0 8, 32)) = some (2, 0, 0) := by
  decide +kernel

/-- An empty slot of position 1. -/
def anEmpty : List (BitVec 8) := mkSlot [] 90 0 1 0 false 100 0 none 0

/-- O43: a good copy that a partner has missed, and a record that fills a slot. -/
theorem test_missed_and_fill :
    let d := inRole 4 (part.onPort 0 (fun q => { q with rxSlots := [(99, 1, anEmpty)] }))
    let r : TwinRec := { beat := 99, sc := 0, core := 0xFF, aux := 2 ^ 6, data := anEmpty }
    d.twin.role = 4 ∧ d.hasPort (auxPort r) = true
    ∧ (d.port (auxPort r)).rxSlots.find? (fun y => y.1 == r.beat && y.2.1 == auxPos r) = some (99, 1, anEmpty)
    ∧ slotGood anEmpty = true ∧ auxPort r < 32 ∧ slotGood (slice r.data 0 512) = true := by
  have g : slotGood anEmpty = true := mkSlot_good ..
  have l : slice anEmpty 0 512 = anEmpty := by
    have h : anEmpty.length = 512 := mkSlot_length ..
    generalize anEmpty = x at h
    simp [slice, ← h]
  exact ⟨rfl, by decide, rfl, g, by decide, by rw [l]; exact g⟩

/-! ### Start-up, reset and the test port -/

/-- O44: each stage of start-up. -/
theorem test_stages :
    let b := fun (x : Boot) => ({ Device.reset with boot := x } : Device)
    let quarters := b { Boot.reset with attested := [0, 1, 2] }
    let stage := ordered 0x10 [] part
    let wrong := ordered 0x10 (le 8 0 ++ le 4 4704) part
    let none0 := ordered 0x11 [] part
    let some0 := ordered 0x11 [1, 1] { part with boot := { part.boot with staged := some 4608 } }
    (Device.reset.boot.phase = .attest ∧ Device.reset.boot.attested.contains 3 = false ∧ Device.reset.boot.attested.length < 3)
    ∧ (quarters.boot.phase = .attest ∧ quarters.boot.attested.length = 3 ∧ quarters.boot.attested.contains 3 = false)
    ∧ (b { Boot.reset with phase := .sign, slot := 1 }).boot.slot ≠ 2
    ∧ (b { Boot.reset with phase := .steps, step := 3 }).boot.step < 4 ∧ (b { Boot.reset with phase := .steps, step := 4, run := 2 }).boot.run = 2
    ∧ (stage.runs 0 0x10 = true ∧ stage.host.linkUp = true ∧ stage.lengthBad ((stage.mbx 0).body 8 4) = true)
    ∧ (wrong.runs 0 0x10 = true ∧ wrong.lengthBad ((wrong.mbx 0).body 8 4) = false) ∧ (none0.runs 0 0x11 = true ∧ none0.boot.staged = none)
    ∧ (some0.runs 0 0x11 = true ∧ some0.boot.staged = some 4608 ∧ (some0.mbx 0).body 0 1 ≤ 1 ∧ (some0.mbx 0).body 1 1 ≤ 1) := by
  decide +kernel

/-- O45, O46: RESET_N low and high, a part that thermal shutdown meets, and the stepping of R1. -/
theorem test_reset_and_port :
    ({ Device.reset with boot := { Boot.reset with phase := .inReset } } : Device).boot.phase = .inReset
    ∧ part.boot.phase ≠ .inReset ∧ part.boot.phase ≠ .shutdown ∧ part.ident.stepping = 0x10 ∧ part.pins.resetN = true
    ∧ ({ part with pins := { Pins.reset with resetN := false } } : Device).pins.resetN = false := by decide +kernel

/-! ### Task events, effects and replay -/

/-- Task 0 on cores 0 and 1 at the end of a beat; the cores of `y` have yielded. -/
def atYield (y : List Nat) (k : Task := { Task.reset with state := 2, level := 2, cores := [0, 1] }) : Device :=
  { part with tasks := [(0, k)], cores := y.map (fun c => (c, { Core.reset with running := some 0, yielded := true })) }

/-- O47: yield points with a core missing, without a request, with one, and with a stop; overdue and stopping tasks. -/
theorem test_yield_points :
    let k : Task := { Task.reset with state := 2, level := 2, cores := [0, 1] }
    let late := ({ k with lastYield := 0 } : Task)
    let old := { atYield [] late with gate := { e := 4096 } }
    ((atYield [0]).yieldDue 0 = true ∧ ((atYield [0]).core 1).yielded = false ∧ ((atYield [0]).core 0).yielded = true)
    ∧ ((atYield [0, 1]).yieldDue 0 = true ∧ (∀ c, c < 144 → c ∈ k.cores → ((atYield [0, 1]).core c).yielded = true)
      ∧ k.stopReg = false ∧ k.yieldsAt 90 = false ∧ ({ k with yieldS := some 90 } : Task).yieldsAt 90 = true)
    ∧ (atYield [0, 1] { k with stopReg := true }).yieldDue 0 = true
    ∧ (∀ c ∈ k.cores, ∀ x ∈ ((atYield [0, 1]).core c).copies, x.slot ≠ 0)
    ∧ (old.overdue 0 = true ∧ old.yieldDue 0 = false) ∧ (atYield []).overdue 0 = false
    ∧ (let d := atYield [] { k with stopping := true }
      let busy := d.onCore 0 (fun x => { x with copies := [{ Copy.reset with slot := 0 }] })
      (d.task 0).stopping = true ∧ (d.closeScs 0).inFlight 0 = false ∧ ((d.closeScs 0).task 0).stopReg = false
        ∧ (d.closeScs 0).task 0 = d.task 0 ∧ (busy.task 0).stopping = true ∧ (busy.closeScs 0).inFlight 0 = true) := by
  decide +kernel

/-- O47: a bundle that has waited for 4,096 wall beats. -/
theorem test_long_wait :
    let d := { busyPart.onCore 0 (fun k => { k with wait := some (0, 100) }) with beat := { w := 4196, h := 10, s := 4186, aligned := true } }
    (d.core 0).running = some 0 ∧ (d.core 0).wait = some (0, 100) ∧ (d.task 0).stopping = false ∧ 100 + 4096 ≤ d.beat.w
      ∧ (d.task 0).state ≠ 5 := by decide +kernel

/-- O48: starts, plans, snapshots and policies that are due. -/
theorem test_effects_due :
    let go := fun (st : Nat) => ({ part with tasks := [(0, { Task.reset with state := st, cores := [0], startS := some 90 })] } : Device)
    let stop := { part with fabric := { Fabric.reset with stopS := some (86, 0), stopDone := true } }
    let start := { part with fabric := { Fabric.reset with startS := some (90, 0), newPlan := some [] } }
    let snap := { part with shadow := { Shadow.reset with reg := some (100, 0) } }
    let park := ({ Policy.reset with park := true } : Policy)
    let pol := fun (known : Bool) => ({ part with power := { Power.reset with reg := [(100, 0, park)] },
                                                  twin := { Twin.reset with roleKnown := known } } : Device)
    (go 1).startDue 0 = true ∧ (go 3).startDue 0 = true ∧ ((go 1).core 0).power.state = 0 ∧ part.startDue 0 = false
    ∧ (stop.fabric.stopS = some (86, 0) ∧ 86 + 4 ≤ stop.beat.s) ∧ (start.fabric.startS = some (90, 0) ∧ 90 ≤ start.beat.s)
    ∧ (snap.shadow.reg = some (100, 0) ∧ 100 ≤ snap.beat.w)
    ∧ ((pol true).power.reg.find? (fun r => decide (r.1 ≤ (pol true).beat.w)) = some (100, 0, park) ∧ (pol true).mayPark = true)
    ∧ (pol false).mayPark = false := by decide +kernel

/-- O49: digests, armed slots and logs. -/
theorem test_replay :
    let k : Task := { Task.reset with state := 3, level := 2, tags := [{ TagEntry.reset with role := 2 }] }
    let task := fun (d : Device) => ({ d with tasks := [(0, k)] } : Device)
    let dig := task (ordered 0x43 [] part)
    let done := dig.onMbx 0 (fun m => { m with compare := some 90 })
    let one := { dig with tasks := [(0, { k with level := 1 })] }
    let cmp := { dig with twin := { Twin.reset with role := 4, digests := [(0, 0, [])] } }
    let arm := task (ordered 0x44 ([0, 1, 0, 0, 0, 0, 0, 0] ++ le 8 (2 ^ 48) ++ le 8 (2 ^ 20)) part)
    let bad := task (ordered 0x44 ([0, 1, 0, 0, 0, 0, 0, 0] ++ le 8 (2 ^ 48) ++ le 8 1) part)
    let off := task (ordered 0x44 [] part)
    let run := task (ordered 0x45 [] part)
    (dig.runs 0 0x43 = true ∧ (dig.mbx 0).compare = none ∧ k.level ≠ 1 ∧ k.state = 3 ∧ k.stopping = false ∧ k.startS = none
      ∧ (k.tags[(dig.mbx 0).body 1 1]?).map (·.role) = some 2 ∧ dig.compareOpen 0 k.captureS = false)
    ∧ cmp.compareOpen 0 k.captureS = true ∧ (one.task 0).level = 1
    ∧ (done.runs 0 0x43 = true ∧ (done.mbx 0).compare = some 90 ∧ done.compareOpen 0 90 = false)
    ∧ (arm.runs 0 0x44 = true ∧ (arm.mbx 0).body 1 1 = 1 ∧ arm.armBad 0 ((arm.mbx 0).body 8 8) ((arm.mbx 0).body 16 8) = false
      ∧ (∀ u ∈ arm.boundSlots, u ≠ 0 → (arm.task u).armed = false))
    ∧ bad.armBad 0 ((bad.mbx 0).body 8 8) ((bad.mbx 0).body 16 8) = true
    ∧ (off.runs 0 0x44 = true ∧ (off.mbx 0).body 1 1 = 0) ∧ run.runs 0 0x45 = true ∧ (run.replayFind 0 0 0 0 0 0).isNone = true := by
  decide +kernel

/-- O49: a task of level 1, records lost, and a record of a replay that is due and one that is not. -/
theorem test_replay_records :
    let rec0 : List (BitVec 8) := leBytes 32 (4 * 2 ^ 114 + 0xFF * 2 ^ 125)
    let d := fun (l : List (List (BitVec 8))) => ({ part with
      tasks := [(0, { Task.reset with state := 2, level := 1, cores := [0], runBeats := 1, replay := some l })] } : Device)
    ((d []).task 0).level = 1 ∧ ((d []).task 0).state ≠ 0 ∧ (d []).dueRecord 0 = none ∧ (d [rec0]).dueRecord 0 = some rec0
    ∧ ({ Logger.reset with lost := 1 } : Logger).lost ≠ 0
    ∧ ((Logger.reset.buffer.map List.length).foldl (· + ·) 0 + 32 ≤ 0x200000) := by decide +kernel

/-! ### Pieces of commands -/

/-- O50: mailboxes and windows that take pieces. -/
theorem test_pieces :
    let d := { part with fabric := { Fabric.reset with topoSet := true, manager := some 5 } }
    let m := d.onMbx 12 (fun m => { m with asm := some 448 })
    let w := d.onWindow 13 (fun x => { x with st := 1, cmd := [(48, 0x50)], seq := 7 })
    d.takesMgmt = true ∧ d.fabric.manager = some 5 ∧ (d.mbx 12).busy = false ∧ (m.mbx 12).asm = some 448 ∧ part.fabric.topoSet = false
    ∧ (w.window 13).busy = true ∧ (w.window 13).target = 5 ∧ bits (7 * 2 ^ 32 + 3 * 2 ^ 20 : Nat) 32 32 = 7 ∧ bits (7 * 2 ^ 32 + 3 * 2 ^ 20 : Nat) 20 4 = 3 := by
  decide +kernel

/-! ### Memories -/

/-- O51, O52: a write that covers word 1 whole and part of word 2; the words that the scrubbers meet. -/
theorem test_memories :
    let core := part.onCore 0 (fun k => { k with spad := { Mem.reset with ecc := [(0, 2)] } })
    let due := { core with gate := { e := 512 } }
    let again := { part with hub := { Hub.reset with scrubW := some 100 } }
    (Mem.reset.wf = true ∧ 8 ≤ 1 * 8 ∧ 1 * 8 + 8 ≤ 8 + 12 ∧ 8 + 12 < 2 * 8 + 8 ∧ 2 * 8 < 8 + 12)
    ∧ (due.hasCore 0 = true ∧ (due.core 0).running = none ∧ (due.core 0).issue = none ∧ (due.core 0).spad.wf = true ∧ due.scrubDue 0 = true)
    ∧ core.scrubDue 0 = false ∧ (part.grade.hasStack 7 = true ∧ part.dram.wf = true ∧ part.stackOn 7 = true
      ∧ (part.stack 7).scrubW ≠ some part.beat.w ∧ part.twin.role ≠ 2)
    ∧ (part.staging.wf = true ∧ part.hub.scrub < 1048576 ∧ part.hub.scrubW ≠ some 100) ∧ again.hub.scrubW = some again.beat.w
    ∧ part.writesOn = true ∧ Device.reset.writesOn = false
    ∧ ((busyPart.core 0).rests = false ∧ (busyPart.region 0).finished = false
      ∧ (busyPart.region 0).count < busyPart.workSc 0) := by decide +kernel

/-- A copy of 64 B from DRAM that core 0 has in flight, its bytes read and its data ready. -/
def flying : Copy :=
  { Copy.reset with
    desc := BitVec.ofNat 512 (64 * 2 ^ 184 + 2 ^ 168 + 2 ^ 160 + 2 ^ 152 + 2 ^ 146), srcKind := 1, readBytes := 64, writeBytes := 64,
    got := [(0, 64, 0)], data := (List.range 64).map (fun i => (i, (1, false))) }

/-- O53: a bank with an access, none, a core below Active, and a copy cycle that begins. -/
theorem test_copy_accesses :
    let d := { busyPart with cross := [(256, [{ CrossItem.reset with size := 64 }])] }.onCore 0 (fun k =>
      { k with copies := [flying], cyc := 1 })
    let gated := d.onCore 0 (fun k => { k with power := { k.power with state := 1 } })
    (d.core 0).absent = false ∧ (d.accesses 0).isEmpty = false ∧ (d.core 0).power.state = 0 ∧ (busyPart.accesses 0).isEmpty = true
    ∧ inGroup ((d.core 0).lastSc + (d.core 0).extra) 0 = true ∧ (d.core 0).copyUsed.contains 0 = false ∧ (d.bestAccess 0 0).isSome = true
    ∧ inGroup 0 4 = false ∧ (gated.core 0).power.state < 3 ∧ (gated.core 0).power.state ≠ 0
    ∧ (d.region 0).finished = false ∧ (d.core 0).running ≠ none
    ∧ ((d.onRegion 0 (fun r => { r with finished := true })).region 0).finished = true := by decide +kernel

/-- O53: copies that are complete, landed whole with a key, short, and not complete. -/
theorem test_copy_ends :
    let whole := { flying with put := [(0, 64)] }
    let short := { flying with put := [(0, 32)], lost := 32 }
    let d := fun (x : Copy) => (loaded 0).onCore 0 (fun k => { k with copies := [x], keyMap := [(0, BitVec.ofNat 64 (2 ^ 48))] })
    ((d whole).core 0).issue = none ∧ (d whole).fabric.lasts = [] ∧ ((d whole).core 0).copyOf 0 = some whole ∧ whole.complete = true
    ∧ whole.writeBytes ≤ whole.landedBytes ∧ (cd whole.desc.toNat).keyKind = 1 ∧ 0 < (cd whole.desc.toNat).keyN
    ∧ ((d whole).task whole.slot).stopReg = false ∧ (d whole).keyHolder 0 0 = some 0
    ∧ (d whole).keyCount 0 0 + (cd whole.desc.toNat).keyN ≤ keyCap ((d whole).keyEntry 0 0 0)
    ∧ short.complete = true ∧ short.landedBytes < short.writeBytes ∧ flying.complete = false ∧ ((d whole).core 0).copyOf 1 = none := by
  decide +kernel

/-- O53: messages for a queue with room, for a full one, one that has overflowed and one not OPEN, for no queue, and none. -/
theorem test_messages :
    let d := fun (n : Nat) => (loaded 0).onCore 0 (fun k => { k with
      msgIn := [Msg.reset], queueMap := [(0, BitVec.ofNat 128 (2 ^ 112))], queues := [(0, { QState.reset with count := n })] })
    let m := nth ((d 0).core 0).msgIn 0 Msg.reset
    ((d 0).core 0).issue = none ∧ nextMsg ((d 0).core 0).msgIn (d 0).msgWaits = some 0 ∧ ((d 0).core 0).power.state = 0
    ∧ (d 0).queueHolder 0 m.mq = some 0 ∧ ((d 0).task 0).replay = none ∧ qCap (((d 0).core 0).qEntry 0 0) ≠ 0
    ∧ (((d 0).core 0).qState 0).overflowed = false ∧ m.openSlot = false ∧ (((d 0).core 0).qState 0).count < qCap (((d 0).core 0).qEntry 0 0)
    ∧ qCap (((d 1).core 0).qEntry 0 0) ≤ (((d 1).core 0).qState 0).count ∧ (d 1).hub.parkHeld < parkRecords
    ∧ ((d 1).task 0).state ≠ 5
    ∧ (((d 0).onCore 0 (fun k => { k with queues := [(0, { QState.reset with overflowed := true })] })).core 0 |>.qState 0).overflowed = true
    ∧ qOpen (((d 0).core 0).qEntry 0 0) = false ∧ part.queueHolder 0 0 = none ∧ nextMsg (part.core 0).msgIn part.msgWaits = none
    ∧ (((d 0).onCore 0 (fun k => { k with power := { k.power with state := 1 } })).core 0).power.state ≠ 0 := by decide +kernel

/-- O54: ticks that wait for a forced refresh, ticks that do not, and the requests of a window. -/
theorem test_ticks :
    let late := { part with beat := { w := 2 ^ 20, h := 0, s := 2 ^ 20, aligned := true },
                            tasks := [(0, { Task.reset with state := 1, refresh := [BitVec.ofNat 64 (2 ^ 53 + 2 ^ 50 + 2 ^ 48)] })] }
    let wr := { part with cross := [(512, [{ CrossItem.reset with size := 64 }])] }.onCore 0 (fun k =>
      { k with copies := [{ flying with srcKind := 0, dstKind := 1 }] })
    let rd := part.onCore 0 (fun k => { k with copies := [{ flying with got := [] }] })
    let at1000 := fun (a : Bool) => ({ part with tick := 1000, beat := { part.beat with aligned := a } } : Device)
    ((at1000 true).beat.aligned = true ∧ (at1000 false).beat.aligned = false ∧ (at1000 true).tick = 1000
      ∧ part.writesOn = true ∧ Device.reset.writesOn = false ∧ { Device.reset with tick := 1000 }.beat.aligned = false)
    ∧ (part.tick < 960 ∧ part.beat.aligned = true ∧ ¬ ∃ k, k < 8 ∧ part.lapsed k ≠ [])
    ∧ (∀ k, k < 8 → ∀ x ∈ part.windowEntries, entryOn x.1 x.2 part.beat.s k part.tick = false)
    ∧ (late.lapsed 0 = [0] ∧ late.tick = 0 ∧ late.stackOn 0 = true ∧ late.refreshIn 0 1 late.beat.w = some true)
    ∧ ({ late with stackRecs := [(0, { Stack.reset with forced := some (2 ^ 20) })] } : Device).lapsed 0 = []
    ∧ (rd.dramReadReq 0 0 0).isSome = true ∧ part.dramReadReq 0 0 0 = none ∧ part.dramWriteReq 0 0 0 = none
    ∧ (wr.dramWriteReq 0 0 0).isSome = true ∧ weWrite (2 ^ 44) = true ∧ weWrite 0 = false := by decide +kernel

/-! ### The fabric -/

/-- Port 0 is up, at position k of both directions. -/
def upPort (k : Nat) (q : Port := Port.reset) : Device :=
  part.onPort 0 (fun _ => { q with step := 6, txPos := k, rxPos := k, nbrW := some 100, rxState := 2 })

/-- A plan whose port 0 sends e at position 9 of each beat and receives e there. -/
def planned (e : Nat) (d : Device) : Device :=
  let l := (List.range 224).map (fun k => if k = 9 then BitVec.ofNat 64 e else 0)
  { d.onPort 0 (fun q => { q with inPlan := true, plan := { p := 1, tx := l, rx := l } }) with
    fabric := { (d.onPort 0 (fun q => { q with inPlan := true, plan := { p := 1, tx := l, rx := l } })).fabric with planOn := true } }

/-- O55: what a position carries. -/
theorem test_positions_sent :
    let loc := planned (2 ^ 62) (upPort 9)
    let rdy := planned (2 ^ 62) (upPort 9 { Port.reset with outbox := [(9, 90, [], 0)] })
    let opn := upPort 9 { Port.reset with fifos := [(63, [Packet.reset])] }
    let low := fun (n k : Nat) => part.onPort 0 (fun q => { q with step := n, txPos := k })
    let twin := part.onPort 32 (fun q => { q with step := 6, txPos := 9 })
    let busy := loc.onRegion 0 (fun r => { r with finished := false })
    (loc.transmits 0 = true ∧ (loc.port 0).up = true ∧ (loc.port 0).txPos = 9 ∧ loc.decisionAt 0 100 9 = none
      ∧ peKind (loc.txEntry 0 90 9) = 1 ∧ (loc.port 0).outbox.find? (fun o => o.1 == 9) = none ∧ loc.hold.now = false)
    ∧ (rdy.port 0).outbox.find? (fun o => o.1 == 9) = some (9, 90, [], 0)
    ∧ (peKind (opn.txEntry 0 90 9) = 3 ∧ Sparse.get [] (opn.port 0).fifos (pePort (opn.txEntry 0 90 9)) = [Packet.reset])
    ∧ ((low 2 9).transmits 0 = true ∧ ((low 2 9).port 0).up = false ∧ (low 1 9).transmits 0 = true ∧ (low 2 8).transmits 0 = true
      ∧ twin.transmits 32 = true ∧ twin.hasPort 32 = true ∧ (twin.port 32).up = true) ∧ part.transmits 0 = false
    ∧ (upPort 0).transmits 0 = true
    ∧ (loc.outboxDue 0 9 = true ∧ (loc.netsReach (loc.readyPoint 0 9 loc.gate.e)).issuedAll (loc.readyPoint 0 9 loc.gate.e) = true)
    ∧ (busy.outboxDue 0 9 = true ∧ (busy.netsReach (busy.readyPoint 0 9 busy.gate.e)).issuedAll (busy.readyPoint 0 9 busy.gate.e) = false)
    ∧ loc.outboxDue 0 10 = false := by decide +kernel

/-- A slot of data for position 9 of beat 90. -/
def dataSlot : List (BitVec 8) := mkSlot [1] 90 0 9 2 false 100 0 none 0

/-- Position 9 forwards what came in at position 9 in the same wall beat. -/
def forwards (x : List (BitVec 8)) : Device :=
  (planned (2 ^ 63 + 9 * 2 ^ 48) (upPort 9)).onPort 0 (fun q => { q with rxSlots := [(100, 9, x)] })

theorem forwards_entry (x : List (BitVec 8)) : (forwards x).txEntry 0 90 9 = 2 ^ 63 + 9 * 2 ^ 48 := by
  have h : (planned (2 ^ 63 + 9 * 2 ^ 48) (upPort 9)).txEntry 0 90 9 = 2 ^ 63 + 9 * 2 ^ 48 := by decide +kernel
  rw [← h]
  simp only [Device.txEntry, forwards, Device.port_onPort_same, Device.onPort_planOn, Device.onPort_base]

/-- O55: a position that forwards a good slot, and one that forwards a failed one. -/
theorem test_forwarded :
    (∀ x, (forwards x).forwardSlot ((forwards x).txEntry 0 90 9) 100 9 = some x) ∧ slotGood dataSlot = true ∧ trKind dataSlot = 2
    ∧ slotGood [] = false ∧ peKind ((forwards []).txEntry 0 90 9) = 2 ∧ ((forwards []).port 0).up = true := by
  refine ⟨fun x => ?_, mkSlot_good .., (mkSlot_fields [1] 90 0 9 2 false 100 0 none 0).2.2.2.1, by decide, by decide +kernel, by decide +kernel⟩
  rw [forwards_entry, Device.forwardSlot, show pePort (2 ^ 63 + 9 * 2 ^ 48) = 0 by decide, show peSlot (2 ^ 63 + 9 * 2 ^ 48) = 9 by decide]
  simp [forwards]

/-- A port that is up at position 1 and retains a slot that a NACK has named. -/
def nacked : Port :=
  { Port.reset with step := 6, txPos := 1, rxPos := 1, nbrW := some 100, rxState := 2, resend := [(99, 9)], retain := [(99, 9, dataSlot)] }

theorem nacked_retained : nacked.retained 99 9 = some dataSlot := by simp [Port.retained, nacked]

theorem nextResend_head (q : Port) (w k : Nat) (l : List (Nat × Nat)) (x : List (BitVec 8)) (h : q.resend = (w, k) :: l)
    (r : q.retained w k = some x) (g : slotGood x = true) : q.nextResend = some (w, k) := by
  simp [Port.nextResend, h, r, g]

theorem nacked_resend : nacked.resend = [(99, 9)] := by simp [nacked]

theorem nacked_next : nacked.nextResend = some (99, 9) :=
  nextResend_head nacked 99 9 [] dataSlot nacked_resend nacked_retained (mkSlot_good ..)

/-- O55: a slot to send again in position 1. -/
theorem test_slot_to_send_again :
    ∃ q, q.txPos = 1 ∧ q.nextResend = some (99, 9) ∧ q.retained 99 9 = some dataSlot ∧ q.up = true
      ∧ (part.onPort 0 (fun _ => q)).port 0 = q ∧ part.beat.w < 99 + 2 ^ 15 ∧ ((upPort 1).port 0).nextResend = none :=
  ⟨nacked, by simp [nacked], nacked_next, nacked_retained, by simp [nacked, Port.up], by simp, by decide +kernel, by decide +kernel⟩

/-- A slot of an open packet for device 0. -/
def openSlot : List (BitVec 8) := mkSlot (mkHdr (2 ^ 49) 0 1 0 0 8 0 false 0 0 16) 90 0 9 3 false 100 0 none 0

/-- O56: good slots for a planned position, the fields that the statement reads from them, and a failed slot. -/
theorem test_slots_received :
    let d := planned (2 ^ 62) (upPort 9)
    (d.port 0).nbrW = some 100 ∧ (d.port 0).up = true ∧ (d.port 0).rxPos = 9 ∧ slotGood dataSlot = true ∧ trKind dataSlot = 2
    ∧ nearest 16 (trSeq dataSlot) 100 = 100 ∧ trSlot dataSlot = 9 ∧ nearest 32 (trBeat dataSlot) 90 = 90 ∧ trLedger dataSlot = 0
    ∧ trRepair dataSlot = false ∧ (d.port 0).rxNonEmptyNow = 0 ∧ (100, 9) ∉ (d.port 0).rxGood ∧ peKind (d.rxEntry 0 90 9) = 1
    ∧ slotGood [] = false ∧ d.twin.role ≠ 5 ∧ slotGood openSlot = true ∧ trKind openSlot = 3 := by
  have h := mkSlot_fields [1] 90 0 9 2 false 100 0 none 0
  have o := mkSlot_fields (mkHdr (2 ^ 49) 0 1 0 0 8 0 false 0 0 16) 90 0 9 3 false 100 0 none 0
  refine ⟨by decide +kernel, by decide +kernel, by decide +kernel, mkSlot_good .., h.2.2.2.1, ?_, h.2.2.1, ?_, h.2.2.2.2.2.2.1,
    h.2.2.2.2.1, by decide +kernel, by decide +kernel, by decide +kernel, by decide, by decide, mkSlot_good .., o.2.2.2.1⟩
  · rw [show trSeq dataSlot = 100 from h.2.2.2.2.2.1]; decide
  · rw [show trBeat dataSlot = 90 from h.1]; decide

/-- O56: the open packet of that slot is for device 0 and is a write. -/
theorem test_open_packet_received :
    let y := openOf 0 100 9 90 openSlot
    let q := fun (n : List (Nat × Nat)) => ({ Port.reset with nacks := n, rxGood := [(100, 9)] } : Port)
    rzDev y.dest = part.devNum ∧ y.op = 0 ∧ part.inPair = false ∧ (inRole 4).inPair = true ∧ Port.reset.openHeld = []
    ∧ (q [(99, 10)]).gapBefore 100 9 = true ∧ (q []).gapBefore 100 9 = false := by decide +kernel

/-- O56: control slots on an aligned part, failed and good. -/
theorem test_control_slots :
    let d := upPort 9
    let held := { d with hold := { Hold.reset with now := true } }
    let framing := d.onPort 0 (fun q => { q with step := 1 })
    d.beat.aligned = true ∧ (d.port 0).step ≠ 0 ∧ ctlGood [] = false ∧ 2 ≤ (d.port 0).step ∧ ctlGood goodCtl = true
    ∧ (d.holdWas (ctlW goodCtl)).getD (ctlHold goodCtl) = ctlHold goodCtl ∧ (framing.port 0).step = 1
    ∧ ((held.port 0).up = true ∧ ctlState goodCtl ≠ 0 ∧ ctlW goodCtl ≠ held.beat.w + 1
      ∧ held.holdWas (ctlW goodCtl) = some (!ctlHold goodCtl)) := by
  obtain ⟨g, -, -, w, -, h, st, -, -⟩ := goodCtl_facts
  rw [g, w, h, st]
  decide +kernel

/-- O56: slots held for staging and for a core that is Active or gated; ledgers that close and that do not. -/
theorem test_slip_and_ledger :
    let s := fun (e : Nat) => planned e (upPort 9 { Port.reset with slip := [(90, 9)] })
    let hub := 2 ^ 62 + 0xFF * 2 ^ 40
    let led := fun (seen : List Nat) => upPort 9 { Port.reset with ledgerNext := some 97, ctlSeen := seen }
    let gated := (s (2 ^ 62)).onCore 0 (fun k => { k with power := { k.power with state := 1 } })
    ((s hub).port 0).slip.find? (fun x => decide (x.1 ≤ (s hub).gate.e)) = some (90, 9)
    ∧ peKind ((s 0).rxEntry 0 90 9) ≠ 1 ∧ (peKind ((s hub).rxEntry 0 90 9) = 1 ∧ peCore ((s hub).rxEntry 0 90 9) = 0xFF)
    ∧ (peKind ((s (2 ^ 62)).rxEntry 0 90 9) = 1 ∧ peCore ((s (2 ^ 62)).rxEntry 0 90 9) = 0
      ∧ ((s (2 ^ 62)).core 0).power.state = 0 ∧ (gated.core 0).power.state ≠ 0)
    ∧ (upPort 9 { Port.reset with ledgerNext := some 97 } |>.onPort 0 (fun q => { q with rxState := 0 }) |>.port 0).rxState = 0 ∧ (((led [98]).port 0).ledgerNext = some 97 ∧ (led [98]).beat.aligned = true
      ∧ 97 + 3 ≤ (led [98]).beat.w ∧ ((led [98]).port 0).rxState ≠ 0 ∧ ((led [98]).port 0).closes 97 = true)
    ∧ ((led []).port 0).closes 97 = false ∧ (upPort 9).beat.w < 98 + 3 := by decide +kernel

/-- O57: the steps of link-up. What the opaque parts of LINK packets say (log 10) no test can show. -/
theorem test_link_up :
    let b := { part with boot := { Boot.reset with phase := .running, step := 4 } }
    let q := fun (n : Nat) (p : Port) => b.onPort 0 (fun _ => { p with step := n })
    let hello : Packet := { Packet.reset with hdr := mkHdr 0 0 1 0 8 0 0 false 0 0 16 }
    let last : Packet := { Packet.reset with hdr := mkHdr 0 0 1 0 8 0 0 true 0 0 16 }
    let later : Packet := { Packet.reset with hdr := mkHdr 0 0 1 0 8 0 1 true 0 0 16 }
    let link := { q 2 Port.reset with fabric := { (q 2 Port.reset).fabric with openIn := [hello] } }
    (b.mayTrain 0 = true ∧ part.mayTrain 0 = false) ∧ ((q 1 { Port.reset with goodCtl := 16 }).port 0).step = 1
    ∧ (hello.op = 8 ∧ hello.port = 0 ∧ link.ownLinkUp 0 = true
      ∧ link.fabric.openIn.find? (fun k => k.op == 8 && k.port == 0) = some hello ∧ (link.port 0).step = 2)
    ∧ (hello.tag = 0 ∧ hello.last = false ∧ last.tag = 0 ∧ last.last = true ∧ later.tag ≠ 0 ∧ ([] : List (BitVec 8)).length ≠ 448 * later.tag)
    ∧ ((q 3 { Port.reset with seenDev := some 0 }).port 0).seenDev = some ((q 3 Port.reset).port 0).nbrDev
    ∧ ({ b with twin := { Twin.reset with role := 1 } }.topoFree 32 = true ∧ b.topoFree 0 = false ∧ b.fabric.topoSet = false)
    ∧ (((q 5 { Port.reset with delaySamples := List.replicate 1024 (5, 5) }).port 0).step = 5
      ∧ 1024 ≤ ((q 5 { Port.reset with delaySamples := List.replicate 1024 (5, 5) }).port 0).delaySamples.length)
    ∧ 16 ≤ ((q 1 { Port.reset with badCtl := 16 }).port 0).badCtl := by decide +kernel

/-! ### Open packets and power -/

/-- A part with one open packet arrived. -/
def arrived (p : Packet) (d : Device := loaded 0) : Device := { d with fabric := { d.fabric with openIn := [p] } }

/-- An open packet of an operation, from device 1, for a target, with its data. -/
def openPk (op dest n : Nat) (dev : Nat := 1) (key keyN : Nat := 0) : Packet :=
  { Packet.reset with hdr := mkHdr dest 0 dev 0 op n 0 false key keyN 16, data := List.replicate n 1 }

/-- O58: packets of each operation that act. -/
theorem test_open_rows :
    let scratch := openPk 0 0 8
    let key := openPk 3 (4 * 2 ^ 48) 0 1 0 1
    let keyed := (arrived key).onCore 0 (fun k => { k with keyMap := [(0, BitVec.ofNat 64 (2 ^ 48))] })
    let done := openPk 5 0 0 0
    let fly := (loaded 0).onCore 0 (fun k => { k with copies := [flying] })
    (List.range 8).all (fun op => op == 6 || (arrived (openPk op 0 8)).nextOpen op == some (openPk op 0 8)) = true
    ∧ ((arrived scratch).openSlots scratch.dest scratch.len = [0] ∧ ((arrived scratch).task 0).replay = none ∧ 0 < scratch.len
      ∧ rzSpace scratch.dest = 0) ∧ (arrived (openPk 0 (2 ^ 48) 8)).openSlots (2 ^ 48) 8 = []
    ∧ (keyed.nextOpen 3 = some key ∧ keyed.outstanding key = false ∧ keyed.landedOf key.who ≠ some 0 ∧ 0 < key.keyN
      ∧ keyed.hasCore (rzCore key.dest) = true ∧ keyed.keyHolder 0 0 = some 0 ∧ keyed.keyCount 0 0 + key.keyN ≤ keyCap (keyed.keyEntry 0 0 0))
    ∧ (keyed.hasCore (rzCore (openPk 4 (200 * 2 ^ 40) 32).dest) = false
      ∧ keyed.hasCore (rzCore (openPk 4 0 32).dest) = true)
    ∧ ((arrived done fly).nextOpen 5 = some done ∧ done.srcCore ≠ 0xFF ∧ ((arrived done fly).core done.srcCore).copyOf done.tag = some flying)
    ∧ ((arrived (openPk 1 0 8)).nextOpen 1 = some (openPk 1 0 8) ∧ (arrived (openPk 1 0 8)).openSlots 0 8 = [0] ∧ rzSpace (openPk 1 0 8).dest = 0)
    ∧ ((keyed.core 0).issue = none ∧ (keyed.core 0).absent = false ∧ keyed.fabric.lasts = [] ∧ keyed.power.device = 0 ∧ (keyed.core 0).power.state = 0
      ∧ (keyed.task 0).replay = none)
    ∧ (let late := { part with fabric := { part.fabric with deferred := [(0, { Packet.reset with v := 97 }), (1, { Packet.reset with v := 98 })] } }
      late.fabric.deferred.map (fun p => decide (late.schedOf p.2.v + 4 ≤ late.gate.e + 1)) = [true, false])
    ∧ (rzValid .lmx9410 (2 ^ 49) 8 = true ∧ (loaded 0).hostBarred 2 0 8 = false) := by decide +kernel

/-- O58: windows of the task in staging and in DRAM, and a host write that the replay ring bars. -/
theorem test_open_windows :
    let wide := BitVec.ofNat 256 (1 * 2 ^ 160 + 1 * 2 ^ 135)
    let d := (loaded 0).onCore 0 (fun k => { k with bounds := [(0, wide)] })
    d.openSlots (2 ^ 49) 8 = [0] ∧ d.openSlots (2 ^ 48) 8 = [0]
    ∧ ({ part with logger := { Logger.reset with ring := some (0, 2 ^ 20) } } : Device).hostBarred 1 0 8 = true := by decide +kernel

/-- O59: rails, caps, shares and wakes that are due. -/
theorem test_power_due :
    let d := { part with beat := { w := 1024, h := 0, s := 1024, aligned := true }, pins := { Pins.reset with pmbusOn := true } }
    let asleep := { part with power := { Power.reset with quarters := [(1, 7)] } }
    let waking := part.onCore 0 (fun k => { k with power := { k.power with state := 1, waking := some 0 } })
    let parked := { part with power := { Power.reset with device := 5 } }
    let marked := part.onCore 0 (fun k => { k with marked := true })
    (d.readsRails = true ∧ d.everyBeats 64 d.power.capW = true ∧ d.everyBeats 1024 d.power.statusW = true
      ∧ (d.ledger.filter (fun e => e.isOpen && e.device)).length = 1 ∧ part.readsRails = false)
    ∧ (d.hasRail 25 = true ∧ d.railBad 4 700 = false ∧ d.railBad 4 678 = true)
    ∧ ((waking.core 0).power.waking = some 0 ∧ Sparse.get 0 asleep.power.quarters 1 = 7 ∧ Sparse.get 0 asleep.power.qWake 1 = 0)
    ∧ (parked.power.device = 5 ∧ parked.power.devWake = 0)
    ∧ ((marked.core 0).marked = true ∧ (marked.core 0).absent = false ∧ marked.slotsOn 0 = [] ∧ marked.boot.phase = .running
      ∧ (marked.spareCore (marked.quarterOf 0)).isSome = true) := by decide +kernel

/-- O59: a quarter without a spare core, and a fault of it that hits the task that runs there. -/
theorem test_no_spare :
    let d := { busyPart with ident := { Ident.reset with physFused := [36, 37, 38, 39] } }
    d.spareCore 0 = none ∧ unitExists d (.packageFault 1 0) = true ∧ d.inPair = false ∧ d.hitBy 1 0 0 = true ∧ 0 ∈ d.boundSlots
    ∧ (d.task 0).state ≠ 5 := by decide +kernel

end Sys2Proof.Tests
end

/-! PROOFS about the time base (R34 to R36, R60). Every row outside the time base runs a lifted meaning on the unit that it names,
so it keeps W, H, S and alignment; the eight others do one of the moves of `TimeMove`. Each statement about the numbers is then a
case split over the moves. -/

namespace Sys2Proof.Machine

open Sys2Proof

/-! ### Every row outside the time base is a lifted meaning on the unit that it names -/

theorem onUnit_congr {ok ok' : Device → Bool} (h : ∀ d, ok d = ok' d) (f : Device → Device) (s : State) :
    onUnit ok f s = onUnit ok' f s := by
  rw [funext h]

theorem lift_eq_onUnit (f : Device → Device) (s : State) : lift f s = onUnit (fun _ => true) f s := rfl

theorem slotRow_eq_onUnit (c slot op phase : Nat) : ∃ f, ∀ s, slotRow c slot op phase s = onUnit (fun d => d.hasCore c) f s :=
  ⟨_, fun _ => rfl⟩

theorem vectorRow_eq_onUnit (c : Nat) (sl : VSlot) (op : Nat) :
    ∃ f, ∀ s, vectorRow c sl op s = onUnit (fun d => d.hasCore c) f s := by
  cases sl with
  | va => exact slotRow_eq_onUnit c 4 op 4
  | vb => exact slotRow_eq_onUnit c 5 op 6

theorem runRow_eq_onUnit (mb code : Nat) (g : Device → Device) :
    ∃ f, ∀ s, runRow mb code g s = onUnit (fun _ => mb < 16) f s :=
  ⟨_, fun _ => rfl⟩

/-- A row outside the time base asks for the unit that it names and runs under `lift`. The groups are the shared forms of the
rows. -/
theorem exec_eq_onUnit (i : Instr) (h : movesTime i = false) :
    ∃ f, ∀ s, exec i s = onUnit (fun d => unitExists d i) f s := by
  cases i with
  | beatEdge | controlSlotReceive | droneInMarker | droneRealign | thermalShutdown | resetAssert | resetRelease
  | lossOfPower =>
    cases h
  | registerWrite | ringConfigWrite | ringHeadWrite | bar2Write | smbSetPointer | smbBlockWrite | smbBlockRead
  | commandStart | ringEntryWrite | planStopEffect | planStartEffect | snapshotLatch | powerPolicyEffect | beatGateOpen
  | dramTick | stagingScrub | logGap | openWrite | openReadReq | openReadData | openKeyAdd | openQmsg | openDone | openHost
  | droneInWord | droneLost | freewheelExpired | freewheelExit | droneLock | standbyTakeover | refclkLost | refclkReturn
  | pcieRefclkLost | hostLinkUp | powerCapUpdate | meterEnergyShare | railTelemetryRead | railStatusRead | bootFrame
  | bootSignature | startupStep | chanterReady | twinSeatTimeout | twinPeerAliveFall | twDecide | twAck | twReady
  | twCommand | twHostIn | twValue | twMissed | twFill | twDigest | twFault | twSteer | twCopy | twMbox14
  | openDeferralApply | twinMute | twinLinkLoss | twinJoin | twinAttachAbandon | twinScrubRepair | bypass | idcode
  | samplePreload | extest | clamp | highz | hostLinkDown | twinPeerAliveRise =>
    dsimp only [exec, unitExists]
    exact ⟨_, fun _ => lift_eq_onUnit _ _⟩
  | submit | relayAbandon | commandComplete | imageStage | taskStartEffect | mgmtResponse | ctNop | ctLoop
  | ctJump | ctGate | ctYield | ctHint | ctFlagrd | ctFlagclr | ctEnd | vectorWriteback | mxFeedRead | passResultLand
  | beatWorkDone | scrubCycle | yieldPoint | yieldOverdue | bundleWaitOverdue | taskFaulted | copyAccess | copyComplete
  | queueArrival | forcedRefresh | dramScrub | replayApply | slotTransmit | controlSlotTransmit | outboxReady | slotReceive
  | slipWrite | repairResend | ledgerCheck | linkTrainingDone | linkFramingLock | openLink | linkDelayDone
  | portFramingLoss | coreRemap | dieAttestation | linkUpTimeout | packageFault =>
    dsimp only [exec, unitExists]
    exact ⟨_, fun _ => rfl⟩
  | mgmtPiece mb =>
    dsimp only [exec, unitExists]
    have boxes : (decide (12 ≤ mb) && decide (mb ≤ 14)) = (mb == 12 || mb == 13 || mb == 14) := by
      rw [Bool.eq_iff_iff]
      simp only [Bool.and_eq_true, Bool.or_eq_true, decide_eq_true_eq, beq_iff_eq]
      omega
    exact ⟨_, onUnit_congr (fun _ => boxes) _⟩
  | wakeComplete kind u =>
    dsimp only [exec, unitExists]
    have kinds (d : Device) : (kind == 0 && d.hasCore u || kind == 1 && decide (u < 4) || kind == 2)
        = (kind == 2 || kind == 0 && d.hasCore u || kind == 1 && decide (u < 4)) := by
      rw [Bool.or_comm, Bool.or_assoc]
    exact ⟨_, onUnit_congr kinds _⟩
  | identRead | versionNegotiate | topoSet | droneRole | imageCommit | taskBind | taskStart | yieldReq | taskStop
  | ctxSave | ctxRestore | planStop | planSet | planStart | snapshot | counterRead | healthRead | digestRead | replayArm
  | replayRun | powerPolicy | meterRead | epochSet | twinAttach | twinDetach | hostCopy =>
    dsimp only [exec, unitExists]
    exact runRow_eq_onUnit _ _ _
  | cuNop | cuCopy | mxNop | mxPass | qkNop | keyAdd | keyWait | keyTake | keyRead | qSend | qRecv | qSelect | entDraw
  | timeRead | cntRead =>
    dsimp only [exec, unitExists]
    exact slotRow_eq_onUnit _ _ _ _
  | vNop | vAdd | vSub | vMul | vFma | vDiv | vSqrt | vMax | vMin | vCmp | vSel | vNeg | v2sum | v2prod | vExp2 | vLog2
  | vRcp | vRsqrt | vAnd | vOr | vXor | vShl | vShr | vSra | vMov | vPerm | vShuf | vCvt | vUnpk | vPack | vCmpr | vExpd
  | vBcomb | vRsum | vRmax | vRmin | vXadd | vXrd | vXclr | vXst | vXld | vSm0 | vSm1 | vSmr | vSm2 | vSmn | vPset | vPbuf
  | vBell =>
    dsimp only [exec, unitExists]
    exact vectorRow_eq_onUnit _ _ _

/-- Rows outside the time base keep W, H, S and alignment. -/
theorem exec_keeps_beat {i : Instr} {s t : State} (hi : movesTime i = false) (h : exec i s = .next t) :
    t.dev.beat = s.dev.beat := by
  obtain ⟨f, hf⟩ := exec_eq_onUnit i hi
  obtain ⟨-, -, hbeat, -⟩ := onUnit_next ((hf s).symm.trans h)
  exact hbeat

/-! ### What a row can do to the time base -/

/-- The moves of the time base of a device under a row: it stays, a beat edge counts (R34), a device aligns (R36), an aligned
device realigns and neither number steps back (R60), or the running of the part ends. -/
inductive TimeMove (d : Device) : Instr → Beat → Prop where
  | stays (i : Instr) : TimeMove d i d.beat
  | counts (env : EdgeEnv) : TimeMove d (.beatEdge env) d.nextBeat
  | aligns (i : Instr) (w n : Nat) (hi : movesTime i = true) (off : d.beat.aligned = false) : TimeMove d i (Beat.at w n)
  | realigns (w n : Nat) (on : d.beat.aligned = true) (hw : d.beat.w ≤ w) (hn : d.beat.s ≤ n) :
      TimeMove d .droneRealign (Beat.at w n)
  | ends (i : Instr) (hi : endsRun i = true) : TimeMove d i Beat.reset

theorem beatEdge_moves {env : EdgeEnv} {s t : State} (h : execBeatEdge env s = .next t) :
    TimeMove s.dev (.beatEdge env) t.dev.beat := by
  obtain ⟨-, hbeat⟩ := liftBeat_next h
  exact hbeat ▸ .counts env

theorem Device.aligned_of_rootLock {d : Device} {x : Int} {w : Nat} (h : d.rootLock x = some w) : d.beat.aligned = false := by
  unfold Device.rootLock at h
  split at h
  next hlock =>
    simp only [Bool.and_eq_true, Bool.not_eq_true'] at hlock
    obtain ⟨⟨off, -⟩, -⟩ := hlock
    exact off
  next => cases h

theorem Device.aligned_of_alignsNow {d : Device} {p : Nat} {slot : List (BitVec 8)} (h : d.alignsNow p slot = true) :
    d.beat.aligned = false := by
  simp only [Device.alignsNow, Bool.and_eq_true, Bool.not_eq_true'] at h
  obtain ⟨⟨⟨⟨⟨⟨off, -⟩, -⟩, -⟩, -⟩, -⟩, -⟩ := h
  exact off

theorem Device.aligned_of_realignTo {d : Device} {p : Nat × Nat} (h : d.realignTo = some p) : d.beat.aligned = true := by
  unfold Device.realignTo at h
  cases hb : d.beat.aligned with
  | true => rfl
  | false => simp [hb] at h

theorem droneInMarker_moves {x : Int} {s t : State} (h : execDroneInMarker x s = .next t) :
    TimeMove s.dev (.droneInMarker x) t.dev.beat := by
  unfold execDroneInMarker at h
  split at h
  case h_1 w hlock =>
    obtain ⟨-, hbeat⟩ := liftBeat_next h
    exact hbeat ▸ .aligns _ w w rfl (Device.aligned_of_rootLock hlock)
  case h_2 =>
    obtain ⟨-, hbeat, -⟩ := lift_next h
    exact hbeat ▸ .stays _

theorem controlSlotReceive_moves {p : Nat} {slot : List (BitVec 8)} {x : Int} {s t : State}
    (h : execControlSlotReceive p slot x s = .next t) : TimeMove s.dev (.controlSlotReceive p slot x) t.dev.beat := by
  unfold execControlSlotReceive at h
  split at h
  · cases h
  · split at h
    next halign =>
      obtain ⟨-, hbeat⟩ := liftBeat_next h
      exact hbeat ▸ .aligns _ _ _ rfl (Device.aligned_of_alignsNow halign)
    next =>
      obtain ⟨-, hbeat, -⟩ := lift_next h
      exact hbeat ▸ .stays _

theorem droneRealign_moves {s t : State} (h : execDroneRealign s = .next t) : TimeMove s.dev .droneRealign t.dev.beat := by
  unfold execDroneRealign at h
  split at h
  case h_1 =>
    cases h
    exact .stays _
  case h_2 w n hto =>
    dsimp only at h
    split at h
    next hle =>
      obtain ⟨hw, hn⟩ : s.dev.beat.w ≤ w ∧ s.dev.beat.s ≤ n := by simpa using hle
      obtain ⟨-, hbeat⟩ := liftBeat_next h
      exact hbeat ▸ .realigns w n (Device.aligned_of_realignTo hto) hw hn
    next =>
      obtain ⟨-, hbeat, -⟩ := lift_next h
      exact hbeat ▸ .stays _

theorem resetAssert_moves {s t : State} (h : execResetAssert s = .next t) : TimeMove s.dev .resetAssert t.dev.beat := by
  obtain ⟨-, hdev⟩ := liftTime_next h
  exact hdev ▸ .ends _ rfl

theorem lossOfPower_moves {s t : State} (h : execLossOfPower s = .next t) : TimeMove s.dev .lossOfPower t.dev.beat := by
  obtain ⟨-, hdev⟩ := liftTime_next h
  exact hdev ▸ .ends _ rfl

theorem resetRelease_moves {seat addr : Nat} {s t : State} (h : execResetRelease seat addr s = .next t) :
    TimeMove s.dev (.resetRelease seat addr) t.dev.beat := by
  obtain ⟨-, hdev⟩ := liftTime_next h
  have hbeat : t.dev.beat = s.dev.beat := by rw [hdev]; split <;> rfl
  exact hbeat ▸ .stays _

theorem thermalShutdown_moves {n : Nat} {s t : State} (h : execThermalShutdown n s = .next t) :
    TimeMove s.dev (.thermalShutdown n) t.dev.beat := by
  unfold execThermalShutdown at h
  split at h
  · obtain ⟨-, hdev⟩ := liftTime_next h
    split at hdev
    next => exact hdev ▸ .stays _
    next =>
      have hbeat : t.dev.beat = Beat.reset := by rw [hdev]; rfl
      exact hbeat ▸ .ends _ rfl
  · cases h

/-- Whatever row runs, it does one of the moves of the time base. -/
theorem exec_moves {i : Instr} {s t : State} (h : exec i s = .next t) : TimeMove s.dev i t.dev.beat := by
  cases hi : movesTime i with
  | false => exact exec_keeps_beat hi h ▸ .stays i
  | true =>
    match i, hi with
    | .beatEdge _, _ => exact beatEdge_moves h
    | .droneInMarker _, _ => exact droneInMarker_moves h
    | .droneRealign, _ => exact droneRealign_moves h
    | .controlSlotReceive _ _ _, _ => exact controlSlotReceive_moves h
    | .resetAssert, _ => exact resetAssert_moves h
    | .lossOfPower, _ => exact lossOfPower_moves h
    | .resetRelease _ _, _ => exact resetRelease_moves h
    | .thermalShutdown _, _ => exact thermalShutdown_moves h

/-- What a step can do to the time base: an empty queue idles, and else the row at the front does one of its moves. -/
theorem step_moves {s t : State} (h : step s = .next t) :
    t = s ∨ ∃ i, s.pending.head? = some i ∧ TimeMove s.dev i t.dev.beat := by
  unfold step at h
  split at h
  next =>
    cases h
    exact .inl rfl
  next i rest hq => exact .inr ⟨i, by simp [hq], exec_moves (s := { s with pending := rest }) h⟩

/-! ### The numbers after a move -/

/-- The next numbers of an aligned device. -/
theorem Device.nextBeat_on {d : Device} (on : d.beat.aligned = true) :
    d.nextBeat = if d.holdAt (d.beat.w + 1) then { d.beat with w := d.beat.w + 1, h := d.beat.h + 1 }
      else { d.beat with w := d.beat.w + 1, s := d.beat.s + 1 } := by
  simp [Device.nextBeat, on]

/-- A device that has not aligned counts nothing. -/
theorem Device.nextBeat_off {d : Device} (off : d.beat.aligned = false) : d.nextBeat = d.beat := by
  simp [Device.nextBeat, off]

/-- Every move keeps W = H + S (R35). -/
theorem TimeMove.sum {d : Device} {i : Instr} {b : Beat} (m : TimeMove d i b) (h : d.inStep) : b.w = b.h + b.s := by
  cases m with
  | stays => exact h
  | counts => exact d.nextBeat_sum h
  | aligns _ w n | realigns w n => exact Beat.at_sum w n
  | ends => rfl

/-- Every move keeps that a device which has not aligned reads 0 (R36). -/
theorem TimeMove.zero {d : Device} {i : Instr} {b : Beat} (m : TimeMove d i b)
    (h : d.beat.aligned = false → d.beat = Beat.reset) (off : b.aligned = false) : b = Beat.reset := by
  cases m with
  | stays => exact h off
  | counts =>
    cases on : d.beat.aligned with
    | false => rw [d.nextBeat_off on, h on]
    | true => rw [Device.nextBeat_on on] at off; split at off <;> simp [on] at off
  | aligns | realigns => cases off
  | ends => rfl

/-- In an aligned device no move but the end of the run steps back, and only a realignment skips a number (R36). -/
theorem TimeMove.forward {d : Device} {i : Instr} {b : Beat} (m : TimeMove d i b) (h : d.inStep)
    (on : d.beat.aligned = true) (hi : endsRun i = false) :
    b.aligned = true ∧ d.beat.w ≤ b.w ∧ d.beat.s ≤ b.s ∧ (i ≠ .droneRealign → b.w = d.beat.w ∨ b.w = d.beat.w + 1) := by
  cases m with
  | stays => exact ⟨on, le_rfl, le_rfl, fun _ => .inl rfl⟩
  | counts => rw [Device.nextBeat_on on]; split <;> simp [on]
  | aligns _ _ _ _ off => cases off.symm.trans on
  | realigns w n _ hw hn =>
    have hs : d.beat.s ≤ min n w := by omega
    exact ⟨rfl, hw, hs, fun hne => absurd rfl hne⟩
  | ends _ he => cases hi.symm.trans he

/-! ### The rows that align -/

/-- The fourth good marker edge of an unaligned root, whose words rise by 1, locks it at its word (R46). -/
theorem Device.rootLock_fourth {d : Device} {x : Int} {w : Nat} (off : d.beat.aligned = false) (hr : d.drone.role = 1)
    (hg : 3 ≤ d.drone.goodEdges) (hlo : -20000 ≤ x) (hhi : x ≤ 20000) (hp : d.drone.prevWord = some w)
    (hl : d.drone.lastWord = some (w + 1)) : d.rootLock x = some (w + 1) := by
  have hedges : d.drone.edgesNow x = d.drone.goodEdges + 1 := by simp [Drone.edgesNow, markIn, hlo, hhi, hp, hl]
  have hfour : 4 ≤ d.drone.goodEdges + 1 := by omega
  simp [Device.rootLock, off, hr, hl, hedges, hfour]

/-- BEAT_EDGE completes, with the next numbers. -/
theorem beatEdge_completes (env : EdgeEnv) (s : State) : Completes (.beatEdge env) s (fun e => e.beat = s.dev.nextBeat) :=
  ⟨_, rfl, rfl⟩

/-- DRONE_IN_MARKER completes at a lock, with S = W. -/
theorem droneInMarker_aligns {x : Int} {w : Nat} {s : State} (h : s.dev.rootLock x = some w) :
    Completes (.droneInMarker x) s (fun e => e.beat = Beat.at w w) := by
  simp only [Completes, exec, execDroneInMarker, h]
  exact ⟨_, rfl, rfl⟩

/-- CONTROL_SLOT_RECEIVE completes at an alignment, with the numbers of the slot. -/
theorem controlSlotReceive_aligns {p : Nat} {slot : List (BitVec 8)} {x : Int} {s : State} (hp : s.dev.hasPort p = true)
    (h : s.dev.alignsNow p slot = true) :
    Completes (.controlSlotReceive p slot x) s (fun e => e.beat = Beat.at (ctlW slot) (ctlS slot)) := by
  simp only [Completes, exec, execControlSlotReceive, hp, h, Bool.not_true, Bool.false_eq_true, if_false, if_true]
  exact ⟨_, rfl, rfl⟩

theorem Completes.mono {i : Instr} {s : State} {P Q : Device → Prop} (h : Completes i s P) (hPQ : ∀ e, P e → Q e) :
    Completes i s Q := by
  obtain ⟨t, ht, hP⟩ := h
  exact ⟨t, ht, hPQ _ hP⟩

/-! ### The obligations -/

/-- Settles O8, by the next numbers of an aligned device and of any other. -/
theorem beatEdgeCounts : Obligations.BeatEdgeCounts := by
  intro env s
  refine (beatEdge_completes env s).mono fun e he => ?_
  split
  next on =>
    rw [he, Device.nextBeat_on on]
    split <;> simp
  next off => rw [he, Device.nextBeat_off (by simpa using off)]

/-- Settles O2: every move keeps the sum, and the edge is the one of O8. -/
theorem timeBaseInStep : Obligations.TimeBaseInStep := by
  refine ⟨fun s t hs h => ?_, fun env s on => (beatEdgeCounts env s).mono fun e he => ?_⟩
  · obtain rfl | ⟨i, -, m⟩ := step_moves h
    · exact hs
    · exact m.sum hs
  · rw [if_pos on] at he
    exact he.2

/-- Settles O3, by the state of reset. -/
theorem timeBaseAtReset : Obligations.TimeBaseAtReset :=
  ⟨rfl, rfl, rfl, rfl, rfl, Memory.reset_wf, rfl⟩

/-- Settles O4: every move keeps that an unaligned device reads 0, the rows that align set the numbers that they are given, and in
an aligned device no move steps back. -/
theorem timeNeverStepsBack : Obligations.TimeNeverStepsBack := by
  refine ⟨fun s t hs h off => ?_, fun env s off => ?_, fun p slot x s hp h => ?_, fun x w s off hr hg hlo hhi hpw hlw => ?_,
    fun i s t hs on hi h => (exec_moves h).forward hs on hi⟩
  · obtain rfl | ⟨i, -, m⟩ := step_moves h
    · exact hs off
    · exact m.zero hs off
  · exact (beatEdge_completes env s).mono fun e he => he.trans (Device.nextBeat_off off)
  · refine (controlSlotReceive_aligns hp h).mono fun e he => ?_
    rw [he]
    exact ⟨rfl, rfl, fun hle => ⟨min_eq_left hle, congrArg (ctlW slot - ·) (min_eq_left hle)⟩⟩
  · refine (droneInMarker_aligns (Device.rootLock_fourth off hr hg hlo hhi hpw hlw)).mono fun e he => ?_
    rw [he]
    simp [Beat.at]

end Sys2Proof.Machine

/-! PROOFS about shifts and comparisons (R104, R119). A lanewise operation delivers in each lane what it computes from that lane, and
no flag where none of its lanes sets one; what is left of a statement is one lane of `opLogic` or of `opCmp`. -/

namespace Sys2Proof.Machine

open Sys2Proof

/-! ### The lanes, marks and flags of a lanewise operation -/

theorem lanewise_fst (ops : List Vec) (g : Nat → Nat × Nat) :
    (lanewise ops g).1 = lanes (fun i => ((g i).1, ops.any (fun v => mark v i))) := by
  simp [lanewise, lanes]

theorem nth_lanes (f : Nat → Nat × Bool) {j : Nat} (hj : j < 128) (x : BitVec 32 × Bool) :
    nth (lanes f) j x = (BitVec.ofNat 32 (f j).1, (f j).2) := by
  simp [nth, lanes, hj]

@[simp] theorem lane_lanes (f : Nat → Nat × Bool) {j : Nat} (hj : j < 128) : lane (lanes f) j = (f j).1 % 2 ^ 32 := by
  rw [lane, nth_lanes f hj, BitVec.toNat_ofNat]

@[simp] theorem mark_lanes (f : Nat → Nat × Bool) {j : Nat} (hj : j < 128) : mark (lanes f) j = (f j).2 := by
  rw [mark, nth_lanes f hj]

theorem lane_lanewise (ops : List Vec) (g : Nat → Nat × Nat) {j : Nat} (hj : j < 128) :
    lane (lanewise ops g).1 j = (g j).1 % 2 ^ 32 := by
  rw [lanewise_fst, lane_lanes _ hj]

theorem mark_lanewise (ops : List Vec) (g : Nat → Nat × Nat) {j : Nat} (hj : j < 128) :
    mark (lanewise ops g).1 j = ops.any (fun v => mark v j) := by
  rw [lanewise_fst, mark_lanes _ hj]

theorem mem_outVec (off : Nat) (v : Vec) {j : Nat} (hj : j < 128) : (off, j, lane v j, mark v j) ∈ outVec off v :=
  List.mem_map.2 ⟨j, List.mem_range.2 hj, rfl⟩

theorem orFlags_eq_zero {l : List Nat} (h : ∀ x ∈ l, x = 0) : orFlags l = 0 := by
  rw [orFlags, List.eq_replicate_of_mem h]
  induction l.length with
  | zero => rfl
  | succ n ih => exact ih

theorem lanewise_snd_eq_zero (ops : List Vec) {g : Nat → Nat × Nat} (h : ∀ i, (g i).2 = 0) : (lanewise ops g).2 = 0 :=
  orFlags_eq_zero (by simp [h])

/-- The delivery of a lanewise operation with one result register. -/
def VOut.ofLanes (r : Vec × Nat) : VOut := { regs := outVec 0 r.1, flags := r.2 }

theorem VOut.ofLanes_lanewise_flags (ops : List Vec) {g : Nat → Nat × Nat} (h : ∀ i, (g i).2 = 0) :
    (VOut.ofLanes (lanewise ops g)).flags = 0 :=
  lanewise_snd_eq_zero ops h

theorem VOut.mem_ofLanes_lanewise_regs (ops : List Vec) (g : Nat → Nat × Nat) {j : Nat} (hj : j < 128) :
    (0, j, (g j).1 % 2 ^ 32, ops.any (fun v => mark v j)) ∈ (VOut.ofLanes (lanewise ops g)).regs := by
  rw [← lane_lanewise ops g hj, ← mark_lanewise ops g hj]
  exact mem_outVec 0 _ hj

theorem vCompute_cmp {e : VEnv} (h : e.f.op = 0x09) (a b c : Vec) (st : List Vec) :
    vCompute e a b c st = VOut.ofLanes (lanewise [a, b] (fun i => (opCmp e (lane a i) (lane b i), 0))) := by
  rw [vCompute, h]
  rfl

theorem vCompute_shift {e : VEnv} (h : e.f.op = 0x1B ∨ e.f.op = 0x1C ∨ e.f.op = 0x1D) (a b c : Vec) (st : List Vec) :
    vCompute e a b c st = VOut.ofLanes (lanewise [a, b] (fun i => (opLogic e.f.op (lane a i) (lane b i), 0))) := by
  obtain h | h | h := h <;> (rw [vCompute, h]; rfl)

/-! ### Signed values as bit vectors -/

theorem toSigned_eq_toInt (x w : Nat) : toSigned x w = (BitVec.ofNat w x).toInt := by
  have half : 2 * (x % 2 ^ w) < 2 ^ w ↔ x % 2 ^ w < 2 ^ (w - 1) := by
    cases w with
    | zero => simp [Nat.mod_one]
    | succ n => rw [Nat.add_sub_cancel, Nat.pow_succ, Nat.mul_comm (2 ^ n), Nat.mul_lt_mul_left Nat.two_pos]
  simp only [toSigned, BitVec.toInt, BitVec.toNat_ofNat, half]

theorem ofSigned_eq_toNat (x : Int) (w : Nat) : ofSigned x w = (BitVec.ofInt w x).toNat := by
  rw [BitVec.toNat_ofInt, ofSigned]

theorem toSigned_toNat {w : Nat} (v : BitVec w) : toSigned v.toNat w = v.toInt := by
  rw [toSigned_eq_toInt, BitVec.ofNat_toNat, BitVec.setWidth_eq]

/-! ### One lane of a comparison and of a shift -/

theorem opCmp_of_void (e : VEnv) {a b : Nat} (h : e.fmt.read a = none ∨ e.fmt.read b = none) :
    opCmp e a b = b2n (e.f.imm % 8 == 1) := by
  obtain h | h := h
  · simp [opCmp, h]
  · cases ha : e.fmt.read a <;> simp [opCmp, h, ha]

theorem opLogic_shl (a c : Nat) : opLogic 0x1B a c = if 32 ≤ c then 0 else a * 2 ^ c % 2 ^ 32 := rfl

theorem opLogic_shr (a c : Nat) : opLogic 0x1C a c = if 32 ≤ c then 0 else a / 2 ^ c := rfl

theorem opLogic_sra (a c : Nat) : opLogic 0x1D a c = ofSigned (toSigned a 32 / (2 ^ min c 31 : Nat)) 32 := rfl

/-- Below the width the model shifts as bit vectors do (`BitVec.sshiftRight`), and the quotient fits. -/
theorem toSigned_opLogic_sra {c : Nat} (hc : c < 32) (a : Nat) :
    toSigned (opLogic 0x1D a c) 32 = toSigned a 32 / (2 ^ c : Nat) := by
  rw [opLogic_sra, min_eq_left (by omega), ofSigned_eq_toNat, toSigned_toNat, toSigned_eq_toInt, ← Int.shiftRight_eq_div_pow]
  exact BitVec.toInt_sshiftRight

/-- From the width on the model divides by 2^31, which leaves the sign alone: -1 or 0. -/
theorem opLogic_sra_of_le {c : Nat} (hc : 32 ≤ c) (a : Nat) :
    opLogic 0x1D a c = if toSigned a 32 < 0 then 2 ^ 32 - 1 else 0 := by
  have sign : toSigned a 32 / (2 ^ min c 31 : Nat) = if toSigned a 32 < 0 then -1 else 0 := by
    have lo := BitVec.le_toInt (BitVec.ofNat 32 a)
    have hi := BitVec.toInt_lt (x := BitVec.ofNat 32 a)
    rw [min_eq_right (by omega)]
    rw [← toSigned_eq_toInt] at lo hi
    split <;> omega
  rw [opLogic_sra, sign]
  split <;> rfl

/-! ### The obligations -/

/-- Settles O34: each shift at counts below 32 and from 32 on, and the shifts as lanewise operations without a flag. -/
theorem shiftCounts : Obligations.ShiftCounts := by
  refine ⟨fun a c _ => ⟨fun hc => ⟨?_, ?_, toSigned_opLogic_sra hc a⟩, fun hc => ⟨?_, ?_, opLogic_sra_of_le hc a⟩⟩,
    fun e a b c st h => ?_⟩
  · rw [opLogic_shl, if_neg (by omega)]
  · rw [opLogic_shr, if_neg (by omega)]
  · rw [opLogic_shl, if_pos hc]
  · rw [opLogic_shr, if_pos hc]
  · rw [vCompute_shift h]
    refine ⟨VOut.ofLanes_lanewise_flags _ fun _ => rfl, fun j hj => ?_⟩
    simpa using VOut.mem_ofLanes_lanewise_regs [a, b] (fun i => (opLogic e.f.op (lane a i) (lane b i), 0)) hj

/-- Settles O32: a comparison with a void operand depends on IMM alone, and no lane of a comparison sets a flag. -/
theorem comparisonsWithVoid : Obligations.ComparisonsWithVoid := by
  refine ⟨fun e a b hty hvoid => ?_, fun e a b c st h => ?_⟩
  · have tuba : e.fmt = .tb32 := by simp [VEnv.fmt, hty]
    rw [opCmp_of_void e (by rwa [tuba])]
    exact ⟨fun ne => by simp [ne, b2n], fun other => by simp [other, b2n]⟩
  · rw [vCompute_cmp h]
    exact VOut.ofLanes_lanewise_flags _ fun _ => rfl

end Sys2Proof.Machine

/-! PROOFS about the image of an exact accumulator (R139, R141, Table 5-6). The number of an image is V plus 2^576 times the small
number of what stands above V, so a field read at or above bit 576 is a field read of that small number. -/

namespace Sys2Proof.Machine

open Sys2Proof

/-! ### Bit fields of a number in two parts -/

theorem bits_toNat_add_low {w : Nat} (v : BitVec w) (y : Nat) : bits (v.toNat + 2 ^ w * y) 0 w = v.toNat := by
  rw [bits, Nat.pow_zero, Nat.div_one, Nat.add_mul_mod_self_left, Nat.mod_eq_of_lt v.isLt]

theorem bits_toNat_add_high {w : Nat} (v : BitVec w) (y lo n : Nat) : bits (v.toNat + 2 ^ w * y) (w + lo) n = bits y lo n := by
  rw [bits, Nat.pow_add, ← Nat.div_div_eq_div_mul, Nat.add_mul_div_left _ _ (Nat.two_pow_pos w), Nat.div_eq_of_lt v.isLt,
    Nat.zero_add, bits]

theorem toNat_add_lt {w y n k : Nat} (v : BitVec w) (hy : y < 2 ^ n) (hk : w + n = k) : v.toNat + 2 ^ w * y < 2 ^ k := calc
  v.toNat + 2 ^ w * y < 2 ^ w + 2 ^ w * y := Nat.add_lt_add_right v.isLt _
  _ = 2 ^ w * (y + 1) := by rw [Nat.mul_succ, Nat.add_comm]
  _ ≤ 2 ^ w * 2 ^ n := Nat.mul_le_mul_left _ hy
  _ = 2 ^ k := by rw [← Nat.pow_add, hk]

theorem leNat_leBytes_of_lt {n x : Nat} (h : x < 2 ^ (8 * n)) : leNat (leBytes n x) = x := by
  rw [leNat_leBytes, show 256 = 2 ^ 8 from rfl, ← Nat.pow_mul, Nat.mod_eq_of_lt h]

/-- Two single bits and a 1 above a number of w bits, as one number above it. -/
theorem sum_above_eq (v a b w : Nat) :
    v + a * 2 ^ w + b * 2 ^ (w + 1) + 2 ^ (w + 8) = v + 2 ^ w * (a + b * 2 + 2 ^ 8) := by
  ring

theorem toInt_bounds {w : Nat} (v : BitVec (w + 1)) : -(2 ^ w : Int) ≤ v.toInt ∧ v.toInt < 2 ^ w :=
  ⟨BitVec.le_toInt v, BitVec.toInt_lt⟩

/-! ### The image of an accumulator -/

/-- What an image holds above V: VOID, RANGE_LOST and FORMAT 1 (Table 5-6, from bit 576). -/
def XAcc.imageTop (x : XAcc) : Nat := b2n x.void + b2n x.lost * 2 + 2 ^ 8

/-- Bits 1:0 of what stands above V are VOID and RANGE_LOST, bits 15:8 are FORMAT, and the reserved bits are 0. -/
theorem XAcc.imageTop_fields (x : XAcc) : bitAt x.imageTop 0 = x.void ∧ bitAt x.imageTop 1 = x.lost
    ∧ bits x.imageTop 2 6 = 0 ∧ bits x.imageTop 8 8 = 1 ∧ bits x.imageTop 16 48 = 0 := by
  rw [XAcc.imageTop]
  cases x.void <;> cases x.lost <;> decide

theorem XAcc.imageTop_lt (x : XAcc) : x.imageTop < 2 ^ 64 := by
  rw [XAcc.imageTop]
  cases x.void <;> cases x.lost <;> decide

theorem XAcc.image_eq (x : XAcc) : x.image = leBytes 80 (x.v.toNat + 2 ^ 576 * x.imageTop) := by
  rw [XAcc.image, show 577 = 576 + 1 from rfl, show 584 = 576 + 8 from rfl, sum_above_eq, XAcc.imageTop]

theorem XAcc.leNat_image (x : XAcc) : leNat x.image = x.v.toNat + 2 ^ 576 * x.imageTop := by
  rw [XAcc.image_eq, leNat_leBytes_of_lt (toNat_add_lt x.v x.imageTop_lt (by decide))]

theorem XAcc.image_value (x : XAcc) : bits (leNat x.image) 0 576 = x.v.toNat := by
  rw [XAcc.leNat_image, bits_toNat_add_low x.v]

theorem XAcc.bits_image_top (x : XAcc) (lo n : Nat) : bits (leNat x.image) (576 + lo) n = bits x.imageTop lo n := by
  rw [XAcc.leNat_image, bits_toNat_add_high x.v]

theorem XAcc.bitAt_image_top (x : XAcc) (i : Nat) : bitAt (leNat x.image) (576 + i) = bitAt x.imageTop i := by
  rw [bitAt, XAcc.bits_image_top, bitAt]

/-- The fields of Table 5-6 in an image that the part builds. -/
theorem XAcc.image_fields (x : XAcc) : x.image.length = 80 ∧ bits (leNat x.image) 0 576 = x.v.toNat
    ∧ bitAt (leNat x.image) 576 = x.void ∧ bitAt (leNat x.image) 577 = x.lost ∧ bits (leNat x.image) 578 6 = 0
    ∧ bits (leNat x.image) 584 8 = 1 ∧ bits (leNat x.image) 592 48 = 0 := by
  obtain ⟨void, lost, low, format, high⟩ := x.imageTop_fields
  exact ⟨leBytes_length _ _, x.image_value, (x.bitAt_image_top 0).trans void, (x.bitAt_image_top 1).trans lost,
    (x.bits_image_top 2 6).trans low, (x.bits_image_top 8 8).trans format, (x.bits_image_top 16 48).trans high⟩

/-! ### The add that an image brings -/

theorem imageAdd_image (y : XAcc) (m : Bool) : imageAdd y.image m = (y.v.toInt, y.void, y.lost, m) := by
  obtain ⟨-, value, void, lost, -, format, -⟩ := y.image_fields
  rw [imageAdd, if_pos format, value, void, lost, toSigned_toNat]

theorem imageAdd_of_foreign {bs : List (BitVec 8)} (h : bits (leNat bs) 584 8 ≠ 1) (m : Bool) :
    imageAdd bs m = (0, true, false, m) :=
  if_neg h

/-- V keeps the low 576 bits of the exact sum (R139), which is the sum of the two as 576-bit words. -/
theorem XAcc.addX_toInt_v (x : XAcc) (u : BitVec 576) (a : Bool × Bool × Bool) : (x.addX (u.toInt, a)).v = x.v + u := by
  rw [XAcc.addX, BitVec.ofInt_add, BitVec.ofInt_toInt, BitVec.ofInt_toInt]

theorem XAcc.addX_void (x : XAcc) (v : Int) (void lost mark : Bool) :
    (x.addX (v, void, lost, mark)).void = (x.void || void) := rfl

theorem XAcc.addX_lost (x : XAcc) (v : Int) (void lost mark : Bool) : (x.addX (v, void, lost, mark)).lost = (x.lost || lost
    || decide (x.v.toInt + v < -(2 ^ 575 : Int)) || decide ((2 ^ 575 : Int) ≤ x.v.toInt + v)) := by
  rw [XAcc.addX, Nat.cast_pow, Nat.cast_ofNat]

theorem XAcc.addX_zero_v (x : XAcc) (a : Bool × Bool × Bool) : (x.addX (0, a)).v = x.v := by
  rw [XAcc.addX, Int.add_zero, BitVec.ofInt_toInt]

/-- V is in range before the add, so the add of 0 does not lose the range. -/
theorem XAcc.addX_zero_lost (x : XAcc) (void lost mark : Bool) :
    (x.addX (0, void, lost, mark)).lost = (x.lost || lost) := by
  obtain ⟨lo, hi⟩ := toInt_bounds (w := 575) x.v
  rw [XAcc.addX_lost, Int.add_zero, decide_eq_false lo.not_gt, decide_eq_false hi.not_ge, Bool.or_false, Bool.or_false]

/-! ### The obligation -/

/-- Settles O39: the fields of an image, the add of an image that the part built, and that of a foreign one. -/
theorem accumulatorReadOut : Obligations.AccumulatorReadOut := by
  refine ⟨XAcc.image_fields, fun x y m => ?_, fun x bs m foreign => ?_⟩
  · rw [imageAdd_image]
    exact ⟨x.addX_toInt_v y.v _, x.addX_void .., x.addX_lost ..⟩
  · rw [imageAdd_of_foreign foreign]
    exact ⟨x.addX_zero_v _, Bool.or_true _, (x.addX_zero_lost ..).trans (Bool.or_false _)⟩

end Sys2Proof.Machine

/-! PROOFS about the moves between lanes and the sum tree (R216 to R220). Each operation here builds its result with `lanes`, so a
statement is about the one lane that a source index names, and about which index that is. The tree of R220 is `sumLevel`, which the
seven steps of `treeSum` climb one level at a time. -/

namespace Sys2Proof.Machine

open Sys2Proof

/-! ### The lanes and marks of an operand -/

theorem lane_lt (v : Vec) (i : Nat) : lane v i < 2 ^ 32 := (nth v i (0, false)).1.isLt

@[simp] theorem lane_mod (v : Vec) (i : Nat) : lane v i % 2 ^ 32 = lane v i := Nat.mod_eq_of_lt (lane_lt v i)

/-- A lane of a result that `lanes` builds is a write of its register. -/
theorem exists_mem_outVec_lanes (off : Nat) (f : Nat → Nat × Bool) {j : Nat} (hj : j < 128) :
    ∃ m, (off, j, (f j).1 % 2 ^ 32, m) ∈ outVec off (lanes f) := by
  rw [← lane_lanes f hj]
  exact ⟨_, mem_outVec off (lanes f) hj⟩

theorem fst_of_mem_outVec {off : Nat} {v : Vec} {r : Nat × Nat × Nat × Bool} (h : r ∈ outVec off v) : r.1 = off := by
  obtain ⟨i, -, rfl⟩ := List.mem_map.1 h
  rfl

/-! ### `v.perm` and `v.shuf` -/

theorem lane_opPerm (a b : Vec) {j : Nat} (hj : j < 128) :
    lane (opPerm a b) j = if lane b j < 128 then lane a (lane b j) else 0 := by
  rw [opPerm, lane_lanes _ hj]
  dsimp only
  split
  · exact lane_mod a _
  · rfl

theorem mark_opPerm (a b : Vec) {j : Nat} (hj : j < 128) :
    mark (opPerm a b) j = ((decide (lane b j < 128) && mark a (lane b j)) || (List.range 128).any (mark b)) := by
  rw [opPerm, mark_lanes _ hj]
  dsimp only
  split
  next inside => rw [decide_eq_true inside, Bool.true_and]
  next outside => rw [decide_eq_false outside, Bool.false_and, Bool.false_or]

/-- Lane j of a shuffle is the lane of A or of B that Table 9-7 gives. -/
theorem lane_opShuf (e : VEnv) (a b : Vec) {j : Nat} (hj : j < 128) :
    lane (opShuf e a b) j = lane (if (shufSrc (bits e.f.imm 8 3) (bits e.f.imm 0 7) j).1 then b else a)
      (shufSrc (bits e.f.imm 8 3) (bits e.f.imm 0 7) j).2 := by
  rw [opShuf, lane_lanes _ hj]
  dsimp only
  split <;> exact lane_mod _ _

theorem shufSrc_butterfly (k j : Nat) : shufSrc 0 k j = (false, Nat.xor j (2 ^ k)) := rfl

theorem shufSrc_rotate (k j : Nat) : shufSrc 1 k j = (false, (j + k) % 128) := rfl

theorem shufSrc_interleaveLow (k j : Nat) : shufSrc 2 k j = (j % 2 == 1, j / 2) := rfl

theorem shufSrc_interleaveHigh (k j : Nat) : shufSrc 3 k j = (j % 2 == 1, 64 + j / 2) := rfl

theorem shufSrc_deinterleave (k j : Nat) :
    shufSrc 4 k j = if j < 64 then (false, 2 * j) else (true, 2 * (j - 64) + 1) := rfl

/-- An interleave takes even lanes from A and odd lanes from B. -/
theorem lane_ite_odd (a b : Vec) (i j : Nat) :
    lane (if j % 2 == 1 then b else a) i = if j % 2 = 0 then lane a i else lane b i := by
  obtain even | odd := Nat.mod_two_eq_zero_or_one j
  · simp [even]
  · simp [odd]

/-- Table 9-7, by pattern. -/
theorem lane_opShuf_patterns (e : VEnv) (a b : Vec) {j : Nat} (hj : j < 128) :
    let k := bits e.f.imm 0 7
    let r := lane (opShuf e a b) j
    (bits e.f.imm 8 3 = 0 → r = lane a (Nat.xor j (2 ^ k)))
    ∧ (bits e.f.imm 8 3 = 1 → r = lane a ((j + k) % 128))
    ∧ (bits e.f.imm 8 3 = 2 → r = (if j % 2 = 0 then lane a (j / 2) else lane b (j / 2)))
    ∧ (bits e.f.imm 8 3 = 3 → r = (if j % 2 = 0 then lane a (64 + j / 2) else lane b (64 + j / 2)))
    ∧ (bits e.f.imm 8 3 = 4 → r = (if j < 64 then lane a (2 * j) else lane b (2 * (j - 64) + 1))) := by
  dsimp only
  rw [lane_opShuf e a b hj]
  refine ⟨fun pat => ?butterfly, fun pat => ?rotate, fun pat => ?low, fun pat => ?high, fun pat => ?deinterleave⟩ <;> rw [pat]
  case butterfly => rw [shufSrc_butterfly]; rfl
  case rotate => rw [shufSrc_rotate]; rfl
  case low => rw [shufSrc_interleaveLow, lane_ite_odd]
  case high => rw [shufSrc_interleaveHigh, lane_ite_odd]
  case deinterleave => rw [shufSrc_deinterleave]; split <;> rfl

/-! ### The encoding checks of a vector slot -/

/-- A slot that is no pointer set breaks the encoding where its result registers run past register 31, or where it shuffles by a
pattern or a butterfly that Table 9-7 does not have (R206). -/
theorem vEncBad_of_check {s : Nat} {o : VOp} (ho : vopOf (vf s).op = some o) (hset : (vf s).isPset = false)
    (hbad : (o.dest = .vd ∧ 32 < (vf s).d + o.nregs) ∨ ((vf s).op = 0x22
      ∧ (5 ≤ bits (vf s).imm 8 3 ∨ (bits (vf s).imm 8 3 = 0 ∧ 6 < bits (vf s).imm 0 7)))) (level : Nat) (vb : Bool) :
    vEncBad s level vb = true := by
  unfold vEncBad
  simp only [ho, hset, Bool.false_eq_true, if_false]
  split
  · rfl
  split
  · rfl
  · obtain ⟨dest, past⟩ | ⟨op, pat⟩ := hbad
    · simp [dest, past]
    · simp [op, pat]

theorem vEncBad_shuf {s : Nat} (hop : (vf s).op = 0x22)
    (hpat : 5 ≤ bits (vf s).imm 8 3 ∨ (bits (vf s).imm 8 3 = 0 ∧ 6 < bits (vf s).imm 0 7)) (level : Nat) (vb : Bool) :
    vEncBad s level vb = true :=
  vEncBad_of_check (congrArg vopOf hop) (by simp [VF.isPset, hop]) (.inr ⟨hop, hpat⟩) level vb

/-- `v.cmpr` writes three registers from vD. -/
theorem vEncBad_cmpr {s : Nat} (hop : (vf s).op = 0x26) (hd : 29 < (vf s).d) (level : Nat) (vb : Bool) :
    vEncBad s level vb = true :=
  vEncBad_of_check (congrArg vopOf hop) (by simp [VF.isPset, hop]) (.inl ⟨rfl, Nat.add_lt_add_right hd 3⟩) level vb

/-! ### `v.cmpr` -/

/-- The active lanes of R218, in ascending order. -/
def activeLanes (b : Vec) : List Nat := (List.range 128).filter (fun i => lane b i != 0)

theorem lt_of_activeLanes {b : Vec} {i x : Nat} (h : (activeLanes b)[i]? = some x) : i < 128 := by
  obtain ⟨hi, -⟩ := List.getElem?_eq_some_iff.1 h
  calc i < (activeLanes b).length := hi
    _ ≤ (List.range 128).length := List.length_filter_le _ _
    _ = 128 := List.length_range

/-- The writes of `v.cmpr`: two registers of lanes by their place among the active lanes, and the count. -/
theorem opCmpr_regs (a b c : Vec) : ∃ f g m, (opCmpr a b c).regs
      = outVec 0 (lanes f) ++ outVec 1 (lanes g) ++ [(2, 0, (activeLanes b).length, m)]
    ∧ (∀ i x, (activeLanes b)[i]? = some x → (f i).1 = lane a x ∧ (g i).1 = (lane c 0 % 2 ^ 22 + x) % 2 ^ 22)
    ∧ ∀ i, (activeLanes b)[i]? = none → (f i).1 = 0 ∧ (g i).1 = 0xFFFFFFFF := by
  refine ⟨_, _, _, rfl, fun i x h => ?active, fun i h => ?rest⟩ <;> unfold activeLanes at h
  case active => simp only [h, and_self]
  case rest => simp only [h, and_self]

theorem mem_opCmpr_of_active {a b c : Vec} {i x : Nat} (h : (activeLanes b)[i]? = some x) :
    (∃ m, (0, i, lane a x, m) ∈ (opCmpr a b c).regs)
    ∧ ∃ m, (1, i, (lane c 0 % 2 ^ 22 + x) % 2 ^ 22, m) ∈ (opCmpr a b c).regs := by
  obtain ⟨f, g, m, regs, active, -⟩ := opCmpr_regs a b c
  obtain ⟨value, position⟩ := active i x h
  obtain ⟨mv, memv⟩ := exists_mem_outVec_lanes 0 f (lt_of_activeLanes h)
  obtain ⟨mp, memp⟩ := exists_mem_outVec_lanes 1 g (lt_of_activeLanes h)
  have fits : (lane c 0 % 2 ^ 22 + x) % 2 ^ 22 < 2 ^ 32 := by omega
  rw [value, lane_mod] at memv
  rw [position, Nat.mod_eq_of_lt fits] at memp
  simp only [regs, List.mem_append]
  exact ⟨⟨mv, .inl (.inl memv)⟩, ⟨mp, .inl (.inr memp)⟩⟩

theorem mem_opCmpr_of_le {a b c : Vec} {i : Nat} (hi : i < 128) (h : (activeLanes b).length ≤ i) :
    (∃ m, (0, i, 0, m) ∈ (opCmpr a b c).regs) ∧ ∃ m, (1, i, 0xFFFFFFFF, m) ∈ (opCmpr a b c).regs := by
  obtain ⟨f, g, m, regs, -, rest⟩ := opCmpr_regs a b c
  obtain ⟨value, position⟩ := rest i (List.getElem?_eq_none h)
  obtain ⟨mv, memv⟩ := exists_mem_outVec_lanes 0 f hi
  obtain ⟨mp, memp⟩ := exists_mem_outVec_lanes 1 g hi
  rw [value] at memv
  rw [position] at memp
  simp only [regs, List.mem_append]
  exact ⟨⟨mv, .inl (.inl memv)⟩, ⟨mp, .inl (.inr memp)⟩⟩

/-- The one write of vD+2. -/
theorem opCmpr_count (a b c : Vec) : (∃ m, (2, 0, (activeLanes b).length, m) ∈ (opCmpr a b c).regs)
    ∧ ∀ r ∈ (opCmpr a b c).regs, r.1 = 2 → r.2.1 = 0 := by
  obtain ⟨f, g, m, regs, -, -⟩ := opCmpr_regs a b c
  simp only [regs, List.mem_append, List.mem_singleton]
  refine ⟨⟨m, .inr rfl⟩, fun r mem two => ?_⟩
  obtain (mem | mem) | rfl := mem
  · exact absurd ((fst_of_mem_outVec mem).symm.trans two) (by decide)
  · exact absurd ((fst_of_mem_outVec mem).symm.trans two) (by decide)
  · rfl

theorem opCmpr_flags (a b c : Vec) :
    (opCmpr a b c).flags = if ∃ x ∈ activeLanes b, 2 ^ 22 ≤ lane c 0 % 2 ^ 22 + x then flagOvf else 0 := by
  have reaches : (activeLanes b).any (fun x => 2 ^ 22 ≤ lane c 0 % 2 ^ 22 + x) = true
      ↔ ∃ x ∈ activeLanes b, 2 ^ 22 ≤ lane c 0 % 2 ^ 22 + x := by
    simp only [List.any_eq_true, decide_eq_true_eq]
  exact if_congr reaches rfl rfl

/-! ### `v.expd` -/

/-- Lane i of B names lane k of the result from base P (R219). -/
def namesLane (b c : Vec) (k i : Nat) : Bool := lane b i != 0xFFFFFFFF && lane b i == lane c 0 % 2 ^ 22 + k

theorem namesLane_iff (b c : Vec) (k i : Nat) :
    namesLane b c k i = true ↔ lane b i ≠ 0xFFFFFFFF ∧ lane b i = lane c 0 % 2 ^ 22 + k := by
  simp [namesLane]

theorem lane_opExpd_of_some (a : Vec) {b c : Vec} {k i : Nat} (hk : k < 128)
    (h : (List.range 128).find? (namesLane b c k) = some i) : lane (opExpd a b c) k = lane a i := by
  unfold namesLane at h
  rw [opExpd, lane_lanes _ hk, h]
  exact lane_mod a i

theorem lane_opExpd_of_none (a : Vec) {b c : Vec} {k : Nat} (hk : k < 128)
    (h : (List.range 128).find? (namesLane b c k) = none) : lane (opExpd a b c) k = 0 := by
  unfold namesLane at h
  rw [opExpd, lane_lanes _ hk, h]
  rfl

/-! ### `v.rsum` -/

/-- The value of a node of R220: the sum in HN32, or in TB32 rounded to nearest. -/
def sumNode (e : VEnv) (x y : Nat) : Nat :=
  if e.f.ty = 1 then (hnResult e.f.sat (toSigned x 32 + toSigned y 32)).1 else (tb2 x y .near Ex.add).1

/-- Level n of the tree of R220 over the leaves f. -/
def sumLevel (e : VEnv) (f : Nat → Nat) : Nat → Nat → Nat
  | 0, i => f i
  | n + 1, i => sumNode e (sumLevel e f n (2 * i)) (sumLevel e f n (2 * i + 1))

theorem sumLevel_zero (e : VEnv) (f : Nat → Nat) : sumLevel e f 0 = f := rfl

/-- The levels as the obligation writes them, by the recursor. -/
theorem sumLevel_eq_rec (e : VEnv) (f : Nat → Nat) (n : Nat) : sumLevel e f n = Nat.rec (motive := fun _ => Nat → Nat) f
    (fun _ below i => sumNode e (below (2 * i)) (below (2 * i + 1))) n := by
  induction n with
  | zero => rfl
  | succ n ih => exact funext fun i => congrArg₂ (sumNode e) (congrFun ih (2 * i)) (congrFun ih (2 * i + 1))

theorem treeLevel_cons_cons (e : VEnv) (x y : Nat) (l : List Nat) :
    (treeLevel e (x :: y :: l)).1 = sumNode e x y :: (treeLevel e l).1 := by
  rw [sumNode, ← apply_ite Prod.fst]
  rfl

/-- A step of the model's tree adds the pairs 2i and 2i + 1. -/
theorem treeLevel_range (e : VEnv) (m : Nat) (f : Nat → Nat) :
    (treeLevel e ((List.range (2 * m)).map f)).1 = (List.range m).map (fun i => sumNode e (f (2 * i)) (f (2 * i + 1))) := by
  induction m generalizing f with
  | zero => rfl
  | succ m ih =>
    have pairs : (List.range (2 * (m + 1))).map f = f 0 :: f 1 :: (List.range (2 * m)).map (fun i => f (i + 2)) := by
      simp [Nat.mul_succ, List.range_succ_eq_map]
    rw [pairs, treeLevel_cons_cons, ih, List.range_succ_eq_map, List.map_cons, List.map_map]
    rfl

theorem treeSum_succ (e : VEnv) (n : Nat) (l : List Nat) (flags : Nat) :
    treeSum e (n + 1) l flags = treeSum e n (treeLevel e l).1 (Nat.lor flags (treeLevel e l).2) := rfl

/-- From level k with 2^n nodes, n steps reach node 0 of level k + n. -/
theorem treeSum_sumLevel (e : VEnv) (f : Nat → Nat) (n k flags : Nat) :
    (treeSum e n ((List.range (2 ^ n)).map (sumLevel e f k)) flags).1 = sumLevel e f (k + n) 0 := by
  induction n generalizing k flags with
  | zero => rfl
  | succ n ih =>
    have step : (treeLevel e ((List.range (2 ^ (n + 1))).map (sumLevel e f k))).1
        = (List.range (2 ^ n)).map (sumLevel e f (k + 1)) := by
      rw [Nat.pow_succ', treeLevel_range]
      rfl
    rw [treeSum_succ, step, ih, Nat.add_right_comm, Nat.add_assoc]

theorem opRsum_normal {e : VEnv} (h : e.canonical = false) (a : Vec) : (opRsum e a).1 = sumLevel e (lane a) 7 0 := by
  have tree := treeSum_sumLevel e (lane a) 7 0 0
  rw [sumLevel_zero, Nat.zero_add] at tree
  rw [opRsum, if_neg (Bool.eq_false_iff.1 h)]
  exact tree

theorem vCompute_rsum_regs {e : VEnv} (h : e.f.op = 0x30) (a b c : Vec) (st : List Vec) :
    (vCompute e a b c st).regs = [(0, e.f.idx, (opRsum e a).1, (List.range 128).any (mark a))] := by
  rw [vCompute, h]
  rfl

/-! ### The obligations -/

/-- Settles O35: the lane and the mark of a permute, the five patterns of a shuffle, and the patterns not in Table 9-7. -/
theorem laneMoves : Obligations.LaneMoves :=
  ⟨fun a b _ hj => ⟨lane_opPerm a b hj, mark_opPerm a b hj⟩, fun e a b _ hj => lane_opShuf_patterns e a b hj,
    fun _ level vb hop hpat => vEncBad_shuf hop hpat level vb⟩

/-- Settles O36: the writes and the flag of a compress, its register check, and the first lane that names a lane of an expand. -/
theorem compressAndExpand : Obligations.CompressAndExpand := by
  refine ⟨fun a b c => ?_, fun _ level vb hop hd => vEncBad_cmpr hop hd level vb, fun a b c k hk => ⟨fun i named first => ?_,
    fun unnamed => ?_⟩⟩
  · obtain ⟨count, only⟩ := opCmpr_count a b c
    exact ⟨fun _ _ => mem_opCmpr_of_active, fun _ => mem_opCmpr_of_le, count, only, opCmpr_flags a b c⟩
  · obtain ⟨hi, names⟩ := named
    refine lane_opExpd_of_some a hk (List.find?_range_eq_some.2 ⟨(namesLane_iff b c k i).2 names, List.mem_range.2 hi,
      fun j hj => ?_⟩)
    rw [Bool.not_eq_true', ← Bool.not_eq_true, namesLane_iff]
    exact fun earlier => first j hj ⟨hj.trans hi, earlier⟩
  · refine lane_opExpd_of_none a hk (List.find?_eq_none.2 fun i mem named => unnamed i ⟨List.mem_range.1 mem, ?_⟩)
    exact (namesLane_iff b c k i).1 named

/-- Settles O37: seven steps of the model's tree reach node 0 of level 7, which is the one write. -/
theorem sumTree : Obligations.SumTree := by
  intro e a b c st normal hop node level
  have levels (n : Nat) : sumLevel e (lane a) n = level n := sumLevel_eq_rec e (lane a) n
  rw [vCompute_rsum_regs hop, opRsum_normal normal, levels]

end Sys2Proof.Machine

/-! PROOFS about the rows as such (log 1, log 8): every row answers by the unit that it names, and keeps the queue. The lemmas on
`Completes` and `Becomes` here are how every later proof enters a row. -/

namespace Sys2Proof.Machine

set_option Elab.async false

open Sys2Proof

/-! ### How a row of a shared form completes -/

theorem Completes.of_exec {i : Instr} {s t : State} {P : Device → Prop} (h : exec i s = .next t) (hP : P t.dev) :
    Completes i s P :=
  ⟨t, h, hP⟩

theorem Completes.lift {i : Instr} {s : State} {f : Device → Device} {P : Device → Prop}
    (h : exec i s = Machine.lift f s) (hP : P { f s.dev with beat := s.dev.beat }) : Completes i s P :=
  ⟨_, h, hP⟩

theorem Completes.onUnit {i : Instr} {s : State} {ok : Device → Bool} {f : Device → Device} {P : Device → Prop}
    (h : exec i s = Machine.onUnit ok f s) (hok : ok s.dev = true) (hP : P { f s.dev with beat := s.dev.beat }) :
    Completes i s P :=
  ⟨_, h.trans (onUnit_ok hok), hP⟩

theorem Becomes.lift {i : Instr} {s : State} {f : Device → Device} {d : Device} (h : exec i s = Machine.lift f s)
    (hd : f s.dev = d) : Becomes i s d :=
  hd ▸ h

theorem Becomes.onUnit {i : Instr} {s : State} {ok : Device → Bool} {f : Device → Device} {d : Device}
    (h : exec i s = Machine.onUnit ok f s) (hok : ok s.dev = true) (hd : f s.dev = d) : Becomes i s d :=
  hd ▸ h.trans (onUnit_ok hok)

theorem Becomes.completes {i : Instr} {s : State} {d : Device} {P : Device → Prop} (h : Becomes i s d)
    (hP : P { d with beat := s.dev.beat }) : Completes i s P :=
  ⟨_, h, hP⟩

/-! ### The unit of every row -/

/-- The rows of the time base ask for their unit too: they answer where it exists, and stop by name where it does not. -/
theorem exec_time_unit {i : Instr} (h : movesTime i = true) (s : State) :
    (unitExists s.dev i = true → ∃ t, exec i s = .next t) ∧ (unitExists s.dev i = false → exec i s = .fault .noSuchUnit) := by
  match i, h with
  | .beatEdge _, _ | .resetAssert, _ | .resetRelease _ _, _ | .lossOfPower, _ => exact ⟨fun _ => ⟨_, rfl⟩, nofun⟩
  | .droneInMarker x, _ =>
    refine ⟨fun _ => ?_, nofun⟩
    dsimp only [exec, execDroneInMarker]
    split <;> exact ⟨_, rfl⟩
  | .droneRealign, _ =>
    refine ⟨fun _ => ?_, nofun⟩
    dsimp only [exec, execDroneRealign]
    split
    · exact ⟨_, rfl⟩
    · split <;> exact ⟨_, rfl⟩
  | .controlSlotReceive p slot x, _ =>
    dsimp only [exec, execControlSlotReceive, unitExists]
    refine ⟨fun hp => ?_, fun hp => by simp [hp]⟩
    simp only [hp, Bool.not_true, Bool.false_eq_true, if_false]
    split <;> exact ⟨_, rfl⟩
  | .thermalShutdown n, _ =>
    dsimp only [exec, execThermalShutdown, unitExists]
    exact ⟨fun hn => ⟨_, if_pos hn⟩, fun hn => if_neg (by simp [hn])⟩

/-- A row of the time base keeps the queue. -/
theorem exec_time_pending {i : Instr} (h : movesTime i = true) {s t : State} (ht : exec i s = .next t) :
    t.pending = s.pending := by
  match i, h with
  | .beatEdge _, _ =>
    dsimp only [exec, execBeatEdge] at ht
    exact (liftBeat_next ht).1
  | .resetAssert, _ | .resetRelease _ _, _ | .lossOfPower, _ =>
    dsimp only [exec, execResetAssert, execResetRelease, execLossOfPower] at ht
    exact (liftTime_next ht).1
  | .droneInMarker x, _ =>
    dsimp only [exec, execDroneInMarker] at ht
    split at ht
    · exact (liftBeat_next ht).1
    · exact (lift_next ht).1
  | .droneRealign, _ =>
    dsimp only [exec, execDroneRealign] at ht
    split at ht
    · cases ht; rfl
    · split at ht
      · exact (liftBeat_next ht).1
      · exact (lift_next ht).1
  | .controlSlotReceive p slot x, _ =>
    dsimp only [exec, execControlSlotReceive] at ht
    split at ht
    · cases ht
    · split at ht
      · exact (liftBeat_next ht).1
      · exact (lift_next ht).1
  | .thermalShutdown n, _ =>
    dsimp only [exec, execThermalShutdown] at ht
    split at ht
    · exact (liftTime_next ht).1
    · cases ht

/-! ### The obligations -/

/-- Settles O1, by the two cases of `step`. -/
theorem stepRunsFront : Obligations.StepRunsFront :=
  ⟨fun _ _ _ => rfl, fun _ => rfl⟩

/-- Settles O5: a row outside the time base runs on its unit under `lift`, and the eight others keep the queue too. -/
theorem queueUntouched : Obligations.QueueUntouched := by
  intro i s t h
  cases hi : movesTime i with
  | true => exact exec_time_pending hi h
  | false =>
    obtain ⟨f, hf⟩ := exec_eq_onUnit i hi
    exact (onUnit_next ((hf s).symm.trans h)).2.1

/-- Settles O6: every row outside the time base is a lifted meaning. -/
theorem timeBaseFrame : Obligations.TimeBaseFrame :=
  fun _ _ _ hi h => exec_keeps_beat hi h

/-- Settles O7: a row outside the time base asks for the unit that it names, and so do the eight others. -/
theorem everyCommandAnswers : Obligations.EveryCommandAnswers := by
  intro i s
  cases hi : movesTime i with
  | true => exact exec_time_unit hi s
  | false =>
    obtain ⟨f, hf⟩ := exec_eq_onUnit i hi
    rw [hf s]
    exact ⟨fun h => ⟨_, onUnit_ok h⟩, fun h => onUnit_absent h⟩

end Sys2Proof.Machine

/-! PROOFS about the health log and the rows of the drone (R44 to R61). A record changes the hub alone; of a row of the drone what
is left is its guard. -/

namespace Sys2Proof.Machine

open Sys2Proof

/-! ### The health log -/

/-- The record that the log keeps of r: INDEX, W, SEAT and PHYS are those of the device (R544, R546). -/
def Device.recordOf (d : Device) (r : HealthRec) : HealthRec :=
  { r with
    index := d.hub.healthNext, w := d.beat.w, seat := d.pins.twinSeat,
    phys := if r.unitKind = 1 then d.physOf r.unit else 0xFF }

/-- The hub with one more record. -/
def Hub.logged (h : Hub) (r : HealthRec) : Hub :=
  { h with
    counters := if h.health.length < 65536 then h.counters else countIn h.counters 17 1
    health := (r :: h.health).take 65536, healthNext := h.healthNext + 1 }

/-- A record changes the hub and nothing else. -/
theorem Device.log_eq (d : Device) (r : HealthRec) : d.log r = d.onHub (fun h => h.logged (d.recordOf r)) := by
  unfold Device.log Hub.logged
  dsimp only
  split
  next room => simp only [Device.onHub, Device.recordOf, room, if_true]
  next full => simp only [Device.countHub, Device.onHub, Device.recordOf, full, if_false, Nat.one_ne_zero]

theorem Device.event_eq (d : Device) (code cause unitKind unit dHi dLo : Nat) :
    d.event code cause unitKind unit dHi dLo = d.onHub (fun h => h.logged (d.recordOf { HealthRec.reset with
      s := d.beat.s, code := code, cls := 0, cause := cause, unitKind := unitKind, unit := unit, dHi := dHi, dLo := dLo })) :=
  d.log_eq _

@[simp] theorem Hub.logged_head (h : Hub) (r : HealthRec) : (h.logged r).health.head? = some r := rfl
@[simp] theorem Hub.logged_next (h : Hub) (r : HealthRec) : (h.logged r).healthNext = h.healthNext + 1 := rfl
@[simp] theorem Hub.logged_mbx (h : Hub) (r : HealthRec) : (h.logged r).mbx = h.mbx := rfl
@[simp] theorem Device.onHub_hub (d : Device) (f : Hub → Hub) : (d.onHub f).hub = f d.hub := rfl
@[simp] theorem Device.recordOf_code (d : Device) (r : HealthRec) : (d.recordOf r).code = r.code := rfl
@[simp] theorem Device.recordOf_cause (d : Device) (r : HealthRec) : (d.recordOf r).cause = r.cause := rfl
@[simp] theorem Device.recordOf_unitKind (d : Device) (r : HealthRec) : (d.recordOf r).unitKind = r.unitKind := rfl
@[simp] theorem Device.recordOf_unit (d : Device) (r : HealthRec) : (d.recordOf r).unit = r.unit := rfl
@[simp] theorem Device.recordOf_index (d : Device) (r : HealthRec) : (d.recordOf r).index = d.hub.healthNext := rfl
@[simp] theorem Device.recordOf_dHi (d : Device) (r : HealthRec) : (d.recordOf r).dHi = r.dHi := rfl
@[simp] theorem Device.recordOf_dLo (d : Device) (r : HealthRec) : (d.recordOf r).dLo = r.dLo := rfl

/-! ### A fold of updates -/

/-- What every step of a fold keeps, the fold keeps. -/
theorem foldl_keeps {α β σ : Type} (π : σ → α) (g : σ → β → σ) (h : ∀ d x, π (g d x) = π d) (l : List β) (d : σ) :
    π (l.foldl g d) = π d := by
  induction l generalizing d with
  | nil => rfl
  | cons x l ih => exact (ih _).trans (h d x)

/-- A jump of the time base puts the gate at S. -/
theorem Device.rebase_gate (d : Device) : d.rebase.gate = { e := d.beat.s } := by
  unfold Device.rebase
  refine congrArg (fun b : Beat => ({ e := b.s } : Gate)) ?_
  rw [foldl_keeps Device.beat _ ?ports, foldl_keeps Device.beat _ ?records]
  case ports => exact fun _ _ => rfl
  case records =>
    intro d k
    split <;> rfl

/-! ### Alignment -/

/-- DRONE_IN_MARKER at a lock: the root shows locked, and its gate is that of the new S (R46). -/
theorem droneInMarker_locks {x : Int} {w : Nat} {s : State} (h : s.dev.rootLock x = some w) :
    Completes (.droneInMarker x) s (fun e => e.beat = Beat.at w w ∧ e.drone.st = 2 ∧ e.drone.hops = 0 ∧ e.gate.e = w) := by
  have run : exec (.droneInMarker x) s = execDroneInMarker x s := rfl
  simp only [execDroneInMarker, h] at run
  refine .of_exec run ⟨rfl, rfl, rfl, ?_⟩
  exact (congrArg Gate.e (Device.rebase_gate _)).trans (Nat.min_self w)

/-- Settles O10: the fourth good edge locks, any other marker edge changes the drone logic alone, and a word frame is held or
ends the count. -/
theorem droneAligns : Obligations.DroneAligns := by
  refine ⟨fun x w s off hr hg hlo hhi hp hl => ?_, fun x s h => ?_, fun f s => ?_⟩
  · refine (droneInMarker_locks (Device.rootLock_fourth off hr hg hlo hhi hp hl)).mono fun e ⟨hb, hst, hops, hgate⟩ => ?_
    exact ⟨by simp [hb, Beat.at], hst, hops, hgate⟩
  · have run : exec (.droneInMarker x) s = execDroneInMarker x s := rfl
    simp only [execDroneInMarker, h] at run
    exact .of_exec run ⟨rfl, rfl⟩
  · refine .of_exec rfl ?_
    dsimp only
    by_cases good : bits f 0 8 = 0x5D ∧ bits f 72 16 = crc16 64 (f / 256)
    · rw [if_pos good]
      simp [wordOf, good]
    · rw [if_neg good]
      have none : wordOf f = none := by simpa [wordOf] using good
      simp [none]

/-! ### Freewheel -/

theorem Drone.rootLike_iff (x : Drone) : x.rootLike = true ↔ x.role = 1 ∨ x.role = 3 := by
  simp [Drone.rootLike]

theorem Drone.rootLike_eq_false {x : Drone} (h : ¬ (x.role = 1 ∨ x.role = 3)) : x.rootLike = false :=
  Bool.eq_false_iff.2 (mt x.rootLike_iff.1 h)

theorem Device.droned_iff (d : Device) : d.droned = true ↔ d.beat.aligned = true ∧ d.twin.role ≠ 5 := by
  simp [Device.droned]

theorem Device.lostDrone_of {d : Device} (on : d.beat.aligned = true) (notShadow : d.twin.role ≠ 5)
    (hst : d.drone.st = 1 ∨ d.drone.st = 2 ∨ d.drone.st = 3)
    (lost : if d.drone.role = 1 ∨ d.drone.role = 3 then 4 ≤ d.drone.badEdges else 4 ≤ d.drone.noValid) :
    d.lostDrone = true := by
  have shows : (d.drone.st == 1 || d.drone.st == 2 || d.drone.st == 3) = true := by simpa [or_assoc] using hst
  simp only [Device.lostDrone, d.droned_iff.2 ⟨on, notShadow⟩, shows, Bool.and_true, Bool.true_and]
  by_cases root : d.drone.role = 1 ∨ d.drone.role = 3
  · simpa [d.drone.rootLike_iff.2 root, root] using lost
  · have member := Drone.rootLike_eq_false root
    simpa [member, root] using lost

/-- The condition of FREEWHEEL_EXIT on the offsets of a root or a member (R59, R609). -/
theorem Drone.mayExit_of {x : Drone}
    (h : if x.role = 1 ∨ x.role = 3 then 4 ≤ x.relock
      else 4 ≤ x.valid ∧ x.upFits = true ∧ x.thetas.take 1024 ≠ []
        ∧ -(512000 * ((x.thetas.take 1024).length : Int)) < sumOf 1024 (x.thetas.take 1024)
        ∧ sumOf 1024 (x.thetas.take 1024) < 512000 * ((x.thetas.take 1024).length : Int)) :
    (if x.rootLike then decide (4 ≤ x.relock) else x.mayReturn) = true := by
  by_cases root : x.role = 1 ∨ x.role = 3
  · simpa [x.rootLike_iff.2 root, root] using h
  · rw [if_neg root] at h
    obtain ⟨valid, fits, some, lo, hi⟩ := h
    have member := Drone.rootLike_eq_false root
    have measured : x.thetas ≠ [] := fun none => some (by simp [none])
    have same : sumOf 1024 (x.thetas.take 1024) = sumOf 1024 x.thetas := by simp [sumOf, List.take_take]
    rw [same] at lo hi
    simp only [member, Bool.false_eq_true, if_false, Drone.mayReturn, Bool.and_eq_true, decide_eq_true_eq, bne_iff_ne]
    exact ⟨⟨⟨⟨valid, fits⟩, measured⟩, lo⟩, hi⟩

/-- Settles O11, row by row: the guard of each holds, and what it then writes is the drone logic and at most one record. -/
theorem freewheelRows : Obligations.FreewheelRows := by
  refine ⟨fun s on notShadow hst lost => ?_, fun s hst long => ?_, fun s on notShadow hst pending back => ?_,
    fun s on root standby hst pending many lo hi => ?_⟩
  · refine .of_exec rfl ?_
    dsimp only
    rw [if_pos (Device.lostDrone_of on notShadow hst lost), Device.enterFreewheel, Device.event_eq]
    exact ⟨rfl, rfl, rfl, ⟨rfl, rfl, rfl, rfl, rfl⟩, rfl⟩
  · refine .of_exec rfl ?_
    dsimp only
    rw [if_pos (by simp [hst, long]), Device.event_eq]
    exact ⟨rfl, ⟨rfl, rfl, rfl, rfl, rfl⟩, rfl⟩
  · refine .of_exec rfl ?_
    dsimp only
    rw [Drone.mayExit_of back, (Device.droned_iff _).2 ⟨on, notShadow⟩, if_pos (by simp [hst, pending])]
    exact ⟨rfl, rfl, rfl, rfl, rfl, rfl, rfl⟩
  · refine .of_exec rfl ?_
    have member : s.dev.drone.rootLike = false := by simp [Drone.rootLike, root, standby]
    have shows : (s.dev.drone.st == 1 || s.dev.drone.st == 3) = true := by simpa using hst
    dsimp only
    rw [if_pos]
    simp only [on, member, shows, pending, Bool.not_false, Bool.true_and, Bool.and_eq_true, decide_eq_true_eq]
    exact ⟨⟨many, lo⟩, hi⟩

/-! ### Realignment and takeover -/

/-- Settles O12: the row takes the numbers of `realignTo` or neither, and those are the upstream's or the root's own. -/
theorem realignment : Obligations.Realignment := by
  refine ⟨fun s w n hto hn hw hs => ?_, fun s w n hto back => ?_, fun s on pending => ⟨fun root standby => ?_, ?_⟩⟩
  · have run : exec .droneRealign s = execDroneRealign s := rfl
    simp only [execDroneRealign, hto, hw, hs, decide_true, Bool.and_self, if_true] at run
    simp only [Device.event_eq] at run
    exact .of_exec run ⟨by simp [Beat.at, Nat.min_eq_left hn], rfl, rfl⟩
  · have run : exec .droneRealign s = execDroneRealign s := rfl
    have refused : ¬ (s.dev.beat.w ≤ w && s.dev.beat.s ≤ n) = true := by
      simp only [Bool.and_eq_true, decide_eq_true_eq]; omega
    simp only [execDroneRealign, hto, if_neg refused, Device.event_eq, Device.refuseRealign, beq_iff_eq] at run
    exact .of_exec run ⟨rfl, rfl, rfl, rfl⟩
  · have member : s.dev.drone.rootLike = false := by simp [Drone.rootLike, root, standby]
    simp [Device.realignTo, on, pending, member]
  · intro n root good word
    simp [Device.realignTo, on, pending, s.dev.drone.rootLike_iff.2 root, good, word]

/-- Settles O13: the guard of R61 at its bounds, and below them. -/
theorem standbyTakesOver : Obligations.StandbyTakesOver := by
  refine ⟨fun s on notShadow role pending bad good => ?_, fun s short => ?_⟩
  · refine .of_exec rfl ?_
    have takes : (s.dev.droned && s.dev.drone.role == 2 && s.dev.drone.realign == 0 && 64 ≤ s.dev.drone.rootBad
        && 64 ≤ s.dev.drone.ownGood) = true := by
      simp [(Device.droned_iff _).2 ⟨on, notShadow⟩, role, pending, bad, good]
    dsimp only
    rw [if_pos takes]
    exact ⟨rfl, rfl, rfl, rfl, rfl, rfl⟩
  · refine .of_exec rfl ?_
    have stays : ¬ (s.dev.droned && s.dev.drone.role == 2 && s.dev.drone.realign == 0 && 64 ≤ s.dev.drone.rootBad
        && 64 ≤ s.dev.drone.ownGood) = true := by
      simp only [Bool.and_eq_true, decide_eq_true_eq]; omega
    dsimp only
    rw [if_neg stays]

end Sys2Proof.Machine

/-! PROOFS about reset, loss of power and the test access port (R546, R550, R584, R590, R607): what each row leaves is the state of
reset with what survives written in. -/

namespace Sys2Proof.Machine

open Sys2Proof

/-- The record of a hot sensor: the cause by its die. -/
theorem hotUnit_cause (n : Nat) : (hotUnit n).1 = if n = 0 then 4 else if n ≤ 4 then 2 else 3 := by
  unfold hotUnit
  split
  · rfl
  · split <;> rfl

/-- The rails that thermal shutdown turns off: all but VHUB and VIO (R607). -/
theorem mem_railsOff (r : Nat) (h : r < 26) :
    r ∈ [0, 1, 2, 3, 4] ++ (List.range 19).map (fun i => 7 + i) ↔ r ≠ 5 ∧ r ≠ 6 := by
  interval_cases r <;> decide

/-- Settles O45, row by row. -/
theorem resetAndPower : Obligations.ResetAndPower := by
  refine ⟨fun s => .of_exec rfl ?_, fun seat addr s h => ?_, fun seat addr s h => ?_, fun s => .of_exec rfl ?_,
    fun n s sensor h1 h2 => ?_⟩
  · exact ⟨⟨rfl, rfl, rfl, rfl, rfl, rfl, rfl, rfl, rfl, rfl, rfl, rfl⟩, rfl, rfl, rfl, rfl, rfl, rfl, rfl⟩
  · refine .of_exec rfl ?_
    dsimp only
    rw [if_neg (by simp [h])]
    exact ⟨rfl, rfl, rfl, rfl, rfl, rfl⟩
  · refine .of_exec rfl ?_
    dsimp only
    rw [if_pos (by simpa using h)]
  · exact ⟨⟨rfl, rfl, rfl, rfl, rfl, rfl, rfl, rfl, rfl, rfl, rfl, rfl⟩, rfl, rfl, rfl, rfl, rfl, rfl⟩
  · have run : exec (.thermalShutdown n) s = execThermalShutdown n s := rfl
    rw [execThermalShutdown, if_pos (by simpa using sensor)] at run
    refine .of_exec run ?_
    dsimp only
    rw [if_neg (by simp [h1, h2]), ← hotUnit_cause, Device.log_eq]
    exact ⟨⟨rfl, rfl, rfl, rfl, rfl, rfl, rfl, rfl, rfl, rfl, rfl, rfl⟩, rfl, mem_railsOff, rfl, rfl⟩

/-- Bits [31:28] of the IDCODE hold the stepping's letter above the fixed part. -/
theorem idcode_fields (letter : Nat) (h : letter < 16) :
    bits (0x09400B47 + letter * 2 ^ 28) 0 28 = 0x9400B47 ∧ bits (0x09400B47 + letter * 2 ^ 28) 28 4 = letter := by
  simp only [bits]; omega

/-- Settles O46: every row writes the instruction and its register, and draws a free value where the order is not stated. -/
theorem testPort : Obligations.TestPort := by
  intro s
  refine ⟨?bypass, fun b0 => ?b0, ?idcode, ?sample, fun high => ?high, fun low => ?low⟩
  case bypass => refine .of_exec rfl ?_; rfl
  case b0 =>
    refine .of_exec rfl ?_
    dsimp only
    rw [b0]
    rfl
  case idcode =>
    refine .of_exec rfl ?_
    exact ⟨rfl, idcode_fields _ (Nat.mod_lt _ (by decide))⟩
  case sample =>
    refine .of_exec rfl ?_
    exact ⟨rfl, rfl⟩
  case high =>
    refine ⟨.of_exec rfl ?_, .of_exec rfl ?_, .of_exec rfl ?_⟩ <;> dsimp only [Device.jtagInReset] <;> rw [if_pos high] <;> rfl
  case low =>
    have low : ¬ s.dev.pins.resetN = true := by simp [low]
    refine ⟨.of_exec rfl ?_, .of_exec rfl ?_, .of_exec rfl ?_⟩ <;> dsimp only [Device.jtagInReset] <;> rw [if_neg low] <;> rfl

end Sys2Proof.Machine

/-! PROOFS about void, integer results and exact sums (R100 to R105, R118, R139, R221). A void operand decides the match of each
operation; the extremes of a vector follow from what the code of a rounded value can be; an exact sum is a fold of a commutative
addition. -/

namespace Sys2Proof.Machine

set_option Elab.async false

open Sys2Proof

/-! ### Operations on void operands -/

/-- Of two operands one is void: the first is, or the first is a value and the second is void. -/
theorem void_cases {x y : Num} (h : x = none ∨ y = none) : x = none ∨ ∃ a, x = some a ∧ y = none := by
  cases x with
  | none => exact .inl rfl
  | some a => exact .inr ⟨a, rfl, by simpa using h⟩

theorem tb2_void {a b : Nat} (h : Fmt.tb32.read a = none ∨ Fmt.tb32.read b = none) (r : Rnd) (g : Ex → Ex → Ex) :
    tb2 a b r g = (Fmt.tb32.voidCode, 0) := by
  obtain ha | ⟨x, ha, hb⟩ := void_cases h
  · simp only [tb2, ha]
  · simp only [tb2, ha, hb]

theorem opAdd_void {e : VEnv} (ty : e.f.ty = 0) (neg : Bool) (i : Nat) {a b : Nat}
    (h : Fmt.tb32.read a = none ∨ Fmt.tb32.read b = none) : opAdd e neg i a b = (Fmt.tb32.voidCode, 0) := by
  rw [opAdd, if_neg (by omega), tb2_void h]

theorem opMul_void {e : VEnv} (ty : e.f.ty = 0) (i : Nat) {a b : Nat}
    (h : Fmt.tb32.read a = none ∨ Fmt.tb32.read b = none) : opMul e i a b = (Fmt.tb32.voidCode, 0) := by
  rw [opMul, if_neg (by omega), tb2_void h]

theorem opDiv_void {e : VEnv} (ty : e.f.ty = 0) (i : Nat) {a b : Nat}
    (h : Fmt.tb32.read a = none ∨ Fmt.tb32.read b = none) : opDiv e i a b = (Fmt.tb32.voidCode, 0) := by
  rw [opDiv, if_neg (by omega)]
  obtain ha | ⟨x, ha, hb⟩ := void_cases h
  · simp only [ha]
  · simp only [ha, hb]

theorem opFma_void (e : VEnv) (i : Nat) {a b c : Nat}
    (h : Fmt.tb32.read a = none ∨ Fmt.tb32.read b = none ∨ Fmt.tb32.read c = none) :
    opFma e i a b c = (Fmt.tb32.voidCode, 0) := by
  unfold opFma
  split
  next ha hb hc => simp [ha, hb, hc] at h
  next => rfl

theorem twoSum_void {a b : Nat} (h : Fmt.tb32.read a = none ∨ Fmt.tb32.read b = none) :
    twoSum a b = ((Fmt.tb32.voidCode, 0), (Fmt.tb32.voidCode, 0)) := by
  obtain ha | ⟨x, ha, hb⟩ := void_cases h
  · simp only [twoSum, ha]
  · simp only [twoSum, ha, hb]

theorem twoProd_void {a b : Nat} (h : Fmt.tb32.read a = none ∨ Fmt.tb32.read b = none) :
    twoProd a b = ((Fmt.tb32.voidCode, 0), (Fmt.tb32.voidCode, 0)) := by
  obtain ha | ⟨x, ha, hb⟩ := void_cases h
  · simp only [twoProd, ha]
  · simp only [twoProd, ha, hb]

/-- R102 and R100: a quotient by zero. -/
theorem opDiv_zero {e : VEnv} (ty : e.f.ty = 0) (i : Nat) {a b : Nat} {x y : Ex} (ha : Fmt.tb32.read a = some x)
    (hb : Fmt.tb32.read b = some y) (zero : y.isZero = true) :
    opDiv e i a b = if x.isZero then (Fmt.tb32.voidCode, flagInv) else (Fmt.tb32.signedMax x.neg, flagDivz) := by
  simp only [opDiv, ty, Nat.zero_ne_one, if_false, ha, hb, zero, if_true]

/-! ### The codes of rounded values -/

/-- A TB32 code is void exactly when its bits below the sign are all ones (R96). -/
theorem read_tb32_eq_none (c : Nat) : Fmt.tb32.read c = none ↔ c % 2 ^ 31 = 2 ^ 31 - 1 := by
  simp only [Fmt.read, Fmt.isInt, Fmt.hasVoid, Fmt.eBits, Fmt.mBits, Bool.false_eq_true, if_false, Bool.true_and,
    Bool.and_eq_true, beq_iff_eq, bits]
  split
  next h => simp only [reduceCtorEq, false_iff]; omega
  next h =>
    split
    next h => simp only [true_iff]; omega
    next h => simp only [reduceCtorEq, false_iff]; omega

theorem tb32_maxCode : Fmt.tb32.maxCode = 2 ^ 31 - 2 := rfl

theorem signedMax_tb32_mod (neg : Bool) : ¬ Fmt.tb32.signedMax neg % 2 ^ 31 = 2 ^ 31 - 1 := by
  rw [Fmt.signedMax, tb32_maxCode]
  cases neg <;> norm_num [Fmt.width]

theorem read_tb32_voidCode : Fmt.tb32.read Fmt.tb32.voidCode = none := by
  rw [read_tb32_eq_none]
  norm_num [Fmt.voidCode, Fmt.width]

/-- A rounded value is not void (R109). -/
theorem read_roundFloat_ne_none (x : Ex) (r : Rnd) : Fmt.tb32.read (Fmt.tb32.roundFloat x r).1 ≠ none := by
  rw [Ne, read_tb32_eq_none]
  unfold Fmt.roundFloat
  split
  · norm_num
  · dsimp only
    generalize ((_ : Int) + _).toNat * 2 ^ Fmt.tb32.mBits + _ = c
    split
    · norm_num
    · split
      next => simp only [signedMax_tb32_mod x.neg, not_false_eq_true]
      next small =>
        rw [tb32_maxCode] at small
        dsimp only [Fmt.width]
        split <;> omega

theorem canon_tb32_of_void {c : Nat} (h : Fmt.tb32.read c = none) : canon .tb32 c = Fmt.tb32.voidCode := by
  simp only [canon, h, Fmt.round, Fmt.hasVoid, if_true]

theorem read_canon_tb32 (c : Nat) : Fmt.tb32.read (canon .tb32 c) = none ↔ Fmt.tb32.read c = none := by
  cases h : Fmt.tb32.read c with
  | none => simp only [canon_tb32_of_void h, read_tb32_voidCode]
  | some x =>
    simp only [reduceCtorEq, iff_false]
    simp only [canon, h, Fmt.round, Fmt.isInt, Bool.false_eq_true, if_false]
    exact read_roundFloat_ne_none x .near

theorem canon_tb32_eq_voidCode (c : Nat) : canon .tb32 c = Fmt.tb32.voidCode ↔ Fmt.tb32.read c = none := by
  refine ⟨fun h => ?_, canon_tb32_of_void⟩
  rw [← read_canon_tb32, h, read_tb32_voidCode]

/-! ### The extremes of a vector (R105) -/

theorem read_maxCodeOf (a b : Nat) :
    Fmt.tb32.read (maxCodeOf .tb32 a b) = none ↔ Fmt.tb32.read a = none ∨ Fmt.tb32.read b = none := by
  rw [maxCodeOf, read_canon_tb32]
  cases ha : Fmt.tb32.read a with
  | none => simp [numLt, ha]
  | some x =>
    cases hb : Fmt.tb32.read b with
    | none => simp [numLt, hb]
    | some y => by_cases lt : x.lt y = true <;> simp [numLt, lt, ha, hb]

theorem read_minCodeOf (a b : Nat) :
    Fmt.tb32.read (minCodeOf .tb32 a b) = none ↔ Fmt.tb32.read a = none ∧ Fmt.tb32.read b = none := by
  rw [minCodeOf, read_canon_tb32]
  cases hb : Fmt.tb32.read b with
  | none => cases ha : Fmt.tb32.read a <;> simp [numLt, ha]
  | some y =>
    cases ha : Fmt.tb32.read a with
    | none => simp [numLt, hb]
    | some x => by_cases lt : y.lt x = true <;> simp [numLt, lt, ha, hb]

/-- The extreme of the first n + 1 lanes. -/
def extremeOf (max : Bool) (v : Vec) : Nat → Nat
  | 0 => canon .tb32 (lane v 0)
  | n + 1 => if max then maxCodeOf .tb32 (extremeOf max v n) (lane v (n + 1))
    else minCodeOf .tb32 (extremeOf max v n) (lane v (n + 1))

theorem opRext_tb32 {e : VEnv} (ty : e.f.ty = 0) (max : Bool) (v : Vec) : opRext e max v = extremeOf max v 127 := by
  have fmt : e.fmt = .tb32 := by simp [VEnv.fmt, ty]
  rw [opRext, fmt]
  generalize 127 = n
  induction n with
  | zero => rfl
  | succ n ih => rw [List.range_succ, List.foldl_append, ih]; rfl

theorem extremeOf_eq_voidCode (max : Bool) (v : Vec) (n : Nat) :
    extremeOf max v n = Fmt.tb32.voidCode ↔ Fmt.tb32.read (extremeOf max v n) = none := by
  cases n with
  | zero => rw [extremeOf, canon_tb32_eq_voidCode, read_canon_tb32]
  | succ n =>
    rw [extremeOf]
    split
    · rw [maxCodeOf, canon_tb32_eq_voidCode, read_canon_tb32]
    · rw [minCodeOf, canon_tb32_eq_voidCode, read_canon_tb32]

theorem read_extremeOf_max (v : Vec) (n : Nat) :
    Fmt.tb32.read (extremeOf true v n) = none ↔ ∃ j, j < n + 1 ∧ Fmt.tb32.read (lane v j) = none := by
  induction n with
  | zero => simp [extremeOf, read_canon_tb32]
  | succ n ih =>
    rw [extremeOf, if_pos rfl, read_maxCodeOf, ih, Nat.exists_lt_succ_right (n := n + 1)]

theorem read_extremeOf_min (v : Vec) (n : Nat) :
    Fmt.tb32.read (extremeOf false v n) = none ↔ ∀ j, j < n + 1 → Fmt.tb32.read (lane v j) = none := by
  induction n with
  | zero => simp [extremeOf, read_canon_tb32]
  | succ n ih =>
    rw [extremeOf, if_neg Bool.false_ne_true, read_minCodeOf, ih, Nat.forall_lt_succ_right (n := n + 1)]

theorem opRext_max_eq_voidCode {e : VEnv} (ty : e.f.ty = 0) (v : Vec) :
    opRext e true v = Fmt.tb32.voidCode ↔ ∃ j, j < 128 ∧ Fmt.tb32.read (lane v j) = none := by
  rw [opRext_tb32 ty, extremeOf_eq_voidCode, read_extremeOf_max]

theorem opRext_min_eq_voidCode {e : VEnv} (ty : e.f.ty = 0) (v : Vec) :
    opRext e false v = Fmt.tb32.voidCode ↔ ∀ j, j < 128 → Fmt.tb32.read (lane v j) = none := by
  rw [opRext_tb32 ty, extremeOf_eq_voidCode, read_extremeOf_min]

/-! ### Integer results (Table 4-5) -/

theorem ofSigned_lt (x : Int) : ofSigned x 32 < 2 ^ 32 := by
  rw [ofSigned_eq_toNat]
  exact BitVec.isLt _

/-- The bits of a value read as signed are the value modulo 2^32. -/
theorem toSigned_ofSigned (x : Int) : toSigned (ofSigned x 32) 32 = x.bmod (2 ^ 32) := by
  rw [ofSigned_eq_toNat, toSigned_toNat, BitVec.toInt_ofInt]

theorem toSigned_ofSigned_of_fits {x : Int} (lo : -(2 ^ 31 : Int) ≤ x) (hi : x < 2 ^ 31) :
    toSigned (ofSigned x 32) 32 = x := by
  rw [toSigned_ofSigned]
  exact Int.bmod_eq_of_le (by simpa using lo) (by simpa using hi)

theorem toSigned_ofSigned_sub_emod (x : Int) : (toSigned (ofSigned x 32) 32 - x) % (2 ^ 32 : Int) = 0 := by
  rw [toSigned_ofSigned, Int.bmod_def]
  split <;> omega

/-- The wrapped or saturated result of Table 4-5, with its flag. -/
theorem hnResult_table (sat : Bool) (x : Int) :
    (hnResult sat x).1 < 2 ^ 32
    ∧ (if -(2 ^ 31 : Int) ≤ x ∧ x < 2 ^ 31 then toSigned (hnResult sat x).1 32 = x ∧ (hnResult sat x).2 = 0
      else (hnResult sat x).2 = flagOvf
        ∧ (if sat then toSigned (hnResult sat x).1 32 = (if x < 0 then -(2 ^ 31 : Int) else 2 ^ 31 - 1)
          else (toSigned (hnResult sat x).1 32 - x) % (2 ^ 32 : Int) = 0)) := by
  have lim : ((2 ^ 31 : Nat) : Int) = 2 ^ 31 := by norm_num
  have least : toSigned (ofSigned (-(2 ^ 31)) 32) 32 = -(2 ^ 31) := toSigned_ofSigned_of_fits (by norm_num) (by norm_num)
  have most : toSigned (ofSigned (2 ^ 31 - 1) 32) 32 = 2 ^ 31 - 1 := toSigned_ofSigned_of_fits (by norm_num) (by norm_num)
  unfold hnResult
  dsimp only
  rw [lim]
  split
  next low =>
    have out : ¬ (-(2 ^ 31 : Int) ≤ x ∧ x < 2 ^ 31) := by omega
    have neg : x < 0 := by omega
    rw [if_neg out]
    cases sat with
    | true =>
      simp only [if_true, if_pos neg, least, and_true]
      exact ofSigned_lt _
    | false => exact ⟨ofSigned_lt _, rfl, toSigned_ofSigned_sub_emod x⟩
  next notLow =>
    split
    next high =>
      have out : ¬ (-(2 ^ 31 : Int) ≤ x ∧ x < 2 ^ 31) := by omega
      have pos : ¬ x < 0 := by omega
      rw [if_neg out]
      cases sat with
      | true =>
        simp only [if_true, if_neg pos, most, and_true]
        exact ofSigned_lt _
      | false => exact ⟨ofSigned_lt _, rfl, toSigned_ofSigned_sub_emod x⟩
    next notHigh =>
      have fits : -(2 ^ 31 : Int) ≤ x ∧ x < 2 ^ 31 := by omega
      rw [if_pos fits]
      exact ⟨ofSigned_lt _, toSigned_ofSigned_of_fits fits.1 fits.2, rfl⟩

/-! ### Exact sums -/

/-- The addition that `xaddSum` folds. -/
def XAdd.plus (a b : XAdd) : XAdd := (a.1 + b.1, a.2.1 || b.2.1, a.2.2.1 || b.2.2.1, a.2.2.2 || b.2.2.2)

theorem XAdd.plus_right_comm (a b c : XAdd) : (a.plus b).plus c = (a.plus c).plus b := by
  simp only [XAdd.plus, Int.add_right_comm, Bool.or_right_comm]

theorem xaddSum_perm {l m : List XAdd} (h : l.Perm m) : xaddSum l = xaddSum m :=
  h.foldl_eq (f := XAdd.plus) (rcomm := ⟨XAdd.plus_right_comm⟩) _

/-- The adds of a Canonical sum are the lanes read one by one. -/
theorem map_xaddOf_lanes (f : Fmt) {v : Vec} (h : v.length = 128) :
    (List.range 128).map (fun i => xaddOf (f.read (lane v i)) 0 false) = v.map (fun x => xaddOf (f.read x.1.toNat) 0 false) := by
  refine List.ext_getElem (by simp [h]) fun i hi hj => ?_
  have inside : i < v.length := by simpa using hj
  simp [lane, nth, List.getElem?_eq_getElem inside]

theorem opRsum_canonical {e : VEnv} (h : e.canonical = true) {v : Vec} (len : v.length = 128) :
    opRsum e v = (XAcc.reset.addX (xaddSum (v.map (fun x => xaddOf (e.fmt.read x.1.toNat) 0 false)))).readOut e.fmt
      (e.rnd e.f.idx) := by
  rw [opRsum, if_pos h, map_xaddOf_lanes e.fmt len]

/-- Two adds leave the sum of both as a 576-bit word. -/
theorem XAcc.addX_addX_v (x : XAcc) (p q : XAdd) : ((x.addX p).addX q).v = x.v + BitVec.ofInt 576 p.1 + BitVec.ofInt 576 q.1 := by
  simp only [XAcc.addX, BitVec.ofInt_add, BitVec.ofInt_toInt]

/-! ### The obligations -/

/-- Settles O31: each operation takes its void branch, the quotients and roots of R100 and R102 theirs, and an extreme is void by
the lanes that are. -/
theorem voidPropagates : Obligations.VoidPropagates := by
  intro e i a b c ty
  refine ⟨fun h => ?_, fun h => ⟨?_, ?_, fun op => ?_⟩, fun x y ha hb zero => opDiv_zero ty i ha hb zero,
    fun x ha nz neg => ⟨?_, ?_, ?_⟩, fun v => ⟨(opRext_max_eq_voidCode ty v).2, (opRext_min_eq_voidCode ty v).2, ?_⟩⟩
  · have three : Fmt.tb32.read a = none ∨ Fmt.tb32.read b = none ∨ Fmt.tb32.read c = none := by tauto
    exact ⟨opAdd_void ty _ i h, opAdd_void ty _ i h, opMul_void ty i h, opDiv_void ty i h, opFma_void e i three,
      opFma_void e i (.inr h), twoSum_void h, twoProd_void h⟩
  · simp only [opSqrt, h]
  · simp only [opNeg, h, ty, Nat.zero_ne_one, if_false]
  · simp only [opTrans, h]
  · simp [opSqrt, ha, nz, neg]
  · simp [opTrans, ha, nz, neg]
  · simp [opTrans, ha, nz, neg]
  · rintro ⟨j, hj, some⟩ void
    exact some ((opRext_min_eq_voidCode ty v).1 void j hj)

/-- Settles O33: every operation is `hnResult` of its exact result. -/
theorem integerArithmetic : Obligations.IntegerArithmetic := by
  intro e i a b ty
  simp only [opAdd, opMul, opNeg, opDiv, hnDiv, ty, if_true, Bool.false_eq_true, if_false]
  refine ⟨hnResult_table _ _, hnResult_table _ _, hnResult_table _ _, hnResult_table _ _, fun nz => ?_, fun zero => ?_⟩
  · rw [if_neg nz]
    exact hnResult_table _ _
  · rw [if_pos zero]

/-- Settles O38: the sum of the lanes and the sums of two adds are sums of a commutative addition. -/
theorem exactSumsCommute : Obligations.ExactSumsCommute := by
  refine ⟨fun e a b canonical len perm => ?_, fun l m perm => xaddSum_perm perm, fun x p q => ⟨?_, ?_⟩⟩
  · rw [opRsum_canonical canonical len, opRsum_canonical canonical (perm.length_eq ▸ len), xaddSum_perm (perm.map _)]
  · rw [XAcc.addX_addX_v, XAcc.addX_addX_v, add_right_comm]
  · exact Bool.or_right_comm _ _ _

end Sys2Proof.Machine

/-! PROOFS about protected memories and the scrubbers (R248 to R258, R288, R538). A table after a fold of writes reads as the last
write of its key; a scrubber is a fold of one step on words, each of which changes its own word alone. -/

namespace Sys2Proof.Machine

set_option Elab.async false

open Sys2Proof

/-! ### Tables and units -/

theorem Sparse.get_foldl_set {α : Type} [DecidableEq α] (d : α) (l : List Nat) (v : Nat → α) (m : Sparse α) (i : Nat) :
    Sparse.get d (l.foldl (fun p k => Sparse.set d p k (v k)) m) i = if i ∈ l then v i else Sparse.get d m i := by
  induction l generalizing m with
  | nil => simp
  | cons k l ih =>
    rw [List.foldl_cons, ih, Sparse.get_set]
    by_cases here : i = k
    · simp [here]
    · simp [here]

/-- A key that a table does not list reads as unlisted. -/
theorem Sparse.get_of_not_mem {α : Type} (d : α) {m : Sparse α} {i : Nat} (h : i ∉ m.map (·.1)) : Sparse.get d m i = d := by
  induction m with
  | nil => rfl
  | cons e r ih =>
    obtain ⟨j, v⟩ := e
    simp only [List.map_cons, List.mem_cons, not_or] at h
    rw [Sparse.get, if_neg (Ne.symm h.1), ih h.2]

/-- The units that a range touches. -/
theorem mem_unitsOf {u : Nat} (hu : 0 < u) {a n i : Nat} :
    i ∈ unitsOf u a n ↔ 0 < n ∧ i * u < a + n ∧ a < i * u + u := by
  unfold unitsOf
  split
  next none => simp [none]
  next some =>
    have pos : 0 < n := Nat.pos_of_ne_zero some
    have mem : i ∈ (List.range ((a + n - 1) / u + 1 - a / u)).map (fun j => a / u + j) ↔ a / u ≤ i ∧ i ≤ (a + n - 1) / u := by
      simp only [List.mem_map, List.mem_range]
      exact ⟨by rintro ⟨j, hj, rfl⟩; omega, fun ⟨lo, hi⟩ => ⟨i - a / u, by omega, by omega⟩⟩
    rw [mem, Nat.le_div_iff_mul_le hu, ← Nat.lt_succ_iff, Nat.div_lt_iff_lt_mul hu, Nat.succ_mul]
    omega

theorem mem_unitsOf_div {u : Nat} (hu : 0 < u) {a n j : Nat} (hj : j < n) : (a + j) / u ∈ unitsOf u a n := by
  rw [mem_unitsOf hu]
  have low := Nat.div_mul_le_self (a + j) u
  have high := Nat.lt_div_mul_add hu (a := a + j)
  omega

/-! ### What a write makes of a word -/

/-- Does a write of data at a put marked bytes into word i of u bytes? -/
def marksIn (u a : Nat) (data : List (BitVec 8 × Bool)) (i : Nat) : Prop :=
  ∃ j, j < data.length ∧ (a + j) / u = i ∧ (nth data j (0, false)).2 = true

theorem any_marks_iff {u : Nat} (hu : 0 < u) (a : Nat) (data : List (BitVec 8 × Bool)) (i : Nat) :
    (List.range u).any (fun j => decide (a ≤ i * u + j) && decide (i * u + j < a + data.length)
      && (nth data (i * u + j - a) (0, false)).2) = true ↔ marksIn u a data i := by
  simp only [List.any_eq_true, List.mem_range, Bool.and_eq_true, decide_eq_true_eq, marksIn]
  constructor
  · rintro ⟨j, hj, ⟨lo, hi⟩, marked⟩
    refine ⟨i * u + j - a, by omega, ?_, marked⟩
    rw [Nat.add_sub_cancel' lo, Nat.mul_comm, Nat.mul_add_div hu, Nat.div_eq_of_lt hj, Nat.add_zero]
  · rintro ⟨j, hj, rfl, marked⟩
    have split := Nat.div_add_mod' (a + j) u
    exact ⟨(a + j) % u, Nat.mod_lt _ hu, by omega, by rwa [split, Nat.add_sub_cancel_left]⟩

/-- Does a write of n bytes at a cover word i of u bytes? -/
def coversWord (u a n i : Nat) : Bool := decide (a ≤ i * u) && decide (i * u + u ≤ a + n)

theorem Mem.write_ecc (m : Mem) {u : Nat} (a : Nat) (data : List (BitVec 8 × Bool)) (i : Nat) :
    Sparse.get 0 (m.write u a data).mem.ecc i = if i ∈ unitsOf u a data.length then 0 else Sparse.get 0 m.ecc i :=
  Sparse.get_foldl_set 0 _ (fun _ => 0) _ _

theorem Mem.write_poison (m : Mem) {u : Nat} (hu : 0 < u) (a : Nat) (data : List (BitVec 8 × Bool)) (i : Nat) :
    Sparse.get false (m.write u a data).mem.poison i = true ↔
      if i ∈ unitsOf u a data.length then
        marksIn u a data i ∨ (coversWord u a data.length i = false
          ∧ (Sparse.get false m.poison i = true ∨ Sparse.get 0 m.ecc i = 2))
      else Sparse.get false m.poison i = true := by
  have fold := Sparse.get_foldl_set false (unitsOf u a data.length) (fun i =>
    (List.range u).any (fun j => decide (a ≤ i * u + j) && decide (i * u + j < a + data.length)
      && (nth data (i * u + j - a) (0, false)).2)
    || (!coversWord u a data.length i && (Sparse.get false m.poison i || Sparse.get 0 m.ecc i == 2))) m.poison i
  refine (Bool.eq_iff_iff.1 fold).trans ?_
  split
  · rw [Bool.or_eq_true, any_marks_iff hu]
    simp only [Bool.and_eq_true, Bool.not_eq_true', Bool.or_eq_true, beq_iff_eq]
  · exact Iff.rfl

/-! ### What a read makes of a word -/

/-- The words of a range that hold an uncorrectable error. -/
def Mem.uncorrectable (m : Mem) (u a n : Nat) : List Nat := (unitsOf u a n).filter (fun i => Sparse.get 0 m.ecc i == 2)

theorem Mem.read_poison (m : Mem) (u a n i : Nat) :
    Sparse.get false (m.read u a n).mem.poison i = if i ∈ m.uncorrectable u a n then true else Sparse.get false m.poison i :=
  Sparse.get_foldl_set false _ (fun _ => true) _ _

theorem Mem.read_ecc (m : Mem) (u a n i : Nat) :
    Sparse.get 0 (m.read u a n).mem.ecc i = if i ∈ m.uncorrectable u a n then 0 else Sparse.get 0 m.ecc i :=
  Sparse.get_foldl_set 0 _ (fun _ => 0) _ _

theorem Mem.mem_uncorrectable (m : Mem) (u a n i : Nat) :
    i ∈ m.uncorrectable u a n ↔ i ∈ unitsOf u a n ∧ Sparse.get 0 m.ecc i = 2 := by
  simp [Mem.uncorrectable]

theorem Mem.read_nth (m : Mem) {u : Nat} (hu : 0 < u) {a n j : Nat} (hj : j < n) :
    nth (m.read u a n).data j (0, false) = (Sparse.get 0 m.bytes (a + j),
      Sparse.get false m.poison ((a + j) / u) || Sparse.get 0 m.ecc ((a + j) / u) == 2) := by
  have data : nth (m.read u a n).data j (0, false)
      = (Sparse.get 0 m.bytes (a + j), Sparse.get false (m.read u a n).mem.poison ((a + j) / u)) := by
    simp [Mem.read, nth, hj]
  rw [data, Mem.read_poison]
  simp only [Mem.mem_uncorrectable, mem_unitsOf_div hu hj, true_and]
  by_cases bad : Sparse.get 0 m.ecc ((a + j) / u) = 2 <;> simp [bad]

/-- Settles O51, by the words that a write and a read touch. -/
theorem protectedMemory : Obligations.ProtectedMemory := by
  intro m u a data hu wf
  have touched (i : Nat) := mem_unitsOf hu (a := a) (n := data.length) (i := i)
  refine ⟨m.write_wf u a data wf, fun j hj => ?_, fun x hx => m.write_outside u a x data hx, fun i lo hi => ?_,
    fun i part lo hi some => ?_, fun i out => ?_, fun n => ⟨m.read_wf u a n wf, rfl, ?_, fun j hj => m.read_nth hu hj,
    fun i hi lo pos bad => ?_⟩⟩
  · rw [Mem.write_bytes, Sparse.get_setMany_inside _ _ _ _ _ (by simpa using hj)]
    simp [nth, hj]
  · have covers : coversWord u a data.length i = true := by simp [coversWord, lo, hi]
    rw [Mem.write_ecc, Mem.write_poison m hu, if_pos ((touched i).2 (by omega)), if_pos ((touched i).2 (by omega)), covers]
    simp [marksIn]
  · have pos : 0 < data.length := List.length_pos_iff.2 some
    have covers : coversWord u a data.length i = false := by
      simp only [coversWord, Bool.and_eq_false_iff, decide_eq_false_iff_not]; omega
    rw [Mem.write_ecc, Mem.write_poison m hu, if_pos ((touched i).2 ⟨pos, lo, hi⟩), if_pos ((touched i).2 ⟨pos, lo, hi⟩), covers]
    simp [marksIn]
  · have untouched : i ∉ unitsOf u a data.length := by
      rw [touched]
      rintro ⟨pos, lo, hi⟩
      obtain out | out | rfl := out
      · omega
      · omega
      · simp at pos
    rw [Mem.write_ecc, if_neg untouched, Bool.eq_iff_iff, Mem.write_poison m hu, if_neg untouched]
    exact ⟨rfl, Iff.rfl⟩
  · simp [Mem.read]
  · have mem : i ∈ m.uncorrectable u a n := (m.mem_uncorrectable u a n i).2 ⟨(mem_unitsOf hu).2 ⟨pos, hi, lo⟩, bad⟩
    rw [Mem.read_ecc, Mem.read_poison, if_pos mem, if_pos mem]
    exact ⟨rfl, rfl⟩

/-! ### One scrub step on a word (Table 10-7, R538) -/

/-- What the scrubber makes of word i of u bytes. -/
def Mem.scrubStep (m : Mem) (u : Nat) (live : Nat → Bool) (clean : Bool) (i : Nat) : Mem :=
  match Sparse.get 0 m.ecc i with
  | 0 => if Sparse.get false m.poison i && !live i && clean then m.zeroWord u i else m
  | 1 => m.fixWord i
  | _ => if live i then m.markWord i else m.zeroWord u i

theorem Mem.sameWord_refl (m : Mem) (u i : Nat) : m.sameWord m u i := ⟨fun _ _ => rfl, rfl, rfl⟩

theorem Mem.sameWord_trans {m n o : Mem} {u i : Nat} (h : m.sameWord n u i) (h' : n.sameWord o u i) : m.sameWord o u i :=
  ⟨fun j hj => (h'.1 j hj).trans (h.1 j hj), h'.2.1.trans h.2.1, h'.2.2.trans h.2.2⟩

theorem Mem.zeroWord_byte (m : Mem) (u i x : Nat) : Sparse.get 0 (m.zeroWord u i).bytes x
    = if u * i ≤ x ∧ x < u * i + u then 0 else Sparse.get 0 m.bytes x := by
  unfold Mem.zeroWord
  split
  next inside =>
    obtain ⟨j, rfl⟩ := Nat.exists_eq_add_of_le inside.1
    have hj : j < (List.replicate u (0 : BitVec 8)).length := by simp; omega
    rw [Sparse.get_setMany_inside _ _ _ _ _ hj, List.getElem_replicate]
  next outside => rw [Sparse.get_setMany_outside]; simp; omega

/-- A zeroed word is zero, without poison and without error. -/
theorem Mem.zeroWord_zeroed (m : Mem) (u i : Nat) : (m.zeroWord u i).zeroed u i := by
  refine ⟨fun j hj => ?_, by simp [Mem.zeroWord], by simp [Mem.zeroWord]⟩
  rw [Mem.zeroWord_byte, if_pos (by omega)]

theorem Mem.zeroWord_other (m : Mem) (u : Nat) {i k : Nat} (h : k ≠ i) : m.sameWord (m.zeroWord u i) u k := by
  refine ⟨fun j hj => ?_, by simp [Mem.zeroWord, Sparse.get_set, h], by simp [Mem.zeroWord, Sparse.get_set, h]⟩
  rw [Mem.zeroWord_byte, if_neg]
  rintro ⟨lo, hi⟩
  have below : k < i + 1 := Nat.lt_of_mul_lt_mul_left (a := u) (by rw [Nat.mul_succ]; omega)
  have above : i < k + 1 := Nat.lt_of_mul_lt_mul_left (a := u) (by rw [Nat.mul_succ]; omega)
  omega

/-- A step changes its own word alone. -/
theorem Mem.scrubStep_other (m : Mem) (u : Nat) (live : Nat → Bool) (clean : Bool) {i k : Nat} (h : k ≠ i) :
    m.sameWord (m.scrubStep u live clean i) u k := by
  unfold Mem.scrubStep
  split
  · split
    · exact m.zeroWord_other u h
    · exact m.sameWord_refl u k
  · exact ⟨fun _ _ => rfl, rfl, by simp [Mem.fixWord, Sparse.get_set, h]⟩
  · split
    · exact ⟨fun _ _ => rfl, by simp [Mem.markWord, Sparse.get_set, h],
        by simp [Mem.markWord, Mem.fixWord, Sparse.get_set, h]⟩
    · exact m.zeroWord_other u h

/-- The zeroed word does not depend on what stood there. -/
theorem Mem.sameWord_of_zeroed {m n : Mem} {u i : Nat} (hm : m.zeroed u i) (hn : n.zeroed u i) : m.sameWord n u i :=
  ⟨fun j hj => (hn.1 j hj).trans (hm.1 j hj).symm, hn.2.1.trans hm.2.1.symm, hn.2.2.trans hm.2.2.symm⟩

/-- What a step makes of its word depends on that word alone. -/
theorem Mem.scrubStep_congr {m n : Mem} {u i : Nat} (live : Nat → Bool) (clean : Bool) (h : m.sameWord n u i) :
    (m.scrubStep u live clean i).sameWord (n.scrubStep u live clean i) u i := by
  obtain ⟨bytes, poison, ecc⟩ := h
  have zeros := Mem.sameWord_of_zeroed (m.zeroWord_zeroed u i) (n.zeroWord_zeroed u i)
  unfold Mem.scrubStep
  rw [ecc, poison]
  split
  · split
    · exact zeros
    · exact ⟨bytes, poison, ecc⟩
  · exact ⟨bytes, poison, by simp [Mem.fixWord]⟩
  · split
    · exact ⟨bytes, by simp [Mem.markWord], by simp [Mem.markWord, Mem.fixWord]⟩
    · exact zeros

/-- A fold of steps over distinct words does each word's step, and leaves the others. -/
theorem Mem.foldl_scrubStep (u : Nat) (live : Nat → Bool) (clean : Bool) (l : List Nat) (distinct : l.Nodup) (m : Mem) (i : Nat) :
    (if i ∈ l then m.scrubStep u live clean i else m).sameWord (l.foldl (fun m k => m.scrubStep u live clean k) m) u i := by
  induction l generalizing m with
  | nil => exact m.sameWord_refl u i
  | cons k l ih =>
    obtain ⟨fresh, distinct⟩ := List.nodup_cons.1 distinct
    refine Mem.sameWord_trans ?_ (ih distinct (m.scrubStep u live clean k))
    by_cases here : i = k
    · subst here
      rw [if_pos (List.mem_cons_self), if_neg fresh]
      exact Mem.sameWord_refl _ u i
    · simp only [List.mem_cons, here, false_or]
      have same := m.scrubStep_other u live clean here
      split
      · exact Mem.scrubStep_congr live clean same
      · exact same

/-- A step has the outcome of Table 10-7. -/
theorem Mem.scrubbed_of_steps {m n : Mem} {u : Nat} {live : Nat → Bool} {clean : Bool} {hit : Nat → Prop}
    (hits : ∀ i, hit i → (m.scrubStep u live clean i).sameWord n u i) (rest : ∀ i, ¬ hit i → m.sameWord n u i) :
    m.scrubbed n u live clean hit := by
  have zeroed {i : Nat} (h : (m.zeroWord u i).sameWord n u i) : n.zeroed u i :=
    ⟨fun j hj => (h.1 j hj).trans ((m.zeroWord_zeroed u i).1 j hj), h.2.1.trans (m.zeroWord_zeroed u i).2.1,
      h.2.2.trans (m.zeroWord_zeroed u i).2.2⟩
  intro i
  refine ⟨rest i, fun h ecc poison dead on => ?_, fun h ecc keeps => ?_, fun h ecc => ?_, fun h ecc alive => ?_,
    fun h ecc dead => ?_⟩
  · have step := hits i h
    simp only [Mem.scrubStep, ecc, poison, dead, on, Bool.not_false, Bool.and_self, if_true] at step
    exact zeroed step
  · have step := hits i h
    have no : ¬ (Sparse.get false m.poison i && !live i && clean) = true := by
      obtain h | h | h := keeps <;> simp [h]
    simpa only [Mem.scrubStep, ecc, if_neg no] using step
  · have step := hits i h
    simpa only [Mem.scrubStep, ecc, Mem.fixWord] using step
  · have step := hits i h
    obtain ⟨k, hk⟩ := Nat.exists_eq_add_of_le' ecc
    simpa only [Mem.scrubStep, hk, alive, if_true] using step
  · have step := hits i h
    obtain ⟨k, hk⟩ := Nat.exists_eq_add_of_le' ecc
    simp only [Mem.scrubStep, hk, dead, Bool.false_eq_true, if_false] at step
    exact zeroed step

/-! ### Devices that differ in their books alone -/

/-- A device without its cores, its hub and its twin logic: what an error of a core's memory leaves alone. -/
def Device.besideCores (d : Device) : Device := { d with hub := Hub.reset, twin := Twin.reset, cores := [] }

/-- A device without its stacks, its hub and its twin logic: what an error of a stack leaves alone. -/
def Device.besideStacks (d : Device) : Device := { d with hub := Hub.reset, twin := Twin.reset, stackRecs := [] }

/-- A device without its hub: what a record leaves alone. -/
def Device.noHub (d : Device) : Device := { d with hub := Hub.reset }

/-- A core without its counters and its page map: what a count or a record of an error leaves alone. -/
def Core.noBooks (k : Core) : Core := { k with counters := [], pageUe := [], retired := [], marked := false }

@[simp] theorem Device.log_noHub (d : Device) (r : HealthRec) : (d.log r).noHub = d.noHub := by rw [Device.log_eq]; rfl

@[simp] theorem Device.event_noHub (d : Device) (a b c e f g : Nat) : (d.event a b c e f g).noHub = d.noHub :=
  d.log_noHub _

@[simp] theorem Device.countHub_noHub (d : Device) (i n : Nat) : (d.countHub i n).noHub = d.noHub := by
  unfold Device.countHub; split <;> rfl

theorem Device.besideCores_of_noHub {d e : Device} (h : d.noHub = e.noHub) : d.besideCores = e.besideCores :=
  congrArg (fun x : Device => ({ x with twin := Twin.reset, cores := [] } : Device)) h

theorem Device.besideStacks_of_noHub {d e : Device} (h : d.noHub = e.noHub) : d.besideStacks = e.besideStacks :=
  congrArg (fun x : Device => ({ x with twin := Twin.reset, stackRecs := [] } : Device)) h

theorem Device.core_of_noHub {d e : Device} (h : d.noHub = e.noHub) (c : Nat) : d.core c = e.core c :=
  show d.noHub.core c = e.noHub.core c from congrArg (fun x : Device => x.core c) h

@[simp] theorem Device.onCore_besideCores (d : Device) (c : Nat) (f : Core → Core) :
    (d.onCore c f).besideCores = d.besideCores := rfl

@[simp] theorem Device.countCore_besideCores (d : Device) (c i n : Nat) :
    (d.countCore c i n).besideCores = d.besideCores := by unfold Device.countCore; split <;> rfl

@[simp] theorem Device.event_besideCores (d : Device) (a b c e f g : Nat) :
    (d.event a b c e f g).besideCores = d.besideCores := Device.besideCores_of_noHub (d.event_noHub a b c e f g)

@[simp] theorem Device.onTwin_besideCores (d : Device) (f : Twin → Twin) : (d.onTwin f).besideCores = d.besideCores := rfl

@[simp] theorem Device.onStack_besideStacks (d : Device) (k : Nat) (f : Stack → Stack) :
    (d.onStack k f).besideStacks = d.besideStacks := rfl

@[simp] theorem Device.countStack_besideStacks (d : Device) (k i n : Nat) :
    (d.countStack k i n).besideStacks = d.besideStacks := by unfold Device.countStack; split <;> rfl

@[simp] theorem Device.event_besideStacks (d : Device) (a b c e f g : Nat) :
    (d.event a b c e f g).besideStacks = d.besideStacks := Device.besideStacks_of_noHub (d.event_noHub a b c e f g)

@[simp] theorem Device.onTwin_besideStacks (d : Device) (f : Twin → Twin) : (d.onTwin f).besideStacks = d.besideStacks := rfl

@[simp] theorem Device.core_log (d : Device) (r : HealthRec) (x : Nat) : (d.log r).core x = d.core x :=
  Device.core_of_noHub (d.log_noHub r) x

@[simp] theorem Device.core_event (d : Device) (a b c e f g x : Nat) : (d.event a b c e f g).core x = d.core x :=
  d.core_log _ x

theorem Device.core_countCore_other (d : Device) {c x : Nat} (i n : Nat) (h : x ≠ c) :
    (d.countCore c i n).core x = d.core x := by
  unfold Device.countCore
  split
  · rfl
  · exact d.core_onCore_other c x _ h

@[simp] theorem Device.noBooks_countCore (d : Device) (c i n : Nat) :
    ((d.countCore c i n).core c).noBooks = (d.core c).noBooks := by
  unfold Device.countCore
  split
  · rfl
  · rw [Device.core_onCore_same]; rfl

/-! ### The books of an uncorrectable error -/

@[simp] theorem Device.retirePage_besideCores (d : Device) (c g : Nat) : (d.retirePage c g).besideCores = d.besideCores := by
  unfold Device.retirePage; split <;> simp

theorem Device.core_retirePage_other (d : Device) {c x : Nat} (g : Nat) (h : x ≠ c) : (d.retirePage c g).core x = d.core x := by
  unfold Device.retirePage
  split
  · rfl
  · simp [Device.core_countCore_other _ _ _ h, Device.core_onCore_other _ _ _ _ h]

@[simp] theorem Device.noBooks_retirePage (d : Device) (c g : Nat) :
    ((d.retirePage c g).core c).noBooks = (d.core c).noBooks := by
  unfold Device.retirePage
  split
  · rfl
  · rw [Device.core_event, Device.noBooks_countCore, Device.core_onCore_same, Device.core_onCore_same]; rfl

@[simp] theorem Device.spadUe_besideCores (d : Device) (c a n : Nat) : (d.spadUe c a n).besideCores = d.besideCores := by
  unfold Device.spadUe; dsimp only; split <;> simp

theorem Device.core_spadUe_other (d : Device) {c x : Nat} (a n : Nat) (h : x ≠ c) : (d.spadUe c a n).core x = d.core x := by
  unfold Device.spadUe
  dsimp only
  split
  · rw [Device.core_retirePage_other _ _ h, Device.core_event, Device.core_onCore_other _ _ _ _ h]
  · rw [Device.core_event, Device.core_onCore_other _ _ _ _ h]

@[simp] theorem Device.noBooks_spadUe (d : Device) (c a n : Nat) : ((d.spadUe c a n).core c).noBooks = (d.core c).noBooks := by
  unfold Device.spadUe
  dsimp only
  split
  · rw [Device.noBooks_retirePage, Device.core_event, Device.core_onCore_same]; rfl
  · rw [Device.core_event, Device.core_onCore_same]; rfl

@[simp] theorem Device.retireBlock_besideStacks (d : Device) (b : Nat) : (d.retireBlock b).besideStacks = d.besideStacks := by
  unfold Device.retireBlock; dsimp only; split <;> simp

@[simp] theorem Device.dramUe_besideStacks (d : Device) (a n : Nat) : (d.dramUe a n).besideStacks = d.besideStacks := by
  unfold Device.dramUe; dsimp only; split <;> simp

end Sys2Proof.Machine

/-! PROOFS about the scrubbers (R254, R257, R283, R538; Table 10-7): each row is a fold of `Mem.scrubStep` over distinct words of one
memory, with counts and records beside it. -/

namespace Sys2Proof.Machine

set_option Elab.async false

open Sys2Proof

theorem nodup_eraseDups {α : Type} [BEq α] [LawfulBEq α] (l : List α) : l.eraseDups.Nodup := by
  induction h : l.length using Nat.strong_induction_on generalizing l with
  | _ n ih =>
    subst h
    cases l with
    | nil => simp
    | cons a l =>
      rw [List.eraseDups_cons, List.nodup_cons]
      exact ⟨by simp [List.mem_eraseDups], ih _ (Nat.lt_succ_of_le (List.length_filter_le _ _)) _ rfl⟩

/-! ### What makes a word live depends on the tasks and on the windows of the cores -/

theorem Device.boundSlots_congr {d e : Device} (tasks : e.tasks = d.tasks) : e.boundSlots = d.boundSlots := by
  have bound : e.isBound = d.isBound := by funext t; simp only [Device.isBound, Device.task, tasks]
  rw [Device.boundSlots, Device.boundSlots, bound]

theorem Device.livePage_congr {d e : Device} (tasks : e.tasks = d.tasks) {c : Nat}
    (bounds : (e.core c).bounds = (d.core c).bounds) (g : Nat) : e.livePage c g = d.livePage c g := by
  have slots : e.slotsOn c = d.slotsOn c := by
    simp only [Device.slotsOn, Device.boundSlots_congr tasks, Device.task, tasks]
  have bound : (e.core c).bound = (d.core c).bound := by funext t; simp only [Core.bound, bounds]
  simp only [Device.livePage, slots, bound]

/-- The three rows of Table 10-7: no error, a correctable one, an uncorrectable one. -/
theorem ecc_cases (e : Nat) : e = 0 ∨ e = 1 ∨ ∃ n, e = n + 2 := by
  obtain _ | _ | n := e
  · exact .inl rfl
  · exact .inr (.inl rfl)
  · exact .inr (.inr ⟨n, rfl⟩)

/-! ### The scrub cycle of a core -/

@[simp] theorem Device.scrubWord_besideCores (d : Device) (c i : Nat) : (d.scrubWord c i).besideCores = d.besideCores := by
  unfold Device.scrubWord
  dsimp only
  split
  · split <;> simp
  · simp
  · split
    · split <;> simp
    · simp

theorem Device.core_scrubWord_other (d : Device) {c x : Nat} (i : Nat) (h : x ≠ c) : (d.scrubWord c i).core x = d.core x := by
  unfold Device.scrubWord
  dsimp only
  split
  · split
    · exact d.core_onCore_other _ _ _ h
    · rfl
  · rw [Device.core_countCore_other _ _ _ h, Device.core_onCore_other _ _ _ _ h]
  · split
    · split <;> simp [Device.core_spadUe_other _ _ _ h, Device.core_countCore_other _ _ _ h, Device.core_onCore_other _ _ _ _ h]
    · simp [Device.core_spadUe_other _ _ _ h, Device.core_countCore_other _ _ _ h, Device.core_onCore_other _ _ _ _ h]

/-- The scrubber of a core does one step on a word, beside counts and records. -/
theorem Device.noBooks_scrubWord (d : Device) (c i : Nat) : ((d.scrubWord c i).core c).noBooks = ({ d.core c with
    spad := (d.core c).spad.scrubStep 8 (fun i => d.livePage c (8 * i / 4096)) true i } : Core).noBooks := by
  obtain ecc | ecc | ⟨n, ecc⟩ := ecc_cases (Sparse.get 0 (d.core c).spad.ecc i)
  · simp only [Device.scrubWord, Mem.scrubStep, ecc, Bool.and_true]
    split
    · rw [Device.core_onCore_same]; rfl
    · rfl
  · simp only [Device.scrubWord, Mem.scrubStep, ecc]
    rw [Device.noBooks_countCore, Device.core_onCore_same]; rfl
  · simp only [Device.scrubWord, Mem.scrubStep, ecc]
    split
    · rw [Device.noBooks_spadUe, Device.noBooks_countCore]
      split
      · rw [Device.core_onTwin, Device.core_onCore_same]; rfl
      · rw [Device.core_onCore_same]; rfl
    · rw [Device.noBooks_spadUe, Device.noBooks_countCore, Device.core_onCore_same]; rfl

theorem Device.noBooks_foldl_scrubWord (c : Nat) (l : List Nat) (d : Device) :
    ((l.foldl (fun d i => d.scrubWord c i) d).core c).noBooks = ({ d.core c with
      spad := l.foldl (fun m i => m.scrubStep 8 (fun i => d.livePage c (8 * i / 4096)) true i) (d.core c).spad } : Core).noBooks := by
  induction l generalizing d with
  | nil => rfl
  | cons i l ih =>
    have tasks : (d.scrubWord c i).tasks = d.tasks := (congrArg Device.tasks (d.scrubWord_besideCores c i) :)
    have bounds : ((d.scrubWord c i).core c).bounds = (d.core c).bounds := (congrArg Core.bounds (d.noBooks_scrubWord c i) :)
    have spad : ((d.scrubWord c i).core c).spad = _ := (congrArg Core.spad (d.noBooks_scrubWord c i) :)
    have rest := congrArg (fun k : Core => ({ k with spad := Mem.reset } : Core)) (d.noBooks_scrubWord c i)
    rw [List.foldl_cons, ih, spad]
    simp only [Device.livePage_congr tasks bounds]
    exact congrArg (fun k : Core => ({ k with
      spad := (i :: l).foldl (fun m i => m.scrubStep 8 (fun i => d.livePage c (8 * i / 4096)) true i) (d.core c).spad } : Core)) rest

/-- The words of row r of a bank that the scrubber of a core meets: those with an error or a mark. -/
def Mem.badWords (m : Mem) (r : Nat) : List Nat :=
  ((m.ecc.map (·.1) ++ m.poison.map (·.1)).filter (fun i => i / 512 == r)).eraseDups

theorem Mem.mem_badWords {m : Mem} {r i : Nat} :
    i ∈ m.badWords r ↔ (i ∈ m.ecc.map (·.1) ∨ i ∈ m.poison.map (·.1)) ∧ i / 512 = r := by
  simp only [Mem.badWords, List.mem_eraseDups, List.mem_filter, List.mem_append, beq_iff_eq]

/-- A word without error and mark stays under a step. -/
theorem Mem.scrubStep_of_clean {m : Mem} {i : Nat} (ecc : Sparse.get 0 m.ecc i = 0) (poison : Sparse.get false m.poison i = false)
    (u : Nat) (live : Nat → Bool) (clean : Bool) : m.scrubStep u live clean i = m := by
  simp [Mem.scrubStep, ecc, poison]

/-- The steps on the bad words of a row scrub the row. -/
theorem Mem.foldl_badWords_scrubbed (m : Mem) (live : Nat → Bool) (r : Nat) :
    m.scrubbed ((m.badWords r).foldl (fun m i => m.scrubStep 8 live true i) m) 8 live true (fun i => i / 512 = r) := by
  have fold := Mem.foldl_scrubStep 8 live true (m.badWords r) (nodup_eraseDups _) m
  refine Mem.scrubbed_of_steps (fun i hit => ?_) (fun i miss => ?_)
  · by_cases bad : i ∈ m.badWords r
    · simpa only [bad, if_true] using fold i
    · have clean : i ∉ m.ecc.map (·.1) ∧ i ∉ m.poison.map (·.1) := by
        simpa only [Mem.mem_badWords, hit, and_true, not_or] using bad
      rw [Mem.scrubStep_of_clean (Sparse.get_of_not_mem 0 clean.1) (Sparse.get_of_not_mem false clean.2)]
      simpa only [bad, if_false] using fold i
  · have out : i ∉ m.badWords r := fun bad => miss (Mem.mem_badWords.1 bad).2
    simpa only [out, if_false] using fold i

/-! ### The DRAM scrubber -/

theorem Device.liveDram_congr {d e : Device} (tasks : e.tasks = d.tasks) (cores : e.cores = d.cores) (logger : e.logger = d.logger)
    (a n : Nat) : e.liveDram a n = d.liveDram a n := by
  simp only [Device.liveDram, Device.boundSlots_congr tasks, Device.task, Device.core, tasks, cores, logger]

/-- The DRAM scrubber does one step on a sector, beside counts and records. -/
theorem Device.scrubSector_besideStacks (d : Device) (i : Nat) : (d.scrubSector i).besideStacks
    = ({ d with dram := d.dram.scrubStep 32 (fun i => d.liveDram (32 * i) 32) false i } : Device).besideStacks := by
  obtain ecc | ecc | ⟨n, ecc⟩ := ecc_cases (Sparse.get 0 d.dram.ecc i) <;>
    simp only [Device.scrubSector, Mem.scrubStep, ecc, Bool.and_false, Bool.false_eq_true, if_false]
  · rw [Device.countStack_besideStacks]
  · split
    · rw [Device.dramUe_besideStacks]; split <;> rfl
    · rw [Device.dramUe_besideStacks]

theorem Device.foldl_scrubSector (l : List Nat) (d : Device) : (l.foldl (fun d i => d.scrubSector i) d).besideStacks
    = ({ d with dram := l.foldl (fun m i => m.scrubStep 32 (fun i => d.liveDram (32 * i) 32) false i) d.dram } : Device).besideStacks := by
  induction l generalizing d with
  | nil => rfl
  | cons i l ih =>
    have step := d.scrubSector_besideStacks i
    have tasks : (d.scrubSector i).tasks = d.tasks := (congrArg Device.tasks step :)
    have cores : (d.scrubSector i).cores = d.cores := (congrArg Device.cores step :)
    have logger : (d.scrubSector i).logger = d.logger := (congrArg Device.logger step :)
    have dram : (d.scrubSector i).dram = _ := (congrArg Device.dram step :)
    have rest := congrArg (fun e : Device => ({ e with dram := Mem.reset } : Device)) step
    rw [List.foldl_cons, ih, dram]
    simp only [Device.liveDram_congr tasks cores logger]
    exact congrArg (fun e : Device => ({ e with
      dram := (i :: l).foldl (fun m i => m.scrubStep 32 (fun i => d.liveDram (32 * i) 32) false i) d.dram } : Device)) rest

theorem Device.foldl_scrubSector_fields (l : List Nat) (d : Device) :
    let e := l.foldl (fun d i => d.scrubSector i) d
    e.beat = d.beat ∧ e.staging = d.staging ∧ e.cores = d.cores
      ∧ e.dram = l.foldl (fun m i => m.scrubStep 32 (fun i => d.liveDram (32 * i) 32) false i) d.dram :=
  have beside := d.foldl_scrubSector l
  ⟨(congrArg Device.beat beside :), (congrArg Device.staging beside :), (congrArg Device.cores beside :),
    (congrArg Device.dram beside :)⟩

/-! ### The staging scrubber -/

theorem Device.liveStage_congr {d e : Device} (tasks : e.tasks = d.tasks) (cores : e.cores = d.cores) (a : Nat) :
    e.liveStage a = d.liveStage a := by
  have slots (b n : Nat) : e.stageWindowSlots b n = d.stageWindowSlots b n := by
    have task : e.task = d.task := by funext t; simp only [Device.task, tasks]
    have core : e.core = d.core := by funext c; simp only [Device.core, cores]
    rw [Device.stageWindowSlots, Device.stageWindowSlots, Device.boundSlots_congr tasks, task, core]
  rw [Device.liveStage, Device.liveStage, slots]

/-- The staging scrubber does one step on a word, beside counts and records. -/
theorem Device.scrubStage_besideStacks (d : Device) (i : Nat) : (d.scrubStage i).besideStacks
    = ({ d with staging := d.staging.scrubStep 8 (fun i => d.liveStage (8 * i)) true i } : Device).besideStacks := by
  have counted (d : Device) (i n : Nat) : (d.countHub i n).besideStacks = d.besideStacks :=
    Device.besideStacks_of_noHub (d.countHub_noHub i n)
  obtain ecc | ecc | ⟨n, ecc⟩ := ecc_cases (Sparse.get 0 d.staging.ecc i) <;>
    simp only [Device.scrubStage, Mem.scrubStep, ecc, Bool.and_true]
  · split <;> rfl
  · rw [counted]
  · split
    · rw [Device.event_besideStacks, counted]; split <;> rfl
    · rw [Device.event_besideStacks, counted]

theorem Device.foldl_scrubStage (l : List Nat) (d : Device) : (l.foldl (fun d i => d.scrubStage i) d).besideStacks
    = ({ d with staging := l.foldl (fun m i => m.scrubStep 8 (fun i => d.liveStage (8 * i)) true i) d.staging } : Device).besideStacks := by
  induction l generalizing d with
  | nil => rfl
  | cons i l ih =>
    have step := d.scrubStage_besideStacks i
    have tasks : (d.scrubStage i).tasks = d.tasks := (congrArg Device.tasks step :)
    have cores : (d.scrubStage i).cores = d.cores := (congrArg Device.cores step :)
    have staging : (d.scrubStage i).staging = _ := (congrArg Device.staging step :)
    have rest := congrArg (fun e : Device => ({ e with staging := Mem.reset } : Device)) step
    rw [List.foldl_cons, ih, staging]
    simp only [Device.liveStage_congr tasks cores]
    exact congrArg (fun e : Device => ({ e with
      staging := (i :: l).foldl (fun m i => m.scrubStep 8 (fun i => d.liveStage (8 * i)) true i) d.staging } : Device)) rest

theorem Device.foldl_scrubStage_fields (l : List Nat) (d : Device) :
    let e := l.foldl (fun d i => d.scrubStage i) d
    e.beat = d.beat ∧ e.dram = d.dram ∧ e.cores = d.cores
      ∧ e.staging = l.foldl (fun m i => m.scrubStep 8 (fun i => d.liveStage (8 * i)) true i) d.staging :=
  have beside := d.foldl_scrubStage l
  ⟨(congrArg Device.beat beside :), (congrArg Device.dram beside :), (congrArg Device.cores beside :),
    (congrArg Device.staging beside :)⟩

/-- A fold of steps scrubs the words of its list. -/
theorem Mem.foldl_scrubStep_scrubbed (m : Mem) (u : Nat) (live : Nat → Bool) (clean : Bool) {l : List Nat} (distinct : l.Nodup)
    {hit : Nat → Prop} (mem : ∀ i, i ∈ l ↔ hit i) :
    m.scrubbed (l.foldl (fun m i => m.scrubStep u live clean i) m) u live clean hit := by
  have fold := Mem.foldl_scrubStep u live clean l distinct m
  refine Mem.scrubbed_of_steps (fun i h => ?_) (fun i h => ?_)
  · simpa only [(mem i).2 h, if_true] using fold i
  · simpa only [mt (mem i).1 h, if_false] using fold i

/-- The words that the staging scrubber meets in a wall beat: eight in each of the four blocks. -/
def stageWords (n : Nat) : List Nat := (List.range 4).flatMap (fun b => (List.range 8).map (fun i => b * 8388608 + 8 * n + i))

theorem mem_stageWords {n i : Nat} (h : n < 1048576) : i ∈ stageWords n ↔ i < 4 * 8388608 ∧ i % 8388608 / 8 = n := by
  simp only [stageWords, List.mem_flatMap, List.mem_map, List.mem_range]
  constructor
  · rintro ⟨b, hb, j, hj, rfl⟩
    omega
  · rintro ⟨hi, row⟩
    exact ⟨i / 8388608, by omega, i % 8388608 % 8, by omega, by omega⟩

theorem nodup_stageWords {n : Nat} (_ : n < 1048576) : (stageWords n).Nodup := by
  rw [stageWords, List.nodup_flatMap]
  refine ⟨fun b _ => List.nodup_range.map fun i j h => by simpa using h, ?_⟩
  refine List.nodup_range.imp fun {b c} differ i hb hc => ?_
  obtain ⟨x, hx, rfl⟩ := List.mem_map.1 hb
  obtain ⟨y, hy, same⟩ := List.mem_map.1 hc
  rw [List.mem_range] at hx hy
  omega

/-- The eight sectors of one unit. -/
theorem mem_unitSectors {first i : Nat} : i ∈ (List.range 8).map (first + ·) ↔ first ≤ i ∧ i < first + 8 := by
  simp only [List.mem_map, List.mem_range]
  exact ⟨fun ⟨j, hj, e⟩ => by omega, fun h => ⟨i - first, by omega, by omega⟩⟩

theorem nodup_unitSectors (first : Nat) : ((List.range 8).map (first + ·)).Nodup :=
  List.nodup_range.map fun i j h => by simpa using h

/-! ### The places of the scrubbers -/

@[simp] theorem Device.scrub_countStack (d : Device) (j i n k : Nat) : ((d.countStack j i n).stack k).scrub = (d.stack k).scrub := by
  unfold Device.countStack
  split
  · rfl
  · by_cases h : k = j
    · subst h; rw [Device.stack_onStack_same]
    · rw [Device.stack_onStack_other _ _ _ _ h]

theorem Device.scrub_onStack (d : Device) (j k : Nat) {f : Stack → Stack} (hf : ∀ s, (f s).scrub = s.scrub) :
    ((d.onStack j f).stack k).scrub = (d.stack k).scrub := by
  by_cases h : k = j
  · subst h; rw [Device.stack_onStack_same, hf]
  · rw [Device.stack_onStack_other _ _ _ _ h]

@[simp] theorem Device.stack_event (d : Device) (a b c e f g k : Nat) : (d.event a b c e f g).stack k = d.stack k := by
  rw [Device.event_eq]; rfl

@[simp] theorem Device.scrub_retireBlock (d : Device) (b k : Nat) : ((d.retireBlock b).stack k).scrub = (d.stack k).scrub := by
  unfold Device.retireBlock
  dsimp only
  split
  · rfl
  · rw [Device.stack_event, Device.scrub_countStack]
    exact d.scrub_onStack _ _ (f := fun s => { s with retired := _ }) fun _ => rfl

@[simp] theorem Device.scrub_dramUe (d : Device) (a n k : Nat) : ((d.dramUe a n).stack k).scrub = (d.stack k).scrub := by
  have counted (d : Device) (i j n x a b c e f g : Nat) {h : Stack → Stack} (hf : ∀ s, (h s).scrub = s.scrub) :
      ((((d.onStack i h).countStack j n x).event a b c e f g).stack k).scrub = (d.stack k).scrub := by
    rw [Device.stack_event, Device.scrub_countStack, Device.scrub_onStack _ _ _ hf]
  unfold Device.dramUe
  dsimp only
  split
  · rw [Device.scrub_retireBlock]
    exact counted _ _ _ _ _ _ _ _ _ _ _ fun _ => rfl
  · exact counted _ _ _ _ _ _ _ _ _ _ _ fun _ => rfl

theorem Device.scrub_scrubSector (d : Device) (i k : Nat) : ((d.scrubSector i).stack k).scrub = (d.stack k).scrub := by
  obtain ecc | ecc | ⟨n, ecc⟩ := ecc_cases (Sparse.get 0 d.dram.ecc i) <;> simp only [Device.scrubSector, ecc]
  · rw [Device.scrub_countStack, Device.stack, Device.stack]
  · split
    · rw [Device.scrub_dramUe]; split <;> rfl
    · rw [Device.scrub_dramUe, Device.stack, Device.stack]

/-! ### The three rows -/

theorem Device.withBeat_of_eq {d : Device} {b : Beat} (h : d.beat = b) : ({ d with beat := b } : Device) = d := by
  subst h; rfl

/-- A row that keeps the time base completes with what its function makes of the device. -/
theorem Completes.onUnit_keeping {i : Instr} {s : State} {ok : Device → Bool} {f : Device → Device} {P : Device → Prop}
    (h : exec i s = Machine.onUnit ok f s) (hok : ok s.dev = true) (beat : (f s.dev).beat = s.dev.beat) (hP : P (f s.dev)) :
    Completes i s P :=
  .onUnit h hok (by rwa [Device.withBeat_of_eq beat])

theorem Completes.lift_keeping {i : Instr} {s : State} {f : Device → Device} {P : Device → Prop}
    (h : exec i s = Machine.lift f s) (beat : (f s.dev).beat = s.dev.beat) (hP : P (f s.dev)) : Completes i s P :=
  .lift h (by rwa [Device.withBeat_of_eq beat])

theorem Device.closeSc_of_none {d : Device} {c : Nat} (h : (d.core c).issue = none) : d.closeSc c = d := by
  simp [Device.closeSc, h]

/-- A device after the scrub cycle of core c met the bad words of its row. -/
def Device.rowScrubbed (d : Device) (c : Nat) : Device :=
  ((d.core c).spad.badWords (d.core c).scrubRow).foldl (fun d i => d.scrubWord c i) d

theorem Device.rowScrubbed_besideCores (d : Device) (c : Nat) : (d.rowScrubbed c).besideCores = d.besideCores :=
  foldl_keeps Device.besideCores _ (fun d i => d.scrubWord_besideCores c i) _ d

theorem Device.core_rowScrubbed_other (d : Device) {c x : Nat} (h : x ≠ c) : (d.rowScrubbed c).core x = d.core x :=
  foldl_keeps (fun d : Device => d.core x) _ (fun d i => d.core_scrubWord_other i h) _ d

theorem Device.rowScrubbed_row (d : Device) (c : Nat) : ((d.rowScrubbed c).core c).scrubRow = (d.core c).scrubRow :=
  (congrArg Core.scrubRow (d.noBooks_foldl_scrubWord c _) :)

theorem Device.rowScrubbed_scrubs (d : Device) (c : Nat) : (d.core c).spad.scrubbed ((d.rowScrubbed c).core c).spad 8
    (fun i => d.livePage c (8 * i / 4096)) true (fun i => i / 512 = (d.core c).scrubRow) := by
  have spad : ((d.rowScrubbed c).core c).spad = _ := (congrArg Core.spad (d.noBooks_foldl_scrubWord c _) :)
  rw [spad]
  exact Mem.foldl_badWords_scrubbed _ _ _

/-- What the scrub cycle of a core on which nothing runs does to a device (R79, R254). -/
theorem execScrubCycle_idle {s : State} {c : Nat} (hc : s.dev.hasCore c = true) (running : (s.dev.core c).running = none)
    (issue : (s.dev.core c).issue = none) (due : s.dev.scrubDue c = true) :
    Becomes (.scrubCycle c) s (((s.dev.rowScrubbed c).onCore c (fun k => { k with
      scrubRow := (k.scrubRow + 1) % 28672, scrubS := (s.dev.rowScrubbed c).gate.e + 1, cyc := k.cyc + 1 })).onRegion c
        (fun r => { r with finished := true })) := by
  have rests : (s.dev.core c).rests = true := by rw [Core.rests, running]
  refine .onUnit (show _ = execScrubCycle c s from rfl) hc ?_
  dsimp only
  rw [rests, due, if_pos (by simp), if_pos rfl, Device.closeSc_of_none issue]
  rfl

theorem scrubCycle_due {s : State} {c : Nat} (hc : s.dev.hasCore c = true) (running : (s.dev.core c).running = none)
    (issue : (s.dev.core c).issue = none) (due : s.dev.scrubDue c = true) : Completes (.scrubCycle c) s (fun e =>
      (s.dev.core c).spad.scrubbed (e.core c).spad 8 (fun i => s.dev.livePage c (8 * i / 4096)) true
        (fun i => i / 512 = (s.dev.core c).scrubRow)
      ∧ (e.core c).scrubRow = ((s.dev.core c).scrubRow + 1) % 28672 ∧ (e.core c).scrubS = s.dev.gate.e + 1
      ∧ (e.region c).finished = true ∧ e.dram = s.dev.dram ∧ e.staging = s.dev.staging
      ∧ (∀ x, x ≠ c → e.core x = s.dev.core x)) := by
  have beside := s.dev.rowScrubbed_besideCores c
  have gate : (s.dev.rowScrubbed c).gate = s.dev.gate := (congrArg Device.gate beside :)
  have beat : (s.dev.rowScrubbed c).beat = s.dev.beat := (congrArg Device.beat beside :)
  refine (execScrubCycle_idle hc running issue due).completes ?_
  rw [Device.withBeat_of_eq (by exact beat)]
  simp only [Device.core_onRegion, Device.core_onCore_same, Device.region_onRegion_same, true_and, Device.rowScrubbed_row, gate]
  refine ⟨s.dev.rowScrubbed_scrubs c, (congrArg Device.dram beside :), (congrArg Device.staging beside :), fun x h => ?_⟩
  rw [Device.core_onCore_other _ _ _ _ h, Device.core_rowScrubbed_other _ h]

/-- The first sector of the unit that the scrubber of a stack meets. -/
def Device.scrubUnit (d : Device) (k : Nat) : Nat := k * (stackBytes / 32) + 8 * (d.stack k).scrub

/-- A device after the DRAM scrubber of stack k met its unit. -/
def Device.unitScrubbed (d : Device) (k : Nat) : Device :=
  ((List.range 8).map (d.scrubUnit k + ·)).foldl (fun d i => d.scrubSector i) d

theorem Device.unitScrubbed_place (d : Device) (k : Nat) : ((d.unitScrubbed k).stack k).scrub = (d.stack k).scrub :=
  foldl_keeps (fun d : Device => (d.stack k).scrub) _ (fun d i => d.scrub_scrubSector i k) _ d

theorem execDramScrub_on {s : State} {k : Nat} (hk : s.dev.grade.hasStack k = true) (on : s.dev.writesOn = true)
    (here : s.dev.stackOn k = true) (now : (s.dev.stack k).scrubW ≠ some s.dev.beat.w) (role : s.dev.twin.role ≠ 2) :
    Becomes (.dramScrub k) s ((s.dev.unitScrubbed k).onStack k (fun r => { r with
      scrub := (r.scrub + 1) % 201326592, scrubW := some (s.dev.unitScrubbed k).beat.w })) := by
  refine .onUnit (show _ = execDramScrub k s from rfl) hk ?_
  dsimp only
  rw [if_neg (by simp [on, here, now, role])]
  simp only [Device.unitScrubbed, Device.scrubUnit, List.foldl_map]

theorem dramScrub_on {s : State} {k : Nat} (hk : s.dev.grade.hasStack k = true) (on : s.dev.writesOn = true)
    (here : s.dev.stackOn k = true) (now : (s.dev.stack k).scrubW ≠ some s.dev.beat.w) (role : s.dev.twin.role ≠ 2) :
    Completes (.dramScrub k) s (fun e =>
      s.dev.dram.scrubbed e.dram 32 (fun i => s.dev.liveDram (32 * i) 32) false
        (fun i => s.dev.scrubUnit k ≤ i ∧ i < s.dev.scrubUnit k + 8)
      ∧ (e.stack k).scrub = ((s.dev.stack k).scrub + 1) % 201326592 ∧ (e.stack k).scrubW = some s.dev.beat.w
      ∧ e.staging = s.dev.staging ∧ e.cores = s.dev.cores) := by
  obtain ⟨beat, staging, cores, dram⟩ := s.dev.foldl_scrubSector_fields ((List.range 8).map (s.dev.scrubUnit k + ·))
  rw [← Device.unitScrubbed] at beat staging cores dram
  refine (execDramScrub_on hk on here now role).completes ?_
  rw [Device.withBeat_of_eq ((Device.onStack_beat _ _ _).trans beat)]
  simp only [Device.stack_onStack_same, Device.unitScrubbed_place, beat, Device.onStack_dram,
    Device.onStack_staging, Device.onStack_cores, staging, cores, dram, and_true]
  exact Mem.foldl_scrubStep_scrubbed _ _ _ _ (nodup_unitSectors _) fun i => mem_unitSectors

/-- A device after the staging scrubber met its words. -/
def Device.stageScrubbed (d : Device) : Device := (stageWords d.hub.scrub).foldl (fun d i => d.scrubStage i) d

theorem execStagingScrub_on {s : State} (on : s.dev.writesOn = true) (now : s.dev.hub.scrubW ≠ some s.dev.beat.w) :
    Becomes .stagingScrub s (s.dev.stageScrubbed.onHub (fun h => { h with
      scrub := (s.dev.hub.scrub + 1) % 1048576, scrubW := some s.dev.stageScrubbed.beat.w })) := by
  refine .lift (show _ = execStagingScrub s from rfl) ?_
  dsimp only
  rw [if_neg (by simp [on, now]), Device.stageScrubbed, stageWords, List.foldl_flatMap]
  simp only [List.foldl_map]

theorem stagingScrub_on {s : State} (place : s.dev.hub.scrub < 1048576) (on : s.dev.writesOn = true)
    (now : s.dev.hub.scrubW ≠ some s.dev.beat.w) : Completes .stagingScrub s (fun e =>
      s.dev.staging.scrubbed e.staging 8 (fun i => s.dev.liveStage (8 * i)) true
        (fun i => i < 4 * 8388608 ∧ i % 8388608 / 8 = s.dev.hub.scrub)
      ∧ e.hub.scrub = (s.dev.hub.scrub + 1) % 1048576 ∧ e.hub.scrubW = some s.dev.beat.w
      ∧ e.dram = s.dev.dram ∧ e.cores = s.dev.cores) := by
  obtain ⟨beat, dram, cores, staging⟩ := s.dev.foldl_scrubStage_fields (stageWords s.dev.hub.scrub)
  rw [← Device.stageScrubbed] at beat staging cores dram
  refine (execStagingScrub_on on now).completes ?_
  rw [Device.withBeat_of_eq ((Device.onHub_beat _ _).trans beat)]
  simp only [Device.onHub_hub, beat, Device.onHub_staging, Device.onHub_dram, Device.onHub_cores,
    staging, cores, dram, and_true]
  exact Mem.foldl_scrubStep_scrubbed _ _ _ _ (nodup_stageWords place) fun i => mem_stageWords place

/-- Settles O52: each scrubber does one step on every word that it meets, and the words are distinct. -/
theorem scrubbers : Obligations.Scrubbers := by
  unfold Obligations.Scrubbers
  refine ⟨fun s c hc running issue _ due => scrubCycle_due hc running issue due, fun s c hc why => ?_,
    fun s k hk _ => ⟨fun why => ?_, fun on here now role => dramScrub_on hk on here now role⟩,
    fun s _ place => ⟨fun why => ?_, fun on now => stagingScrub_on place on now⟩⟩
  · refine .onUnit (show _ = execScrubCycle c s from rfl) hc ?_
    obtain due | ⟨rests, unfinished, count⟩ := why
    · simp [due]
    · simp [rests, unfinished, Nat.not_le.2 count]
  · refine .onUnit (show _ = execDramScrub k s from rfl) hk ?_
    dsimp only
    rw [if_pos (by obtain h | h | h | h := why <;> simp [h])]
  · refine .lift (show _ = execStagingScrub s from rfl) ?_
    dsimp only
    rw [if_pos (by obtain h | h := why <;> simp [h])]

end Sys2Proof.Machine

/-! PROOFS about gates (R74 to R79), and the frame of the machinery of faults, wakes and keys: it works on cores, tasks, regions, the
hub, the twin logic and the power logic, and leaves the rest of the device. -/

namespace Sys2Proof.Machine

set_option Elab.async false

open Sys2Proof

/-! ### The device that a row answers -/

/-- A device with the time base of another: what a row that is not of the time base answers. -/
def Device.withBeat (d : Device) (b : Beat) : Device := { d with beat := b }

@[simp] theorem Device.withBeat_beat (d : Device) (b : Beat) : (d.withBeat b).beat = b := rfl
@[simp] theorem Device.withBeat_ident (d : Device) (b : Beat) : (d.withBeat b).ident = d.ident := rfl
@[simp] theorem Device.withBeat_pins (d : Device) (b : Beat) : (d.withBeat b).pins = d.pins := rfl
@[simp] theorem Device.withBeat_drone (d : Device) (b : Beat) : (d.withBeat b).drone = d.drone := rfl
@[simp] theorem Device.withBeat_hold (d : Device) (b : Beat) : (d.withBeat b).hold = d.hold := rfl
@[simp] theorem Device.withBeat_gate (d : Device) (b : Beat) : (d.withBeat b).gate = d.gate := rfl
@[simp] theorem Device.withBeat_regions (d : Device) (b : Beat) : (d.withBeat b).regions = d.regions := rfl
@[simp] theorem Device.withBeat_cores (d : Device) (b : Beat) : (d.withBeat b).cores = d.cores := rfl
@[simp] theorem Device.withBeat_tasks (d : Device) (b : Beat) : (d.withBeat b).tasks = d.tasks := rfl
@[simp] theorem Device.withBeat_dram (d : Device) (b : Beat) : (d.withBeat b).dram = d.dram := rfl
@[simp] theorem Device.withBeat_stackRecs (d : Device) (b : Beat) : (d.withBeat b).stackRecs = d.stackRecs := rfl
@[simp] theorem Device.withBeat_tick (d : Device) (b : Beat) : (d.withBeat b).tick = d.tick := rfl
@[simp] theorem Device.withBeat_openReads (d : Device) (b : Beat) : (d.withBeat b).openReads = d.openReads := rfl
@[simp] theorem Device.withBeat_staging (d : Device) (b : Beat) : (d.withBeat b).staging = d.staging := rfl
@[simp] theorem Device.withBeat_fabric (d : Device) (b : Beat) : (d.withBeat b).fabric = d.fabric := rfl
@[simp] theorem Device.withBeat_host (d : Device) (b : Beat) : (d.withBeat b).host = d.host := rfl
@[simp] theorem Device.withBeat_hub (d : Device) (b : Beat) : (d.withBeat b).hub = d.hub := rfl
@[simp] theorem Device.withBeat_shadow (d : Device) (b : Beat) : (d.withBeat b).shadow = d.shadow := rfl
@[simp] theorem Device.withBeat_power (d : Device) (b : Beat) : (d.withBeat b).power = d.power := rfl
@[simp] theorem Device.withBeat_ledger (d : Device) (b : Beat) : (d.withBeat b).ledger = d.ledger := rfl
@[simp] theorem Device.withBeat_logger (d : Device) (b : Beat) : (d.withBeat b).logger = d.logger := rfl
@[simp] theorem Device.withBeat_twin (d : Device) (b : Beat) : (d.withBeat b).twin = d.twin := rfl
@[simp] theorem Device.withBeat_boot (d : Device) (b : Beat) : (d.withBeat b).boot = d.boot := rfl
@[simp] theorem Device.withBeat_cross (d : Device) (b : Beat) : (d.withBeat b).cross = d.cross := rfl
@[simp] theorem Device.withBeat_crossNum (d : Device) (b : Beat) : (d.withBeat b).crossNum = d.crossNum := rfl
@[simp] theorem Device.withBeat_free (d : Device) (b : Beat) : (d.withBeat b).free = d.free := rfl
@[simp] theorem Device.core_withBeat (d : Device) (b : Beat) (c : Nat) : (d.withBeat b).core c = d.core c := rfl
@[simp] theorem Device.task_withBeat (d : Device) (b : Beat) (t : Nat) : (d.withBeat b).task t = d.task t := rfl
@[simp] theorem Device.stack_withBeat (d : Device) (b : Beat) (k : Nat) : (d.withBeat b).stack k = d.stack k := rfl
@[simp] theorem Device.region_withBeat (d : Device) (b : Beat) (r : Nat) : (d.withBeat b).region r = d.region r := rfl
@[simp] theorem Device.port_withBeat (d : Device) (b : Beat) (p : Nat) : (d.withBeat b).port p = d.port p := rfl
@[simp] theorem Device.mbx_withBeat (d : Device) (b : Beat) (m : Nat) : (d.withBeat b).mbx m = d.mbx m := rfl

theorem Device.withBeat_self {d : Device} {b : Beat} (h : d.beat = b) : d.withBeat b = d := Device.withBeat_of_eq h

theorem Completes.row {i : Instr} {s : State} {f : Device → Device} {P : Device → Prop} (h : exec i s = Machine.lift f s)
    (hP : P ((f s.dev).withBeat s.dev.beat)) : Completes i s P :=
  .lift h hP

theorem Completes.unitRow {i : Instr} {s : State} {ok : Device → Bool} {f : Device → Device} {P : Device → Prop}
    (h : exec i s = Machine.onUnit ok f s) (hok : ok s.dev = true) (hP : P ((f s.dev).withBeat s.dev.beat)) : Completes i s P :=
  .onUnit h hok hP

/-! ### What faults, wakes and keys leave -/

/-- A device with what faults, wakes and keys work on hidden. -/
def Device.steady (d : Device) : Device :=
  { d with hub := Hub.reset, twin := Twin.reset, cores := [], tasks := [], regions := [], power := Power.reset, free := 0 }

theorem Device.gate_of_steady {d e : Device} (h : d.steady = e.steady) : d.gate = e.gate := (congrArg Device.gate h :)
theorem Device.beat_of_steady {d e : Device} (h : d.steady = e.steady) : d.beat = e.beat := (congrArg Device.beat h :)
theorem Device.dram_of_steady {d e : Device} (h : d.steady = e.steady) : d.dram = e.dram := (congrArg Device.dram h :)
theorem Device.staging_of_steady {d e : Device} (h : d.steady = e.steady) : d.staging = e.staging :=
  (congrArg Device.staging h :)
theorem Device.fabric_of_steady {d e : Device} (h : d.steady = e.steady) : d.fabric = e.fabric := (congrArg Device.fabric h :)

theorem Device.steady_of_noHub {d e : Device} (h : d.noHub = e.noHub) : d.steady = e.steady := (congrArg Device.steady h :)

@[simp] theorem Device.steady_onCore (d : Device) (c : Nat) (f : Core → Core) : (d.onCore c f).steady = d.steady := rfl
@[simp] theorem Device.steady_onTask (d : Device) (t : Nat) (f : Task → Task) : (d.onTask t f).steady = d.steady := rfl
@[simp] theorem Device.steady_onRegion (d : Device) (r : Nat) (f : Region → Region) : (d.onRegion r f).steady = d.steady := rfl
@[simp] theorem Device.steady_onHub (d : Device) (f : Hub → Hub) : (d.onHub f).steady = d.steady := rfl
@[simp] theorem Device.steady_onMbx (d : Device) (m : Nat) (f : Mbx → Mbx) : (d.onMbx m f).steady = d.steady := rfl
@[simp] theorem Device.steady_onTwin (d : Device) (f : Twin → Twin) : (d.onTwin f).steady = d.steady := rfl
@[simp] theorem Device.steady_log (d : Device) (r : HealthRec) : (d.log r).steady = d.steady :=
  Device.steady_of_noHub (d.log_noHub r)
@[simp] theorem Device.steady_event (d : Device) (a b c e f g : Nat) : (d.event a b c e f g).steady = d.steady :=
  Device.steady_of_noHub (d.event_noHub a b c e f g)
@[simp] theorem Device.steady_countHub (d : Device) (i n : Nat) : (d.countHub i n).steady = d.steady :=
  Device.steady_of_noHub (d.countHub_noHub i n)
@[simp] theorem Device.steady_countCore (d : Device) (c i n : Nat) : (d.countCore c i n).steady = d.steady := by
  unfold Device.countCore; split <;> rfl
@[simp] theorem Device.steady_restRegion (d : Device) (c : Nat) : (d.restRegion c).steady = d.steady := rfl
@[simp] theorem Device.steady_twinSend (d : Device) (a b c e f : Nat) (x : List (BitVec 8)) :
    (d.twinSend a b c e f x).steady = d.steady := rfl

@[simp] theorem Device.steady_stopTask (d : Device) (t : Nat) : (d.stopTask t).steady = d.steady :=
  foldl_keeps Device.steady _ (fun d c => by split <;> rfl) _ _

@[simp] theorem Device.steady_matchFaults (d : Device) (t beat sc : Nat) : (d.matchFaults t beat sc).steady = d.steady := by
  unfold Device.matchFaults
  split
  · split <;> rfl
  · rfl

@[simp] theorem Device.steady_fault (d : Device) (t code cause unitKind unit sc dHi dLo : Nat) :
    (d.fault t code cause unitKind unit sc dHi dLo).steady = d.steady := by
  unfold Device.fault
  dsimp only
  split
  · exact d.steady_log _
  · split
    · simp
    · split <;> simp

@[simp] theorem Device.steady_coreFault (d : Device) (c t code cause dHi dLo : Nat) :
    (d.coreFault c t code cause dHi dLo).steady = d.steady := d.steady_fault _ _ _ _ _ _ _ _

@[simp] theorem Device.steady_poisonFault (d : Device) (c t sc : Nat) : (d.poisonFault c t sc).steady = d.steady :=
  d.steady_fault _ _ _ _ _ _ _ _

@[simp] theorem Device.steady_slotFault (d : Device) (c t index sc : Nat) (x : Nat × Bad) :
    (d.slotFault c t index sc x).steady = d.steady := by
  unfold Device.slotFault; split <;> simp

@[simp] theorem Device.steady_wakeQuarter (d : Device) (q : Nat) : (d.wakeQuarter q).steady = d.steady := by
  unfold Device.wakeQuarter; split <;> rfl

@[simp] theorem Device.steady_startWake (d : Device) (c : Nat) : (d.startWake c).steady = d.steady := by
  unfold Device.startWake
  dsimp only
  split
  · rfl
  · split <;> simp

@[simp] theorem Device.steady_forceWake (d : Device) (c source : Nat) : (d.forceWake c source).steady = d.steady := by
  have woken := d.steady_startWake c
  have recorded (w : Nat) (code : Nat) (f : Core → Core) : (((d.startWake c).drawFree.2.onCore c f).event code 0 1 c w source).steady
      = d.steady := by
    rw [Device.steady_event, Device.steady_onCore]; exact woken
  unfold Device.forceWake
  dsimp only
  split
  · rfl
  · generalize (d.core c).power.forcedW = past
    obtain _ | w := past
    · rw [if_pos rfl]
      exact recorded _ _ _
    · dsimp only
      split
      · exact recorded _ _ _
      · exact woken

@[simp] theorem Device.steady_setKey (d : Device) (c k n : Nat) : (d.setKey c k n).steady = d.steady := rfl

@[simp] theorem Device.steady_lateKey (d : Device) (c k n : Nat) : (d.lateKey c k n).steady = d.steady := by
  unfold Device.lateKey
  dsimp only
  split <;> simp

@[simp] theorem Device.steady_turnKey (d : Device) (c k sub : Nat) (incs : List (Nat × Bool)) :
    (d.turnKey c k sub incs).steady = d.steady := by
  unfold Device.turnKey
  dsimp only
  split
  · split
    · exact foldl_keeps Device.steady (fun (d : Device) (x : Nat × Bool) => d.lateKey c k x.1)
        (fun d x => d.steady_lateKey c k x.1) _ _
    · simp
  · split <;> simp

@[simp] theorem Device.steady_turnKeys (d : Device) (c : Nat) (i : Issue) : (d.turnKeys c i).steady = d.steady :=
  foldl_keeps Device.steady _ (fun d k => d.steady_turnKey c k _ _) _ _

@[simp] theorem Device.steady_addKey (d : Device) (c k n : Nat) (isAdd : Bool) : (d.addKey c k n isAdd).steady = d.steady := by
  unfold Device.addKey
  split
  · rfl
  · split <;> simp

@[simp] theorem Device.steady_consume (d : Device) (t c addr source n : Nat) : (d.consume t c addr source n).steady = d.steady := by
  unfold Device.consume; split <;> simp

/-! ### The gate of a core -/

theorem Device.steady_standIn (d : Device) (c t fuel : Nat) : (d.standIn c t fuel).steady = d.steady := by
  induction fuel generalizing d with
  | zero => exact d.steady_startWake c
  | succ n ih =>
    unfold Device.standIn
    dsimp only
    split
    · simp
    · split
      · rw [Device.steady_onCore]
        exact foldl_keeps Device.steady _ (fun d s => by simp) _ _
      · split
        · simp
        · split
          · split
            · simp
            · rw [ih]; simp
          · exact foldl_keeps Device.steady _ (fun d s => by simp) _ _

theorem Device.steady_lowerCore (d : Device) (c : Nat) : (d.lowerCore c).steady = d.steady := by
  unfold Device.lowerCore
  dsimp only
  split <;> simp

theorem Device.steady_openCore (d : Device) (e c : Nat) : (d.openCore e c).steady = d.steady := by
  unfold Device.openCore
  dsimp only
  split
  · simp
  · split
    · split
      · simp [Device.steady_lowerCore]
      · split <;> simp [Device.steady_lowerCore, Device.steady_standIn]
    · simp [Device.steady_lowerCore]

theorem Device.steady_regionRuns (d : Device) (r : Nat) : (d.regionRuns r).steady = d.steady := by
  unfold Device.regionRuns; split <;> simp

/-- The gate that opens is the gate asked for. -/
theorem Device.openGate_gate (d : Device) (e : Nat) : (d.openGate e).gate = { e := e } := by
  unfold Device.openGate
  dsimp only
  refine (Device.gate_of_steady (foldl_keeps Device.steady _ (fun d r => ?_) _ _)).trans
    ((Device.gate_of_steady (foldl_keeps Device.steady _ (fun d r => ?_) _ _)).trans
      (Device.gate_of_steady (foldl_keeps Device.steady _ (fun d c => d.steady_openCore e c) _ _)))
  · rw [Device.steady_regionRuns, Device.steady_onRegion]
  · rw [Device.steady_onRegion]

/-- Settles O9: each row stores what it says; what opens behind the gate leaves its number. -/
theorem workAndGate : Obligations.WorkAndGate := by
  unfold Obligations.WorkAndGate
  refine ⟨fun c s hr hc working running active work due => ?_, fun r s low high aligned working => ?_, fun stall s ready => ?_⟩
  · refine .unitRow (show _ = execBeatWorkDone c s from rfl) (by simp only [hr, isSched, Bool.true_and, decide_eq_true_eq]; omega) ?_
    rw [if_neg (by simp [working]), if_pos hc, if_pos (by simp [running, active, work, due])]
    rw [Device.region_withBeat, Device.region_onRegion_same]
  · have here : s.dev.hasRegion r = true := by
      have net : 144 ≤ r ∧ r < 170 := ⟨low, by omega⟩
      simp [Device.hasRegion, net]
    refine .unitRow (show _ = execBeatWorkDone r s from rfl) (by simp only [here, isSched, Bool.true_and, decide_eq_true_eq]; omega) ?_
    rw [if_neg (by simp [working]), if_neg (by omega), if_pos aligned]
    simp only [Device.region_withBeat, Device.region_onRegion_same, true_and]
    exact fun q hq => Device.region_onRegion_other _ _ _ _ hq
  · refine .row (show _ = execBeatGateOpen stall s from rfl) ?_
    rw [if_pos ready]
    rw [Device.withBeat_gate, Device.openGate_gate]

end Sys2Proof.Machine

/-! PROOFS about mailboxes (R450 to R464): what a device posts to its host, to other devices and to its partner leaves everything
beside; so an answer changes its own mailbox alone. -/

namespace Sys2Proof.Machine

set_option Elab.async false

open Sys2Proof

/-! ### What a device posts -/

/-- A device with what it posts hidden: writes to host memory, the ring, the relay windows, packets and records on their way, and
the bytes metered on the way. -/
def Device.besidePosts (d : Device) : Device := { d with
  fabric := { d.fabric with openIn := [], ports := [] }
  host := { d.host with mem := [], held := [] }
  hub := { d.hub with relay := [], ring := Ring.reset }
  twin := { d.twin with outbox := [] }
  ledger := d.ledger.map (fun x => { x with nowFabric := 0 }) }

section
variable {d e : Device} (h : d.besidePosts = e.besidePosts)
include h

theorem Device.mbx_of_besidePosts (m : Nat) : d.mbx m = e.mbx m := (congrArg (fun d : Device => d.mbx m) h :)
theorem Device.beat_of_besidePosts : d.beat = e.beat := (congrArg Device.beat h :)
theorem Device.cores_of_besidePosts : d.cores = e.cores := (congrArg Device.cores h :)
theorem Device.tasks_of_besidePosts : d.tasks = e.tasks := (congrArg Device.tasks h :)
theorem Device.dram_of_besidePosts : d.dram = e.dram := (congrArg Device.dram h :)
theorem Device.staging_of_besidePosts : d.staging = e.staging := (congrArg Device.staging h :)

/-- A change of a mailbox does not see the posts. -/
theorem Device.besidePosts_onMbx_congr {m : Nat} {f g : Mbx → Mbx} (hm : f (e.mbx m) = g (e.mbx m)) :
    (d.onMbx m f).besidePosts = (e.onMbx m g).besidePosts := by
  have seen : (d.onMbx m f).besidePosts = (e.onMbx m f).besidePosts :=
    (congrArg (fun d : Device => d.onMbx m f) h :)
  rw [seen, Device.onMbx, Device.onMbx, hm]

end

@[simp] theorem Device.besidePosts_onRing (d : Device) (f : Hub → Ring) :
    (d.onHub (fun h => { h with ring := f h })).besidePosts = d.besidePosts := rfl
@[simp] theorem Device.besidePosts_onWindow (d : Device) (w : Nat) (f : Mbx → Mbx) :
    (d.onWindow w f).besidePosts = d.besidePosts := rfl
@[simp] theorem Device.besidePosts_hostWrite (d : Device) (a : Nat) (bs : List (BitVec 8)) :
    (d.hostWrite a bs).besidePosts = d.besidePosts := rfl
@[simp] theorem Device.besidePosts_holdWrite (d : Device) (x : HeldWrite) : (d.holdWrite x).besidePosts = d.besidePosts := by
  unfold Device.holdWrite; split <;> rfl
@[simp] theorem Device.besidePosts_dropHeld (d : Device) (x : HeldWrite) : (d.dropHeld x).besidePosts = d.besidePosts := rfl
@[simp] theorem Device.besidePosts_twinSend (d : Device) (a b c e f : Nat) (x : List (BitVec 8)) :
    (d.twinSend a b c e f x).besidePosts = d.besidePosts := rfl
@[simp] theorem Device.besidePosts_meterFabric (d : Device) (t : Option Nat) (n : Nat) :
    (d.meterFabric t n).besidePosts = d.besidePosts := by
  have entry (c : Bool) (x : Ledger) : ({ (if c then { x with nowFabric := x.nowFabric + n } else x) with nowFabric := 0 } : Ledger)
      = { x with nowFabric := 0 } := by cases c <;> rfl
  unfold Device.meterFabric Device.meter Device.besidePosts
  simp only [List.map_map, Function.comp_def, entry]

@[simp] theorem Device.besidePosts_onPort (d : Device) (p : Nat) (f : Port → Port) : (d.onPort p f).besidePosts = d.besidePosts :=
  rfl

@[simp] theorem Device.besidePosts_sendPacket (d : Device) (dev : Nat) (pk : Packet) :
    (d.sendPacket dev pk).besidePosts = d.besidePosts := by
  unfold Device.sendPacket
  dsimp only
  split
  · rfl
  · split <;> simp

@[simp] theorem Device.besidePosts_mgmtSend (d : Device) (dev mb : Nat) (r : Bool) (off : Nat) (x : List (BitVec 8)) (last : Bool) :
    (d.mgmtSend dev mb r off x last).besidePosts = d.besidePosts := by
  unfold Device.mgmtSend
  simp

@[simp] theorem Device.besidePosts_mgmtPieces (d : Device) (dev mb : Nat) (r : Bool) (off : Nat) (x : List (BitVec 8)) :
    (d.mgmtPieces dev mb r off x).besidePosts = d.besidePosts :=
  foldl_keeps Device.besidePosts _ (fun d _ => d.besidePosts_mgmtSend dev mb r _ _ _) _ _

@[simp] theorem Device.besidePosts_mbx14Send (d : Device) (r : Bool) (off : Nat) (x : List (BitVec 8)) (last : Bool) :
    (d.mbx14Send r off x last).besidePosts = d.besidePosts := by
  unfold Device.mbx14Send; rw [Device.besidePosts_twinSend]

@[simp] theorem Device.besidePosts_ringFlush (d : Device) : d.ringFlush.besidePosts = d.besidePosts := by
  unfold Device.ringFlush
  dsimp only
  split
  · rfl
  · split
    · rw [Device.besidePosts_onRing, Device.besidePosts_hostWrite]
    · rfl

@[simp] theorem Device.besidePosts_ringPut (d : Device) (x : List (BitVec 8)) : (d.ringPut x).besidePosts = d.besidePosts := by
  have queued : (d.onHub (fun h => { h with ring := { h.ring with waiting := h.ring.waiting ++ [x] } })).besidePosts
    = d.besidePosts := rfl
  unfold Device.ringPut
  dsimp only
  split
  · rfl
  · split
    · rw [Device.besidePosts_holdWrite, queued]
    · split
      · rw [Device.besidePosts_ringFlush, queued]
      · exact queued

@[simp] theorem Device.besidePosts_windowDone (d : Device) (w : Nat) : (d.windowDone w).besidePosts = d.besidePosts := by
  unfold Device.windowDone
  dsimp only
  split
  · simp
  · split
    · rw [Device.besidePosts_ringPut, Device.besidePosts_onWindow]; split <;> simp
    · rw [Device.besidePosts_onWindow]; split <;> simp

@[simp] theorem Device.besidePosts_windowPiece (d : Device) (w off : Nat) (x : List (BitVec 8)) (last : Bool) :
    (d.windowPiece w off x last).besidePosts = d.besidePosts := by
  unfold Device.windowPiece
  dsimp only
  split
  · rfl
  · split
    · split
      · rfl
      · split <;> simp
    · split
      · split <;> simp
      · rfl

/-- A response is posted, and changes no mailbox. -/
@[simp] theorem Device.besidePosts_reply (d : Device) (mb : Nat) : (d.reply mb).besidePosts = d.besidePosts := by
  unfold Device.reply
  dsimp only
  split
  · split
    · rfl
    · split <;> split <;> simp
  · split
    · split <;> simp
    · rfl

@[simp] theorem Device.mbx_reply (d : Device) (mb m : Nat) : (d.reply mb).mbx m = d.mbx m :=
  Device.mbx_of_besidePosts (d.besidePosts_reply mb) m

/-! ### The end of a command -/

/-- Does the result of mailbox mb go to host memory (R458)? -/
def Mbx.toHost (m : Mbx) (mb : Nat) : Bool := decide (mb < 12) && m.resultAddr != 0

/-- The number of result bytes that mailbox mb has room for (R458). -/
def Mbx.room (m : Mbx) (mb : Nat) : Nat := if m.toHost mb then m.resultMax else 1984

/-- A mailbox that is DONE (R457, R458). -/
def Mbx.published (m : Mbx) (mb w status detail : Nat) (res : List (BitVec 8)) : Mbx := { m with
  st := 3, status := status, detail := detail, trunc := decide (m.room mb < res.length),
  resultLen := (res.take (m.room mb)).length, doneW := w,
  result := if m.toHost mb then [] else res.take (m.room mb),
  outcome := none, held := [], copyLeft := none, copyUnits := [] }

/-- A publication changes its mailbox alone, beside what it posts. -/
theorem Device.besidePosts_publish {d : Device} {mb status detail : Nat} {res : List (BitVec 8)}
    (h : (d.mbx mb).outcome = some (status, detail, res)) : (d.publish mb).besidePosts
      = (d.onMbx mb (fun m => m.published mb d.beat.w status detail res)).besidePosts := by
  have posted (e : Device) (f : Mbx → Mbx) (ring : Bool) : (if ring then ((e.onMbx mb f).reply mb).ringPut
      ((((e.onMbx mb f).reply mb).mbx mb).ringEntry mb) else (e.onMbx mb f).reply mb).besidePosts = (e.onMbx mb f).besidePosts := by
    split <;> simp
  unfold Device.publish
  dsimp only
  simp only [h]
  rw [posted]
  cases host : (d.mbx mb).toHost mb <;> rw [Mbx.toHost] at host <;>
    simp only [host, Bool.false_and, Bool.true_and, Bool.false_eq_true, if_true, if_false]
  · exact Device.besidePosts_onMbx_congr rfl (by simp [Mbx.published, Mbx.room, Mbx.toHost, host])
  · split
    · exact Device.besidePosts_onMbx_congr (d.besidePosts_hostWrite _ _)
        (by simp [Mbx.published, Mbx.room, Mbx.toHost, host, Device.hostWrite])
    · exact Device.besidePosts_onMbx_congr rfl (by simp [Mbx.published, Mbx.room, Mbx.toHost, host])

theorem Device.mbx_publish {d : Device} {mb status detail : Nat} {res : List (BitVec 8)}
    (h : (d.mbx mb).outcome = some (status, detail, res)) :
    (d.publish mb).mbx mb = (d.mbx mb).published mb d.beat.w status detail res := by
  rw [Device.mbx_of_besidePosts (Device.besidePosts_publish h), Device.mbx_onMbx_same]

theorem Device.mbx_publish_other {d : Device} {mb status detail : Nat} {res : List (BitVec 8)}
    (h : (d.mbx mb).outcome = some (status, detail, res)) {m : Nat} (hm : m ≠ mb) : (d.publish mb).mbx m = d.mbx m := by
  rw [Device.mbx_of_besidePosts (Device.besidePosts_publish h), Device.mbx_onMbx_other _ _ _ _ hm]

/-- A device with its mailboxes hidden too: what a command that ends leaves. -/
def Device.besideAnswers (d : Device) : Device :=
  { d.besidePosts with hub := { d.besidePosts.hub with mbx := [] } }

theorem Device.besideAnswers_of_besidePosts {d e : Device} (h : d.besidePosts = e.besidePosts) :
    d.besideAnswers = e.besideAnswers :=
  congrArg (fun d : Device => ({ d with hub := { d.hub with mbx := [] } } : Device)) h

@[simp] theorem Device.besideAnswers_onMbx (d : Device) (m : Nat) (f : Mbx → Mbx) :
    (d.onMbx m f).besideAnswers = d.besideAnswers := rfl

@[simp] theorem Device.besideAnswers_reply (d : Device) (mb : Nat) : (d.reply mb).besideAnswers = d.besideAnswers :=
  Device.besideAnswers_of_besidePosts (d.besidePosts_reply mb)

theorem Device.outcome_eq (d : Device) (mb a b : Nat) (r : List (BitVec 8)) :
    d.outcome mb a b r = d.onMbx mb (fun m => { m with outcome := some (a, b, r) }) := rfl

theorem Device.outcome_outcome (d : Device) (mb a b : Nat) (r : List (BitVec 8)) :
    ((d.outcome mb a b r).mbx mb).outcome = some (a, b, r) := by
  rw [Device.outcome_eq, Device.mbx_onMbx_same]

@[simp] theorem Device.besideAnswers_finish (d : Device) (mb a b : Nat) (r : List (BitVec 8)) :
    (d.finish mb a b r).besideAnswers = d.besideAnswers := by
  unfold Device.finish Device.complete
  split
  · exact (Device.besideAnswers_of_besidePosts ((d.outcome mb a b r).besidePosts_holdWrite _)).trans rfl
  · exact (Device.besideAnswers_of_besidePosts (Device.besidePosts_publish (d.outcome_outcome mb a b r))).trans rfl

section
variable (d : Device) (mb a b : Nat) (r : List (BitVec 8))

@[simp] theorem Device.beat_finish : (d.finish mb a b r).beat = d.beat := (congrArg Device.beat (d.besideAnswers_finish mb a b r) :)
@[simp] theorem Device.ident_finish : (d.finish mb a b r).ident = d.ident := (congrArg Device.ident (d.besideAnswers_finish mb a b r) :)
@[simp] theorem Device.pins_finish : (d.finish mb a b r).pins = d.pins := (congrArg Device.pins (d.besideAnswers_finish mb a b r) :)
@[simp] theorem Device.drone_finish : (d.finish mb a b r).drone = d.drone := (congrArg Device.drone (d.besideAnswers_finish mb a b r) :)
@[simp] theorem Device.hold_finish : (d.finish mb a b r).hold = d.hold := (congrArg Device.hold (d.besideAnswers_finish mb a b r) :)
@[simp] theorem Device.gate_finish : (d.finish mb a b r).gate = d.gate := (congrArg Device.gate (d.besideAnswers_finish mb a b r) :)
@[simp] theorem Device.regions_finish : (d.finish mb a b r).regions = d.regions := (congrArg Device.regions (d.besideAnswers_finish mb a b r) :)
@[simp] theorem Device.cores_finish : (d.finish mb a b r).cores = d.cores := (congrArg Device.cores (d.besideAnswers_finish mb a b r) :)
@[simp] theorem Device.tasks_finish : (d.finish mb a b r).tasks = d.tasks := (congrArg Device.tasks (d.besideAnswers_finish mb a b r) :)
@[simp] theorem Device.dram_finish : (d.finish mb a b r).dram = d.dram := (congrArg Device.dram (d.besideAnswers_finish mb a b r) :)
@[simp] theorem Device.stackRecs_finish : (d.finish mb a b r).stackRecs = d.stackRecs := (congrArg Device.stackRecs (d.besideAnswers_finish mb a b r) :)
@[simp] theorem Device.tick_finish : (d.finish mb a b r).tick = d.tick := (congrArg Device.tick (d.besideAnswers_finish mb a b r) :)
@[simp] theorem Device.openReads_finish : (d.finish mb a b r).openReads = d.openReads := (congrArg Device.openReads (d.besideAnswers_finish mb a b r) :)
@[simp] theorem Device.staging_finish : (d.finish mb a b r).staging = d.staging := (congrArg Device.staging (d.besideAnswers_finish mb a b r) :)
@[simp] theorem Device.shadow_finish : (d.finish mb a b r).shadow = d.shadow := (congrArg Device.shadow (d.besideAnswers_finish mb a b r) :)
@[simp] theorem Device.power_finish : (d.finish mb a b r).power = d.power := (congrArg Device.power (d.besideAnswers_finish mb a b r) :)
@[simp] theorem Device.logger_finish : (d.finish mb a b r).logger = d.logger := (congrArg Device.logger (d.besideAnswers_finish mb a b r) :)
@[simp] theorem Device.boot_finish : (d.finish mb a b r).boot = d.boot := (congrArg Device.boot (d.besideAnswers_finish mb a b r) :)
@[simp] theorem Device.cross_finish : (d.finish mb a b r).cross = d.cross := (congrArg Device.cross (d.besideAnswers_finish mb a b r) :)
@[simp] theorem Device.crossNum_finish : (d.finish mb a b r).crossNum = d.crossNum := (congrArg Device.crossNum (d.besideAnswers_finish mb a b r) :)
@[simp] theorem Device.free_finish : (d.finish mb a b r).free = d.free := (congrArg Device.free (d.besideAnswers_finish mb a b r) :)
@[simp] theorem Device.versions_finish : (d.finish mb a b r).hub.versions = d.hub.versions :=
  (congrArg (fun d : Device => d.hub.versions) (d.besideAnswers_finish mb a b r) :)
@[simp] theorem Device.parkHeld_finish : (d.finish mb a b r).hub.parkHeld = d.hub.parkHeld :=
  (congrArg (fun d : Device => d.hub.parkHeld) (d.besideAnswers_finish mb a b r) :)
@[simp] theorem Device.parkNext_finish : (d.finish mb a b r).hub.parkNext = d.hub.parkNext :=
  (congrArg (fun d : Device => d.hub.parkNext) (d.besideAnswers_finish mb a b r) :)
@[simp] theorem Device.counters_finish : (d.finish mb a b r).hub.counters = d.hub.counters :=
  (congrArg (fun d : Device => d.hub.counters) (d.besideAnswers_finish mb a b r) :)
@[simp] theorem Device.health_finish : (d.finish mb a b r).hub.health = d.hub.health :=
  (congrArg (fun d : Device => d.hub.health) (d.besideAnswers_finish mb a b r) :)
@[simp] theorem Device.healthNext_finish : (d.finish mb a b r).hub.healthNext = d.hub.healthNext :=
  (congrArg (fun d : Device => d.hub.healthNext) (d.besideAnswers_finish mb a b r) :)
@[simp] theorem Device.smbPtr_finish : (d.finish mb a b r).hub.smbPtr = d.hub.smbPtr :=
  (congrArg (fun d : Device => d.hub.smbPtr) (d.besideAnswers_finish mb a b r) :)
@[simp] theorem Device.arrivals_finish : (d.finish mb a b r).hub.arrivals = d.hub.arrivals :=
  (congrArg (fun d : Device => d.hub.arrivals) (d.besideAnswers_finish mb a b r) :)
@[simp] theorem Device.scrub_finish : (d.finish mb a b r).hub.scrub = d.hub.scrub :=
  (congrArg (fun d : Device => d.hub.scrub) (d.besideAnswers_finish mb a b r) :)
@[simp] theorem Device.scrubW_finish : (d.finish mb a b r).hub.scrubW = d.hub.scrubW :=
  (congrArg (fun d : Device => d.hub.scrubW) (d.besideAnswers_finish mb a b r) :)
@[simp] theorem Device.bindNext_finish : (d.finish mb a b r).hub.bindNext = d.hub.bindNext :=
  (congrArg (fun d : Device => d.hub.bindNext) (d.besideAnswers_finish mb a b r) :)
@[simp] theorem Device.role_finish : (d.finish mb a b r).twin.role = d.twin.role :=
  (congrArg (fun d : Device => d.twin.role) (d.besideAnswers_finish mb a b r) :)
@[simp] theorem Device.attach_finish : (d.finish mb a b r).twin.attach = d.twin.attach :=
  (congrArg (fun d : Device => d.twin.attach) (d.besideAnswers_finish mb a b r) :)
@[simp] theorem Device.detachMb_finish : (d.finish mb a b r).twin.detachMb = d.twin.detachMb :=
  (congrArg (fun d : Device => d.twin.detachMb) (d.besideAnswers_finish mb a b r) :)
@[simp] theorem Device.stopS_finish : (d.finish mb a b r).fabric.stopS = d.fabric.stopS :=
  (congrArg (fun d : Device => d.fabric.stopS) (d.besideAnswers_finish mb a b r) :)
@[simp] theorem Device.stopDone_finish : (d.finish mb a b r).fabric.stopDone = d.fabric.stopDone :=
  (congrArg (fun d : Device => d.fabric.stopDone) (d.besideAnswers_finish mb a b r) :)
@[simp] theorem Device.startS_finish : (d.finish mb a b r).fabric.startS = d.fabric.startS :=
  (congrArg (fun d : Device => d.fabric.startS) (d.besideAnswers_finish mb a b r) :)
@[simp] theorem Device.planOn_finish : (d.finish mb a b r).fabric.planOn = d.fabric.planOn :=
  (congrArg (fun d : Device => d.fabric.planOn) (d.besideAnswers_finish mb a b r) :)
@[simp] theorem Device.newPlan_finish : (d.finish mb a b r).fabric.newPlan = d.fabric.newPlan :=
  (congrArg (fun d : Device => d.fabric.newPlan) (d.besideAnswers_finish mb a b r) :)
@[simp] theorem Device.oldPlan_finish : (d.finish mb a b r).fabric.oldPlan = d.fabric.oldPlan :=
  (congrArg (fun d : Device => d.fabric.oldPlan) (d.besideAnswers_finish mb a b r) :)
@[simp] theorem Device.localFrom_finish : (d.finish mb a b r).fabric.localFrom = d.fabric.localFrom :=
  (congrArg (fun d : Device => d.fabric.localFrom) (d.besideAnswers_finish mb a b r) :)
@[simp] theorem Device.device_finish : (d.finish mb a b r).fabric.device = d.fabric.device :=
  (congrArg (fun d : Device => d.fabric.device) (d.besideAnswers_finish mb a b r) :)
@[simp] theorem Device.manager_finish : (d.finish mb a b r).fabric.manager = d.fabric.manager :=
  (congrArg (fun d : Device => d.fabric.manager) (d.besideAnswers_finish mb a b r) :)
@[simp] theorem Device.map_finish : (d.finish mb a b r).fabric.map = d.fabric.map :=
  (congrArg (fun d : Device => d.fabric.map) (d.besideAnswers_finish mb a b r) :)
@[simp] theorem Device.routes_finish : (d.finish mb a b r).fabric.routes = d.fabric.routes :=
  (congrArg (fun d : Device => d.fabric.routes) (d.besideAnswers_finish mb a b r) :)
@[simp] theorem Device.base_finish : (d.finish mb a b r).fabric.base = d.fabric.base :=
  (congrArg (fun d : Device => d.fabric.base) (d.besideAnswers_finish mb a b r) :)

end

/-- A command that is finished is answered: published, or decided and waiting for the host link. -/
theorem Device.answered_finish (d : Device) (mb a b : Nat) (r : List (BitVec 8)) :
    (d.finish mb a b r).answered mb a b = true := by
  unfold Device.finish Device.complete
  split
  · rw [Device.answered, Device.mbx_of_besidePosts ((d.outcome mb a b r).besidePosts_holdWrite _), d.outcome_outcome]
    simp
  · rw [Device.answered, Device.mbx_publish (d.outcome_outcome mb a b r)]
    simp [Mbx.published]

theorem Device.mbx_finish_other (d : Device) {mb m : Nat} (hm : m ≠ mb) (a b : Nat) (r : List (BitVec 8)) :
    (d.finish mb a b r).mbx m = d.mbx m := by
  have decided : (d.outcome mb a b r).mbx m = d.mbx m := Device.mbx_onMbx_other _ _ _ _ hm
  unfold Device.finish Device.complete
  split
  · rw [Device.mbx_of_besidePosts ((d.outcome mb a b r).besidePosts_holdWrite _), decided]
  · rw [Device.mbx_publish_other (d.outcome_outcome mb a b r) hm, decided]

/-- Whether a command is answered is read off its mailbox. -/
theorem Device.answered_congr {d e : Device} {mb : Nat} (h : d.mbx mb = e.mbx mb) (a b : Nat) :
    d.answered mb a b = e.answered mb a b := by
  rw [Device.answered, Device.answered, h]

/-- A refusal is REJECTED_STATE with DETAIL RULE, or SUPERSEDED (R456). -/
theorem Device.answered_refuse (d : Device) (mb : Nat) (bad : Device → Bool) :
    (d.refuse mb bad).answered mb 3 9 = true ∨ (d.refuse mb bad).answered mb 2 0 = true := by
  unfold Device.refuse
  split
  · exact .inl (d.answered_finish mb 3 9 [])
  · exact .inr (d.answered_finish mb 2 0 [])

/-! ### Bytes in memory -/

theorem leBytes_getElem (n x : Nat) {i : Nat} (h : i < (leBytes n x).length) : (leBytes n x)[i] = BitVec.ofNat 8 (x / 256 ^ i) := by
  induction n generalizing x i with
  | zero => simp [leBytes] at h
  | succ n ih =>
    cases i with
    | zero => simp [leBytes]
    | succ i => simp only [leBytes, List.getElem_cons_succ, ih, Nat.div_div_eq_div_mul, Nat.pow_succ, Nat.mul_comm]

theorem get_setMany_leBytes (m : Sparse (BitVec 8)) (a n x : Nat) {i : Nat} (h : i < n) :
    Sparse.get 0 (Sparse.setMany 0 m a (leBytes n x)) (a + i) = BitVec.ofNat 8 (x / 256 ^ i) := by
  have inside : i < (leBytes n x).length := by rwa [leBytes_length]
  rw [Sparse.get_setMany_inside 0 m a i _ inside, leBytes_getElem]

/-! ### The start and the end of a command -/

/-- Settles O17: each row changes the one mailbox, or the ring; what it posts leaves the mailboxes. -/
theorem commandStartAndEnd : Obligations.CommandStartAndEnd := by
  unfold Obligations.CommandStartAndEnd
  refine ⟨fun s mb on next header good => ?_, fun s mb a b on next header => ?_, fun s mb on next header bad => ?_,
    fun s mb a b r low started decided posts => ?_, fun s x rest waiting on room up => ?_⟩
  · refine .row (show _ = execCommandStart s from rfl) ?_
    simp only [on, next, header, good, Bool.not_true, Bool.false_eq_true, if_false]
    simp only [Device.mbx_withBeat, Device.mbx_onMbx_same, Device.mbx_reply, true_and]
    rfl
  · refine .row (show _ = execCommandStart s from rfl) ?_
    simp only [on, next, header, Bool.not_true, Bool.false_eq_true, if_false]
    exact Device.answered_finish _ _ _ _ _
  · refine .row (show _ = execCommandStart s from rfl) ?_
    simp only [on, next, header, bad, Bool.not_true, Bool.false_eq_true, if_false]
    exact Device.answered_refuse _ _ _
  · refine .unitRow (show _ = execCommandComplete mb s from rfl) (by simp [low]) ?_
    rw [if_pos (by simp [started, decided]), Device.complete, posts]
    simp [Device.mbx_publish decided, Mbx.published]
  · refine .row (show _ = execRingEntryWrite s from rfl) ?_
    simp only [Device.ringFlush, waiting, on, room, up, decide_true, Bool.and_self, if_true]
    refine ⟨rfl, rfl, rfl, fun i hi => get_setMany_leBytes _ _ _ _ hi, fun a ha => ?_⟩
    exact Sparse.get_setMany_outside 0 _ _ _ _ (by rwa [leBytes_length])

end Sys2Proof.Machine

/-! PROOFS about what the host writes (R447 to R450, R459, R464): the registers of BAR0, SUBMIT, and BAR2 and mailbox 15. -/

namespace Sys2Proof.Machine

set_option Elab.async false

open Sys2Proof

/-! ### The boxes of BAR0 -/

theorem Sparse.get_upd {α : Type} [DecidableEq α] (d : α) (m : Sparse α) (k : Nat) (f : α → α) (i : Nat) :
    Sparse.get d (Sparse.upd d m k f) i = if i = k then f (Sparse.get d m k) else Sparse.get d m i :=
  Sparse.get_set d m k i _

@[simp] theorem Device.window_onWindow_same (d : Device) (w : Nat) (f : Mbx → Mbx) : (d.onWindow w f).window w = f (d.window w) := by
  simp [Device.window, Device.onWindow, Device.onHub, Sparse.get_upd]

theorem Device.window_onWindow_other (d : Device) (w : Nat) (f : Mbx → Mbx) {x : Nat} (h : x ≠ w) :
    (d.onWindow w f).window x = d.window x := by
  simp [Device.window, Device.onWindow, Device.onHub, Sparse.get_upd, h]

@[simp] theorem Device.mbx_onWindow (d : Device) (w : Nat) (f : Mbx → Mbx) (m : Nat) : (d.onWindow w f).mbx m = d.mbx m := rfl

@[simp] theorem Device.window_onMbx (d : Device) (m : Nat) (f : Mbx → Mbx) (w : Nat) : (d.onMbx m f).window w = d.window w := rfl

@[simp] theorem Device.window_withBeat (d : Device) (b : Beat) (w : Nat) : (d.withBeat b).window w = d.window w := rfl

@[simp] theorem Device.box_withBeat (d : Device) (b : Beat) (n : Nat) : (d.withBeat b).box n = d.box n := rfl

@[simp] theorem Device.box_onBox_same (d : Device) (n : Nat) (f : Mbx → Mbx) : (d.onBox n f).box n = f (d.box n) := by
  unfold Device.box Device.onBox
  split
  · exact d.mbx_onMbx_same n f
  · exact d.window_onWindow_same n f

theorem Device.box_onBox_other (d : Device) (n : Nat) (f : Mbx → Mbx) {m : Nat} (h : m ≠ n) : (d.onBox n f).box m = d.box m := by
  unfold Device.box Device.onBox
  split <;> split
  · exact d.mbx_onMbx_other _ _ _ h
  · rfl
  · rfl
  · exact d.window_onWindow_other _ _ h

@[simp] theorem Device.onBox_cores (d : Device) (n : Nat) (f : Mbx → Mbx) : (d.onBox n f).cores = d.cores := by
  unfold Device.onBox; split <;> rfl

@[simp] theorem Device.onBox_tasks (d : Device) (n : Nat) (f : Mbx → Mbx) : (d.onBox n f).tasks = d.tasks := by
  unfold Device.onBox; split <;> rfl

/-! ### Register writes -/

/-- An aligned write of 4 B or 8 B to a command area (R448). -/
theorem execRegisterWrite_area {s : State} {n o size v : Nat} (reach : s.dev.hostReaches = true) (hn : n < 14)
    (hsize : size = 4 ∨ size = 8) (aligned : o % size = 0) (fits : o + size ≤ 0x800) :
    Becomes (.registerWrite (0x1000 * n + o) size v) s
      (s.dev.onBox n (fun m => { m with area := Sparse.setMany 0 m.area o (leBytes size v) })) := by
  have box : (0x1000 * n + o) / 0x1000 = n := by omega
  have place : (0x1000 * n + o) % 0x1000 = o := by omega
  have ok : accessOk (0x1000 * n + o) size = true := by
    obtain rfl | rfl := hsize <;> simp [accessOk] <;> omega
  refine .lift (show _ = execRegisterWrite (0x1000 * n + o) size v s from rfl) ?_
  rw [if_neg (by simp [reach, ok]), if_pos (by omega)]
  simp only [box, place]
  rw [if_pos (by omega)]

/-- A whole register write takes the value written. -/
theorem mergeReg_whole (old : Nat) {v : Nat} (h : v < 2 ^ 64) : mergeReg old 0 8 v = v := by
  simp only [mergeReg, setBits, bits, Nat.mul_zero, pow_zero, Nat.div_one, Nat.mul_one, Nat.reduceMul]
  omega

theorem Ring.config_base (r : Ring) (v : Nat) : r.config 0xE038 8 v =
    if !r.enable && mergeReg r.base 0 8 v % 4096 = 0 then { r with base := mergeReg r.base 0 8 v } else r := rfl

theorem Ring.config_size (r : Ring) (v : Nat) : r.config 0xE040 8 v =
    if !r.enable && 64 ≤ mergeReg r.size 0 8 v && mergeReg r.size 0 8 v ≤ 65536
      && 2 ^ Nat.log2 (mergeReg r.size 0 8 v) == mergeReg r.size 0 8 v then { r with size := mergeReg r.size 0 8 v } else r := rfl

theorem Device.ringConfig_ring (d : Device) (off size v : Nat) : (d.ringConfig off size v).hub.ring = d.hub.ring.config off size v := by
  unfold Device.ringConfig
  dsimp only
  split <;> rfl

theorem ringConfigWrite_aligned {s : State} (reach : s.dev.hostReaches = true) {off : Nat} (aligned : off % 8 = 0) (v : Nat) :
    Completes (.ringConfigWrite off 8 v) s (fun e => e.hub.ring = s.dev.hub.ring.config off 8 v) := by
  refine .row (show _ = execRingConfigWrite off 8 v s from rfl) ?_
  rw [if_pos (by simp [reach, accessOk, aligned]), Device.withBeat_hub, Device.ringConfig_ring]

theorem ringHeadWrite_taken {s : State} (reach : s.dev.hostReaches = true) (v : Nat) :
    Completes (.ringHeadWrite 8 v) s (fun e => e.hub.ring = s.dev.hub.ring.setHead 0 8 v) := by
  refine .row (show _ = execRingHeadWrite 8 v s from rfl) ?_
  rw [if_pos (by simp [reach]), Device.withBeat_hub, Device.onHub_hub]

/-- Settles O15: each register keeps its own rule, and a write changes nothing else. -/
theorem hostRegisterWrites : Obligations.HostRegisterWrites := by
  unfold Obligations.HostRegisterWrites
  refine ⟨fun s n o size v reach hn hsize aligned fits => ?_, fun s off size v bad => ?_, fun s v reach off hv page => ?_,
    fun s k reach off low high => ?_, fun s v reach hv => ?_⟩
  · refine (execRegisterWrite_area reach hn hsize aligned fits).completes ?_
    rw [← Device.withBeat]
    simp only [Device.box_withBeat, Device.box_onBox_same, Device.withBeat_cores, Device.withBeat_tasks, Device.onBox_cores,
      Device.onBox_tasks, and_true]
    refine ⟨fun a => ?_, fun m hm => s.dev.box_onBox_other n _ hm⟩
    split
    · next inside =>
      obtain ⟨i, rfl⟩ := Nat.exists_eq_add_of_le inside.1
      rw [get_setMany_leBytes _ _ _ _ (by omega), Nat.add_sub_cancel_left]
    · exact Sparse.get_setMany_outside _ _ _ _ _ (by rw [leBytes_length]; omega)
  · refine .row (show _ = execRegisterWrite off size v s from rfl) ?_
    have refused : accessOk off size = false := by
      simp only [accessOk, Bool.and_eq_false_iff, Bool.or_eq_false_iff, beq_eq_false_iff_ne]
      tauto
    rw [if_pos (by simp [refused])]
    rfl
  · refine (ringConfigWrite_aligned reach (by decide) v).mono fun e he => ?_
    rw [he, Ring.config_base, mergeReg_whole _ hv, if_pos (by simp [off, page])]
  · have range : 64 ≤ 2 ^ k ∧ 2 ^ k ≤ 65536 :=
      ⟨Nat.pow_le_pow_right (n := 2) (by omega) low, Nat.pow_le_pow_right (n := 2) (by omega) high⟩
    refine (ringConfigWrite_aligned reach (by decide) _).mono fun e he => ?_
    rw [he, Ring.config_size, mergeReg_whole _ (by omega), if_pos (by simp [off, range])]
  · refine (ringHeadWrite_taken reach v).mono fun e he => ?_
    rw [he, Ring.setHead, mergeReg_whole _ hv]
    dsimp only
    split
    · next taken =>
      rw [if_pos (by simpa [and_assoc] using taken)]
      exact ⟨rfl, rfl⟩
    · next refused => rw [if_neg (by simpa [and_assoc] using refused)]

/-! ### SUBMIT -/

theorem bitAt_zero (x : Nat) : bitAt x 0 = decide (x % 2 = 1) := by
  rw [Bool.eq_iff_iff]; simp [bitAt, bits]

theorem Sparse.get_countIn (m : Sparse (BitVec 64)) (i n j : Nat) :
    Sparse.get 0 (countIn m i n) j = if j = i then Sparse.get 0 m i + BitVec.ofNat 64 n else Sparse.get 0 m j :=
  Sparse.get_upd 0 m i _ j

theorem Device.countHub_one (d : Device) (i : Nat) :
    d.countHub i 1 = d.onHub (fun h => { h with counters := countIn h.counters i 1 }) := rfl

/-- A mailbox with the command that its `cmd` holds PENDING (R450, R452). -/
def Mbx.pended (m : Mbx) (a n : Nat) (aligned : Bool) : Mbx := { m with
  seq := m.hSeq, code := m.hCode, st := 1, status := 0, trunc := false, detail := 0, resultLen := 0, doneW := 0,
  result := [], arrive := a, b := if aligned then (if m.stampBeat = 0 then a else m.stampBeat) else 0, order := n,
  ran := false, outcome := none, held := [], startNo := 0, was := [], copyLeft := none, copyUnits := [], poisonSeen := 0,
  poisonAt := none, compare := none }

theorem Device.mbx_pend (d : Device) (mb a : Nat) :
    (d.pend mb a).mbx mb = (d.mbx mb).pended a d.hub.arrivals d.beat.aligned := by
  unfold Device.pend
  simp only [Device.mbx_reply, Device.mbx_onMbx_same]
  rfl

theorem Device.mbx_pend_other (d : Device) {mb m : Nat} (h : m ≠ mb) (a : Nat) : (d.pend mb a).mbx m = d.mbx m := by
  unfold Device.pend
  simp only [Device.mbx_reply, Device.mbx_onMbx_other _ _ _ _ h]
  rfl

/-- A mailbox that captured a command (R450). -/
def Mbx.taking (m : Mbx) (bytes : List Host.Cell) (source : Option Nat) : Mbx :=
  { m with cmd := bytes, source := source, twin := false }

theorem Device.mbx_twinSend (d : Device) (a b c e f : Nat) (x : List (BitVec 8)) (m : Nat) : (d.twinSend a b c e f x).mbx m = d.mbx m :=
  Device.mbx_of_besidePosts (d.besidePosts_twinSend a b c e f x) m

theorem Device.mbx_accept (d : Device) (mb : Nat) (bytes : List Host.Cell) (source : Option Nat) :
    (d.accept mb bytes source).mbx mb
      = ((d.mbx mb).taking bytes source).pended d.arrivalBeat d.hub.arrivals d.beat.aligned := by
  have pended : ((d.onMbx mb (fun m => m.taking bytes source)).pend mb d.arrivalBeat).mbx mb
      = ((d.mbx mb).taking bytes source).pended d.arrivalBeat d.hub.arrivals d.beat.aligned := by
    rw [Device.mbx_pend, Device.mbx_onMbx_same]; rfl
  unfold Device.accept
  dsimp only
  split
  · rw [Device.mbx_onTwin, Device.mbx_twinSend, ← pended]; rfl
  · exact pended

theorem Device.mbx_accept_other (d : Device) {mb m : Nat} (h : m ≠ mb) (bytes : List Host.Cell) (source : Option Nat) :
    (d.accept mb bytes source).mbx m = d.mbx m := by
  have pended : ((d.onMbx mb (fun m => m.taking bytes source)).pend mb d.arrivalBeat).mbx m = d.mbx m := by
    rw [Device.mbx_pend_other _ h, Device.mbx_onMbx_other _ _ _ _ h]
  unfold Device.accept
  dsimp only
  split
  · rw [Device.mbx_onTwin, Device.mbx_twinSend, ← pended]; rfl
  · exact pended

/-- What a SUBMIT of a mailbox does, by its four cases (R450). -/
theorem Device.submitTo_eq (d : Device) (mb v : Nat) : d.submitTo mb v =
    if v % 2 = 0 then d
    else if (d.mbx mb).busy then d.countHub 10 1
    else if bits (leNat (Sparse.getMany 0 (d.mbx mb).captured 0 64)) 416 32 = v / 2 ^ 32 % 2 ^ 32 then
      d.accept mb (d.mbx mb).captured none
    else d.torn mb (d.mbx mb).captured := by
  unfold Device.submitTo
  obtain even | odd : v % 2 = 0 ∨ v % 2 = 1 := by omega
  · simp [bitAt_zero, even]
  · simp only [bitAt_zero, odd, decide_true, Bool.not_true, Bool.false_eq_true, if_false, Nat.one_ne_zero]
    split
    · rfl
    · by_cases same : bits (leNat (Sparse.getMany 0 (d.mbx mb).captured 0 64)) 416 32 = v / 2 ^ 32 % 2 ^ 32
      · rw [if_pos same, if_neg (by rw [bne_iff_ne]; exact not_not.2 same)]
      · rw [if_neg same, if_pos (by rw [bne_iff_ne]; exact same)]

/-- A SUBMIT keeps at most its high half, in its own box. -/
theorem Device.keepHi_cases (d : Device) (n size val : Nat) :
    d.keepHi n size val = d ∨ ∃ h, d.keepHi n size val = d.onBox n (fun m => { m with submitHi := h }) := by
  unfold Device.keepHi
  split
  · exact .inr ⟨_, rfl⟩
  · exact .inl rfl

theorem Device.box_keepHi (d : Device) (n size val : Nat) : ∃ h, (d.keepHi n size val).box n = { d.box n with submitHi := h } := by
  obtain kept | ⟨h, kept⟩ := d.keepHi_cases n size val <;> rw [kept]
  · exact ⟨_, rfl⟩
  · exact ⟨h, d.box_onBox_same n _⟩

theorem Device.box_keepHi_other (d : Device) {n m : Nat} (h : m ≠ n) (size val : Nat) : (d.keepHi n size val).box m = d.box m := by
  obtain kept | ⟨_, kept⟩ := d.keepHi_cases n size val <;> rw [kept]
  exact d.box_onBox_other n _ h

/-- A device with its mailboxes and windows hidden. -/
def Device.besideBoxes (d : Device) : Device := { d with hub := { d.hub with mbx := [], relay := [] } }

@[simp] theorem Device.besideBoxes_onBox (d : Device) (n : Nat) (f : Mbx → Mbx) : (d.onBox n f).besideBoxes = d.besideBoxes := by
  unfold Device.onBox; split <;> rfl

@[simp] theorem Device.besideBoxes_keepHi (d : Device) (n size val : Nat) : (d.keepHi n size val).besideBoxes = d.besideBoxes := by
  obtain kept | ⟨_, kept⟩ := d.keepHi_cases n size val <;> rw [kept]
  exact d.besideBoxes_onBox n _

theorem Device.mbx_onBox_window (d : Device) {n : Nat} (hn : ¬ n < 12) (f : Mbx → Mbx) (k : Nat) : (d.onBox n f).mbx k = d.mbx k := by
  rw [Device.onBox, if_neg hn]; rfl

theorem Device.mbx_keepHi_window (d : Device) {n : Nat} (hn : ¬ n < 12) (size val k : Nat) :
    (d.keepHi n size val).mbx k = d.mbx k := by
  obtain kept | ⟨_, kept⟩ := d.keepHi_cases n size val <;> rw [kept]
  exact d.mbx_onBox_window hn _ k

theorem Device.mbx_onBox_other (d : Device) {n m : Nat} (h : m ≠ n) (f : Mbx → Mbx) : (d.onBox n f).mbx m = d.mbx m := by
  unfold Device.onBox
  split
  · exact d.mbx_onMbx_other _ _ _ h
  · rfl

theorem Device.mbx_keepHi_other (d : Device) {n m : Nat} (h : m ≠ n) (size val : Nat) : (d.keepHi n size val).mbx m = d.mbx m := by
  obtain kept | ⟨_, kept⟩ := d.keepHi_cases n size val <;> rw [kept]
  exact d.mbx_onBox_other h _

theorem Device.keepHi_busy {d : Device} {n : Nat} (h : (d.box n).busy = true) (size val : Nat) : d.keepHi n size val = d := by
  simp [Device.keepHi, h]

theorem Device.box_of_lt (d : Device) {n : Nat} (h : n < 12) : d.box n = d.mbx n := if_pos h

theorem Device.box_of_not_lt (d : Device) {n : Nat} (h : ¬ n < 12) : d.box n = d.window n := if_neg h

/-- SUBMIT of a mailbox of the host (R450). -/
theorem execSubmit_mailbox {s : State} {n size val : Nat} (reach : s.dev.hostReaches = true) (hn : n < 12)
    (hsize : size = 4 ∨ size = 8) {P : Device → Prop}
    (h : P (((s.dev.keepHi n size val).submitTo n (s.dev.submitVal n size val)).withBeat s.dev.beat)) :
    Completes (.submit n size val) s P := by
  refine .unitRow (show _ = execSubmit n size val s from rfl) (by simp only [decide_eq_true_eq]; omega) ?_
  rwa [if_pos (by obtain rfl | rfl := hsize <;> simp [reach]), if_neg (by simp only [Bool.and_eq_true, decide_eq_true_eq]; omega),
    Device.writeSubmit, if_pos hn]

theorem submit_mailbox {s : State} {n size val : Nat} (reach : s.dev.hostReaches = true) (hn : n < 12)
    (hsize : size = 4 ∨ size = 8) :
    let v := s.dev.submitVal n size val
    let m := s.dev.mbx n
    let seq := bits (leNat (Sparse.getMany 0 m.captured 0 64)) 416 32
    (v % 2 = 1 → m.busy = false → seq = v / 2 ^ 32 % 2 ^ 32 →
      Completes (.submit n size val) s (fun e => (e.mbx n).st = 1 ∧ (e.mbx n).seq = v / 2 ^ 32 % 2 ^ 32
        ∧ (e.mbx n).cmd = m.captured ∧ (e.mbx n).arrive = (if s.dev.beat.aligned then s.dev.beat.w + 1 else 0)
        ∧ ∀ x, x ≠ n → e.mbx x = s.dev.mbx x))
    ∧ (v % 2 = 1 → m.busy = true →
      Completes (.submit n size val) s (fun e => (e.mbx n).st = m.st ∧ (e.mbx n).cmd = m.cmd
        ∧ Sparse.get 0 e.hub.counters 10 = Sparse.get 0 s.dev.hub.counters 10 + 1))
    ∧ (v % 2 = 0 → Completes (.submit n size val) s (fun e => (e.mbx n).st = m.st ∧ (e.mbx n).cmd = m.cmd))
    ∧ (v % 2 = 1 → m.busy = false → seq ≠ v / 2 ^ 32 % 2 ^ 32 →
      Completes (.submit n size val) s (fun e => e.answered n 3 8 = true)) := by
  intro v m seq
  obtain ⟨hi, own⟩ := s.dev.box_keepHi n size val
  rw [Device.box_of_lt _ hn, Device.box_of_lt _ hn] at own
  have free : ((s.dev.keepHi n size val).mbx n).busy = m.busy := by rw [own]; rfl
  have area : ((s.dev.keepHi n size val).mbx n).captured = m.captured := by rw [own]; rfl
  have beat : (s.dev.keepHi n size val).beat = s.dev.beat := (congrArg Device.beat (s.dev.besideBoxes_keepHi n size val) :)
  refine ⟨fun odd idle same => ?_, fun odd taken => ?_, fun even => ?_, fun odd idle torn => ?_⟩ <;>
    refine execSubmit_mailbox reach hn hsize ?_ <;> rw [Device.submitTo_eq]
  · rw [if_neg (by omega), if_neg (by simp [free, idle]), area, if_pos same]
    simp only [Device.mbx_withBeat, Device.mbx_accept]
    refine ⟨rfl, ?_, rfl, ?_, fun x hx => ?_⟩
    · rw [← same]; rfl
    · show (s.dev.keepHi n size val).arrivalBeat = _
      rw [Device.arrivalBeat, beat]
    · rw [Device.mbx_accept_other _ hx, s.dev.mbx_keepHi_other hx]
  · rw [if_neg (by omega), if_pos (by rw [free, taken]), Device.keepHi_busy (by rw [Device.box_of_lt _ hn]; exact taken)]
    refine ⟨rfl, rfl, ?_⟩
    rw [Device.withBeat_hub, Device.countHub_one, Device.onHub_hub, Sparse.get_countIn, if_pos rfl]
    rfl
  · rw [if_pos even, Device.mbx_withBeat, own]
    exact ⟨rfl, rfl⟩
  · rw [if_neg (by omega), if_neg (by simp [free, idle]), area, if_neg torn]
    exact Device.answered_finish _ _ _ _ _

/-! ### Relay windows -/

/-- Whether the layout is right is read off the captured bytes. -/
theorem Mbx.layoutBad_congr {m n : Mbx} (h : m.cmd = n.cmd) (target : Bool) : m.layoutBad target = n.layoutBad target := by
  simp only [Mbx.layoutBad, Mbx.body, Mbx.hdrReserved, Mbx.hCode, Mbx.bodyLen, Mbx.target, Mbx.hdr, h]

/-- A relay window with a command PENDING. -/
theorem Device.window_windowPend (d : Device) (w : Nat) (cells : List Host.Cell) :
    let x : Mbx := { Mbx.reset with cmd := cells }
    let m := (d.windowPend w cells).window w
    m.st = 1 ∧ m.seq = x.hSeq ∧ m.code = x.hCode ∧ m.cmd = cells := by
  have own : (d.windowPend w cells).window w = _ := d.window_onWindow_same w _
  intro x m
  simp only [m, own]
  exact ⟨trivial, rfl, rfl, trivial⟩

@[simp] theorem Device.hub_sendPacket (d : Device) (dev : Nat) (pk : Packet) : (d.sendPacket dev pk).hub = d.hub := by
  unfold Device.sendPacket
  dsimp only
  split
  · rfl
  · split <;> rfl

@[simp] theorem Device.hub_mgmtPieces (d : Device) (dev mb : Nat) (r : Bool) (off : Nat) (x : List (BitVec 8)) :
    (d.mgmtPieces dev mb r off x).hub = d.hub :=
  foldl_keeps Device.hub _ (fun d _ => by unfold Device.mgmtSend; rw [Device.hub_sendPacket]; rfl) _ _

theorem submit_relay {s : State} {n size val : Nat} (reach : s.dev.hostReaches = true) (hn : n = 12 ∨ n = 13)
    (hsize : size = 4 ∨ size = 8) :
    let v := s.dev.submitVal n size val
    let m := s.dev.window n
    let x : Mbx := { Mbx.reset with cmd := m.captured }
    v % 2 = 1 → m.busy = false → x.hSeq = v / 2 ^ 32 % 2 ^ 32 → x.layoutBad true = false → x.target ≠ s.dev.devNum →
    Completes (.submit n size val) s (fun e => (e.window n).st = 1 ∧ (e.window n).seq = x.hSeq ∧ (e.window n).code = x.hCode
      ∧ ∀ k, e.mbx k = s.dev.mbx k) := by
  intro v m x odd idle same layout away
  have high : ¬ n < 12 := by omega
  obtain ⟨hi, own⟩ := s.dev.box_keepHi n size val
  rw [Device.box_of_not_lt _ high, Device.box_of_not_lt _ high] at own
  have device : (s.dev.keepHi n size val).devNum = s.dev.devNum :=
    (congrArg Device.devNum (s.dev.besideBoxes_keepHi n size val) :)
  have mailboxes (k : Nat) := s.dev.mbx_keepHi_window high size val k
  refine .unitRow (show _ = execSubmit n size val s from rfl) (by simp only [decide_eq_true_eq]; omega) ?_
  rw [if_pos (by obtain rfl | rfl := hsize <;> simp [reach]), if_neg (by simp [Device.abandons, show (s.dev.window n).busy = false from idle]),
    Device.writeSubmit, if_neg high]
  generalize s.dev.keepHi n size val = e at *
  obtain ⟨st, seq, code, cmd⟩ := e.window_windowPend n m.captured
  have free : (e.window n).busy = false := by rw [own]; exact idle
  have area : (e.window n).captured = m.captured := by rw [own]; rfl
  have hub : (e.submitRelay n v).hub = (e.windowPend n m.captured).hub := by
    unfold Device.submitRelay
    dsimp only
    have sequence : ((e.windowPend n m.captured).window n).hSeq = v / 2 ^ 32 % 2 ^ 32 := by
      rw [← same, Mbx.hSeq, Mbx.hdr, cmd]; rfl
    have shape : ((e.windowPend n m.captured).window n).layoutBad true = false := by
      rw [← layout]; exact Mbx.layoutBad_congr cmd true
    have target : ((e.windowPend n m.captured).window n).target ≠ e.devNum := by
      rw [device, Mbx.target, Mbx.hdr, cmd]; exact away
    have home : (e.windowPend n m.captured).devNum = e.devNum := rfl
    rw [if_neg (by simp [bitAt_zero, odd]), if_neg (by simp [free]), area,
      if_neg (by rw [sequence, bne_iff_ne]; exact not_not.2 rfl), if_neg (by simp [shape]), home, if_neg target, Device.hub_mgmtPieces]
  have window : (e.submitRelay n v).window n = (e.windowPend n m.captured).window n := by rw [Device.window, hub]; rfl
  rw [Device.window_withBeat, window]
  refine ⟨st, seq, code, fun k => ?_⟩
  rw [Device.mbx_withBeat, ← mailboxes k, Device.mbx, hub]
  rfl

/-- Settles O16: the mailbox or the window that a SUBMIT names takes the command, and keeps nothing else of the write but its high
half. -/
theorem submitRows : Obligations.SubmitRows := by
  unfold Obligations.SubmitRows
  refine ⟨fun s n size val reach hn hsize => submit_mailbox reach hn hsize, fun s n size val reach hn hsize => submit_relay reach hn hsize,
    fun s n v reach hn hv low busy seq => ?_⟩
  have whole : s.dev.submitVal n 8 v = v := by simp only [Device.submitVal, if_true]; omega
  have leaves : s.dev.abandons n v = true := by
    simp only [Device.abandons, busy, bitAt_zero, Bool.true_and, Bool.and_eq_true, decide_eq_true_eq, beq_iff_eq]
    refine ⟨⟨by omega, ?_⟩, ?_⟩
    · simp only [bitAt, bits, beq_iff_eq]; omega
    · rw [← seq]; simp only [bits]; omega
  refine .unitRow (show _ = execRelayAbandon n 8 v s from rfl) (by simpa using hn) ?_
  rw [if_pos (by simp [reach, whole, leaves])]
  obtain ⟨hi, own⟩ := (s.dev.abandon n).box_keepHi n 8 v
  have beside : (s.dev.abandonBy n 8 v).besideBoxes = (s.dev.abandon n).besideBoxes := Device.besideBoxes_keepHi _ n 8 v
  rw [Device.box_of_not_lt _ (by omega), Device.box_of_not_lt _ (by omega)] at own
  refine ⟨?_, (congrArg Device.cores beside :), (congrArg Device.tasks beside :)⟩
  rw [Device.window_withBeat, Device.abandonBy, own]
  exact congrArg Mbx.st (s.dev.window_onWindow_same n _)

end Sys2Proof.Machine

/-! PROOFS about reads and writes of hub staging and DRAM as the device makes them (R253, R257, R288, R422, R532): the memory changes
as `Mem.write` says, and beside it counts, records and the notes that the tasks, the logger and an attach keep. -/

namespace Sys2Proof.Machine

set_option Elab.async false

open Sys2Proof

/-- A device with its books hidden: counts and records, the tasks with the notes of their windows, the logger, the stacks' counts,
and what an attach or a pair notes of a write. -/
def Device.besideBooks (d : Device) : Device := { d with
  hub := { d.hub with health := [], healthNext := 0, counters := [] }
  twin := { d.twin with dirty := [], repairs := [], outbox := [] }
  tasks := [], logger := Logger.reset, stackRecs := [] }

section
variable {d e : Device} (h : d.besideBooks = e.besideBooks)
include h

theorem Device.staging_of_besideBooks : d.staging = e.staging := (congrArg Device.staging h :)
theorem Device.dram_of_besideBooks : d.dram = e.dram := (congrArg Device.dram h :)
theorem Device.cores_of_besideBooks : d.cores = e.cores := (congrArg Device.cores h :)
theorem Device.beat_of_besideBooks : d.beat = e.beat := (congrArg Device.beat h :)
theorem Device.fabric_of_besideBooks : d.fabric = e.fabric := (congrArg Device.fabric h :)
theorem Device.host_of_besideBooks : d.host = e.host := (congrArg Device.host h :)
theorem Device.mbx_of_besideBooks (m : Nat) : d.mbx m = e.mbx m := (congrArg (fun d : Device => d.mbx m) h :)
theorem Device.withStaging_of_besideBooks (m : Mem) :
    ({ d with staging := m } : Device).besideBooks = ({ e with staging := m } : Device).besideBooks :=
  (congrArg (fun d : Device => ({ d with staging := m } : Device)) h :)
theorem Device.withDram_of_besideBooks (m : Mem) :
    ({ d with dram := m } : Device).besideBooks = ({ e with dram := m } : Device).besideBooks :=
  (congrArg (fun d : Device => ({ d with dram := m } : Device)) h :)

end

@[simp] theorem Device.besideBooks_onTask (d : Device) (t : Nat) (f : Task → Task) : (d.onTask t f).besideBooks = d.besideBooks := rfl
@[simp] theorem Device.besideBooks_onStack (d : Device) (k : Nat) (f : Stack → Stack) : (d.onStack k f).besideBooks = d.besideBooks :=
  rfl
@[simp] theorem Device.besideBooks_log (d : Device) (r : HealthRec) : (d.log r).besideBooks = d.besideBooks := by
  rw [Device.log_eq]
  rfl
@[simp] theorem Device.besideBooks_event (d : Device) (a b c e f g : Nat) : (d.event a b c e f g).besideBooks = d.besideBooks :=
  d.besideBooks_log _
@[simp] theorem Device.besideBooks_countHub (d : Device) (i n : Nat) : (d.countHub i n).besideBooks = d.besideBooks := by
  unfold Device.countHub; split <;> rfl
@[simp] theorem Device.besideBooks_countStack (d : Device) (k i n : Nat) : (d.countStack k i n).besideBooks = d.besideBooks := by
  unfold Device.countStack; split <;> rfl

@[simp] theorem Device.besideBooks_digestWrite (d : Device) (l : List Nat) (a : Nat) (bs : List (BitVec 8)) :
    (d.digestWrite l a bs).besideBooks = d.besideBooks := by
  unfold Device.digestWrite
  split
  · exact foldl_keeps Device.besideBooks _ (fun d t => d.besideBooks_onTask t _) l d
  · rfl

@[simp] theorem Device.besideBooks_markDirty (d : Device) (kind k : Nat) : (d.markDirty kind k).besideBooks = d.besideBooks := by
  unfold Device.markDirty; split <;> rfl

@[simp] theorem Device.besideBooks_retireBlock (d : Device) (b : Nat) : (d.retireBlock b).besideBooks = d.besideBooks := by
  unfold Device.retireBlock
  dsimp only
  split <;> simp

@[simp] theorem Device.besideBooks_dramUe (d : Device) (a n : Nat) : (d.dramUe a n).besideBooks = d.besideBooks := by
  unfold Device.dramUe
  dsimp only
  split <;> simp

@[simp] theorem Device.besideBooks_consume (d : Device) (t c a source n : Nat) :
    (d.consume t c a source n).besideBooks = d.besideBooks := by
  unfold Device.consume; split <;> simp

@[simp] theorem Device.besideBooks_logRecord (d : Device) (t kind : Nat) (core : Option Nat) (detail : Nat) (x : List (BitVec 8)) :
    (d.logRecord t kind core detail x).besideBooks = d.besideBooks := by
  unfold Device.logRecord
  dsimp only
  split_ifs <;> exact d.besideBooks_onTask t (fun k => { k with logSeq := k.logSeq + 1 })

@[simp] theorem Device.besideBooks_logEvent (d : Device) (t kind : Nat) (core : Option Nat) (detail : Nat) (x : List (BitVec 8)) :
    (d.logEvent t kind core detail x).besideBooks = d.besideBooks := by
  unfold Device.logEvent; split <;> simp

@[simp] theorem Device.besideBooks_hostLanded (d : Device) (kind a : Nat) (bs : List (BitVec 8)) :
    (d.hostLanded kind a bs).besideBooks = d.besideBooks :=
  foldl_keeps Device.besideBooks _ (fun _ t =>
    foldl_keeps Device.besideBooks _ (fun d _ =>
      (foldl_keeps Device.besideBooks _ (fun d _ => d.besideBooks_logEvent t 3 _ _ _) _ _).trans (d.besideBooks_onTask t _)) _ _) _ _

/-- A write of the part's own areas of staging changes staging as a memory, beside its books. -/
theorem Device.besideBooks_stagePut (d : Device) (a : Nat) (data : List (BitVec 8 × Bool)) :
    (d.stagePut a data).besideBooks = ({ d with staging := (d.staging.write 8 a data).mem } : Device).besideBooks := by
  unfold Device.stagePut
  dsimp only
  rw [foldl_keeps Device.besideBooks _ (fun d g => d.besideBooks_markDirty 2 g),
    foldl_keeps Device.besideBooks _ (fun d x => d.besideBooks_event 0x0004 1 4 0 x 0), Device.besideBooks_countHub,
    Device.besideBooks_countHub]

theorem Device.besideBooks_stageWrite (d : Device) (a : Nat) (data : List (BitVec 8 × Bool)) :
    (d.stageWrite a data).besideBooks = ({ d with staging := (d.staging.write 8 a data).mem } : Device).besideBooks := by
  have digest := d.besideBooks_digestWrite (d.stageWindowSlots a data.length) a (data.map (·.1))
  rw [Device.stageWrite, Device.besideBooks_stagePut, Device.staging_of_besideBooks digest]
  exact Device.withStaging_of_besideBooks digest _

theorem Device.besideBooks_stageRead (d : Device) (a n : Nat) :
    (d.stageRead a n).2.besideBooks = ({ d with staging := (d.staging.read 8 a n).mem } : Device).besideBooks := by
  unfold Device.stageRead
  dsimp only
  rw [foldl_keeps Device.besideBooks _ (fun d x => d.besideBooks_event 0x0004 0 4 0 x 0), Device.besideBooks_countHub,
    Device.besideBooks_countHub, Device.besideBooks_countHub]

theorem Device.besideBooks_dramWrite (d : Device) (a : Nat) (data : List (BitVec 8 × Bool)) :
    (d.dramWrite a data).besideBooks = ({ d with dram := (d.dram.write 32 a data).mem } : Device).besideBooks := by
  unfold Device.dramWrite
  dsimp only
  rw [foldl_keeps Device.besideBooks _ (fun d g => d.besideBooks_markDirty 1 g), Device.besideBooks_digestWrite,
    foldl_keeps Device.besideBooks _ (fun d x => d.besideBooks_dramUe x 7),
    foldl_keeps Device.besideBooks _ (fun d x => d.besideBooks_countStack (x / stackBytes) 1 1)]

theorem Device.besideBooks_dramRead (d : Device) (a n : Nat) :
    (d.dramRead a n).2.besideBooks = ({ d with dram := (d.dram.read 32 a n).mem } : Device).besideBooks := by
  unfold Device.dramRead
  dsimp only
  rw [foldl_keeps Device.besideBooks _ (fun d x => d.besideBooks_dramUe x 6),
    foldl_keeps Device.besideBooks _ (fun d x => d.besideBooks_countStack (x / stackBytes) 1 1)]

/-- A host write that lands in staging is a write of staging. -/
theorem Device.besideBooks_hostStore_staging (d : Device) (a : Nat) (bs : List (BitVec 8)) :
    (d.hostStore 2 a bs).besideBooks = ({ d with staging := (d.staging.write 8 a (unmarked bs)).mem } : Device).besideBooks := by
  rw [Device.hostStore, Device.besideBooks_hostLanded]
  exact d.besideBooks_stageWrite a (unmarked bs)

theorem Device.besideBooks_hostStore_dram (d : Device) (a : Nat) (bs : List (BitVec 8)) :
    (d.hostStore 1 a bs).besideBooks = ({ d with dram := (d.dram.write 32 a (unmarked bs)).mem } : Device).besideBooks := by
  rw [Device.hostStore, Device.besideBooks_hostLanded]
  exact d.besideBooks_dramWrite a (unmarked bs)

end Sys2Proof.Machine

/-! PROOFS about BAR2 and mailbox 15 over SMBus (R273, R465, R510). -/

namespace Sys2Proof.Machine

set_option Elab.async false

open Sys2Proof

/-! ### The hub counters -/

/-- A hub counter. -/
def Device.hubCount (d : Device) (i : Nat) : BitVec 64 := Sparse.get 0 d.hub.counters i

theorem Device.hubCount_countHub_same (d : Device) (i : Nat) : (d.countHub i 1).hubCount i = d.hubCount i + 1 := by
  rw [Device.hubCount, Device.countHub_one, Device.onHub_hub, Sparse.get_countIn, if_pos rfl]; rfl

theorem Device.hubCount_countHub_other (d : Device) {i j : Nat} (n : Nat) (h : j ≠ i) : (d.countHub i n).hubCount j = d.hubCount j := by
  unfold Device.countHub
  split
  · rfl
  · exact (Sparse.get_countIn d.hub.counters i n j).trans (if_neg h)

/-- A record counts at most itself as one that was lost. -/
theorem Device.hubCount_event (d : Device) {j : Nat} (h : j ≠ 17) (a b c e f g : Nat) : (d.event a b c e f g).hubCount j = d.hubCount j := by
  rw [Device.event_eq, Device.hubCount, Device.onHub_hub, Hub.logged]
  dsimp only
  split
  · rfl
  · rw [Sparse.get_countIn, if_neg h]; rfl

@[simp] theorem Device.hub_digestWrite (d : Device) (l : List Nat) (a : Nat) (bs : List (BitVec 8)) :
    (d.digestWrite l a bs).hub = d.hub := by
  unfold Device.digestWrite
  split
  · exact foldl_keeps Device.hub _ (fun d t => d.onTask_hub t _) l d
  · rfl

@[simp] theorem Device.hub_markDirty (d : Device) (kind k : Nat) : (d.markDirty kind k).hub = d.hub := by
  unfold Device.markDirty; split <;> rfl

@[simp] theorem Device.hub_logRecord (d : Device) (t kind : Nat) (core : Option Nat) (detail : Nat) (x : List (BitVec 8)) :
    (d.logRecord t kind core detail x).hub = d.hub := by
  unfold Device.logRecord
  dsimp only
  split_ifs <;> exact d.onTask_hub t (fun k => { k with logSeq := k.logSeq + 1 })

@[simp] theorem Device.hub_logEvent (d : Device) (t kind : Nat) (core : Option Nat) (detail : Nat) (x : List (BitVec 8)) :
    (d.logEvent t kind core detail x).hub = d.hub := by
  unfold Device.logEvent; split <;> simp

@[simp] theorem Device.hub_hostLanded (d : Device) (kind a : Nat) (bs : List (BitVec 8)) : (d.hostLanded kind a bs).hub = d.hub :=
  foldl_keeps Device.hub _ (fun _ t =>
    foldl_keeps Device.hub _ (fun d _ =>
      (foldl_keeps Device.hub _ (fun d _ => d.hub_logEvent t 3 _ _ _) _ _).trans (d.onTask_hub t _)) _ _) _ _

/-- A write of staging counts errors that it met, and no dropped host write. -/
theorem Device.hubCount_hostStore_staging (d : Device) (a : Nat) (bs : List (BitVec 8)) :
    (d.hostStore 2 a bs).hubCount 8 = d.hubCount 8 := by
  have noted (d : Device) (l : List Nat) : (l.foldl (fun d g => d.markDirty 2 g) d).hubCount 8 = d.hubCount 8 :=
    congrArg (fun h : Hub => Sparse.get 0 h.counters 8) (foldl_keeps Device.hub _ (fun d g => d.hub_markDirty 2 g) l d)
  have recorded (d : Device) (l : List Nat) : (l.foldl (fun d x => d.event 0x0004 1 4 0 x 0) d).hubCount 8 = d.hubCount 8 :=
    foldl_keeps (fun d : Device => d.hubCount 8) _ (fun d x => d.hubCount_event (by decide) 0x0004 1 4 0 x 0) l d
  have landed : (d.hostStore 2 a bs).hubCount 8 = (d.stageWrite a (unmarked bs)).hubCount 8 :=
    congrArg (fun h : Hub => Sparse.get 0 h.counters 8) ((d.stageWrite a (unmarked bs)).hub_hostLanded 2 a bs)
  rw [landed, Device.stageWrite, Device.stagePut, noted, recorded, Device.hubCount_countHub_other _ _ (by decide),
    Device.hubCount_countHub_other _ _ (by decide)]
  exact congrArg (fun h : Hub => Sparse.get 0 h.counters 8) (d.hub_digestWrite _ _ _)

/-! ### BAR2 -/

/-- A host input as each role takes it (R509, R510). -/
theorem Device.hubCount_hostInput_staging (d : Device) (a : Nat) (bs : List (BitVec 8)) :
    (d.hostInput 2 a bs).hubCount 8 = d.hubCount 8 := by
  unfold Device.hostInput
  split
  · rfl
  · split
    · rfl
    · exact d.hubCount_hostStore_staging a bs

/-- Data of which every byte takes effect is one run. -/
theorem bar2Runs_all {lands : Nat → Bool} {a : Nat} {data : List (BitVec 8)} (some_ : data ≠ [])
    (all : ∀ i, i < data.length → lands (a + i) = true) : bar2Runs lands a data = [(a, data)] := by
  induction data generalizing a with
  | nil => exact absurd rfl some_
  | cons b rest ih =>
    have first : lands a = true := all 0 (by simp)
    by_cases last : rest = []
    · subst last; simp [bar2Runs, first]
    · have more := ih (a := a + 1) last fun i hi => by
        have := all (i + 1) (by simpa using hi)
        rwa [Nat.add_assoc, Nat.add_comm 1]
      simp [bar2Runs, first, more]

/-- A BAR2 write of at most 2,048 bytes that all take effect is one host input. -/
theorem execBar2Write_all {s : State} {o : Nat} {data : List (BitVec 8)} (reach : s.dev.hostReaches = true)
    (role : s.dev.twin.role ≠ 5) (low : 1 ≤ data.length) (high : data.length ≤ 2048)
    (all : ∀ i, i < data.length → s.dev.bar2Lands (o + i) = true) :
    execBar2Write o data s = lift (fun d => d.hostInput 2 o data) s := by
  have whole : ((List.range data.length).any fun i => !s.dev.bar2Lands (o + i)) = false := by
    simpa using all
  have pieces : (data.length + 2047) / 2048 = 1 := by omega
  have runs := bar2Runs_all (lands := s.dev.bar2Lands) (a := o) (data := data) (by rintro rfl; simp at low) all
  simp only [execBar2Write, lift, reach, role, whole, runs, List.foldl_cons, List.foldl_nil, pieces, List.range_one, Nat.mul_zero,
    Nat.add_zero, List.drop_zero, List.take_of_length_le high]
  rfl

/-- A BAR2 write one byte of which lies in the part's own areas counts as dropped. -/
theorem bar2Write_dropped {s : State} {o : Nat} {data : List (BitVec 8)} (reach : s.dev.hostReaches = true)
    (role : s.dev.twin.role ≠ 5) (own : ∃ i, i < data.length ∧ 0x9000000 ≤ o + i) :
    Completes (.bar2Write o data) s (fun e => e.hubCount 8 = s.dev.hubCount 8 + 1) := by
  obtain ⟨i, hi, high⟩ := own
  have lost : ((List.range data.length).any fun i => !s.dev.bar2Lands (o + i)) = true := by
    refine List.any_eq_true.2 ⟨i, List.mem_range.2 hi, ?_⟩
    simp only [Device.bar2Lands, Bool.not_eq_true', Bool.and_eq_false_iff, decide_eq_false_iff_not]
    exact .inl (.inr (by omega))
  refine .row (show _ = execBar2Write o data s from rfl) ?_
  rw [if_neg (by simp [reach, role]), lost]
  refine (Device.hubCount_countHub_same _ 8).trans (congrArg (· + 1) ?_)
  exact foldl_keeps (fun d : Device => d.hubCount 8) _ (fun d r =>
    foldl_keeps (fun d : Device => d.hubCount 8) _ (fun d i => d.hubCount_hostInput_staging _ _) _ d) _ _

/-! ### Mailbox 15 -/

/-- A byte at the pointer of mailbox 15 that does not complete SUBMIT is stored, and the pointer moves on. -/
theorem Device.smbByte_stored {d : Device} (h : d.hub.smbPtr < 0x807) (b : BitVec 8) :
    d.smbByte b = (d.onHub (fun h => { h with smbPtr := d.hub.smbPtr + 1 })).onMbx 15
      (fun m => { m with area := Sparse.set 0 m.area d.hub.smbPtr b }) := by
  have next : (d.hub.smbPtr + 1) % 4096 = d.hub.smbPtr + 1 := Nat.mod_eq_of_lt (by omega)
  unfold Device.smbByte
  dsimp only
  rw [if_pos (by omega), if_neg (by omega), next]

/-- A block within the command area is stored from the pointer on. -/
theorem Device.foldl_smbByte {d : Device} {data : List (BitVec 8)} (h : d.hub.smbPtr + data.length ≤ 0x800) :
    (data.foldl (fun d b => d.smbByte b) d).hub.smbPtr = d.hub.smbPtr + data.length
      ∧ ((data.foldl (fun d b => d.smbByte b) d).mbx 15).area = Sparse.setMany 0 (d.mbx 15).area d.hub.smbPtr data := by
  induction data generalizing d with
  | nil => exact ⟨rfl, rfl⟩
  | cons b rest ih =>
    rw [List.length_cons] at h
    have byte := Device.smbByte_stored (d := d) (by omega) b
    have ptr : (d.smbByte b).hub.smbPtr = d.hub.smbPtr + 1 := by rw [byte]; rfl
    have area : ((d.smbByte b).mbx 15).area = Sparse.set 0 (d.mbx 15).area d.hub.smbPtr b := by
      rw [byte, Device.mbx_onMbx_same]; rfl
    obtain ⟨pointer, stored⟩ := ih (d := d.smbByte b) (by omega)
    rw [List.foldl_cons, pointer, stored, ptr, area, List.length_cons]
    exact ⟨by omega, rfl⟩

theorem smbBlockWrite_submits {s : State} {b : BitVec 8} (on : s.dev.smbServes = true) (ptr : s.dev.hub.smbPtr = 0x807)
    (idle : (s.dev.mbx 15).busy = false) :
    let m : Mbx := { s.dev.mbx 15 with area := Sparse.set 0 (s.dev.mbx 15).area 0x807 b }
    let v := leNat (Sparse.getMany 0 m.area 0x800 8)
    v % 2 = 1 → bits (leNat (Sparse.getMany 0 m.captured 0 64)) 416 32 = v / 2 ^ 32 →
    Completes (.smbBlockWrite true [b]) s (fun e => (e.mbx 15).st = 1 ∧ (e.mbx 15).cmd = m.captured
      ∧ (e.mbx 15).seq = v / 2 ^ 32) := by
  intro m v odd same
  have eight : (Sparse.getMany 0 m.area 0x800 8).length = 8 := by simp [Sparse.getMany]
  have bound : v < 2 ^ 64 := by have := leNat_lt (Sparse.getMany 0 m.area 0x800 8); rw [eight] at this; exact this
  have seq : v / 2 ^ 32 % 2 ^ 32 = v / 2 ^ 32 := Nat.mod_eq_of_lt (by omega)
  refine .row (show _ = execSmbBlockWrite true [b] s from rfl) ?_
  rw [if_pos (by simp [on])]
  simp only [List.foldl_cons, List.foldl_nil, Device.smbByte, ptr]
  rw [if_pos (by decide), if_pos trivial]
  generalize hd : (s.dev.onHub (fun h => { h with smbPtr := (0x807 + 1) % 4096 })).onMbx 15
    (fun m => { m with area := Sparse.set 0 m.area 0x807 b }) = d
  have box : d.mbx 15 = m := by rw [← hd, Device.mbx_onMbx_same]; rfl
  rw [Device.mbx_withBeat, Device.submitTo_eq, box, if_neg (by omega), if_neg (by rw [show m.busy = (s.dev.mbx 15).busy from rfl, idle]; decide),
    if_pos (same.trans seq.symm), Device.mbx_accept]
  exact ⟨rfl, rfl, same⟩

/-- Settles O18: a host input is one write of staging, and mailbox 15 takes its bytes one by one. -/
theorem bar2AndSmbus : Obligations.Bar2AndSmbus := by
  unfold Obligations.Bar2AndSmbus
  refine ⟨fun s o data reach primary shadow low high all => ?_, fun s o data reach primary low high all => ?_,
    fun s o data shadow => ?_, fun s o data reach role own => bar2Write_dropped reach role own, fun s p on => ?_,
    fun s data on low high fits => ?_, fun s b on ptr idle => smbBlockWrite_submits on ptr idle, fun s on => ?_, fun s p data => ⟨?_, ?_, ?_⟩⟩
  · refine .row ((show _ = execBar2Write o data s from rfl).trans (execBar2Write_all reach shadow low high all)) ?_
    rw [Device.hostInput, if_neg primary, if_neg shadow]
    have stored := Device.staging_of_besideBooks (s.dev.besideBooks_hostStore_staging o data)
    refine ⟨?_, s.dev.hubCount_hostStore_staging o data⟩
    rw [Device.withBeat_staging, stored, Mem.write_bytes, unmarked, List.map_map]
    simp [Function.comp_def]
  · refine .row ((show _ = execBar2Write o data s from rfl).trans
      (execBar2Write_all reach (by omega) low high all)) ?_
    rw [Device.hostInput, if_pos primary]
    exact ⟨rfl, rfl⟩
  · refine .row (show _ = execBar2Write o data s from rfl) ?_
    rw [if_pos (by simp [shadow])]
    rfl
  · refine .lift (show _ = execSmbSetPointer true p s from rfl) ?_
    rw [if_pos (by simp [on])]
    rfl
  · refine .row (show _ = execSmbBlockWrite true data s from rfl) ?_
    rw [if_pos (by simp [on, low, high])]
    exact Device.foldl_smbByte fits
  · refine .row (show _ = execSmbBlockRead true s from rfl) ?_
    rw [if_pos (by simp [on])]
    exact ⟨rfl, rfl⟩
  · exact .row (show _ = execSmbSetPointer false p s from rfl) rfl
  · exact .row (show _ = execSmbBlockWrite false data s from rfl) rfl
  · exact .row (show _ = execSmbBlockRead false s from rfl) rfl

end Sys2Proof.Machine

/-! PROOFS about commands that answer or register (R455, R461, R470 to R476, R571): the step of a command runs once, on the device
with its mailbox marked, and answers or ends its holds. -/

namespace Sys2Proof.Machine

set_option Elab.async false

open Sys2Proof

/-! ### The step of a command -/

/-- A device in which the step of the command in mailbox mb runs. -/
def Device.inStepOf (d : Device) (mb : Nat) : Device := d.onMbx mb (fun m => { m with ran := true })

theorem Completes.runRow {i : Instr} {mb code : Nat} {f : Device → Device} {s : State} {P : Device → Prop}
    (h : exec i s = Machine.runRow mb code f s) (hm : mb < 16) (runs : s.dev.runs mb code = true)
    (hP : P ((f (s.dev.inStepOf mb)).withBeat s.dev.beat)) : Completes i s P :=
  .of_exec (h.trans (runRow_runs hm runs)) hP

theorem Device.mbx_inStepOf (d : Device) (mb : Nat) : (d.inStepOf mb).mbx mb = { d.mbx mb with ran := true } := d.mbx_onMbx_same mb _

@[simp] theorem Device.body_inStepOf (d : Device) (mb off n : Nat) : ((d.inStepOf mb).mbx mb).body off n = (d.mbx mb).body off n := by
  rw [Device.mbx_inStepOf]; rfl

@[simp] theorem Device.slot_inStepOf (d : Device) (mb : Nat) : ((d.inStepOf mb).mbx mb).slot = (d.mbx mb).slot := by
  rw [Device.mbx_inStepOf]; rfl

@[simp] theorem Device.answered_withBeat (d : Device) (b : Beat) (mb x y : Nat) :
    (d.withBeat b).answered mb x y = d.answered mb x y := rfl

theorem Device.answered_finish_withBeat (d : Device) (mb a b : Nat) (r : List (BitVec 8)) (w : Beat) :
    ((d.finish mb a b r).withBeat w).answered mb a b = true :=
  (Device.answered_withBeat _ _ _ _ _).trans (d.answered_finish mb a b r)

theorem Device.issuer_busy_inStepOf (d : Device) (mb x : Nat) :
    ((d.inStepOf mb).mbx x).busy = (d.mbx x).busy ∧ ((d.inStepOf mb).mbx x).order = (d.mbx x).order := by
  by_cases h : x = mb
  · subst h; rw [Device.mbx_inStepOf]; exact ⟨rfl, rfl⟩
  · rw [Device.inStepOf, Device.mbx_onMbx_other _ _ _ _ h]; exact ⟨rfl, rfl⟩

@[simp] theorem Device.earlierOpen_inStepOf (d : Device) (mb : Nat) : (d.inStepOf mb).earlierOpen mb = d.earlierOpen mb := by
  simp only [Device.earlierOpen, (d.issuer_busy_inStepOf mb _).1, (d.issuer_busy_inStepOf mb _).2]

@[simp] theorem Device.hasUnit_inStepOf (d : Device) (mb cls u : Nat) : (d.inStepOf mb).hasUnit cls u = d.hasUnit cls u := rfl

/-! ### VERSION_NEGOTIATE -/

theorem foldl_max_replicate (n m : Nat) : (List.replicate n m).foldl max m = m := by
  induction n with
  | zero => rfl
  | succ n ih => rw [List.replicate_succ, List.foldl_cons, max_self, ih]

/-- Of the versions offered only 0x20 is supported: it is the highest common one where it is offered. -/
theorem maxOr0_supported (l : List Nat) :
    maxOr0 (l.filter (fun v => supportedVersions.contains v)) = if 0x20 ∈ l then 0x20 else 0 := by
  have only : l.filter (fun v => supportedVersions.contains v) = List.replicate (l.count 0x20) 0x20 := by
    rw [← List.filter_eq]
    exact List.filter_congr fun v _ => by rw [Bool.eq_iff_iff]; simp [supportedVersions]
  rw [only, maxOr0]
  split
  · next offered =>
    obtain ⟨n, hn⟩ := Nat.exists_eq_succ_of_ne_zero (List.count_pos_iff.2 offered).ne'
    rw [hn, List.replicate_succ, List.foldl_cons, Nat.zero_max, foldl_max_replicate]
  · next absent => rw [List.count_eq_zero.2 absent]; rfl

/-- The highest version that the command in mailbox mb offers and the firmware supports. -/
def Mbx.common (m : Mbx) : Nat :=
  maxOr0 (((List.range (m.body 0 1)).map (fun i => m.body (8 + i) 1)).filter (fun v => supportedVersions.contains v))

theorem Mbx.common_eq (m : Mbx) : m.common = if ∃ i, i < m.body 0 1 ∧ m.body (8 + i) 1 = 0x20 then 0x20 else 0 := by
  rw [Mbx.common, maxOr0_supported]
  simp only [List.mem_map, List.mem_range]

theorem Device.common_inStepOf (d : Device) (mb : Nat) : ((d.inStepOf mb).mbx mb).common = (d.mbx mb).common := by
  simp only [Mbx.common, Device.body_inStepOf]

/-- VERSION_NEGOTIATE of 1 to 16 versions, with no earlier command of its issuer open, by its highest common version (R461). -/
theorem execVersionNegotiate_runs {s : State} {mb : Nat} (hm : mb < 16) (runs : s.dev.runs mb 0x02 = true)
    (low : 1 ≤ (s.dev.mbx mb).body 0 1) (high : (s.dev.mbx mb).body 0 1 ≤ 16) (earlier : s.dev.earlierOpen mb = false)
    {P : Device → Prop}
    (h : P ((if (s.dev.mbx mb).common = 0 then (s.dev.inStepOf mb).finish mb 4 4 []
      else ((s.dev.inStepOf mb).onHub (fun h => { h with
        versions := Sparse.set 0 h.versions (issuerOf mb) (s.dev.mbx mb).common })).finish mb 0 0
          (leBytes 8 (s.dev.mbx mb).common)).withBeat s.dev.beat)) : Completes (.versionNegotiate mb) s P := by
  refine .runRow (show _ = execVersionNegotiate mb s from rfl) hm runs ?_
  rw [← Device.common_inStepOf] at h
  simp only [Device.earlierOpen_inStepOf, earlier]
  rw [if_neg (by simp only [Device.body_inStepOf, Bool.or_eq_true, decide_eq_true_eq]; omega), if_neg Bool.false_ne_true]
  exact h

/-! ### HEALTH_READ -/

theorem Device.parkHeld_parkFree (d : Device) (i : Nat) : (d.parkFree i).hub.parkHeld = d.hub.parkHeld :=
  (congrArg (fun d : Device => d.hub.parkHeld) (d.besideBooks_stagePut (0x9700000 + 64 * (i % 147456) + 43)
    [(BitVec.and (Sparse.get 0 d.staging.bytes (0x9700000 + 64 * (i % 147456) + 43)) 0xFB#8, false)]) :)

/-! ### EPOCH_SET -/

/-- A ledger entry without what the fabric moves in the present wall beat. -/
def Ledger.past (x : Ledger) : Ledger := { x with nowFabric := 0 }

theorem Device.past_ledger_finish (d : Device) (mb a b : Nat) (r : List (BitVec 8)) :
    (d.finish mb a b r).ledger.map Ledger.past = d.ledger.map Ledger.past :=
  (congrArg Device.ledger (d.besideAnswers_finish mb a b r) :)

/-- The entries after an answer are those before it, but for the bytes of its packets. -/
theorem Device.mem_ledger_finish {d : Device} {mb a b : Nat} {r : List (BitVec 8)} {x : Ledger} (h : x ∈ (d.finish mb a b r).ledger) :
    ∃ y ∈ d.ledger, y.past = x.past := by
  have past : x.past ∈ (d.finish mb a b r).ledger.map Ledger.past := List.mem_map_of_mem h
  rw [Device.past_ledger_finish] at past
  exact List.mem_map.1 past

theorem Device.exists_ledger_finish {d : Device} {y : Ledger} (h : y ∈ d.ledger) (mb a b : Nat) (r : List (BitVec 8)) :
    ∃ x ∈ (d.finish mb a b r).ledger, x.past = y.past := by
  have past : y.past ∈ d.ledger.map Ledger.past := List.mem_map_of_mem h
  rw [← Device.past_ledger_finish d mb a b r] at past
  exact List.mem_map.1 past

/-- The device entries stay when entries of bindings go, beside their usage of the beat. -/
theorem Device.device_of_dropEntries {d : Device} {gone : Ledger → Bool} {x : Ledger} (h : x ∈ d.ledger) (device : x.device = true) :
    ∃ y ∈ (d.dropEntries gone).ledger, y.device = true ∧ y.isOpen = x.isOpen ∧ y.epoch = x.epoch := by
  have kept : x ∈ d.ledger.filter (fun e => !(gone e && !e.device)) := List.mem_filter.2 ⟨h, by simp [device]⟩
  refine ⟨_, List.mem_map_of_mem kept, ?_⟩
  dsimp only
  split <;> exact ⟨device, rfl, rfl⟩

/-- An entry that is open after EPOCH_SET is one of the new epoch. -/
theorem Device.open_epochSet {d : Device} {time : Nat} {x : Ledger} (h : x ∈ (d.epochSet time).ledger) (open_ : x.isOpen = true) :
    x.startW = d.beat.w + 1 ∧ x.hostTime = time := by
  obtain ⟨member, -⟩ := List.mem_filter.1 h
  obtain closed | new := List.mem_append.1 member
  · obtain ⟨y, -, rfl⟩ := List.mem_map.1 closed
    split at open_
    · exact absurd open_ (by simp)
    · next shut => exact absurd open_ shut
  · obtain ⟨y, -, rfl⟩ := List.mem_map.1 new
    exact ⟨rfl, rfl⟩

/-- The open device entry is closed by EPOCH_SET. -/
theorem Device.closed_epochSet {d : Device} {time : Nat} {x : Ledger}
    (h : (d.ledger.filter (fun y => y.isOpen)).find? (fun y => y.device) = some x) :
    ∃ y ∈ (d.epochSet time).ledger, y.device = true ∧ y.isOpen = false ∧ y.epoch = x.epoch ∧ y.endW = d.beat.w := by
  have device : x.device = true := List.find?_some h
  obtain ⟨member, open_⟩ := List.mem_filter.1 (List.mem_of_find?_eq_some h)
  obtain ⟨y, stays, isDevice, isOpen, epoch⟩ := Device.device_of_dropEntries (gone := fun e => e.isOpen && !e.atEdge) member device
  refine ⟨{ y with isOpen := false, endW := d.beat.w }, List.mem_filter.2 ⟨List.mem_append_left _ (List.mem_map.2 ⟨y, stays, ?_⟩), ?_⟩,
    isDevice, rfl, epoch, rfl⟩
  · rw [if_pos (isOpen.trans open_)]
  · simp only [h, Option.getD_some, epoch, decide_eq_true_eq]
    omega

/-- Settles O19: each step answers with `finish`, which leaves what the step changed. -/
theorem queryCommands : Obligations.QueryCommands := by
  unfold Obligations.QueryCommands
  refine ⟨fun s mb hm runs => ?_, fun s mb hm runs low high earlier offered => ?_, fun s mb hm runs low high earlier none_ => ?_,
    fun s mb hm runs cls shadow units => ?_, fun s mb hm runs => ?_, fun s mb hm runs slot => ?_, fun s mb hm runs => ?_⟩
  · refine .runRow (show _ = execIdentRead mb s from rfl) hm runs ?_
    exact Device.answered_finish_withBeat _ _ _ _ _ _
  · have common := (s.dev.mbx mb).common_eq.trans (if_pos offered)
    refine execVersionNegotiate_runs hm runs low high earlier ?_
    rw [common, if_neg (by decide)]
    refine ⟨Device.answered_finish_withBeat _ _ _ _ _ _, ?_⟩
    rw [Device.withBeat_hub, Device.versions_finish, Device.onHub_hub]
    simp
  · have common := (s.dev.mbx mb).common_eq.trans (if_neg fun ⟨i, hi, same⟩ => none_ i hi same)
    refine execVersionNegotiate_runs hm runs low high earlier ?_
    rw [common, if_pos rfl]
    exact ⟨Device.answered_finish_withBeat _ _ _ _ _ _, Device.versions_finish _ _ _ _ _⟩
  · refine .runRow (show _ = execCounterRead mb s from rfl) hm runs ?_
    simp only [Device.body_inStepOf, Device.hasUnit_inStepOf]
    rw [if_neg (by simpa [cls, shadow] using units)]
    exact Device.answered_finish_withBeat _ _ _ _ _ _
  · refine .runRow (show _ = execHealthRead mb s from rfl) hm runs ?_
    have freed (l : List Nat) (old : Nat) := foldl_keeps (fun d : Device => d.hub.parkHeld) (fun d i => d.parkFree (old + i))
      (fun d i => d.parkHeld_parkFree (old + i)) l (s.dev.inStepOf mb)
    refine ⟨Device.answered_finish_withBeat _ _ _ _ _ _, ?_⟩
    rw [Device.withBeat_hub, Device.parkHeld_finish, Device.onHub_hub]
    simp only [Device.body_inStepOf, freed]
    rfl
  · refine .runRow (show _ = execMeterRead mb s from rfl) hm runs ?_
    simp only [Device.body_inStepOf]
    rw [if_neg (by simp only [Bool.and_eq_true, decide_eq_true_eq, bne_iff_ne]; omega)]
    exact Device.answered_finish_withBeat _ _ _ _ _ _
  · refine .runRow (show _ = execEpochSet mb s from rfl) hm runs ?_
    simp only [Device.body_inStepOf]
    refine ⟨Device.answered_finish_withBeat _ _ _ _ _ _, fun x member open_ => ?_, fun x device => ?_⟩
    · obtain ⟨y, stands, past⟩ := Device.mem_ledger_finish member
      have startW : y.startW = x.startW := (congrArg Ledger.startW past :)
      have hostTime : y.hostTime = x.hostTime := (congrArg Ledger.hostTime past :)
      have isOpen : y.isOpen = x.isOpen := (congrArg Ledger.isOpen past :)
      rw [← startW, ← hostTime]
      exact Device.open_epochSet stands (isOpen.trans open_)
    · obtain ⟨y, stands, isDevice, shut, epoch, endW⟩ := Device.closed_epochSet (d := s.dev.inStepOf mb) (time := (s.dev.mbx mb).body 0 8)
        device
      obtain ⟨z, member, past⟩ := Device.exists_ledger_finish stands mb 0 0 []
      exact ⟨z, member, (congrArg Ledger.device past :).trans isDevice, (congrArg Ledger.isOpen past :).trans shut,
        (congrArg Ledger.epoch past :).trans epoch, (congrArg Ledger.endW past :).trans endW⟩

end Sys2Proof.Machine

/-! PROOFS about the registered commands (R409, R414, R415, R455, R468 to R470, R535, R565): each notes what it names, and its holds
end. -/

namespace Sys2Proof.Machine

set_option Elab.async false

open Sys2Proof

@[simp] theorem Device.held_registered (d : Device) (mb : Nat) : ((d.registered mb).mbx mb).held = [] := by
  rw [Device.registered, Device.mbx_onMbx_same]

@[simp] theorem Device.task_registered (d : Device) (mb t : Nat) : (d.registered mb).task t = d.task t := rfl
@[simp] theorem Device.cores_registered (d : Device) (mb : Nat) : (d.registered mb).cores = d.cores := rfl
@[simp] theorem Device.fabric_registered (d : Device) (mb : Nat) : (d.registered mb).fabric = d.fabric := rfl
@[simp] theorem Device.power_registered (d : Device) (mb : Nat) : (d.registered mb).power = d.power := rfl
@[simp] theorem Device.shadow_registered (d : Device) (mb : Nat) : (d.registered mb).shadow = d.shadow := rfl
@[simp] theorem Device.task_inStepOf (d : Device) (mb t : Nat) : (d.inStepOf mb).task t = d.task t := rfl
@[simp] theorem Device.tasks_inStepOf (d : Device) (mb : Nat) : (d.inStepOf mb).tasks = d.tasks := rfl
@[simp] theorem Device.cores_inStepOf (d : Device) (mb : Nat) : (d.inStepOf mb).cores = d.cores := rfl
@[simp] theorem Device.fabric_inStepOf (d : Device) (mb : Nat) : (d.inStepOf mb).fabric = d.fabric := rfl
@[simp] theorem Device.power_inStepOf (d : Device) (mb : Nat) : (d.inStepOf mb).power = d.power := rfl
@[simp] theorem Device.shadow_inStepOf (d : Device) (mb : Nat) : (d.inStepOf mb).shadow = d.shadow := rfl
@[simp] theorem Device.beat_inStepOf (d : Device) (mb : Nat) : (d.inStepOf mb).beat = d.beat := rfl

@[simp] theorem Device.tasks_settle (d : Device) (mb : Option Nat) (st : Nat) : (d.settle mb st).tasks = d.tasks := by
  cases mb with
  | none => rfl
  | some m => exact d.tasks_finish m st _ []

theorem Device.policy_inStepOf (d : Device) (mb : Nat) : ((d.inStepOf mb).mbx mb).policy = (d.mbx mb).policy
    ∧ ((d.inStepOf mb).mbx mb).policyOk = (d.mbx mb).policyOk := by
  rw [Device.mbx_inStepOf]; exact ⟨rfl, rfl⟩

/-- A second YIELD_REQ takes the place of a later one, and is SUPERSEDED by one that is not later (R414). -/
theorem yieldReq_again {s : State} {mb old : Nat} (hm : mb < 16) (runs : s.dev.runs mb 0x22 = true)
    (running : (s.dev.task (s.dev.mbx mb).slot).state = 2) (pending : (s.dev.task (s.dev.mbx mb).slot).yieldS = some old) :
    Completes (.yieldReq mb) s (fun e =>
      if (s.dev.mbx mb).body 8 8 < old then
        (e.task (s.dev.mbx mb).slot).yieldS = some ((s.dev.mbx mb).body 8 8)
          ∧ (e.task (s.dev.mbx mb).slot).yieldMb = some mb
      else e.tasks = s.dev.tasks ∧ e.answered mb 2 0 = true) := by
  refine .runRow (show _ = execYieldReq mb s from rfl) hm runs ?_
  simp only [Device.body_inStepOf, Device.slot_inStepOf, Device.task_inStepOf, running, pending]
  rw [if_neg (c := (2 != 2) = true) (by decide)]
  split
  · rw [Device.task_withBeat, Device.task_registered, Device.task_onTask_same]
    exact ⟨rfl, rfl⟩
  · exact ⟨Device.tasks_finish _ _ _ _ _, Device.answered_finish_withBeat _ _ _ _ _ _⟩

/-- Settles O20: each command notes what it names and is registered. -/
theorem registeredCommands : Obligations.RegisteredCommands := by
  unfold Obligations.RegisteredCommands
  refine ⟨fun s mb hm runs state good => ?_, fun s mb hm runs running free => ?_,
    fun s mb old hm runs running pending => yieldReq_again hm runs running pending, fun s mb hm runs running first => ?_,
    fun s mb hm runs later free => ?_, fun s mb hm runs later free stop off new => ?_, fun s mb hm runs later => ?_,
    fun s mb hm runs late => ?_, fun s mb hm runs ok later park => ?_, fun s mb hm runs pair seat => ?_⟩
  · refine .runRow (show _ = execTaskStart mb s from rfl) hm runs ?_
    have right : (s.dev.inStepOf mb).startBad (s.dev.mbx mb).slot ((s.dev.mbx mb).body 8 8) = false := good
    simp only [Device.body_inStepOf, Device.slot_inStepOf, right]
    simp
  · refine .runRow (show _ = execYieldReq mb s from rfl) hm runs ?_
    simp only [Device.body_inStepOf, Device.slot_inStepOf, Device.task_inStepOf, running, free]
    simp
  · refine .runRow (show _ = execTaskStop mb s from rfl) hm runs ?_
    simp only [Device.slot_inStepOf, Device.task_inStepOf, running, first]
    simp
  · refine .runRow (show _ = execPlanStop mb s from rfl) hm runs ?_
    simp only [Device.body_inStepOf, Device.fabric_inStepOf, Device.beat_inStepOf, free]
    rw [if_neg (by simpa using later)]
    refine ⟨rfl, ?_⟩
    rw [Device.mbx_withBeat, Device.held_registered]
  · refine .runRow (show _ = execPlanStart mb s from rfl) hm runs ?_
    simp only [Device.body_inStepOf, Device.fabric_inStepOf, Device.beat_inStepOf, free, stop, off]
    rw [if_neg (by simp [later, Option.isNone_iff_eq_none, Option.isSome_iff_ne_none.1 new])]
    refine ⟨rfl, ?_⟩
    rw [Device.mbx_withBeat, Device.held_registered]
  · refine .runRow (show _ = execSnapshot mb s from rfl) hm runs ?_
    simp only [Device.body_inStepOf, Device.beat_inStepOf, Device.shadow_inStepOf]
    rw [if_neg (by omega)]
    refine ⟨rfl, ?_⟩
    rw [Device.withBeat_shadow, Device.shadow_registered]
    dsimp only
    split
    · rw [Device.shadow_finish]; rfl
    · rfl
  · refine .runRow (show _ = execSnapshot mb s from rfl) hm runs ?_
    simp only [Device.body_inStepOf, Device.beat_inStepOf]
    rw [if_pos late]
    exact ⟨Device.shadow_finish _ _ _ _ _, Device.answered_finish_withBeat _ _ _ _ _ _⟩
  · refine .runRow (show _ = execPowerPolicy mb s from rfl) hm runs ?_
    obtain ⟨policy, policyOk⟩ := s.dev.policy_inStepOf mb
    have may : (s.dev.inStepOf mb).mayPark = s.dev.mayPark := rfl
    simp only [Device.body_inStepOf, Device.beat_inStepOf, Device.power_inStepOf, policy, policyOk, ok, may]
    rw [if_neg (by simpa [later] using park)]
    refine ⟨rfl, rfl, ?_⟩
    rw [Device.mbx_withBeat, Device.held_registered]
  · refine .runRow (show _ = execTwinDetach mb s from rfl) hm runs ?_
    have formed : (s.dev.inStepOf mb).inPair = true := pair
    simp only [Device.body_inStepOf, formed]
    rw [if_neg (by simpa using seat)]
    exact ⟨rfl, rfl⟩

end Sys2Proof.Machine

/-! PROOFS about the configuration commands (R41, R473, R474, R469): a command that its checks refuse leaves the configuration; one
that they pass sets what it is given, and ports that go down by it leave the settings of the fabric. -/

namespace Sys2Proof.Machine

set_option Elab.async false

open Sys2Proof

/-! ### What a refusal and a note of a change leave -/

/-- A refusal is an answer with REJECTED_STATE and RULE, or with SUPERSEDED (R456). -/
theorem Device.refuse_cases (d : Device) (mb : Nat) (bad : Device → Bool) :
    d.refuse mb bad = d.finish mb 3 9 [] ∨ d.refuse mb bad = d.finish mb 2 0 [] := by
  unfold Device.refuse
  split
  · exact .inl rfl
  · exact .inr rfl

@[simp] theorem Device.besideAnswers_refuse (d : Device) (mb : Nat) (bad : Device → Bool) :
    (d.refuse mb bad).besideAnswers = d.besideAnswers := by
  obtain h | h := d.refuse_cases mb bad <;> rw [h, Device.besideAnswers_finish]

/-- A device with its mailboxes hidden. -/
def Device.besideMbx (d : Device) : Device := { d with hub := { d.hub with mbx := [] } }

@[simp] theorem Device.besideMbx_onMbx (d : Device) (m : Nat) (f : Mbx → Mbx) : (d.onMbx m f).besideMbx = d.besideMbx := rfl

/-- The commands that wait note how an object stood: nothing but mailboxes changes. -/
@[simp] theorem Device.besideMbx_changing (d : Device) (mb : Option Nat) (o : Nat) : (d.changing mb o).besideMbx = d.besideMbx := by
  cases mb with
  | none => rfl
  | some c => exact foldl_keeps Device.besideMbx _ (fun e x => by dsimp only; split <;> rfl) _ d

section
variable (d : Device) (mb : Option Nat) (o : Nat)

@[simp] theorem Device.fabric_changing : (d.changing mb o).fabric = d.fabric := (congrArg Device.fabric (d.besideMbx_changing mb o) :)
@[simp] theorem Device.drone_changing : (d.changing mb o).drone = d.drone := (congrArg Device.drone (d.besideMbx_changing mb o) :)
@[simp] theorem Device.beat_changing : (d.changing mb o).beat = d.beat := (congrArg Device.beat (d.besideMbx_changing mb o) :)
@[simp] theorem Device.cores_changing : (d.changing mb o).cores = d.cores := (congrArg Device.cores (d.besideMbx_changing mb o) :)
@[simp] theorem Device.tasks_changing : (d.changing mb o).tasks = d.tasks := (congrArg Device.tasks (d.besideMbx_changing mb o) :)
@[simp] theorem Device.dram_changing : (d.changing mb o).dram = d.dram := (congrArg Device.dram (d.besideMbx_changing mb o) :)
@[simp] theorem Device.staging_changing : (d.changing mb o).staging = d.staging :=
  (congrArg Device.staging (d.besideMbx_changing mb o) :)

end

@[simp] theorem Device.fabric_outcome (d : Device) (mb a b : Nat) (r : List (BitVec 8)) : (d.outcome mb a b r).fabric = d.fabric := rfl

theorem Device.answered_outcome_withBeat (d : Device) (mb a b : Nat) (r : List (BitVec 8)) (w : Beat) :
    ((d.outcome mb a b r).withBeat w).answered mb a b = true := by
  rw [Device.answered_withBeat, Device.answered, d.outcome_outcome]; simp

theorem Device.answered_outcome (d : Device) (mb a b : Nat) (r : List (BitVec 8)) : (d.outcome mb a b r).answered mb a b = true := by
  rw [Device.answered, d.outcome_outcome]; simp

/-! ### Reads of the part's own memories -/

theorem Device.data_devRead (d : Device) (a n : Nat) : (d.devRead a n).1
    = if rzSpace a = 1 then (d.dram.read 32 (rzOff a) n).data else (d.staging.read 8 (rzOff a) n).data := by
  unfold Device.devRead; split <;> rfl

@[simp] theorem Device.data_devRead_changing (d : Device) (mb : Option Nat) (o a n : Nat) :
    ((d.changing mb o).devRead a n).1 = (d.devRead a n).1 := by
  simp only [Device.data_devRead, Device.dram_changing, Device.staging_changing]

@[simp] theorem Device.fabric_devRead (d : Device) (a n : Nat) : (d.devRead a n).2.fabric = d.fabric := by
  unfold Device.devRead
  split
  · exact (Device.fabric_of_besideBooks (d.besideBooks_dramRead _ n)).trans rfl
  · exact (Device.fabric_of_besideBooks (d.besideBooks_stageRead _ n)).trans rfl

/-! ### The settings of the fabric -/

/-- The fabric without its ports and the packets in it: what TOPO_SET and the plan commands set. -/
def Device.settings (d : Device) : Fabric := { d.fabric with ports := [], openIn := [], deferred := [] }

theorem Device.settings_routes (d : Device) : d.settings.routes = d.fabric.routes := rfl
theorem Device.settings_topoSet (d : Device) : d.settings.topoSet = d.fabric.topoSet := rfl
theorem Device.settings_device (d : Device) : d.settings.device = d.fabric.device := rfl
theorem Device.settings_manager (d : Device) : d.settings.manager = d.fabric.manager := rfl

theorem Device.settings_of_besidePosts {d e : Device} (h : d.besidePosts = e.besidePosts) : d.settings = e.settings :=
  (congrArg Device.settings h :)

theorem Device.settings_of_fabric {d e : Device} (h : d.fabric = e.fabric) : d.settings = e.settings := by
  rw [Device.settings, Device.settings, h]

@[simp] theorem Device.settings_onPort (d : Device) (p : Nat) (f : Port → Port) : (d.onPort p f).settings = d.settings := rfl
@[simp] theorem Device.settings_onMbx (d : Device) (m : Nat) (f : Mbx → Mbx) : (d.onMbx m f).settings = d.settings := rfl
@[simp] theorem Device.settings_onHub (d : Device) (f : Hub → Hub) : (d.onHub f).settings = d.settings := rfl
@[simp] theorem Device.settings_onTwin (d : Device) (f : Twin → Twin) : (d.onTwin f).settings = d.settings := rfl
@[simp] theorem Device.settings_twinSend (d : Device) (a b c e f : Nat) (x : List (BitVec 8)) :
    (d.twinSend a b c e f x).settings = d.settings := rfl
@[simp] theorem Device.settings_log (d : Device) (r : HealthRec) : (d.log r).settings = d.settings := by
  rw [Device.log_eq]; rfl
@[simp] theorem Device.settings_event (d : Device) (a b c e f g : Nat) : (d.event a b c e f g).settings = d.settings := d.settings_log _
@[simp] theorem Device.settings_countHub (d : Device) (i n : Nat) : (d.countHub i n).settings = d.settings :=
  Device.settings_of_fabric (d.countHub_fabric i n)
@[simp] theorem Device.settings_reply (d : Device) (mb : Nat) : (d.reply mb).settings = d.settings :=
  Device.settings_of_besidePosts (d.besidePosts_reply mb)

@[simp] theorem Device.settings_pend (d : Device) (mb a : Nat) : (d.pend mb a).settings = d.settings := by
  unfold Device.pend
  rw [Device.settings_reply, Device.settings_onMbx, Device.settings_onHub]

@[simp] theorem Device.settings_accept (d : Device) (mb : Nat) (x : List Host.Cell) (src : Option Nat) :
    (d.accept mb x src).settings = d.settings := by
  unfold Device.accept
  dsimp only
  split <;> simp

theorem Device.settings_refuseTo (d : Device) (mb src : Nat) (x : List (BitVec 8)) (a b : Nat) :
    (d.refuseTo mb src x a b).settings = d.settings := by
  apply Device.settings_of_besidePosts
  unfold Device.refuseTo
  dsimp only
  split_ifs <;> simp

@[simp] theorem Device.settings_takePiece (d : Device) (mb src off : Nat) (x : List (BitVec 8)) (last : Bool) :
    (d.takePiece mb src off x last).settings = d.settings := by
  unfold Device.takePiece
  dsimp only
  split_ifs <;> simp [Device.settings_refuseTo]

@[simp] theorem Device.settings_takeMgmt (d : Device) (p : Packet) : (d.takeMgmt p).settings = d.settings := by
  have metered : (d.meterFabric none (32 + p.data.length)).settings = d.settings :=
    Device.settings_of_besidePosts (d.besidePosts_meterFabric _ _)
  unfold Device.takeMgmt
  dsimp only
  split_ifs
  · rw [Device.settings_countHub, metered]
  · exact metered
  · unfold Device.takeResponse
    split
    · rw [Device.settings_of_besidePosts (Device.besidePosts_windowPiece _ _ _ _ _), metered]
    · exact metered
  · rw [Device.settings_takePiece, metered]

theorem Device.settings_stagePut (d : Device) (a : Nat) (x : List (BitVec 8 × Bool)) : (d.stagePut a x).settings = d.settings :=
  Device.settings_of_fabric ((Device.fabric_of_besideBooks (d.besideBooks_stagePut a x)).trans rfl)

theorem Device.settings_onDeferred (d : Device) (f : Fabric → List (Nat × Packet)) :
    (d.onFabric (fun x => { x with deferred := f x })).settings = d.settings := rfl

@[simp] theorem Device.settings_deferOpen (d : Device) (x : Packet) : (d.deferOpen x).settings = d.settings := by
  unfold Device.deferOpen
  dsimp only
  rw [Device.settings_onDeferred, Device.settings_stagePut]

@[simp] theorem Device.settings_deliverOpen (d : Device) (x : Packet) : (d.deliverOpen x).settings = d.settings := by
  unfold Device.deliverOpen Device.discardOpen
  dsimp only
  split_ifs
  · simp
  · simp
  · simp
  · rfl
  · split <;> simp

@[simp] theorem Device.settings_portDown (d : Device) (p : Nat) : (d.portDown p).settings = d.settings := by
  have held : (d.deliverHeld p).settings = d.settings :=
    foldl_keeps Device.settings _ (fun d x => d.settings_deliverOpen x) _ _
  unfold Device.portDown Device.portGone
  split_ifs
  · rfl
  · exact held
  · rw [Device.settings_onPort, Device.settings_event, held]

@[simp] theorem Device.settings_topoStep (d : Device) (p : Nat) : (d.topoStep p).settings = d.settings := by
  unfold Device.topoStep Device.haltPort Device.linkRecord
  dsimp only
  split_ifs <;> simp

@[simp] theorem Device.settings_topoEntry (d : Device) (p e : Nat) : (d.topoEntry p e).settings = d.settings := by
  unfold Device.topoEntry
  dsimp only
  split_ifs <;> simp

/-- The settings that a topology block makes. -/
theorem Device.fabric_setTopo (d : Device) (bs : List (BitVec 8)) :
    (d.setTopo bs).fabric.topoSet = true
      ∧ (d.setTopo bs).fabric.device = some (bits (fieldLe bs 0 8) 0 12)
      ∧ (d.setTopo bs).fabric.manager = (if bitAt (fieldLe bs 0 8) 31 then some (bits (fieldLe bs 0 8) 16 12) else none)
      ∧ (d.setTopo bs).fabric.routes = Sparse.setMany 0 [] 0 ((List.range 4096).map (topoRoute bs)) := by
  rw [← Device.settings_topoSet, ← Device.settings_device, ← Device.settings_manager, ← Device.settings_routes]
  unfold Device.setTopo
  dsimp only
  rw [foldl_keeps Device.settings _ (fun d p => d.settings_topoEntry p (topoPort bs p))]
  simp only [Device.settings, Device.onFabric, and_self]

theorem Device.get_routes_setTopo (d : Device) (bs : List (BitVec 8)) {n : Nat} (h : n < 4096) :
    Sparse.get 0 (d.setTopo bs).fabric.routes n = topoRoute bs n := by
  obtain ⟨-, -, -, routes⟩ := d.fabric_setTopo bs
  have inside := Sparse.get_setMany_inside 0 [] 0 n ((List.range 4096).map (topoRoute bs)) (by simpa using h)
  rw [Nat.zero_add, List.getElem_map, List.getElem_range] at inside
  rw [routes, inside]

/-! ### TOPO_SET -/

/-- The checks of TOPO_SET on a block of n bytes at an address (R473). -/
def Device.topoSetBad (d : Device) (a n : Nat) : Bool :=
  d.anyBound || n != 8704 || !d.devOk a 8704 || d.topoBad ((d.devRead a 8704).1.map (·.1))

theorem topoSet_refused {s : State} {mb : Nat} (hm : mb < 16) (runs : s.dev.runs mb 0x03 = true)
    (bad : (s.dev.inStepOf mb).topoSetBad ((s.dev.mbx mb).body 0 8) ((s.dev.mbx mb).body 8 4) = true) :
    Completes (.topoSet mb) s (fun e => (e.answered mb 3 9 = true ∨ e.answered mb 2 0 = true) ∧ e.fabric.map = s.dev.fabric.map
        ∧ e.fabric.routes = s.dev.fabric.routes ∧ e.fabric.device = s.dev.fabric.device) := by
  refine .runRow (show _ = execTopoSet mb s from rfl) hm runs ?_
  simp only [Device.body_inStepOf]
  rw [if_pos (by exact bad)]
  obtain refused | refused := (s.dev.inStepOf mb).refuse_cases mb _ <;> rw [refused]
  · exact ⟨.inl (Device.answered_finish_withBeat _ _ _ _ _ _), Device.map_finish _ _ _ _ _, Device.routes_finish _ _ _ _ _,
      Device.device_finish _ _ _ _ _⟩
  · exact ⟨.inr (Device.answered_finish_withBeat _ _ _ _ _ _), Device.map_finish _ _ _ _ _, Device.routes_finish _ _ _ _ _,
      Device.device_finish _ _ _ _ _⟩

theorem topoSet_taken {s : State} {mb : Nat} (hm : mb < 16) (runs : s.dev.runs mb 0x03 = true)
    (good : (s.dev.inStepOf mb).topoSetBad ((s.dev.mbx mb).body 0 8) ((s.dev.mbx mb).body 8 4) = false)
    {bs : List (BitVec 8)} (block : ((s.dev.inStepOf mb).devRead ((s.dev.mbx mb).body 0 8) 8704).1.map (·.1) = bs) :
    Completes (.topoSet mb) s (fun e => e.answered mb 0 0 = true ∧ e.fabric.topoSet = true
        ∧ e.fabric.device = some (bits (fieldLe bs 0 8) 0 12)
        ∧ e.fabric.manager = (if bitAt (fieldLe bs 0 8) 31 then some (bits (fieldLe bs 0 8) 16 12) else none)
        ∧ (∀ n, n < 4096 → Sparse.get 0 e.fabric.routes n = topoRoute bs n)) := by
  refine .runRow (show _ = execTopoSet mb s from rfl) hm runs ?_
  simp only [Device.body_inStepOf, Device.data_devRead_changing, block]
  rw [if_neg (by rw [← block]; exact ne_true_of_eq_false good)]
  generalize (((s.dev.inStepOf mb).changing (some mb) 8).devRead ((s.dev.mbx mb).body 0 8) 8704).2 = e
  obtain ⟨topoSet, device, manager, -⟩ := e.fabric_setTopo bs
  rw [Device.withBeat_fabric, Device.fabric_outcome]
  exact ⟨Device.answered_outcome_withBeat _ _ _ _ _ _, topoSet, device, manager, fun n hn => e.get_routes_setTopo bs hn⟩

/-! ### DRONE_ROLE -/

/-- The checks of DRONE_ROLE (R41). -/
def Device.droneRoleBad (d : Device) (m : Mbx) : Bool :=
  d.anyBound || 2 < m.body 0 1 || d.maskBad (m.body 8 8) || d.maskBad (m.body 16 8) || (m.body 0 1 == 1 && m.body 8 8 != 0)
    || (m.body 0 1 == 2 && m.body 16 8 != 0) || decide (toSigned (m.body 4 4) 32 < -100000)
    || decide (100000 < toSigned (m.body 4 4) 32)

theorem droneRole_refused {s : State} {mb : Nat} (hm : mb < 16) (runs : s.dev.runs mb 0x04 = true)
    (bad : s.dev.droneRoleBad (s.dev.mbx mb) = true) : Completes (.droneRole mb) s (fun e =>
      (e.answered mb 3 9 = true ∨ e.answered mb 2 0 = true) ∧ e.drone = s.dev.drone) := by
  refine .runRow (show _ = execDroneRole mb s from rfl) hm runs ?_
  simp only [Device.body_inStepOf]
  rw [if_pos (by exact bad)]
  obtain refused | refused := (s.dev.inStepOf mb).refuse_cases mb _ <;> rw [refused]
  · exact ⟨.inl (Device.answered_finish_withBeat _ _ _ _ _ _), Device.drone_finish _ _ _ _ _⟩
  · exact ⟨.inr (Device.answered_finish_withBeat _ _ _ _ _ _), Device.drone_finish _ _ _ _ _⟩

theorem droneRole_taken {s : State} {mb : Nat} (hm : mb < 16) (runs : s.dev.runs mb 0x04 = true)
    (good : s.dev.droneRoleBad (s.dev.mbx mb) = false) : Completes (.droneRole mb) s (fun e =>
      e.drone.role = (s.dev.mbx mb).body 0 1 ∧ e.drone.rootMask = (s.dev.mbx mb).body 8 8
        ∧ e.drone.standbyMask = (s.dev.mbx mb).body 16 8 ∧ e.drone.offsetPs = toSigned ((s.dev.mbx mb).body 4 4) 32
        ∧ (s.dev.beat.aligned = true → s.dev.drone.realign ≠ 2 → e.drone.st = 1)
        ∧ e.answered mb 0 0 = true ∧ e.cores = s.dev.cores ∧ e.tasks = s.dev.tasks) := by
  refine .runRow (show _ = execDroneRole mb s from rfl) hm runs ?_
  simp only [Device.body_inStepOf]
  rw [if_neg (by exact ne_true_of_eq_false good)]
  simp only [Device.withBeat_drone, Device.drone_finish, Device.withBeat_cores, Device.cores_finish, Device.withBeat_tasks,
    Device.tasks_finish, Device.answered_finish_withBeat, Device.drone_changing, Device.beat_changing, Device.cores_changing,
    Device.tasks_changing, true_and]
  refine ⟨fun aligned realign => ?_, rfl, rfl⟩
  rw [if_pos]
  have other : (s.dev.inStepOf mb).drone.realign ≠ 2 := realign
  simp [aligned, other]

/-! ### PLAN_SET -/

section
variable {s : State} {mb : Nat} (hm : mb < 16) (runs : s.dev.runs mb 0x31 = true)
include hm runs

theorem planSet_refused (none_ : (s.dev.inStepOf mb).planFrom ((s.dev.mbx mb).body 0 8) ((s.dev.mbx mb).body 8 4)
      ((bitsOf 8 ((s.dev.mbx mb).body 12 1)).filter (s.dev.inStepOf mb).isBound) = none) : Completes (.planSet mb) s (fun e =>
    (e.answered mb 3 9 = true ∨ e.answered mb 2 0 = true) ∧ e.fabric.newPlan = s.dev.fabric.newPlan) := by
  refine .runRow (show _ = execPlanSet mb s from rfl) hm runs ?_
  simp only [Device.body_inStepOf]
  rw [none_]
  dsimp only
  obtain refused | refused := (s.dev.inStepOf mb).refuse_cases mb _ <;> rw [refused]
  · exact ⟨.inl (Device.answered_finish_withBeat _ _ _ _ _ _), Device.newPlan_finish _ _ _ _ _⟩
  · exact ⟨.inr (Device.answered_finish_withBeat _ _ _ _ _ _), Device.newPlan_finish _ _ _ _ _⟩

theorem planSet_taken {x : List (Nat × PlanEntry)} (plan : (s.dev.inStepOf mb).planFrom ((s.dev.mbx mb).body 0 8)
      ((s.dev.mbx mb).body 8 4) ((bitsOf 8 ((s.dev.mbx mb).body 12 1)).filter (s.dev.inStepOf mb).isBound) = some x) : Completes (.planSet mb) s (fun e =>
    e.answered mb 0 0 = true ∧ e.fabric.newPlan = some x ∧ e.fabric.planOn = s.dev.fabric.planOn
      ∧ e.fabric.ports = s.dev.fabric.ports) := by
  refine .runRow (show _ = execPlanSet mb s from rfl) hm runs ?_
  simp only [Device.body_inStepOf]
  rw [plan]
  generalize held : ((s.dev.inStepOf mb).changing (some mb) 8).devRead _ _ = r
  have fabric : r.2.fabric = s.dev.fabric := by rw [← held, Device.fabric_devRead, Device.fabric_changing]; rfl
  refine ⟨Device.answered_outcome _ _ _ _ _, rfl, ?_, ?_⟩
  · show r.2.fabric.planOn = _
    rw [fabric]
  · show r.2.fabric.ports = _
    rw [fabric]

end

/-- The plan that PLAN_SET takes while the base plan runs, from a block that it may read. -/
theorem Device.planFrom_eq {d : Device} {a n : Nat} (base : d.fabric.planOn = false) (ok : d.devOk a n = true) (slots : List Nat) :
    d.planFrom a n slots = (parsePlan (n + 1) ((d.devRead a n).1.map (·.1))).bind
      (fun l => d.buildPlan (l ++ slots.flatMap (fun t => (d.task t).plan))) := by
  unfold Device.planFrom
  rw [if_neg (by simp [base, ok])]
  split
  · next none_ => rw [none_]; rfl
  · next l some_ => rw [some_]; rfl

/-! ### The commands -/

theorem Becomes.runRow {i : Instr} {mb code : Nat} {f : Device → Device} {s : State} {d : Device}
    (h : exec i s = Machine.runRow mb code f s) (hm : mb < 16) (runs : s.dev.runs mb code = true)
    (hd : f (s.dev.inStepOf mb) = d) : Becomes i s d :=
  hd ▸ h.trans (runRow_runs hm runs)

section
variable {s : State} {mb : Nat} (hm : mb < 16) (runs : s.dev.runs mb 0x62 = true) (role : s.dev.twin.role ≠ 2)
include hm runs role

theorem hostCopy_refused (dir : 1 < (s.dev.mbx mb).hcDir) : Completes (.hostCopy mb) s (fun e =>
    e.answered mb 3 9 = true ∧ e.dram = s.dev.dram ∧ e.staging = s.dev.staging) := by
  have hcDir : ((s.dev.inStepOf mb).mbx mb).hcDir = (s.dev.mbx mb).hcDir := by rw [Device.mbx_inStepOf]; rfl
  refine .runRow (show _ = execHostCopy mb s from rfl) hm runs ?_
  simp only [hcDir]
  rw [if_neg (by exact role), if_pos (by simp [dir])]
  exact ⟨Device.answered_finish_withBeat _ _ _ _ _ _, Device.dram_finish _ _ _ _ _, Device.staging_finish _ _ _ _ _⟩

/-- A HOST_COPY that its checks pass: with no byte it is decided at once, else its bytes begin to move (R474). -/
theorem execHostCopy_taken (dir : (s.dev.mbx mb).hcDir ≤ 1)
    (space : rzSpace (s.dev.mbx mb).hcDev = 1 ∨ rzSpace (s.dev.mbx mb).hcDev = 2)
    (home : (s.dev.mbx mb).hcDir = 1 → rzDev (s.dev.mbx mb).hcDev = s.dev.devNum)
    (ok : (s.dev.inStepOf mb).hostDevOk (s.dev.mbx mb).hcDev (s.dev.mbx mb).hcLen = true)
    (clear : (s.dev.mbx mb).hcDir = 0 → rzDev (s.dev.mbx mb).hcDev = s.dev.devNum →
      (s.dev.inStepOf mb).hostBarred (rzSpace (s.dev.mbx mb).hcDev) (rzOff (s.dev.mbx mb).hcDev) (s.dev.mbx mb).hcLen = false) :
    Becomes (.hostCopy mb) s (if (s.dev.mbx mb).hcLen = 0 then (s.dev.inStepOf mb).outcome mb 0 0 []
      else ((s.dev.inStepOf mb).onMbx mb (fun x => { x with copyLeft := some (0, (s.dev.mbx mb).hcLen) })).hostCopyFlow mb) := by
  have hcDev : ((s.dev.inStepOf mb).mbx mb).hcDev = (s.dev.mbx mb).hcDev := by rw [Device.mbx_inStepOf]; rfl
  have hcLen : ((s.dev.inStepOf mb).mbx mb).hcLen = (s.dev.mbx mb).hcLen := by rw [Device.mbx_inStepOf]; rfl
  have hcDir : ((s.dev.inStepOf mb).mbx mb).hcDir = (s.dev.mbx mb).hcDir := by rw [Device.mbx_inStepOf]; rfl
  have device : (s.dev.inStepOf mb).devNum = s.dev.devNum := rfl
  refine .runRow (show exec (.hostCopy mb) s = execHostCopy mb s from rfl) hm runs ?_
  simp only [hcDev, hcLen, hcDir, device]
  rw [if_neg (by exact role), if_neg, if_neg]
  · simpa using clear
  · simp only [ok, Bool.not_true, Bool.or_false, Bool.or_eq_true, Bool.and_eq_true, decide_eq_true_eq, Bool.not_eq_true', beq_iff_eq,
      Bool.or_eq_false_iff, beq_eq_false_iff_ne]
    rintro ((high | ⟨one, two⟩) | ⟨back, away⟩)
    · omega
    · exact space.elim one two
    · exact away (home back)

end

/-- Settles O41: each command checks what it is given as a whole, and then sets it as a whole. -/
theorem configurationCommands : Obligations.ConfigurationCommands := by
  unfold Obligations.ConfigurationCommands
  intro s mb hm
  have anyBound : (s.dev.inStepOf mb).anyBound = s.dev.anyBound := rfl
  have devOk (a n : Nat) : (s.dev.inStepOf mb).devOk a n = s.dev.devOk a n := rfl
  refine ⟨fun runs free len ok => ⟨fun bad => topoSet_refused hm runs ?_, fun good => topoSet_taken hm runs ?_ rfl⟩,
    fun runs bound => (topoSet_refused hm runs ?_).mono fun e ⟨refused, map, routes, _⟩ => ⟨refused, map, routes⟩,
    fun runs free role root standby one two low high => droneRole_taken hm runs ?_,
    fun runs why => droneRole_refused hm runs ?_, fun runs base ok => ?_, fun runs attaching => ?_, fun runs role dir => hostCopy_refused hm runs role dir,
    fun runs role dir space home ok clear => ⟨fun empty => ?_, fun some_ => ?_⟩⟩
  · simp only [Device.topoSetBad, Bool.or_eq_true]
    exact .inr bad
  · simp only [Device.topoSetBad, anyBound, free, devOk, ok, len, Bool.or_eq_false_iff]
    exact ⟨⟨⟨trivial, by simp⟩, by simp⟩, good⟩
  · simp [Device.topoSetBad, anyBound, bound]
  · have rootMask : s.dev.maskBad ((s.dev.mbx mb).body 8 8) = false := root
    have standbyMask : s.dev.maskBad ((s.dev.mbx mb).body 16 8) = false := standby
    simpa [Device.droneRoleBad, free, rootMask, standbyMask, Nat.not_lt.2 role, Int.not_lt.2 low, Int.not_lt.2 high] using ⟨one, two⟩
  · obtain h | h | h := why <;> simp [Device.droneRoleBad, h]
  · have plan := Device.planFrom_eq (d := s.dev.inStepOf mb) base ok ((bitsOf 8 ((s.dev.mbx mb).body 12 1)).filter (s.dev.inStepOf mb).isBound)
    split
    · next none_ =>
      have none_ : parsePlan _ (((s.dev.inStepOf mb).devRead _ _).1.map (·.1)) = none := none_
      exact planSet_refused hm runs (plan.trans (by rw [none_]; rfl))
    · next l some_ =>
      have some_ : parsePlan _ (((s.dev.inStepOf mb).devRead _ _).1.map (·.1)) = some l := some_
      rw [some_] at plan
      split
      · next none_ => exact planSet_refused hm runs (plan.trans none_)
      · next x built => exact (planSet_taken hm runs (plan.trans built)).mono fun e ⟨ok, new, planOn, ports⟩ =>
          ⟨ok, new, planOn.trans base, ports⟩
  · refine .runRow (show _ = execHostCopy mb s from rfl) hm runs ?_
    rw [if_pos (by exact attaching)]
    exact Device.answered_finish_withBeat _ _ _ _ _ _
  · refine (execHostCopy_taken hm runs role dir space home ok clear).completes ?_
    rw [if_pos empty]
    exact ⟨Device.answered_outcome _ _ _ _ _, rfl, rfl⟩
  · have moved := execHostCopy_taken hm runs role dir space home ok clear
    rwa [if_neg some_] at moved

end Sys2Proof.Machine

/-! PROOFS about commands and responses in pieces (R462 to R464). -/

namespace Sys2Proof.Machine

set_option Elab.async false

open Sys2Proof

/-! ### Command pieces -/

/-- May device src send commands to mailbox mb: the partner to mailbox 14, the manager to 12 and 13 (R462, R463)? -/
def Device.sends (d : Device) (mb src : Nat) : Prop := mb = 14 ∨ d.fabric.manager = some src

/-- A mailbox with one more piece put together. -/
def Mbx.pieced (m : Mbx) (off : Nat) (data : List (BitVec 8)) (last : Bool) : Mbx := { m with
  area := Sparse.setMany 0 (if off = 0 then [] else m.area) off data
  asm := if last then none else some (off + data.length) }

theorem Device.besidePosts_refuseTo (d : Device) (mb src : Nat) (x : List (BitVec 8)) (a b : Nat) :
    (d.refuseTo mb src x a b).besidePosts = d.besidePosts := by
  unfold Device.refuseTo
  dsimp only
  split_ifs <;> simp

/-- A piece that its mailbox does not take is refused to its sender at most. -/
theorem Device.takePiece_refused {d : Device} {mb src : Nat} (h : ¬ d.sends mb src ∨ (d.mbx mb).busy = true) (off : Nat)
    (data : List (BitVec 8)) (last : Bool) : (d.takePiece mb src off data last).besidePosts = d.besidePosts := by
  unfold Device.takePiece
  dsimp only
  by_cases sender : d.sends mb src
  · have busy := h.resolve_left (not_not.2 sender)
    have allowed : ¬(mb != 14 && d.fabric.manager != some src) = true := by
      simpa [Device.sends, imp_iff_not_or, or_comm] using sender
    rw [if_neg allowed, if_pos busy]
    split
    · exact d.besidePosts_refuseTo _ _ _ _ _
    · rfl
  · have barred : (mb != 14 && d.fabric.manager != some src) = true := by
      simpa [Device.sends] using sender
    rw [if_pos barred]
    split
    · exact d.besidePosts_refuseTo _ _ _ _ _
    · rfl

/-- A piece that its mailbox takes is put together, and the last one submits the whole. -/
theorem Device.takePiece_taken {d : Device} {mb src off : Nat} (sender : d.sends mb src) (idle : (d.mbx mb).busy = false)
    (next : off = 0 ∨ (d.mbx mb).asm = some off) (data : List (BitVec 8)) (last : Bool) :
    d.takePiece mb src off data last = if last then (d.onMbx mb (fun m => { m with
        area := ((d.mbx mb).pieced off data last).area, asm := ((d.mbx mb).pieced off data last).asm })).accept mb
          ((d.mbx mb).pieced off data last).area (if mb = 14 then none else some src)
      else d.onMbx mb (fun m => { m with
        area := ((d.mbx mb).pieced off data last).area, asm := ((d.mbx mb).pieced off data last).asm }) := by
  have allowed : ¬(mb != 14 && d.fabric.manager != some src) = true := by
    simpa [Device.sends, imp_iff_not_or, or_comm] using sender
  unfold Device.takePiece
  dsimp only
  rw [if_neg allowed, if_neg (by simp [idle]), if_pos (by simpa using next)]
  rfl

/-- A piece out of order changes nothing. -/
theorem Device.takePiece_gap {d : Device} {mb src off : Nat} (sender : d.sends mb src) (idle : (d.mbx mb).busy = false)
    (later : off ≠ 0) (gap : (d.mbx mb).asm ≠ some off) (data : List (BitVec 8)) (last : Bool) :
    d.takePiece mb src off data last = d := by
  have allowed : ¬(mb != 14 && d.fabric.manager != some src) = true := by
    simpa [Device.sends, imp_iff_not_or, or_comm] using sender
  unfold Device.takePiece
  dsimp only
  rw [if_neg allowed, if_neg (by simp [idle]), if_neg (by simp [later, gap])]

/-- MGMT_PIECE where MGMT packets reach the mailboxes, or from the partner. -/
theorem execMgmtPiece_takes {s : State} {mb off : Nat} (small : off < 4096)
    (reaches : mb = 14 ∨ ((mb = 12 ∨ mb = 13) ∧ s.dev.takesMgmt = true)) (src : Nat) (data : List (BitVec 8)) (last : Bool) :
    Becomes (.mgmtPiece mb src off data last) s (s.dev.takePiece mb src off data last) := by
  have offset : off % 4096 = off := Nat.mod_eq_of_lt small
  refine .onUnit (show _ = execMgmtPiece mb src off data last s from rfl)
    (by simp only [Bool.and_eq_true, decide_eq_true_eq]; omega) ?_
  obtain rfl | ⟨window, takes⟩ := reaches
  · rw [if_pos rfl, offset]
  · have set : s.dev.fabric.topoSet = true := by simp only [Device.takesMgmt, Bool.and_eq_true] at takes; exact takes.1
    rw [if_neg (by omega), if_neg (by simp [set]), if_pos takes, offset]

theorem mgmtPiece_last {s : State} {mb src off : Nat} (small : off < 4096)
    (reaches : mb = 14 ∨ ((mb = 12 ∨ mb = 13) ∧ s.dev.takesMgmt = true)) (sender : s.dev.sends mb src)
    (idle : (s.dev.mbx mb).busy = false) (next : off = 0 ∨ (s.dev.mbx mb).asm = some off) (data : List (BitVec 8)) :
    Completes (.mgmtPiece mb src off data true) s (fun e =>
      (e.mbx mb).st = 1 ∧ (e.mbx mb).cmd = Sparse.setMany 0 (if off = 0 then [] else (s.dev.mbx mb).area) off data
        ∧ (e.mbx mb).asm = none
        ∧ (e.mbx mb).source = (if mb = 14 then none else some src) ∧ ∀ x, x ≠ mb → e.mbx x = s.dev.mbx x) := by
  refine (execMgmtPiece_takes small reaches src data true).completes ?_
  rw [← Device.withBeat, Device.takePiece_taken sender idle next, if_pos rfl]
  simp only [Device.mbx_withBeat, Device.mbx_accept, Device.mbx_onMbx_same]
  refine ⟨rfl, rfl, rfl, rfl, fun x hx => ?_⟩
  rw [Device.mbx_accept_other _ hx, Device.mbx_onMbx_other _ _ _ _ hx]

theorem mgmtPiece_more {s : State} {mb src off : Nat} (small : off < 4096)
    (reaches : mb = 14 ∨ ((mb = 12 ∨ mb = 13) ∧ s.dev.takesMgmt = true)) (sender : s.dev.sends mb src)
    (idle : (s.dev.mbx mb).busy = false) (next : off = 0 ∨ (s.dev.mbx mb).asm = some off) (data : List (BitVec 8)) :
    Completes (.mgmtPiece mb src off data false) s (fun e =>
      (e.mbx mb).st = (s.dev.mbx mb).st
        ∧ (e.mbx mb).area = Sparse.setMany 0 (if off = 0 then [] else (s.dev.mbx mb).area) off data
        ∧ (e.mbx mb).asm = some (off + data.length)) := by
  refine (execMgmtPiece_takes small reaches src data false).completes ?_
  rw [← Device.withBeat, Device.takePiece_taken sender idle next, if_neg Bool.false_ne_true]
  rw [Device.mbx_withBeat, Device.mbx_onMbx_same]
  exact ⟨rfl, rfl, rfl⟩

/-! ### Response pieces -/

@[simp] theorem Device.relay_onRing (d : Device) (f : Hub → Ring) :
    (d.onHub (fun h => { h with ring := f h })).hub.relay = d.hub.relay := rfl
@[simp] theorem Device.relay_hostWrite (d : Device) (a : Nat) (bs : List (BitVec 8)) :
    (d.hostWrite a bs).hub.relay = d.hub.relay := rfl
@[simp] theorem Device.relay_holdWrite (d : Device) (x : HeldWrite) : (d.holdWrite x).hub.relay = d.hub.relay := by
  unfold Device.holdWrite; split <;> rfl

@[simp] theorem Device.relay_ringFlush (d : Device) : d.ringFlush.hub.relay = d.hub.relay := by
  unfold Device.ringFlush
  dsimp only
  split
  · rfl
  · split
    · rw [Device.relay_onRing, Device.relay_hostWrite]
    · rfl

@[simp] theorem Device.relay_ringPut (d : Device) (x : List (BitVec 8)) : (d.ringPut x).hub.relay = d.hub.relay := by
  unfold Device.ringPut
  dsimp only
  split
  · rfl
  · split
    · rw [Device.relay_holdWrite, Device.relay_onRing]
    · split
      · rw [Device.relay_ringFlush, Device.relay_onRing]
      · rw [Device.relay_onRing]

theorem Device.window_of_relay {d e : Device} (h : d.hub.relay = e.hub.relay) (w : Nat) : d.window w = e.window w := by
  rw [Device.window, Device.window, h]

/-- A window whose response brings no result is DONE at once (R458). -/
theorem Device.window_windowDone_empty {d : Device} {w : Nat} (h : (d.window w).result = []) :
    ∃ t n r, (d.windowDone w).window w = { d.window w with st := 3, trunc := t, resultLen := n, result := r } := by
  have none : ((d.window w).result.take (d.window w).resultMax != []) = false := by rw [h]; simp
  unfold Device.windowDone
  dsimp only
  rw [none, Bool.and_false, Bool.false_and, if_neg Bool.false_ne_true, if_neg Bool.false_ne_true]
  have done : ((d.onWindow w (fun m =>
      if m.resultAddr = 0 then { m with st := 3 }
      else { m with
        st := 3, trunc := m.trunc || decide (m.resultMax < m.result.length)
        resultLen := ((d.window w).result.take (d.window w).resultMax).length, result := [] })).window w)
      = (if (d.window w).resultAddr = 0 then { d.window w with st := 3 }
      else { d.window w with
        st := 3, trunc := (d.window w).trunc || decide ((d.window w).resultMax < (d.window w).result.length)
        resultLen := ((d.window w).result.take (d.window w).resultMax).length, result := [] }) :=
    Device.window_onWindow_same d w _
  have shape : ∃ t n r, (if (d.window w).resultAddr = 0 then { d.window w with st := 3 }
      else { d.window w with
        st := 3, trunc := (d.window w).trunc || decide ((d.window w).resultMax < (d.window w).result.length)
        resultLen := ((d.window w).result.take (d.window w).resultMax).length, result := [] })
      = { d.window w with st := 3, trunc := t, resultLen := n, result := r } := by
    split
    · exact ⟨_, _, _, rfl⟩
    · exact ⟨_, _, _, rfl⟩
  split
  · rw [Device.window_of_relay (Device.relay_ringPut _ _), done]
    exact shape
  · rw [done]
    exact shape

/-- A window with a status piece of its response taken in (R464). -/
def Mbx.answeredBy (m : Mbx) (data : List (BitVec 8)) : Mbx :=
  let s := fieldLe data 0 8
  { m with
    code := bits s 24 8, status := bits s 16 4, trunc := bitAt s 15, detail := bits (fieldLe data 8 8) 0 16
    resultLen := fieldLe data 16 8, doneW := fieldLe data 24 8, result := []
    st := if bits s 20 4 = 3 then 2 else bits s 20 4, ran := bits s 20 4 == 3 }

/-- The status piece of a response, at a busy window of its SEQ. -/
theorem Device.windowPiece_status {d : Device} {w : Nat} {data : List (BitVec 8)} (busy : (d.window w).busy = true)
    (seq : bits (fieldLe data 0 8) 32 32 = (d.window w).seq) (last : Bool) :
    d.windowPiece w 0x808 data last =
      if bits (fieldLe data 0 8) 20 4 = 3 && fieldLe data 16 8 = 0
      then (d.onWindow w (fun m => m.answeredBy data)).windowDone w else d.onWindow w (fun m => m.answeredBy data) := by
  unfold Device.windowPiece
  dsimp only
  rw [if_neg (by simp [busy]), if_pos rfl, if_neg (by simp [seq])]
  rfl

/-- MGMT_RESPONSE where MGMT packets reach the relay windows. -/
theorem execMgmtResponse_takes {s : State} {mb off : Nat} (window : mb = 12 ∨ mb = 13) (takes : s.dev.takesMgmt = true)
    (small : off < 4096) (src : Nat) (data : List (BitVec 8)) (last : Bool) :
    Becomes (.mgmtResponse src mb off data last) s (s.dev.takeResponse src mb off data last) := by
  have set : s.dev.fabric.topoSet = true := by simp only [Device.takesMgmt, Bool.and_eq_true] at takes; exact takes.1
  refine .onUnit (show _ = execMgmtResponse src mb off data last s from rfl) (by simpa using window) ?_
  rw [if_neg (by simp [set]), if_pos takes, Nat.mod_eq_of_lt small]

theorem mgmtResponse_foreign {s : State} {mb off src : Nat} (window : mb = 12 ∨ mb = 13) (takes : s.dev.takesMgmt = true)
    (small : off < 4096) (h : (s.dev.window mb).target ≠ src ∨ (s.dev.window mb).busy = false) (data : List (BitVec 8)) (last : Bool) :
    Becomes (.mgmtResponse src mb off data last) s s.dev := by
  have same : s.dev.takeResponse src mb off data last = s.dev := by
    unfold Device.takeResponse
    split
    · next target => exact if_pos (by simp [h.resolve_left (not_not.2 target)])
    · rfl
  simpa only [same] using execMgmtResponse_takes window takes small src data last

theorem mgmtResponse_stale {s : State} {mb src : Nat} (window : mb = 12 ∨ mb = 13) (takes : s.dev.takesMgmt = true)
    {data : List (BitVec 8)} (target : (s.dev.window mb).target = src) (busy : (s.dev.window mb).busy = true)
    (seq : bits (fieldLe data 0 8) 32 32 ≠ (s.dev.window mb).seq) (last : Bool) :
    Becomes (.mgmtResponse src mb 0x808 data last) s s.dev := by
  have same : s.dev.takeResponse src mb 0x808 data last = s.dev := by
    unfold Device.takeResponse Device.windowPiece
    dsimp only
    rw [if_pos target, if_neg (by simp [busy]), if_pos rfl, if_pos (by simpa using seq)]
  simpa only [same] using execMgmtResponse_takes window takes (show 0x808 < 4096 by decide) src data last

theorem mgmtResponse_status {s : State} {mb src : Nat} (window : mb = 12 ∨ mb = 13) (takes : s.dev.takesMgmt = true)
    {data : List (BitVec 8)} (target : (s.dev.window mb).target = src) (busy : (s.dev.window mb).busy = true)
    (seq : bits (fieldLe data 0 8) 32 32 = (s.dev.window mb).seq) (last : Bool) :
    Completes (.mgmtResponse src mb 0x808 data last) s (fun e =>
      (e.window mb).code = bits (fieldLe data 0 8) 24 8 ∧ (e.window mb).status = bits (fieldLe data 0 8) 16 4
        ∧ (e.window mb).detail = bits (fieldLe data 8 8) 0 16 ∧ (e.window mb).doneW = fieldLe data 24 8
        ∧ (bits (fieldLe data 0 8) 20 4 ≠ 3 → (e.window mb).st = bits (fieldLe data 0 8) 20 4)
        ∧ (bits (fieldLe data 0 8) 20 4 = 3 → fieldLe data 16 8 ≠ 0 → (e.window mb).st = 2)
        ∧ (bits (fieldLe data 0 8) 20 4 = 3 → fieldLe data 16 8 = 0 → (e.window mb).st = 3)
        ∧ (∀ y, e.mbx y = s.dev.mbx y)) := by
  refine (execMgmtResponse_takes window takes (show 0x808 < 4096 by decide) src data last).completes ?_
  have taken : (s.dev.onWindow mb (fun m => m.answeredBy data)).window mb = (s.dev.window mb).answeredBy data :=
    Device.window_onWindow_same s.dev mb _
  have boxes (y : Nat) : (s.dev.windowPiece mb 0x808 data last).mbx y = s.dev.mbx y :=
    Device.mbx_of_besidePosts (s.dev.besidePosts_windowPiece mb 0x808 data last) y
  rw [← Device.withBeat, Device.takeResponse, if_pos target]
  simp only [Device.window_withBeat, Device.mbx_withBeat, boxes]
  rw [Device.windowPiece_status busy seq]
  generalize hs : bits (fieldLe data 0 8) 20 4 = st
  generalize hn : fieldLe data 16 8 = n
  split
  · next h =>
    obtain ⟨h3, h0⟩ : st = 3 ∧ n = 0 := by simpa using h
    obtain ⟨t, n', r, done⟩ := Device.window_windowDone_empty (congrArg Mbx.result taken)
    rw [done, taken]
    exact ⟨rfl, rfl, rfl, rfl, fun c => absurd h3 c, fun _ c => absurd h0 c, fun _ _ => rfl, fun _ => trivial⟩
  · next h =>
    rw [taken]
    have open_ : ((s.dev.window mb).answeredBy data).st = if st = 3 then 2 else st := by rw [← hs]; rfl
    refine ⟨rfl, rfl, rfl, rfl, fun c => by rw [open_, if_neg c], fun c _ => by rw [open_, if_pos c],
      fun c z => absurd (by simp [c, z]) h, fun _ => trivial⟩

/-- Settles O50: a piece acts as `Device.takePiece`, a response piece as `Device.windowPiece`; each by the kind of the piece. -/
theorem piecesOfCommands : Obligations.PiecesOfCommands := by
  unfold Obligations.PiecesOfCommands
  refine ⟨fun s mb src off data last window unset => ⟨?_, ?_⟩, fun s mb src off data last small reaches => ?_,
    fun s mb src off data last window takes small => ?_⟩
  · refine .onUnit (show _ = execMgmtPiece mb src off data last s from rfl)
      (by simp only [Bool.and_eq_true, decide_eq_true_eq]; omega) ?_
    rw [if_neg (by omega), if_pos (by simp [unset])]
  · refine .onUnit (show _ = execMgmtResponse src mb off data last s from rfl) (by simpa using window) ?_
    rw [if_pos (by simp [unset])]
  · refine ⟨fun sender idle first end_ => ?_, fun sender idle first more => ?_, fun sender idle later next more => ?_,
      fun sender idle later next end_ => ?_, fun sender idle later gap => ?_, fun refused => ?_⟩
    · subst first end_
      exact mgmtPiece_last small reaches sender idle (.inl rfl) data
    · subst first more
      exact (mgmtPiece_more small reaches sender idle (.inl rfl) data).mono fun e h => by simpa using h
    · subst more
      simpa only [if_neg later] using mgmtPiece_more small reaches sender idle (.inr next) data
    · subst end_
      simpa only [if_neg later] using mgmtPiece_last small reaches sender idle (.inr next) data
    · have same : s.dev.takePiece mb src off data last = s.dev := Device.takePiece_gap sender idle later gap data last
      simpa only [same] using execMgmtPiece_takes small reaches src data last
    · have kept := Device.takePiece_refused refused off data last
      refine (execMgmtPiece_takes small reaches src data last).completes ?_
      rw [← Device.withBeat]
      simp only [Device.mbx_withBeat, Device.withBeat_tasks, Device.withBeat_cores]
      exact ⟨Device.mbx_of_besidePosts kept, Device.tasks_of_besidePosts kept, Device.cores_of_besidePosts kept⟩
  · refine ⟨fun h => mgmtResponse_foreign window takes small h data last, fun target busy status seq => ?_,
      fun target busy status seq => ?_⟩
    · subst status
      exact mgmtResponse_stale window takes target busy seq last
    · subst status
      exact mgmtResponse_status window takes target busy seq last

end Sys2Proof.Machine

/-! PROOFS about digests of outputs, recording and replay (R430 to R443, R520). -/

namespace Sys2Proof.Machine

set_option Elab.async false

open Sys2Proof

/-! ### Reads of the part's memories leave the tasks -/

@[simp] theorem Device.tasks_event (d : Device) (a b c e f g : Nat) : (d.event a b c e f g).tasks = d.tasks := by
  rw [Device.event_eq]; rfl

@[simp] theorem Device.tasks_countHub (d : Device) (i n : Nat) : (d.countHub i n).tasks = d.tasks := by
  unfold Device.countHub; split <;> rfl

@[simp] theorem Device.tasks_countStack (d : Device) (k i n : Nat) : (d.countStack k i n).tasks = d.tasks := by
  unfold Device.countStack; split <;> rfl

@[simp] theorem Device.tasks_onStack (d : Device) (k : Nat) (f : Stack → Stack) : (d.onStack k f).tasks = d.tasks := rfl

@[simp] theorem Device.tasks_dramUe (d : Device) (a n : Nat) : (d.dramUe a n).tasks = d.tasks := by
  unfold Device.dramUe Device.retireBlock
  dsimp only
  split_ifs <;> simp

@[simp] theorem Device.tasks_devRead (d : Device) (a n : Nat) : (d.devRead a n).2.tasks = d.tasks := by
  unfold Device.devRead
  split
  · unfold Device.dramRead
    dsimp only
    rw [foldl_keeps Device.tasks _ (fun d x => d.tasks_dramUe x 6),
      foldl_keeps Device.tasks _ (fun d x => d.tasks_countStack (x / stackBytes) 1 1)]
  · unfold Device.stageRead
    dsimp only
    rw [foldl_keeps Device.tasks _ (fun d x => d.tasks_event 0x0004 0 4 0 x 0)]
    simp only [Device.tasks_countHub]

theorem Device.mbx_devRead (d : Device) (a n m : Nat) : (d.devRead a n).2.mbx m = d.mbx m := by
  unfold Device.devRead
  split
  · exact (Device.mbx_of_besideBooks (d.besideBooks_dramRead _ _) m).trans rfl
  · exact (Device.mbx_of_besideBooks (d.besideBooks_stageRead _ _) m).trans rfl

theorem Device.task_of_tasks {d e : Device} (h : d.tasks = e.tasks) (t : Nat) : d.task t = e.task t := by
  rw [Device.task, Device.task, h]

/-! ### DIGEST_READ -/

theorem Device.compare_inStepOf (d : Device) (mb : Nat) : ((d.inStepOf mb).mbx mb).compare = (d.mbx mb).compare := by
  rw [Device.mbx_inStepOf]

theorem Device.tasks_refuse (d : Device) (mb : Nat) (bad : Device → Bool) : (d.refuse mb bad).tasks = d.tasks :=
  (congrArg Device.tasks (d.besideAnswers_refuse mb bad) :)

theorem Device.logger_refuse (d : Device) (mb : Nat) (bad : Device → Bool) : (d.refuse mb bad).logger = d.logger :=
  (congrArg Device.logger (d.besideAnswers_refuse mb bad) :)

theorem Device.refused_withBeat (d : Device) (mb : Nat) (bad : Device → Bool) (b : Beat) :
    ((d.refuse mb bad).withBeat b).answered mb 3 9 = true ∨ ((d.refuse mb bad).withBeat b).answered mb 2 0 = true :=
  d.answered_refuse mb bad

/-- May a tag of slot t be read now (R408)? -/
def Task.readable (k : Task) : Prop := (k.state = 3 ∨ k.state = 4) ∧ k.stopping = false ∧ k.startS = none

theorem Device.tagBad_iff (d : Device) (t : Nat) : d.tagBad t = true ↔ ¬ (d.task t).readable := by
  unfold Device.tagBad Task.readable
  dsimp only
  cases (d.task t).stopping <;> cases (d.task t).startS <;> simp

section
variable {s : State} {mb : Nat} (hm : mb < 16) (runs : s.dev.runs mb 0x43 = true)
include hm runs

section
variable (first : (s.dev.mbx mb).compare = none)
include first

theorem digestRead_unreadable
    (bad : ¬ (s.dev.task (s.dev.mbx mb).slot).readable ∨ ((s.dev.task (s.dev.mbx mb).slot).level ≠ 1
      ∧ ((s.dev.task (s.dev.mbx mb).slot).tags[(s.dev.mbx mb).body 1 1]?).map (·.role) ≠ some 2)) :
    Completes (.digestRead mb) s (fun e => (e.answered mb 3 9 = true ∨ e.answered mb 2 0 = true) ∧ e.tasks = s.dev.tasks) := by
  refine .runRow (show _ = execDigestRead mb s from rfl) hm runs ?_
  simp only [Device.body_inStepOf, Device.slot_inStepOf, Device.task_inStepOf, Device.compare_inStepOf, first]
  have state : (s.dev.inStepOf mb).tagBad (s.dev.mbx mb).slot = true ↔ ¬ (s.dev.task (s.dev.mbx mb).slot).readable :=
    Device.tagBad_iff _ _
  by_cases unreadable : ¬ (s.dev.task (s.dev.mbx mb).slot).readable
  · rw [if_pos (state.2 unreadable)]
    exact ⟨Device.refused_withBeat _ _ _ _, Device.tasks_refuse _ _ _⟩
  · obtain ⟨level, role⟩ := bad.resolve_left unreadable
    rw [if_neg (mt state.1 unreadable), if_neg (by simpa using level), if_pos (by simpa using role)]
    exact ⟨.inl (Device.answered_finish_withBeat _ _ _ _ _ _), Device.tasks_finish _ _ _ _ _⟩

variable (readable : (s.dev.task (s.dev.mbx mb).slot).readable)
include readable

theorem digestRead_level1 (level : (s.dev.task (s.dev.mbx mb).slot).level = 1) :
    Completes (.digestRead mb) s (fun e => e.answered mb 4 9 = true ∧ e.tasks = s.dev.tasks) := by
  have good : ¬ (s.dev.inStepOf mb).tagBad (s.dev.mbx mb).slot = true := by
    rw [Device.tagBad_iff, not_not]; exact readable
  refine .runRow (show _ = execDigestRead mb s from rfl) hm runs ?_
  simp only [Device.body_inStepOf, Device.slot_inStepOf, Device.task_inStepOf, Device.compare_inStepOf, first]
  rw [if_neg good, if_pos (by simpa using level)]
  exact ⟨Device.answered_finish_withBeat _ _ _ _ _ _, Device.tasks_finish _ _ _ _ _⟩

variable (level : (s.dev.task (s.dev.mbx mb).slot).level ≠ 1)
  (role : ((s.dev.task (s.dev.mbx mb).slot).tags[(s.dev.mbx mb).body 1 1]?).map (·.role) = some 2)
include level role

theorem digestRead_compared
    (shut : (s.dev.inStepOf mb).compareOpen (s.dev.mbx mb).slot (s.dev.task (s.dev.mbx mb).slot).captureS = false) :
    Becomes (.digestRead mb) s ((s.dev.inStepOf mb).digestTag mb) := by
  have good : ¬ (s.dev.inStepOf mb).tagBad (s.dev.mbx mb).slot = true := by
    rw [Device.tagBad_iff, not_not]; exact readable
  refine .runRow (show _ = execDigestRead mb s from rfl) hm runs ?_
  simp only [Device.body_inStepOf, Device.slot_inStepOf, Device.task_inStepOf, Device.compare_inStepOf, first]
  rw [if_neg good, if_neg (by simpa using level), if_neg (by simp [role]), if_neg (by simp [shut])]

theorem digestRead_waits
    (open_ : (s.dev.inStepOf mb).compareOpen (s.dev.mbx mb).slot (s.dev.task (s.dev.mbx mb).slot).captureS = true) :
    Completes (.digestRead mb) s (fun e =>
      (e.mbx mb).compare = some (s.dev.task (s.dev.mbx mb).slot).captureS ∧ (e.mbx mb).st = 2 ∧ e.tasks = s.dev.tasks) := by
  have good : ¬ (s.dev.inStepOf mb).tagBad (s.dev.mbx mb).slot = true := by
    rw [Device.tagBad_iff, not_not]; exact readable
  have started : (s.dev.mbx mb).st = 2 := by simp only [Device.runs, Bool.and_eq_true, beq_iff_eq] at runs; exact runs.1.1.1
  refine .runRow (show _ = execDigestRead mb s from rfl) hm runs ?_
  simp only [Device.body_inStepOf, Device.slot_inStepOf, Device.task_inStepOf, Device.compare_inStepOf, first]
  rw [if_neg good, if_neg (by simpa using level), if_neg (by simp [role]), if_pos (by simp [open_])]
  rw [Device.mbx_withBeat, Device.mbx_onMbx_same, Device.mbx_inStepOf]
  exact ⟨rfl, started, rfl⟩

end

theorem digestRead_after {beat : Nat} (waited : (s.dev.mbx mb).compare = some beat)
    (shut : (s.dev.inStepOf mb).compareOpen (s.dev.mbx mb).slot beat = false) :
    exec (.digestRead mb) s = .next { s with dev :=
      ((if ((s.dev.task (s.dev.mbx mb).slot).state == 3 || (s.dev.task (s.dev.mbx mb).slot).state == 4)
          && !(s.dev.task (s.dev.mbx mb).slot).stopping then (s.dev.inStepOf mb).digestTag mb
        else (s.dev.inStepOf mb).finish mb 6 0 []).withBeat s.dev.beat) } := by
  refine Becomes.runRow (show exec (.digestRead mb) s = execDigestRead mb s from rfl) hm runs ?_
  simp only [Device.slot_inStepOf, Device.task_inStepOf, Device.compare_inStepOf, waited]
  rw [if_neg (by simp [shut])]

end

/-! ### REPLAY_ARM and REPLAY_RUN -/

@[simp] theorem Device.tasks_freeRing (d : Device) : d.freeRing.tasks = d.tasks := by
  unfold Device.freeRing; split <;> rfl

@[simp] theorem Device.hub_freeRing (d : Device) : d.freeRing.hub = d.hub := by
  unfold Device.freeRing; split <;> rfl

/-- The checks of REPLAY_ARM (R430). -/
def Device.replayArmBad (d : Device) (m : Mbx) : Bool :=
  (d.task m.slot).state == 0 || decide (1 < m.body 1 1)
    || (m.body 1 1 == 1 && (decide (4 ≤ (d.task m.slot).state) || d.armBad m.slot (m.body 8 8) (m.body 16 8)))

section
variable {s : State} {mb : Nat} (hm : mb < 16) (runs : s.dev.runs mb 0x44 = true)
include hm runs

theorem replayArm_refused (bad : s.dev.replayArmBad (s.dev.mbx mb) = true) : Completes (.replayArm mb) s (fun e =>
    (e.answered mb 3 9 = true ∨ e.answered mb 2 0 = true) ∧ e.logger = s.dev.logger ∧ e.tasks = s.dev.tasks) := by
  refine .runRow (show _ = execReplayArm mb s from rfl) hm runs ?_
  simp only [Device.body_inStepOf, Device.slot_inStepOf]
  rw [if_pos (by exact bad)]
  exact ⟨Device.refused_withBeat _ _ _ _, Device.logger_refuse _ _ _, Device.tasks_refuse _ _ _⟩

theorem replayArm_disarms (good : s.dev.replayArmBad (s.dev.mbx mb) = false) (arm : (s.dev.mbx mb).body 1 1 = 0) :
    Completes (.replayArm mb) s (fun e => (e.task (s.dev.mbx mb).slot).armed = false ∧ e.answered mb 0 0 = true) := by
  refine .runRow (show _ = execReplayArm mb s from rfl) hm runs ?_
  simp only [Device.body_inStepOf, Device.slot_inStepOf]
  rw [if_neg (by exact ne_true_of_eq_false good), if_pos arm]
  refine ⟨?_, Device.answered_outcome_withBeat _ _ _ _ _ _⟩
  rw [Device.task_withBeat, Device.outcome, Device.task_onMbx, Device.task_of_tasks (Device.tasks_freeRing _),
    Device.task_onTask_same]

/-- Is another slot than t armed? -/
def Device.othersArmed (d : Device) (t : Nat) : Bool := d.boundSlots.any (fun u => u != t && (d.task u).armed)

theorem replayArm_arms (good : s.dev.replayArmBad (s.dev.mbx mb) = false) (arm : (s.dev.mbx mb).body 1 1 = 1) :
    Completes (.replayArm mb) s (fun e => (e.task (s.dev.mbx mb).slot).armed = true ∧ (e.task (s.dev.mbx mb).slot).logSeq = 0
      ∧ e.answered mb 0 0 = true ∧ (s.dev.othersArmed (s.dev.mbx mb).slot = false →
        e.logger = { Logger.reset with ring := some (rzOff ((s.dev.mbx mb).body 8 8), (s.dev.mbx mb).body 16 8) }
          ∧ Sparse.get 0 e.hub.counters 13 = 0)) := by
  refine .runRow (show _ = execReplayArm mb s from rfl) hm runs ?_
  simp only [Device.body_inStepOf, Device.slot_inStepOf]
  rw [if_neg (by exact ne_true_of_eq_false good), if_neg (by rw [arm]; decide)]
  have others : ((s.dev.inStepOf mb).boundSlots.any (fun u => u != (s.dev.mbx mb).slot && ((s.dev.inStepOf mb).task u).armed))
    = s.dev.othersArmed (s.dev.mbx mb).slot := rfl
  rw [others]
  generalize armed : (s.dev.inStepOf mb).onTask _ _ = e
  have task : e.task (s.dev.mbx mb).slot = { s.dev.task (s.dev.mbx mb).slot with armed := true, logSeq := 0 } := by
    rw [← armed, Device.task_onTask_same, Device.task_inStepOf]
  split
  · next some_ => exact ⟨congrArg Task.armed task, congrArg Task.logSeq task, Device.answered_outcome_withBeat _ _ _ _ _ _,
      fun none => absurd some_ (by rw [none]; decide)⟩
  · exact ⟨congrArg Task.armed task, congrArg Task.logSeq task, Device.answered_outcome_withBeat _ _ _ _ _ _,
      fun _ => ⟨rfl, Sparse.get_set_same (0 : BitVec 64) e.hub.counters 13 0⟩⟩

end

section
variable {s : State} {mb : Nat} (hm : mb < 16) (runs : s.dev.runs mb 0x45 = true)
include hm runs

theorem replayRun_missing (none_ : (s.dev.inStepOf mb).replayFind (s.dev.mbx mb).slot ((s.dev.mbx mb).body 8 8)
      ((s.dev.mbx mb).body 16 8) ((s.dev.mbx mb).body 24 8) ((s.dev.mbx mb).body 32 8) ((s.dev.mbx mb).body 40 8) = none) :
    Completes (.replayRun mb) s (fun e =>
      (e.answered mb 3 9 = true ∨ e.answered mb 2 0 = true) ∧ e.tasks = s.dev.tasks) := by
  refine .runRow (show _ = execReplayRun mb s from rfl) hm runs ?_
  simp only [Device.body_inStepOf, Device.slot_inStepOf, none_]
  exact ⟨Device.refused_withBeat _ _ _ _, Device.tasks_refuse _ _ _⟩

theorem replayRun_found {l : List (List (BitVec 8))} (found : (s.dev.inStepOf mb).replayFind (s.dev.mbx mb).slot
      ((s.dev.mbx mb).body 8 8) ((s.dev.mbx mb).body 16 8) ((s.dev.mbx mb).body 24 8) ((s.dev.mbx mb).body 32 8)
      ((s.dev.mbx mb).body 40 8) = some l) :
    Completes (.replayRun mb) s (fun e => (e.task (s.dev.mbx mb).slot).startS = some ((s.dev.mbx mb).body 32 8)
      ∧ (e.task (s.dev.mbx mb).slot).startMb = some mb ∧ (e.task (s.dev.mbx mb).slot).replay = some l
      ∧ (e.task (s.dev.mbx mb).slot).replayLog = l ∧ (e.task (s.dev.mbx mb).slot).replayEnd = (s.dev.mbx mb).body 40 8
      ∧ (e.task (s.dev.mbx mb).slot).state = (s.dev.task (s.dev.mbx mb).slot).state ∧ (e.mbx mb).st = 2) := by
  have started : (s.dev.mbx mb).st = 2 := by simp only [Device.runs, Bool.and_eq_true, beq_iff_eq] at runs; exact runs.1.1.1
  refine .runRow (show _ = execReplayRun mb s from rfl) hm runs ?_
  simp only [Device.body_inStepOf, Device.slot_inStepOf, found]
  rw [Device.task_withBeat, Device.task_onTask_same, Device.mbx_withBeat, Device.mbx_onTask, Device.mbx_devRead,
    Device.mbx_inStepOf, Device.task_of_tasks (Device.tasks_devRead _ _ _)]
  exact ⟨rfl, rfl, rfl, rfl, rfl, rfl, started⟩

end

/-! ### LOG_GAP -/

theorem Device.lastRecord_of_hub {d e : Device} (h : d.hub = e.hub) : d.lastRecord = e.lastRecord := by
  rw [Device.lastRecord, Device.lastRecord, h]

theorem Device.hubCount_log (d : Device) {j : Nat} (h : j ≠ 17) (r : HealthRec) : (d.log r).hubCount j = d.hubCount j := by
  rw [Device.log_eq, Device.hubCount, Device.onHub_hub, Hub.logged]
  dsimp only
  split
  · rfl
  · rw [Sparse.get_countIn, if_neg h]; rfl

theorem Device.hubCount_countHub (d : Device) (i n : Nat) : (d.countHub i n).hubCount i = d.hubCount i + BitVec.ofNat 64 n := by
  unfold Device.countHub
  split
  · next zero => subst zero; simp
  · exact (Sparse.get_countIn d.hub.counters i n i).trans (if_pos rfl)

@[simp] theorem Device.logger_log (d : Device) (r : HealthRec) : (d.log r).logger = d.logger := by
  rw [Device.log_eq]; rfl

@[simp] theorem Device.logger_countHub (d : Device) (i n : Nat) : (d.countHub i n).logger = d.logger := by
  unfold Device.countHub; split <;> rfl

@[simp] theorem Device.lastRecord_log (d : Device) (r : HealthRec) :
    (d.log r).lastRecord = some (r.code, r.cause, r.unitKind, r.unit) := by
  rw [Device.log_eq]; rfl

/-- A record that brings no payload takes 32 bytes of the buffer, where they have room (R432). -/
theorem Device.lost_logRecord_empty {d : Device} (room : (d.logger.buffer.map List.length).foldl (· + ·) 0 + 32 ≤ 0x200000)
    (t kind : Nat) (core : Option Nat) (detail : Nat) : (d.logRecord t kind core detail []).logger.lost = d.logger.lost := by
  unfold Device.logRecord
  dsimp only
  rw [if_neg]
  · rfl
  · simp only [List.length_append, leBytes_length, List.length_replicate, List.length_nil, List.append_nil]
    exact Nat.not_lt.2 room

@[simp] theorem Device.lost_freeRing (d : Device) : d.freeRing.logger.lost = d.logger.lost := by
  unfold Device.freeRing; split <;> rfl

/-- The records that were lost are told once, with their number (R433). -/
theorem execLogGap_told {s : State} (lost : s.dev.logger.lost ≠ 0)
    (room : (s.dev.logger.buffer.map List.length).foldl (· + ·) 0 + 32 ≤ 0x200000) :
    Completes .logGap s (fun e => e.logger.lost = 0 ∧ e.lastRecord = some (0x000D, 0, 4, 0)
      ∧ e.hubCount 14 = s.dev.hubCount 14 + BitVec.ofNat 64 s.dev.logger.lost) := by
  refine .row (show _ = execLogGap s from rfl) ?_
  dsimp only
  rw [if_neg]
  swap
  · rw [decide_eq_false lost, Bool.false_or, decide_eq_true_eq]
    simpa only [Nat.not_lt] using room
  refine ⟨?_, ?_, ?_⟩
  · rw [Device.withBeat_logger, Device.lost_freeRing, Device.logger_log, Device.logger_countHub]
    exact Device.lost_logRecord_empty (d := { s.dev with logger := { s.dev.logger with lost := 0 } }) room _ _ _ _
  · rw [Device.lastRecord_of_hub (Device.withBeat_hub _ _), Device.lastRecord_of_hub (Device.hub_freeRing _), Device.lastRecord_log]
    rfl
  · rw [Device.hubCount, Device.withBeat_hub, Device.hub_freeRing]
    refine (Device.hubCount_log _ (by decide) _).trans ?_
    rw [Device.hubCount_countHub, Device.hubCount, Device.hub_logRecord]
    rfl

/-- Settles O49: each command by what its checks say. -/
theorem replayCommands : Obligations.ReplayCommands := by
  unfold Obligations.ReplayCommands
  intro s mb hm
  refine ⟨fun runs first => ⟨fun live level => digestRead_level1 hm runs first live level,
      fun live level role => ⟨fun shut => digestRead_compared hm runs first live level role shut,
        fun open_ => digestRead_waits hm runs first live level role open_⟩,
      fun bad => digestRead_unreadable hm runs first bad⟩,
    fun beat runs waited shut => ⟨fun live => ?_, fun gone => ?_⟩,
    fun runs arm bound young => ⟨fun bad => replayArm_refused hm runs ?_, fun good => (replayArm_arms hm runs ?_ arm).mono ?_⟩,
    fun runs arm bound => replayArm_disarms hm runs ?_ arm, fun runs => ?_, fun none_ => ?_,
    fun lost room => execLogGap_told lost room, fun u hu => ⟨fun none_ => ?_, fun r due => ?_⟩⟩
  · have told := digestRead_after hm runs waited shut
    rwa [if_pos (by simpa using live)] at told
  · have told := digestRead_after hm runs waited shut
    rw [if_neg (by simpa using gone)] at told
    exact .of_exec told ⟨Device.answered_finish_withBeat _ _ _ _ _ _, Device.tasks_finish _ _ _ _ _⟩
  · simp [Device.replayArmBad, arm, bad]
  · simp [Device.replayArmBad, arm, good, bound, young]
  · rintro e ⟨armed, first, ok, alone⟩
    refine ⟨armed, first, ok, fun others => alone ?_⟩
    simpa [Device.othersArmed] using others
  · simp [Device.replayArmBad, arm, bound]
  · split
    · next none_ => exact replayRun_missing hm runs none_
    · next l found => exact replayRun_found hm runs found
  · refine .lift (show _ = execLogGap s from rfl) ?_
    dsimp only
    rw [if_pos (by simp [none_])]
  · refine .onUnit (show _ = execReplayApply u s from rfl) (by simpa using hu) ?_
    rw [none_]
  · refine .onUnit (show _ = execReplayApply u s from rfl) (by simpa using hu) ?_
    rw [due]

end Sys2Proof.Machine

/-! PROOFS about the effects of registered commands (R409, R468 to R470, R566): what each makes of the cores, the plan, the shadows
and the power logic at its moment. -/

namespace Sys2Proof.Machine

set_option Elab.async false

open Sys2Proof

/-! ### Folds that establish a fact of each element -/

/-- What each step establishes of its element, and no other step takes away, holds of every element after the fold. -/
theorem foldl_establishes {σ β : Type} {I : σ → Prop} {P : β → σ → Prop} {g : σ → β → σ} {l : List β}
    (keeps : ∀ d, ∀ x ∈ l, I d → I (g d x)) (does : ∀ d, ∀ x ∈ l, I d → P x (g d x))
    (stays : ∀ d, ∀ x ∈ l, ∀ y, I d → P y d → P y (g d x)) {d : σ} (h : I d) :
    I (l.foldl g d) ∧ ∀ x ∈ l, P x (l.foldl g d) := by
  suffices ∀ m ⊆ l, ∀ d, I d → I (m.foldl g d) ∧ (∀ y, P y d → P y (m.foldl g d)) ∧ ∀ x ∈ m, P x (m.foldl g d) from
    have all := this l (List.Subset.refl l) d h
    ⟨all.1, all.2.2⟩
  intro m
  induction m with
  | nil => exact fun _ d h => ⟨h, fun _ p => p, nofun⟩
  | cons a m ih =>
    intro part d h
    obtain ⟨ha, hm⟩ := List.cons_subset.1 part
    obtain ⟨inv, old, new⟩ := ih hm (g d a) (keeps d a ha h)
    refine ⟨inv, fun y p => old y (stays d a ha y h p), fun x hx => ?_⟩
    obtain rfl | hx := List.mem_cons.1 hx
    · exact old x (does d x ha h)
    · exact new x hx

/-! ### A read of a core's scratchpad -/

@[simp] theorem Device.besideCores_spadRead (d : Device) (c a n : Nat) : (d.spadRead c a n).2.besideCores = d.besideCores := by
  unfold Device.spadRead
  dsimp only
  rw [foldl_keeps Device.besideCores _ (fun d x => d.spadUe_besideCores c x 0)]
  simp

theorem Device.core_spadRead_other (d : Device) {c x : Nat} (a n : Nat) (h : x ≠ c) : (d.spadRead c a n).2.core x = d.core x := by
  unfold Device.spadRead
  dsimp only
  rw [foldl_keeps (fun d : Device => d.core x) _ (fun d y => d.core_spadUe_other y 0 h)]
  simp only [Device.core_countCore_other _ _ _ h, Device.core_onCore_other _ _ _ _ h]

theorem Device.noBooks_spadRead (d : Device) (c a n : Nat) :
    ((d.spadRead c a n).2.core c).noBooks = ({ d.core c with spad := ((d.core c).spad.read 8 a n).mem } : Core).noBooks := by
  unfold Device.spadRead
  dsimp only
  rw [foldl_keeps (fun d : Device => (d.core c).noBooks) _ (fun d y => d.noBooks_spadUe c y 0)]
  simp only [Device.noBooks_countCore, Device.core_onCore_same]

@[simp] theorem Device.core_consume (d : Device) (t c a source n x : Nat) : (d.consume t c a source n).core x = d.core x := by
  unfold Device.consume; split <;> rfl

@[simp] theorem Device.region_consume (d : Device) (t c a source n x : Nat) :
    (d.consume t c a source n).region x = d.region x := by
  unfold Device.consume; split <;> rfl

/-- A task without its notes of consumed marks and of the log: what the rows of its cores leave alone. -/
def Task.noNotes (k : Task) : Task := { k with consumed := none, consumeCount := 0, logSeq := 0 }

theorem Device.noNotes_onTask {f : Task → Task} (h : ∀ k, (f k).noNotes = k.noNotes) (d : Device) (t u : Nat) :
    ((d.onTask t f).task u).noNotes = (d.task u).noNotes := by
  by_cases same : u = t
  · rw [same, Device.task_onTask_same, h]
  · rw [Device.task_onTask_other _ _ _ _ same]

@[simp] theorem Device.noNotes_consume (d : Device) (t c a source n u : Nat) :
    ((d.consume t c a source n).task u).noNotes = (d.task u).noNotes := by
  unfold Device.consume
  split
  · rfl
  · refine Device.noNotes_onTask (fun _ => ?_) d t u; rfl

theorem Device.task_of_besideCores {d e : Device} (h : d.besideCores = e.besideCores) (t : Nat) : d.task t = e.task t :=
  (congrArg (fun d : Device => d.task t) h :)
theorem Device.region_of_besideCores {d e : Device} (h : d.besideCores = e.besideCores) (r : Nat) : d.region r = e.region r :=
  (congrArg (fun d : Device => d.region r) h :)

/-! ### A core begins or goes on with a task -/

/-- The restore cycles of core c change its scratchpad, counts and switched state alone, and what the task notes of marks. -/
theorem Device.unspillCore_frame (d : Device) (t c : Nat) :
    (∀ x, x ≠ c → (d.unspillCore t c).core x = d.core x) ∧ ((d.unspillCore t c).core c).power = (d.core c).power
      ∧ (∀ x, (d.unspillCore t c).region x = d.region x)
      ∧ ∀ u, ((d.unspillCore t c).task u).noNotes = (d.task u).noNotes := by
  unfold Device.unspillCore
  dsimp only
  generalize hr : d.spadRead c (d.spillPa t c) spillLen = r
  have other (x : Nat) (h : x ≠ c) : r.2.core x = d.core x := by rw [← hr]; exact d.core_spadRead_other _ _ h
  have power : (r.2.core c).power = (d.core c).power := by rw [← hr]; exact (congrArg Core.power (d.noBooks_spadRead c _ _) :)
  have beside : r.2.besideCores = d.besideCores := by rw [← hr]; exact d.besideCores_spadRead _ _ _
  generalize hg : (List.foldl _ r.2 (List.range 5) : Device) = g
  have core (x : Nat) : g.core x = r.2.core x := by
    rw [← hg]
    exact foldl_keeps (fun d : Device => d.core x) _ (fun d i => by split <;> simp) _ _
  have region (x : Nat) : g.region x = r.2.region x := by
    rw [← hg]
    exact foldl_keeps (fun d : Device => d.region x) _ (fun d i => by split <;> simp) _ _
  have task (u : Nat) : (g.task u).noNotes = (r.2.task u).noNotes := by
    rw [← hg]
    exact foldl_keeps (fun d : Device => (d.task u).noNotes) _ (fun d i => by split <;> simp) _ _
  refine ⟨fun x h => ?_, ?_, fun x => ?_, fun u => ?_⟩
  · rw [Device.core_onCore_other _ _ _ _ h, core, other x h]
  · rw [Device.core_onCore_same]
    exact (congrArg Core.power (core c)).trans power
  · rw [Device.region_onCore, region, Device.region_of_besideCores beside]
  · rw [Device.task_onCore, task, Device.task_of_besideCores beside]

/-- A core in the initial state of a task's slot, as far as the program sees it (R409). -/
def Core.initial (k : Core) (t : Nat) : Prop :=
  k.pc = 0 ∧ k.lanes = [] ∧ k.ptrs = [] ∧ k.xa = [] ∧ k.loops = [] ∧ Sparse.get 0 k.flags t = 0

theorem Device.initCore_frame (d : Device) (t c : Nat) :
    (∀ x, x ≠ c → (d.initCore t c).core x = d.core x) ∧ ((d.initCore t c).core c).power = (d.core c).power
      ∧ (∀ x, (d.initCore t c).region x = d.region x) ∧ (∀ u, (d.initCore t c).task u = d.task u)
      ∧ ((d.initCore t c).core c).initial t := by
  unfold Device.initCore Device.startKeys
  dsimp only
  generalize hg : (List.foldl _ (d.resetFlags c t) _ : Device) = g
  have key (e : Device) (k n : Nat) : ((e.setKey c k n).core c).power = (e.core c).power
      ∧ ((e.setKey c k n).core c).flags = (e.core c).flags := by
    rw [Device.setKey, Device.core_onCore_same]; exact ⟨rfl, rfl⟩
  have reset : ((d.resetFlags c t).core c).power = (d.core c).power
      ∧ ((d.resetFlags c t).core c).flags = Sparse.set 0 (d.core c).flags t 0 := by
    rw [Device.resetFlags, Device.core_onCore_same]; exact ⟨rfl, rfl⟩
  have other (x : Nat) (h : x ≠ c) : g.core x = d.core x := by
    rw [← hg]
    exact (foldl_keeps (fun d : Device => d.core x) _ (fun d i => Device.core_onCore_other _ _ _ _ h) _ _).trans
      (Device.core_onCore_other _ _ _ _ h)
  have power : (g.core c).power = (d.core c).power := by
    rw [← hg]
    exact (foldl_keeps (fun d : Device => (d.core c).power) _ (fun d i => (key d _ _).1) _ _).trans reset.1
  have flags : (g.core c).flags = Sparse.set 0 (d.core c).flags t 0 := by
    rw [← hg]
    exact (foldl_keeps (fun d : Device => (d.core c).flags) _ (fun d i => (key d _ _).2) _ _).trans reset.2
  have region (x : Nat) : g.region x = d.region x := by
    rw [← hg]
    refine (foldl_keeps (fun d : Device => d.region x) _ (fun d i => ?_) _ _).trans ?_ <;> rfl
  have task (u : Nat) : g.task u = d.task u := by
    rw [← hg]
    refine (foldl_keeps (fun d : Device => d.task u) _ (fun d i => ?_) _ _).trans ?_ <;> rfl
  refine ⟨fun x h => ?_, ?_, region, task, ?_⟩
  · rw [Device.core_onCore_other _ _ _ _ h, other x h]
  · rw [Device.core_onCore_same]
    exact power
  · rw [Device.core_onCore_same]
    refine ⟨rfl, rfl, rfl, rfl, rfl, ?_⟩
    show Sparse.get 0 (g.core c).flags t = 0
    rw [flags, Sparse.get_set_same]

/-- Core c of task t begins, from bundle 0 or where it stood (R409, R418). -/
def Device.startCore (d : Device) (t : Nat) (fresh : Bool) (c : Nat) : Device :=
  let d := if fresh then d.initCore t c else (d.unspillCore t c).onCore c (fun x => x.goOn (Sparse.get 0 x.resume t))
  let d := ((d.onCore c (fun x => x.beginRun t)).onRegion c (fun r => { r with
    count := 0, finished := false, judged := false })).regionRuns c
  if (d.core c).power.state = 0 then d else d.standIn c t 16

/-- Core c runs task t with an open beat. -/
def Device.began (d : Device) (t c : Nat) : Prop :=
  (d.core c).running = some t ∧ (d.region c).count = 0 ∧ (d.region c).finished = false

theorem Device.regionRuns_frame (d : Device) (r : Nat) : (∀ x, (d.regionRuns r).core x = d.core x)
    ∧ (∀ x, x ≠ r → (d.regionRuns r).region x = d.region x) ∧ ((d.regionRuns r).region r).count = (d.region r).count
      ∧ ((d.regionRuns r).region r).finished = (d.region r).finished ∧ ∀ u, (d.regionRuns r).task u = d.task u := by
  unfold Device.regionRuns
  split
  · refine ⟨fun _ => rfl, fun x h => Device.region_onRegion_other _ _ _ _ h, ?_, ?_, fun _ => rfl⟩ <;>
      rw [Device.region_onRegion_same]
  · exact ⟨fun _ => rfl, fun _ _ => rfl, rfl, rfl, fun _ => rfl⟩

theorem Device.startCore_frame {d : Device} {c : Nat} (active : (d.core c).power.state = 0) (t : Nat) (fresh : Bool) :
    (∀ x, x ≠ c → (d.startCore t fresh c).core x = d.core x ∧ (d.startCore t fresh c).region x = d.region x)
      ∧ ((d.startCore t fresh c).core c).power = (d.core c).power ∧ (d.startCore t fresh c).began t c
      ∧ (fresh = true → ((d.startCore t fresh c).core c).initial t)
      ∧ ∀ u, ((d.startCore t fresh c).task u).noNotes = (d.task u).noNotes := by
  unfold Device.startCore
  dsimp only
  generalize hb : (if fresh then d.initCore t c else _ : Device) = b
  have base : (∀ x, x ≠ c → b.core x = d.core x) ∧ (b.core c).power = (d.core c).power ∧ (∀ x, b.region x = d.region x)
      ∧ (fresh = true → (b.core c).initial t) ∧ ∀ u, (b.task u).noNotes = (d.task u).noNotes := by
    rw [← hb]
    cases fresh with
    | true =>
      obtain ⟨other, power, region, task, initial⟩ := d.initCore_frame t c
      exact ⟨other, power, region, fun _ => initial, fun u => congrArg Task.noNotes (task u)⟩
    | false =>
      obtain ⟨other, power, region, task⟩ := d.unspillCore_frame t c
      generalize d.unspillCore t c = e at other power region task ⊢
      rw [if_neg Bool.false_ne_true]
      refine ⟨fun x h => (Device.core_onCore_other _ _ _ _ h).trans (other x h), ?_, fun x => (Device.region_onCore _ _ _ x).trans (region x), nofun, fun u => ?_⟩
      · rw [Device.core_onCore_same]
        exact power
      · rw [Device.task_onCore]
        exact task u
  obtain ⟨other, power, region, initial, task⟩ := base
  generalize hr : (b.onCore c (fun x => x.beginRun t)).onRegion c _ = r
  obtain ⟨core, regions, count, finished, tasks⟩ := r.regionRuns_frame c
  have own : r.core c = (b.core c).beginRun t := by rw [← hr, Device.core_onRegion, Device.core_onCore_same]
  have opened : (r.region c).count = 0 ∧ (r.region c).finished = false := by
    rw [← hr, Device.region_onRegion_same]; exact ⟨rfl, rfl⟩
  have still : ((r.regionRuns c).core c).power = (d.core c).power := by rw [core, own]; exact power
  have on : ((r.regionRuns c).core c).power.state = 0 := (congrArg CorePower.state still).trans active
  rw [if_pos on]
  refine ⟨fun x h => ⟨?_, ?_⟩, still, ⟨?_, count.trans opened.1, finished.trans opened.2⟩, fun h => ?_, fun u => ?_⟩
  · rw [core, ← hr, Device.core_onRegion, Device.core_onCore_other _ _ _ _ h, other x h]
  · rw [regions x h, ← hr, Device.region_onRegion_other _ _ _ _ h, Device.region_onCore, region]
  · rw [core, own]; rfl
  · rw [core, own]; exact initial h
  · rw [tasks, ← hr]; exact task u

/-- The cores of a task begin one after another, each as it would alone. -/
theorem Device.startCores_frame {d : Device} {l : List Nat} (active : ∀ c ∈ l, (d.core c).power.state = 0) (t : Nat) (fresh : Bool) :
    let e := l.foldl (fun d c => d.startCore t fresh c) d
    (∀ c ∈ l, e.began t c ∧ (fresh = true → (e.core c).initial t)) ∧ ∀ u, (e.task u).noNotes = (d.task u).noNotes := by
  have all := foldl_establishes (I := fun e : Device => (∀ c ∈ l, (e.core c).power.state = 0)
      ∧ ∀ u, (e.task u).noNotes = (d.task u).noNotes) (P := fun c (e : Device) => e.began t c ∧ (fresh = true → (e.core c).initial t))
    (g := fun d c => d.startCore t fresh c) (l := l) (d := d) ?_ ?_ ?_ ⟨active, fun _ => rfl⟩
  · exact ⟨all.2, all.1.2⟩
  · rintro e x hx ⟨on, tasks⟩
    obtain ⟨other, power, -, -, task⟩ := Device.startCore_frame (on x hx) t fresh
    refine ⟨fun c hc => ?_, fun u => (task u).trans (tasks u)⟩
    by_cases same : c = x
    · rw [same, power]; exact on x hx
    · rw [(other c same).1]; exact on c hc
  · rintro e x hx ⟨on, -⟩
    obtain ⟨-, -, began, initial, -⟩ := Device.startCore_frame (on x hx) t fresh
    exact ⟨began, initial⟩
  · rintro e x hx y ⟨on, -⟩ old
    obtain ⟨other, -, began, initial, -⟩ := Device.startCore_frame (on x hx) t fresh
    by_cases same : y = x
    · rw [same]; exact ⟨began, initial⟩
    · rw [Device.began, (other y same).1, (other y same).2]; exact old

/-! ### The start of a task -/

theorem Device.logEvent_frame (d : Device) (t kind : Nat) (core : Option Nat) (detail : Nat) (x : List (BitVec 8)) :
    (d.logEvent t kind core detail x).cores = d.cores ∧ (d.logEvent t kind core detail x).regions = d.regions
      ∧ ∀ u, ((d.logEvent t kind core detail x).task u).noNotes = (d.task u).noNotes := by
  have noted (u : Nat) : ((d.onTask t (fun k => { k with logSeq := k.logSeq + 1 })).task u).noNotes = (d.task u).noNotes := by
    refine Device.noNotes_onTask (fun _ => ?_) d t u
    rfl
  unfold Device.logEvent
  split
  · unfold Device.logRecord
    dsimp only
    split_ifs <;> exact ⟨rfl, rfl, noted⟩
  · exact ⟨rfl, rfl, fun _ => rfl⟩

theorem Device.settle_frame (d : Device) (mb : Option Nat) (st : Nat) : (d.settle mb st).besideAnswers = d.besideAnswers := by
  cases mb with
  | none => rfl
  | some m => exact d.besideAnswers_finish _ _ _ _

theorem Device.answered_settle (d : Device) (mb : Nat) : (d.settle (some mb) 0).answered mb 0 0 = true := d.answered_finish mb 0 0 []

/-- The task beat of a start, from the cores that have begun. -/
def Device.startTaskEnd (d : Device) (t : Nat) (k : Task) : Device :=
  let start := k.startS.getD 0
  (d.onTask t (fun x => { x with
    state := 2, startS := none, startMb := none, lastYield := start - 1, lastCompare := start
    runBeats := if k.state == 1 then 0 else x.runBeats, captureS := if k.state == 1 then start - 1 else x.captureS
    flagWord := if x.replay.isSome && !bitAt x.flagWord 3 then x.flagWord + 8 else x.flagWord })).logEvent t 0x01 none start []

theorem execTaskStartEffect_due {s : State} {t : Nat} (ht : t < 8) (due : s.dev.startDue t = true) {P : Device → Prop}
    (h : P (((((s.dev.task t).cores.foldl (fun (d : Device) c => d.startCore t ((s.dev.task t).state == 1) c)
        (s.dev.changing (s.dev.task t).startMb t)).startTaskEnd t (s.dev.task t)).settle (s.dev.task t).startMb 0).withBeat s.dev.beat)) :
    Completes (.taskStartEffect t) s P := by
  refine .unitRow (show _ = execTaskStartEffect t s from rfl) (by simpa using ht) ?_
  rw [if_neg (by simp [due])]
  exact h

theorem taskStartEffect_starts {s : State} {t : Nat} (ht : t < 8) (due : s.dev.startDue t = true)
    (active : ∀ c ∈ (s.dev.task t).cores, (s.dev.core c).power.state = 0) :
    Completes (.taskStartEffect t) s (fun e => ((e.task t).state = 2 ∧ (e.task t).startS = none
      ∧ (e.task t).lastYield = (s.dev.task t).startS.getD 0 - 1
      ∧ (∀ mb, (s.dev.task t).startMb = some mb → e.answered mb 0 0 = true)
      ∧ (∀ c ∈ (s.dev.task t).cores, (e.core c).running = some t ∧ (e.region c).count = 0 ∧ (e.region c).finished = false))
      ∧ (e.task t).runBeats = (if (s.dev.task t).state == 1 then 0 else (s.dev.task t).runBeats)
      ∧ (((s.dev.task t).state == 1) = true → ∀ c ∈ (s.dev.task t).cores, (e.core c).initial t)) := by
  refine execTaskStartEffect_due ht due ?_
  have cores (c : Nat) : (s.dev.changing (s.dev.task t).startMb t).core c = s.dev.core c := by
    rw [Device.core, Device.cores_changing]; rfl
  obtain ⟨began, tasks⟩ := Device.startCores_frame (d := s.dev.changing (s.dev.task t).startMb t) (l := (s.dev.task t).cores)
    (fun c hc => by rw [cores]; exact active c hc) t ((s.dev.task t).state == 1)
  generalize hb : (s.dev.task t).cores.foldl (fun (d : Device) c => d.startCore t ((s.dev.task t).state == 1) c) _ = b at began tasks ⊢
  have beats : (b.task t).runBeats = (s.dev.task t).runBeats := by
    refine (congrArg Task.runBeats (tasks t) :).trans ?_
    rw [Device.task, Device.tasks_changing]; rfl
  generalize hk : s.dev.task t = k at beats began ⊢
  have eventCores : (b.startTaskEnd t k).cores = b.cores := (Device.logEvent_frame _ t 0x01 none _ []).1.trans rfl
  have eventRegions : (b.startTaskEnd t k).regions = b.regions := (Device.logEvent_frame _ t 0x01 none _ []).2.1.trans rfl
  have eventTask : ((b.startTaskEnd t k).task t).noNotes = ({ b.task t with
      state := 2, startS := none, startMb := none, lastYield := k.startS.getD 0 - 1, lastCompare := k.startS.getD 0
      runBeats := if k.state == 1 then 0 else (b.task t).runBeats
      captureS := if k.state == 1 then k.startS.getD 0 - 1 else (b.task t).captureS
      flagWord := if (b.task t).replay.isSome && !bitAt (b.task t).flagWord 3 then (b.task t).flagWord + 8
        else (b.task t).flagWord } : Task).noNotes :=
    ((Device.logEvent_frame _ t 0x01 none _ []).2.2 t).trans (congrArg Task.noNotes (Device.task_onTask_same b t _))
  generalize b.startTaskEnd t k = e at eventCores eventRegions eventTask ⊢
  have beside := e.settle_frame k.startMb 0
  have task : ((e.settle k.startMb 0).withBeat s.dev.beat).task t = e.task t := (congrArg (fun d : Device => d.task t) beside :)
  have core (c : Nat) : ((e.settle k.startMb 0).withBeat s.dev.beat).core c = b.core c := by
    have same : ((e.settle k.startMb 0).withBeat s.dev.beat).core c = e.core c := (congrArg (fun d : Device => d.core c) beside :)
    rw [same, Device.core, eventCores]; rfl
  have region (c : Nat) : ((e.settle k.startMb 0).withBeat s.dev.beat).region c = b.region c := by
    have same : ((e.settle k.startMb 0).withBeat s.dev.beat).region c = e.region c := (congrArg (fun d : Device => d.region c) beside :)
    rw [same, Device.region, eventRegions]; rfl
  rw [task]
  simp only [core, region]
  refine ⟨⟨(congrArg Task.state eventTask :), (congrArg Task.startS eventTask :), (congrArg Task.lastYield eventTask :),
    fun mb h => ?_, fun c hc => (began c hc).1⟩, (congrArg Task.runBeats eventTask :).trans ?_, fun fresh c hc => (began c hc).2 fresh⟩
  · rw [h, Device.answered_withBeat]; exact e.answered_settle mb
  · rw [← beats]; rfl

/-! ### What an answer leaves of the ports -/

/-- A port without the packets that the device itself sends on it. -/
def Port.noSends (p : Port) : Port := { p with localWait := [], localNum := 0, fifos := [] }

@[simp] theorem Port.noSends_feed (p : Port) : p.feed.noSends = p.noSends := by
  unfold Port.feed
  dsimp only
  split <;> rfl

theorem Device.noSends_onPort {f : Port → Port} (h : ∀ q, (f q).noSends = q.noSends) (d : Device) (r p : Nat) :
    ((d.onPort r f).port p).noSends = (d.port p).noSends := by
  by_cases same : p = r
  · rw [same, Device.port_onPort_same, h]
  · rw [Device.port_onPort_other _ _ _ _ same]

@[simp] theorem Device.noSends_sendPacket (d : Device) (dev : Nat) (pk : Packet) (p : Nat) :
    ((d.sendPacket dev pk).port p).noSends = (d.port p).noSends := by
  have sent (r n : Nat) (x : Packet) : ((d.onPort r (fun p => { p with
      localWait := p.localWait ++ [x], localNum := n + 1 }.feed)).port p).noSends = (d.port p).noSends := by
    refine Device.noSends_onPort (fun q => ?_) d r p
    rw [Port.noSends_feed]; rfl
  unfold Device.sendPacket
  dsimp only
  split
  · rfl
  · split
    · exact sent _ _ _
    · exact sent _ _ _

@[simp] theorem Device.noSends_mgmtSend (d : Device) (dev mb : Nat) (r : Bool) (off : Nat) (x : List (BitVec 8)) (last : Bool) (p : Nat) :
    ((d.mgmtSend dev mb r off x last).port p).noSends = (d.port p).noSends := by
  unfold Device.mgmtSend
  rw [Device.noSends_sendPacket]; rfl

@[simp] theorem Device.noSends_mgmtPieces (d : Device) (dev mb : Nat) (r : Bool) (off : Nat) (x : List (BitVec 8)) (p : Nat) :
    ((d.mgmtPieces dev mb r off x).port p).noSends = (d.port p).noSends :=
  foldl_keeps (fun d : Device => (d.port p).noSends) _ (fun d _ => d.noSends_mgmtSend dev mb r _ _ _ p) _ _

theorem Device.fabric_holdWrite (d : Device) (x : HeldWrite) : (d.holdWrite x).fabric = d.fabric := by
  unfold Device.holdWrite; split <;> rfl

theorem Device.fabric_onHub (d : Device) (f : Hub → Hub) : (d.onHub f).fabric = d.fabric := rfl
theorem Device.fabric_onWindow (d : Device) (w : Nat) (f : Mbx → Mbx) : (d.onWindow w f).fabric = d.fabric := rfl
theorem Device.fabric_hostWrite (d : Device) (a : Nat) (bs : List (BitVec 8)) : (d.hostWrite a bs).fabric = d.fabric := rfl

theorem Device.fabric_ringFlush (d : Device) : d.ringFlush.fabric = d.fabric := by
  unfold Device.ringFlush
  dsimp only
  split
  · rfl
  · split
    · rw [Device.fabric_onHub, Device.fabric_hostWrite]
    · rfl

theorem Device.fabric_ringPut (d : Device) (x : List (BitVec 8)) : (d.ringPut x).fabric = d.fabric := by
  unfold Device.ringPut
  dsimp only
  split_ifs
  · rfl
  · rw [Device.fabric_holdWrite]; rfl
  · rw [Device.fabric_ringFlush]; rfl
  · rfl

theorem Device.fabric_windowDone (d : Device) (w : Nat) : (d.windowDone w).fabric = d.fabric := by
  unfold Device.windowDone
  dsimp only
  split
  · exact d.fabric_holdWrite _
  · have written (a : Nat) (bs : List (BitVec 8)) (c : Bool) : (if c then d.hostWrite a bs else d).fabric = d.fabric := by
      cases c <;> rfl
    split
    · rw [Device.fabric_ringPut, Device.fabric_onWindow]; exact written _ _ _
    · rw [Device.fabric_onWindow]; exact written _ _ _

theorem Device.fabric_windowPiece (d : Device) (w off : Nat) (x : List (BitVec 8)) (last : Bool) :
    (d.windowPiece w off x last).fabric = d.fabric := by
  unfold Device.windowPiece
  dsimp only
  split_ifs <;> simp only [Device.fabric_windowDone, Device.fabric_onWindow]

theorem Device.port_of_fabric {d e : Device} (h : d.fabric = e.fabric) (p : Nat) : d.port p = e.port p := by
  rw [Device.port, Device.port, h]

@[simp] theorem Device.noSends_reply (d : Device) (mb p : Nat) : ((d.reply mb).port p).noSends = (d.port p).noSends := by
  unfold Device.reply
  dsimp only
  split
  · split
    · rfl
    · split
      · split
        · rw [Device.port_of_fabric (Device.fabric_windowPiece _ _ _ _ _), Device.port_of_fabric (Device.fabric_windowPiece _ _ _ _ _)]
        · rw [Device.port_of_fabric (Device.fabric_windowPiece _ _ _ _ _)]
      · split <;> simp
  · split
    · split <;> rfl
    · rfl

@[simp] theorem Device.noSends_finish (d : Device) (mb a b : Nat) (r : List (BitVec 8)) (p : Nat) :
    ((d.finish mb a b r).port p).noSends = (d.port p).noSends := by
  unfold Device.finish Device.complete
  split
  · rw [Device.port_of_fabric (Device.fabric_holdWrite _ _)]; rfl
  · unfold Device.publish
    dsimp only
    split
    · rfl
    · have written (e : Device) (x : Nat) (bs : List (BitVec 8)) (c : Bool) (f : Mbx → Mbx) :
          ((((if c then e.hostWrite x bs else e).onMbx mb f).reply mb).port p).noSends = (e.port p).noSends := by
        rw [Device.noSends_reply]
        cases c <;> rfl
      split
      · rw [Device.port_of_fabric (Device.fabric_ringPut _ _), written]; rfl
      · rw [written]; rfl

/-! ### The plans -/

theorem Device.mem_portNums {d : Device} {p : Nat} (h : d.hasPort p = true) : p ∈ d.portNums := by
  refine List.mem_filter.2 ⟨List.mem_range.2 ?_, h⟩
  rw [Device.hasPort, Grade.hasPort] at h
  have bound : d.grade.ports ≤ 32 := by cases d.grade <;> decide
  simp only [Bool.or_eq_true, Bool.and_eq_true, decide_eq_true_eq, beq_iff_eq] at h
  omega

theorem Device.onPorts_port_other (f : Nat → Port → Port) {l : List Nat} {p : Nat} (h : p ∉ l) (d : Device) :
    (l.foldl (fun (d : Device) p => d.onPort p (f p)) d).port p = d.port p := by
  induction l generalizing d with
  | nil => rfl
  | cons a l ih =>
    have ha : p ≠ a := fun same => h (List.mem_cons.2 (.inl same))
    have hl : p ∉ l := fun later => h (List.mem_cons.2 (.inr later))
    rw [List.foldl_cons, ih hl, Device.port_onPort_other _ _ _ _ ha]

/-- Every port of the grade takes what a plan command gives it. -/
theorem Device.onPorts_port (f : Nat → Port → Port) {l : List Nat} (distinct : l.Nodup) (d : Device) {p : Nat} (h : p ∈ l) :
    (l.foldl (fun (d : Device) p => d.onPort p (f p)) d).port p = f p (d.port p) := by
  induction l generalizing d with
  | nil => cases h
  | cons a l ih =>
    obtain ⟨fresh, distinct⟩ := List.nodup_cons.1 distinct
    rw [List.foldl_cons]
    by_cases here : p = a
    · subst here
      rw [Device.onPorts_port_other f fresh, Device.port_onPort_same]
    · rw [ih distinct _ ((List.mem_cons.1 h).resolve_left here), Device.port_onPort_other _ _ _ _ here]

theorem Device.nodup_portNums (d : Device) : d.portNums.Nodup := List.nodup_range.filter _

theorem Device.settings_foldl_onPort (f : Nat → Port → Port) (l : List Nat) (d : Device) :
    (l.foldl (fun (d : Device) p => d.onPort p (f p)) d).settings = d.settings :=
  foldl_keeps Device.settings _ (fun d p => d.settings_onPort p (f p)) _ _

theorem Device.settings_settle (d : Device) (mb : Option Nat) (st : Nat) : (d.settle mb st).settings = d.settings :=
  (congrArg Device.settings (d.settle_frame mb st) :)

theorem Device.noSends_settle (d : Device) (mb : Option Nat) (st p : Nat) :
    ((d.settle mb st).port p).noSends = (d.port p).noSends := by
  cases mb with
  | none => rfl
  | some m => exact d.noSends_finish _ _ _ _ _

/-- The change of every port by a plan command, and the answer to it. -/
theorem Device.planEnd_frame (b : Device) (mb : Nat) (f : Nat → Port → Port) :
    let e := (b.portNums.foldl (fun (d : Device) p => d.onPort p (f p)) b).settle (some mb) 0
    e.settings = b.settings ∧ (∀ p, b.hasPort p = true → (e.port p).noSends = (f p (b.port p)).noSends)
      ∧ e.answered mb 0 0 = true := by
  dsimp only
  refine ⟨?_, fun p h => ?_, Device.answered_settle _ mb⟩
  · rw [Device.settings_settle, Device.settings_foldl_onPort]
  · rw [Device.noSends_settle, Device.onPorts_port f b.nodup_portNums b (Device.mem_portNums h)]

theorem planStopEffect_stops {s : State} {x mb : Nat} (stop : s.dev.fabric.stopS = some (x, mb)) (done : s.dev.fabric.stopDone = true)
    (due : x + 4 ≤ s.dev.beat.s) : Completes .planStopEffect s (fun e => e.fabric.planOn = false ∧ e.fabric.planSlots = []
      ∧ e.fabric.stopS = none ∧ (∀ p, s.dev.hasPort p = true → (e.port p).inPlan = false) ∧ e.answered mb 0 0 = true) := by
  have checked : s.dev.planStopDue = false := by simp [Device.planStopDue, done]
  refine .row (show _ = execPlanStopEffect s from rfl) ?_
  rw [stop]
  dsimp only
  rw [checked, Bool.false_and, Bool.false_and, if_neg Bool.false_ne_true, if_pos (by simp [done, due])]
  have kept := s.dev.besideMbx_changing (some mb) 8
  generalize s.dev.changing (some mb) 8 = c at kept ⊢
  generalize hb : c.onFabric _ = b
  have unit (p : Nat) : b.hasPort p = s.dev.hasPort p := by
    rw [← hb]
    exact (congrArg (fun d : Device => d.hasPort p) kept :)
  have set : b.fabric.planOn = false ∧ b.fabric.planSlots = [] ∧ b.fabric.stopS = none := by rw [← hb]; exact ⟨rfl, rfl, rfl⟩
  obtain ⟨settings, ports, answered⟩ := b.planEnd_frame mb (fun _ q => { q with inPlan := false })
  generalize (List.foldl _ b b.portNums : Device).settle (some mb) 0 = e at settings ports answered ⊢
  refine ⟨(congrArg Fabric.planOn settings :).trans set.1, (congrArg Fabric.planSlots settings :).trans set.2.1,
    (congrArg Fabric.stopS settings :).trans set.2.2, fun p h => ?_, answered⟩
  rw [Device.port_withBeat]
  exact (congrArg Port.inPlan (ports p ((unit p).trans h)) :)

theorem planStartEffect_starts {s : State} {x mb : Nat} (start : s.dev.fabric.startS = some (x, mb)) (due : x ≤ s.dev.beat.s)
    (stop : s.dev.fabric.stopS = none) {plan : List (Nat × PlanEntry)}
    (hplan : (if s.dev.fabric.newPlan.isSome then s.dev.fabric.newPlan else s.dev.fabric.oldPlan).getD [] = plan) :
    Completes .planStartEffect s (fun e => e.fabric.planOn = true ∧ e.fabric.localFrom = x ∧ e.fabric.startS = none
      ∧ (∀ p, s.dev.hasPort p = true → (e.port p).plan = Sparse.get PlanEntry.reset plan p
          ∧ (e.port p).inPlan = ((s.dev.port p).up && decide (p < 32))) ∧ e.answered mb 0 0 = true) := by
  refine .row (show _ = execPlanStartEffect s from rfl) ?_
  rw [start]
  dsimp only
  rw [if_pos (by simp [due, stop]), hplan]
  have kept := s.dev.besideMbx_changing (some mb) 8
  generalize s.dev.changing (some mb) 8 = c at kept ⊢
  generalize hb : c.onFabric _ = b
  have unit (p : Nat) : b.hasPort p = s.dev.hasPort p := by
    rw [← hb]
    exact (congrArg (fun d : Device => d.hasPort p) kept :)
  have port (p : Nat) : b.port p = s.dev.port p := by
    rw [← hb]
    exact (congrArg (fun d : Device => d.port p) kept :)
  have set : b.fabric.planOn = true ∧ b.fabric.localFrom = x ∧ b.fabric.startS = none := by rw [← hb]; exact ⟨rfl, rfl, rfl⟩
  obtain ⟨settings, ports, answered⟩ := b.planEnd_frame mb (fun p q => { q with
    plan := Sparse.get PlanEntry.reset plan p, inPlan := q.up && p < 32 })
  generalize (List.foldl _ b b.portNums : Device).settle (some mb) 0 = e at settings ports answered ⊢
  refine ⟨(congrArg Fabric.planOn settings :).trans set.1, (congrArg Fabric.localFrom settings :).trans set.2.1,
    (congrArg Fabric.startS settings :).trans set.2.2, fun p h => ?_, answered⟩
  have taken := ports p ((unit p).trans h)
  rw [port] at taken
  rw [Device.port_withBeat]
  exact ⟨(congrArg Port.plan taken :), (congrArg Port.inPlan taken :)⟩

/-! ### The policy -/

theorem Device.power_onCore (d : Device) (c : Nat) (f : Core → Core) : (d.onCore c f).power = d.power := rfl
theorem Device.power_recap (d : Device) (r : Nat) : (d.recap r).power = d.power := rfl

theorem Device.power_recapAll (d : Device) : d.recapAll.power = d.power := by
  unfold Device.recapAll
  exact foldl_keeps Device.power _ (fun d r => d.power_recap r) _ _

/-- The power logic without the wakes of quarters and POWER_STATUS. -/
def Power.noWakes (p : Power) : Power := { p with quarters := [], qWake := [], shown := 0 }

theorem Device.noWakes_startWake (d : Device) (c : Nat) : (d.startWake c).power.noWakes = d.power.noWakes := by
  unfold Device.startWake Device.wakeQuarter
  dsimp only
  split_ifs <;> rfl

theorem Device.noWakes_wakeDeeper (d : Device) (deepest : Nat) : (d.wakeDeeper deepest).power.noWakes = d.power.noWakes := by
  unfold Device.wakeDeeper
  refine foldl_keeps (fun d : Device => d.power.noWakes) _ (fun d c => ?_) _ _
  split
  · exact d.noWakes_startWake c
  · rfl

/-- What a policy makes of the power logic (R566). -/
theorem Device.applyPolicy_power (d : Device) (p : Policy) :
    (d.applyPolicy p).power.policy = p ∧ (d.applyPolicy p).power.reg = d.power.reg
      ∧ (p.park = true → (d.applyPolicy p).power.device = 4)
      ∧ (p.park = false → d.power.device = 4 → (d.applyPolicy p).power.device = 5 ∧ (d.applyPolicy p).power.devWake = 58594)
      ∧ (p.park = false → d.power.device ≠ 4 → (d.applyPolicy p).power.device = d.power.device) := by
  unfold Device.applyPolicy
  dsimp only
  generalize hb : Device.wakeDeeper _ p.deepest = b
  have woken : b.power.noWakes = ({ d.power with policy := p } : Power).noWakes := by
    rw [← hb, Device.noWakes_wakeDeeper, Device.power_recapAll]
  have policy : b.power.policy = p := (congrArg Power.policy woken :)
  have reg : b.power.reg = d.power.reg := (congrArg Power.reg woken :)
  have device : b.power.device = d.power.device := (congrArg Power.device woken :)
  cases hp : p.park with
  | true =>
    have parked : b.enterParked.power.policy = p ∧ b.enterParked.power.reg = d.power.reg ∧ b.enterParked.power.device = 4 := by
      unfold Device.enterParked
      split
      · next here => exact ⟨policy, reg, here⟩
      · have kept : ((List.range b.grade.cores).foldl (fun (d : Device) c => d.onCore c (fun k => { k with
            power := CorePower.reset })) b).power = b.power := foldl_keeps Device.power _ (fun d c => d.power_onCore c _) _ _
        exact ⟨(congrArg Power.policy kept).trans policy, (congrArg Power.reg kept).trans reg, rfl⟩
    exact ⟨parked.1, parked.2.1, fun _ => parked.2.2, nofun, nofun⟩
  | false =>
    rw [if_neg Bool.false_ne_true]
    unfold Device.leaveParked
    split
    · next here => exact ⟨policy, reg, nofun, fun _ _ => ⟨rfl, rfl⟩, fun _ away => absurd (device.symm.trans here) away⟩
    · next away => exact ⟨policy, reg, nofun, fun _ here => absurd (device.trans here) away, fun _ _ => device⟩

theorem Device.power_settle (d : Device) (mb : Option Nat) (st : Nat) : (d.settle mb st).power = d.power :=
  (congrArg Device.power (d.settle_frame mb st) :)

theorem Device.power_changing (d : Device) (mb : Option Nat) (o : Nat) : (d.changing mb o).power = d.power :=
  (congrArg Device.power (d.besideMbx_changing mb o) :)

/-- POWER_POLICY_EFFECT at the edge of a registered policy (R566). -/
theorem execPowerPolicyEffect_due {s : State} {w mb : Nat} {p : Policy} (aligned : s.dev.beat.aligned = true)
    (due : s.dev.power.reg.find? (fun r => decide (r.1 ≤ s.dev.beat.w)) = some (w, mb, p)) {P : Device → Prop}
    (h : ∀ d : Device, d = { s.dev with power := { s.dev.power with reg := s.dev.power.reg.erase (w, mb, p) } } →
      P ((if p.park && !s.dev.mayPark then d.settle (some mb) 2
        else ((d.changing (some mb) 8).applyPolicy p).settle (some mb) 0).withBeat s.dev.beat)) :
    Completes .powerPolicyEffect s P := by
  refine .row (show _ = execPowerPolicyEffect s from rfl) ?_
  simp only [aligned, Bool.true_and, due]
  exact h _ rfl

/-- Settles O48: each effect at its moment, on the cores, the ports, the shadows or the power logic, and its command's answer. -/
theorem registeredEffects : Obligations.RegisteredEffects := by
  unfold Obligations.RegisteredEffects
  refine ⟨fun s t ht due active => ⟨fun bound => ?_, fun yielded => ?_⟩, fun s t ht idle => ?_,
    fun s x mb stop done due => planStopEffect_stops stop done due,
    fun s x mb start due stop => planStartEffect_starts start due stop rfl, fun s w mb reg due => ?_,
    fun s w mb p aligned due => ⟨fun park barred => ?_, fun may => ?_⟩⟩
  · refine (taskStartEffect_starts ht due active).mono fun e ⟨runs, beats, initial⟩ => ⟨runs, ?_, initial (by simp [bound])⟩
    rwa [bound] at beats
  · refine (taskStartEffect_starts ht due active).mono fun e ⟨runs, beats, _⟩ => ⟨runs, ?_⟩
    rwa [if_neg (by simp [yielded])] at beats
  · refine .onUnit (show _ = execTaskStartEffect t s from rfl) (by simpa using ht) ?_
    rw [if_pos (by simp [idle])]
  · refine .row (show _ = execSnapshotLatch s from rfl) ?_
    rw [reg]
    dsimp only
    rw [if_pos due, Device.withBeat_shadow, Device.shadow_finish]
    exact ⟨rfl, Device.answered_finish_withBeat _ _ _ _ _ _⟩
  · refine execPowerPolicyEffect_due aligned due fun d hd => ?_
    rw [if_pos (by simp [park, barred]), Device.withBeat_power, Device.power_settle, Device.withBeat_cores]
    refine ⟨Device.answered_finish_withBeat _ _ _ _ _ _, by rw [hd], ?_⟩
    exact (Device.cores_finish d mb 2 0 []).trans (by rw [hd])
  · refine execPowerPolicyEffect_due aligned due fun d hd => ?_
    rw [if_neg (by rcases may with h | h <;> simp [h]), Device.withBeat_power, Device.power_settle]
    have power := d.power_changing (some mb) 8
    have taken := (d.changing (some mb) 8).applyPolicy_power p
    have registered : d.power = { s.dev.power with reg := s.dev.power.reg.erase (w, mb, p) } := by rw [hd]
    rw [power, registered] at taken
    generalize (d.changing (some mb) 8).applyPolicy p = e at taken ⊢
    exact ⟨Device.answered_settle _ mb, taken⟩

end Sys2Proof.Machine

/-! PROOFS about faults of tasks (R28, R541) and the phases of an sc (R245): what a fault records and leaves, and what the row of a
slot does in its phase. -/

namespace Sys2Proof.Machine

set_option Elab.async false

open Sys2Proof

/-! ### One core changes -/

/-- Change after change of one core is a change of that core alone. -/
theorem Device.onlyCore_refl (d : Device) (c : Nat) : d.onlyCore d c (d.core c) := ⟨rfl, fun _ _ => rfl, rfl⟩

theorem Device.onlyCore_onCore {d e : Device} {c : Nat} {k : Core} (h : d.onlyCore e c k) (f : Core → Core) :
    d.onlyCore (e.onCore c f) c (f k) := by
  obtain ⟨own, other, rest⟩ := h
  refine ⟨by rw [Device.core_onCore_same, own], fun x hx => (Device.core_onCore_other _ _ _ _ hx).trans (other x hx), ?_⟩
  exact (congrArg (fun e : Device => e.onCore c f) rest).trans rfl

theorem Device.onlyCore_withBeat {d e : Device} {c : Nat} {k : Core} (h : d.onlyCore e c k) : d.onlyCore (e.withBeat d.beat) c k := by
  have beat : e.beat = d.beat := by rw [h.2.2]
  rwa [Device.withBeat_self beat]

theorem Device.onlyCore_of_eq {d e : Device} {c : Nat} {k l : Core} (h : d.onlyCore e c k) (same : k = l) : d.onlyCore e c l :=
  same ▸ h

/-! ### What a fault leaves -/

/-- A core without what the stop of its task clears (R541). -/
def Core.unstopped (k : Core) : Core := { k with stopped := false, fill := none, wait := none }

/-- A task without its mark of stopping. -/
def Task.unstopped (k : Task) : Task := { k with stopping := false }

/-- A region without its mark of having finished. -/
def Region.unfinished (r : Region) : Region := { r with finished := false }

theorem Device.stopCore_frame (t : Nat) (d : Device) (c : Nat) :
    let e := if (d.core c).running == some t then
      (d.onCore c (fun k => { k with stopped := true, fill := none, wait := none })).restRegion c else d
    (∀ x, (e.core x).unstopped = (d.core x).unstopped) ∧ (∀ r, (e.region r).unfinished = (d.region r).unfinished) := by
  dsimp only
  split
  · refine ⟨fun x => ?_, fun r => ?_⟩
    · by_cases same : x = c
      · rw [same, Device.restRegion, Device.core_onRegion, Device.core_onCore_same]; rfl
      · rw [Device.restRegion, Device.core_onRegion, Device.core_onCore_other _ _ _ _ same]
    · by_cases same : r = c
      · rw [same, Device.restRegion, Device.region_onRegion_same, Device.region_onCore]; rfl
      · rw [Device.restRegion, Device.region_onRegion_other _ _ _ _ same, Device.region_onCore]
  · exact ⟨fun _ => rfl, fun _ => rfl⟩

theorem Device.stopTask_frame (d : Device) (t : Nat) :
    (∀ x, ((d.stopTask t).core x).unstopped = (d.core x).unstopped)
      ∧ (∀ r, ((d.stopTask t).region r).unfinished = (d.region r).unfinished)
      ∧ (d.stopTask t).tasks = (d.onTask t (fun k => { k with stopping := true })).tasks ∧ (d.stopTask t).hub = d.hub
      ∧ (d.stopTask t).twin = d.twin := by
  unfold Device.stopTask
  dsimp only
  refine ⟨fun x => ?_, fun r => ?_, ?_, ?_, ?_⟩
  · exact foldl_keeps (fun d : Device => (d.core x).unstopped) _ (fun d c => (d.stopCore_frame t c).1 x) _ _
  · exact foldl_keeps (fun d : Device => (d.region r).unfinished) _ (fun d c => (d.stopCore_frame t c).2 r) _ _
  · exact foldl_keeps Device.tasks _ (fun d c => by split <;> rfl) _ _
  · exact foldl_keeps Device.hub _ (fun d c => by split <;> rfl) _ _
  · exact foldl_keeps Device.twin _ (fun d c => by split <;> rfl) _ _

/-- A stopped task stops, and nothing else of any task changes. -/
theorem Device.task_stopTask (d : Device) (t : Nat) :
    ((d.stopTask t).task t) = { d.task t with stopping := true } ∧ ∀ u, u ≠ t → (d.stopTask t).task u = d.task u := by
  obtain ⟨-, -, tasks, -⟩ := d.stopTask_frame t
  exact ⟨(Device.task_of_tasks tasks t).trans (Device.task_onTask_same _ _ _),
    fun u h => (Device.task_of_tasks tasks u).trans (Device.task_onTask_other _ _ _ _ h)⟩

/-- The codes of the latest record, under a change of the records that keeps them. -/
theorem Device.lastRecord_onHealth {f : HealthRec → HealthRec}
    (h : ∀ r, (f r).code = r.code ∧ (f r).cause = r.cause ∧ (f r).unitKind = r.unitKind ∧ (f r).unit = r.unit) (d : Device) :
    (d.onHub (fun x => { x with health := x.health.map f })).lastRecord = d.lastRecord := by
  unfold Device.lastRecord
  rw [Device.onHub_hub]
  dsimp only
  rw [List.head?_map, Option.map_map]
  congr 1
  funext r
  obtain ⟨code, cause, kind, unit⟩ := h r
  rw [Function.comp_apply, code, cause, kind, unit]

theorem Device.matchFaults_frame (d : Device) (t beat sc : Nat) : (d.matchFaults t beat sc).lastRecord = d.lastRecord
    ∧ (d.matchFaults t beat sc).hub.healthNext = d.hub.healthNext ∧ (d.matchFaults t beat sc).cores = d.cores
    ∧ (d.matchFaults t beat sc).tasks = d.tasks ∧ (d.matchFaults t beat sc).regions = d.regions
    ∧ (d.matchFaults t beat sc).hub.counters = d.hub.counters := by
  unfold Device.matchFaults
  split
  · split
    · exact ⟨(Device.lastRecord_onHealth (fun r => by split <;> exact ⟨rfl, rfl, rfl, rfl⟩) _).trans rfl, rfl, rfl, rfl,
        rfl, rfl⟩
    · exact ⟨rfl, rfl, rfl, rfl, rfl, rfl⟩
  · exact ⟨rfl, rfl, rfl, rfl, rfl, rfl⟩

/-- A fault that goes to the partner and is compared with the partner's changes neither cores, tasks nor regions, nor the codes of
the latest record. -/
theorem Device.matchFaults_sent (d : Device) (a b c e f : Nat) (x : List (BitVec 8)) (g : Twin → Twin) (t beat sc : Nat) :
    let m := ((d.twinSend a b c e f x).onTwin g).matchFaults t beat sc
    m.cores = d.cores ∧ m.regions = d.regions ∧ m.tasks = d.tasks ∧ m.lastRecord = d.lastRecord
      ∧ m.hub.healthNext = d.hub.healthNext := by
  dsimp only
  obtain ⟨record, next, cores, tasks, regions, -⟩ := ((d.twinSend a b c e f x).onTwin g).matchFaults_frame t beat sc
  exact ⟨cores, regions, tasks, record, next⟩

section
variable (d : Device) (t code cause unitKind unit sc dHi dLo : Nat)

/-- A fault beside its record: its task stops, unless it has already. -/
theorem Device.fault_frame : ∃ e : Device, e.cores = d.cores ∧ e.regions = d.regions ∧ e.tasks = d.tasks
    ∧ e.lastRecord = some (code, cause, unitKind, unit) ∧ e.hub.healthNext = d.hub.healthNext + 1
    ∧ (let f := d.fault t code cause unitKind unit sc dHi dLo
      let g := if (d.task t).stopping || (d.task t).state == 5 then e else e.stopTask t
      f.cores = g.cores ∧ f.regions = g.regions ∧ f.tasks = g.tasks ∧ f.lastRecord = g.lastRecord
        ∧ f.hub.healthNext = g.hub.healthNext) := by
  refine ⟨d.log { HealthRec.reset with
    s := d.gate.e, code := code, cls := classOf code, cause := cause, unitKind := unitKind, unit := unit, tslot := t,
    task := true, secondary := (d.task t).stopping || (d.task t).state == 5, masked := d.inPair && classOf code == 2,
    dHi := dHi, dLo := dLo }, ?_, ?_, ?_, ?_, ?_, ?_⟩
  · rw [Device.log_eq]; rfl
  · rw [Device.log_eq]; rfl
  · rw [Device.log_eq]; rfl
  · rw [Device.lastRecord_log]
  · rw [Device.log_eq]; rfl
  · unfold Device.fault
    dsimp only
    cases (d.task t).stopping || (d.task t).state == 5 with
    | true => exact ⟨rfl, rfl, rfl, rfl, rfl⟩
    | false =>
      simp only [Bool.false_eq_true, if_false]
      generalize (d.log _).stopTask t = e
      split
      · exact ⟨rfl, rfl, rfl, rfl, rfl⟩
      · split
        · exact Device.matchFaults_sent _ _ _ _ _ _ _ _ _ _ _
        · exact ⟨rfl, rfl, rfl, rfl, rfl⟩

@[simp] theorem Device.lastRecord_fault : (d.fault t code cause unitKind unit sc dHi dLo).lastRecord = some (code, cause, unitKind, unit) := by
  obtain ⟨e, -, -, -, record, -, -, -, -, same, -⟩ := d.fault_frame t code cause unitKind unit sc dHi dLo
  rw [same]
  split
  · exact record
  · rw [Device.lastRecord_of_hub (e.stopTask_frame t).2.2.2.1, record]

theorem Device.healthNext_fault : (d.fault t code cause unitKind unit sc dHi dLo).hub.healthNext = d.hub.healthNext + 1 := by
  obtain ⟨e, -, -, -, -, next, -, -, -, -, same⟩ := d.fault_frame t code cause unitKind unit sc dHi dLo
  rw [same]
  split
  · exact next
  · rw [(e.stopTask_frame t).2.2.2.1, next]

/-- A fault leaves every core but for the stop of its task. -/
theorem Device.unstopped_core_fault (x : Nat) :
    ((d.fault t code cause unitKind unit sc dHi dLo).core x).unstopped = (d.core x).unstopped := by
  obtain ⟨e, cores, -, -, -, -, same, -⟩ := d.fault_frame t code cause unitKind unit sc dHi dLo
  rw [Device.core, same, Device.core, ← cores]
  split
  · rfl
  · exact (e.stopTask_frame t).1 x

theorem Device.unfinished_region_fault (r : Nat) :
    ((d.fault t code cause unitKind unit sc dHi dLo).region r).unfinished = (d.region r).unfinished := by
  obtain ⟨e, -, regions, -, -, -, -, same, -⟩ := d.fault_frame t code cause unitKind unit sc dHi dLo
  rw [Device.region, same, Device.region, ← regions]
  split
  · rfl
  · exact (e.stopTask_frame t).2.1 r

/-- A fault marks its task as stopping, where it has not faulted before. -/
theorem Device.task_fault : ((d.fault t code cause unitKind unit sc dHi dLo).task t
      = if (d.task t).state == 5 then d.task t else { d.task t with stopping := true })
    ∧ ∀ u, u ≠ t → (d.fault t code cause unitKind unit sc dHi dLo).task u = d.task u := by
  obtain ⟨e, -, -, tasks, -, -, -, -, same, -⟩ := d.fault_frame t code cause unitKind unit sc dHi dLo
  have before (u : Nat) : e.task u = d.task u := Device.task_of_tasks tasks u
  obtain ⟨own, other⟩ := e.task_stopTask t
  refine ⟨?_, fun u h => ?_⟩
  · rw [Device.task_of_tasks same]
    cases dead : (d.task t).state == 5 with
    | true => rw [Bool.or_true, if_pos rfl, if_pos rfl, before]
    | false =>
      cases stops : (d.task t).stopping with
      | true =>
        rw [Bool.true_or, if_pos rfl, if_neg Bool.false_ne_true, before, ← stops]
      | false => rw [Bool.false_or, if_neg Bool.false_ne_true, if_neg Bool.false_ne_true, own, before]
  · rw [Device.task_of_tasks same]
    split
    · exact before u
    · rw [other u h, before]

theorem Device.stopping_fault (alive : (d.task t).state ≠ 5) :
    ((d.fault t code cause unitKind unit sc dHi dLo).task t).stopping = true := by
  rw [(d.task_fault t code cause unitKind unit sc dHi dLo).1, if_neg (by simpa using alive)]

end

/-! ### The phases of an sc -/

theorem Device.core_begun {d : Device} {c : Nat} {i : Issue} (h : (d.core c).issue = some i) (p : Nat) :
    (d.begun c p).core c = { d.core c with issue := some { i with done := i.done ++ [p] } } := by
  rw [Device.begun, Device.onIssue, Device.core_onCore_same, h]; rfl

theorem Device.onlyCore_begun {d : Device} {c : Nat} {i : Issue} (h : (d.core c).issue = some i) (p : Nat) :
    d.onlyCore (d.begun c p) c { d.core c with issue := some { i with done := i.done ++ [p] } } := by
  refine Device.onlyCore_of_eq (Device.onlyCore_onCore (d.onlyCore_refl c) _) ?_
  rw [h]; rfl

theorem Device.phase_idle {d : Device} {c p : Nat} (h : (d.core c).awaits p = false) : d.phase c p = d :=
  if_neg (by simp [h])

/-- The phases that are past run no more. -/
theorem Device.phasesTo_past {d : Device} {c p n : Nat} (h : (d.core c).atPhase (p + 1)) (hn : n ≤ p) : d.phasesTo c n = d := by
  induction n with
  | zero => rfl
  | succ n ih =>
    have last : d.phasesTo c (n + 1) = (d.phasesTo c n).phase c (n + 1) := by
      rw [Device.phasesTo, List.range_succ, List.foldl_append]; rfl
    rw [last, ih (by omega), Device.phase_idle (h.2 _ (by omega) (by omega))]

/-- A row runs the phase that is next. -/
theorem Device.phasesTo_atPhase {d : Device} {c p : Nat} (h : (d.core c).atPhase (p + 1)) :
    d.phasesTo c (p + 1) = (d.begun c (p + 1)).runPhase c (p + 1) := by
  have last : d.phasesTo c (p + 1) = (d.phasesTo c p).phase c (p + 1) := by
    rw [Device.phasesTo, List.range_succ, List.foldl_append]; rfl
  rw [last, Device.phasesTo_past h (le_refl p), Device.phase, if_pos h.1]
  rfl

/-- The row of a slot's operation, in its phase. -/
theorem Becomes.slotRow {cmd : Instr} {s : State} {c slot op p : Nat} {i : Issue} (h : exec cmd s = Machine.slotRow c slot op (p + 1) s)
    (hc : s.dev.hasCore c = true) (issue : (s.dev.core c).issue = some i) (phase : (s.dev.core c).atPhase (p + 1))
    (hop : opc (slotOf i.word slot) = op) : Becomes cmd s ((s.dev.begun c (p + 1)).runPhase c (p + 1)) := by
  refine h.trans ?_
  have ready : s.dev.slotReady c slot op (p + 1) = true := by
    rw [Device.slotReady, issue]
    simp only [hop, beq_self_eq_true, Bool.true_and]
    exact phase.1
  rw [slotRow_ready hc ready, Device.phasesTo_atPhase phase]

theorem Becomes.completes_withBeat {cmd : Instr} {s : State} {d : Device} {P : Device → Prop} (h : Becomes cmd s d)
    (hP : P (d.withBeat s.dev.beat)) : Completes cmd s P := h.completes hP

theorem Becomes.onlyCore {cmd : Instr} {s : State} {d : Device} {c : Nat} {k : Core} (h : Becomes cmd s d)
    (only : s.dev.onlyCore d c k) : Completes cmd s (fun e => s.dev.onlyCore e c k) :=
  h.completes_withBeat (Device.onlyCore_withBeat only)

end Sys2Proof.Machine

/-! PROOFS about the QK slot (R293 to R295, R385, R429, R436): keys and varying values, each in its phase of the sc. -/

namespace Sys2Proof.Machine

set_option Elab.async false

open Sys2Proof

/-! ### Keys -/

section
variable {s : State} {c : Nat} {i : Issue} (hc : s.dev.hasCore c = true) (issue : (s.dev.core c).issue = some i)
  (phase : (s.dev.core c).atPhase 8)
include hc issue phase

/-- The row of an operation of the QK slot runs its phase. -/
theorem Becomes.qkRow {cmd : Instr} {op : Nat} (h : exec cmd s = Machine.slotRow c 6 op 8 s) (hop : (qf (slotOf i.word 6)).op = op) :
    Becomes cmd s ((s.dev.begun c 8).phaseQk c) :=
  .slotRow (p := 7) h hc issue phase hop

theorem qkNop_idle (hop : (qf (slotOf i.word 6)).op = 0x00) : Completes (.qkNop c) s (fun e =>
    s.dev.onlyCore e c { s.dev.core c with issue := some { i with done := i.done ++ [8] } }) := by
  refine (Becomes.qkRow hc issue phase (show _ = execQkNop c s from rfl) hop).onlyCore ?_
  unfold Device.phaseQk
  simp only [Device.core_begun issue, hop]
  exact Device.onlyCore_begun issue 8

/-- A wait, and a take that the count allows, take N off at the end of the sc. -/
theorem keySub_later {cmd : Instr} {op : Nat} (h : exec cmd s = Machine.slotRow c 6 op 8 s) (hop : (qf (slotOf i.word 6)).op = op)
    (takes : op = 0x02 ∨ (op = 0x03 ∧ (qf (slotOf i.word 6)).n
      ≤ Sparse.get 0 i.keys0 (kBase ((s.dev.core c).bound i.slot) + (qf (slotOf i.word 6)).key))) :
    Completes cmd s (fun e => s.dev.onlyCore e c { s.dev.core c with issue := some { i with done := i.done ++ [8], keySub := i.keySub ++
      [(kBase ((s.dev.core c).bound i.slot) + (qf (slotOf i.word 6)).key, (qf (slotOf i.word 6)).n)] } }) := by
  refine (Becomes.qkRow hc issue phase h hop).onlyCore ?_
  have bound : ((s.dev.begun c 8).core c).bound i.slot = (s.dev.core c).bound i.slot := by rw [Device.core_begun issue]; rfl
  have sub (k n : Nat) : s.dev.onlyCore ((s.dev.begun c 8).subKey c k n) c { s.dev.core c with
      issue := some { i with done := i.done ++ [8], keySub := i.keySub ++ [(k, n)] } } :=
    Device.onlyCore_onCore (Device.onlyCore_begun issue 8) _
  rw [← bound]
  unfold Device.phaseQk
  obtain rfl | ⟨rfl, holds⟩ := takes
  · simp only [Device.core_begun issue, hop]
    exact sub _ _
  · have holds := Nat.not_lt.2 holds
    rw [← bound] at holds
    simp only [Device.core_begun issue, hop] at holds ⊢
    rw [if_neg holds]
    exact sub _ _

theorem keyTake_underflow (hop : (qf (slotOf i.word 6)).op = 0x03) (short : Sparse.get 0 i.keys0
      (kBase ((s.dev.core c).bound i.slot) + (qf (slotOf i.word 6)).key) < (qf (slotOf i.word 6)).n) :
    Completes (.keyTake c) s (fun e => (e.core c).keys = (s.dev.core c).keys ∧ e.lastRecord = some (0x0105, 1, 1, c)
      ∧ ((s.dev.task i.slot).state ≠ 5 → (e.task i.slot).stopping = true)) := by
  refine (Becomes.qkRow hc issue phase (show _ = execKeyTake c s from rfl) hop).completes_withBeat ?_
  have bound : ((s.dev.begun c 8).core c).bound i.slot = (s.dev.core c).bound i.slot := by rw [Device.core_begun issue]; rfl
  rw [← bound] at short
  unfold Device.phaseQk
  simp only [Device.core_begun issue, hop] at short ⊢
  rw [if_pos short]
  unfold Device.coreFault
  refine ⟨?_, Device.lastRecord_fault _ _ _ _ _ _ _ _ _, fun alive => Device.stopping_fault _ _ _ _ _ _ _ _ _ alive⟩
  refine (congrArg Core.keys (Device.unstopped_core_fault _ _ _ _ _ _ _ _ _ c) :).trans ?_
  exact (congrArg Core.keys (Device.core_begun issue 8) :)

theorem keyRead_flies (hop : (qf (slotOf i.word 6)).op = 0x04) : Completes (.keyRead c) s (fun e =>
    s.dev.onlyCore e c { s.dev.core c with
      issue := some { i with done := i.done ++ [8] }
      flights := ((s.dev.core c).endRuns 0 0 [(qf (slotOf i.word 6)).kd]).flights ++ [{ Flight.reset with
        due := (s.dev.core c).sc + 1, unit := 6, issued := (s.dev.core c).sc, slot := i.slot
        regs := [(128 * (qf (slotOf i.word 6)).kd + (qf (slotOf i.word 6)).klane, BitVec.ofNat 32 (Sparse.get 0 i.keys0
          (kBase ((s.dev.core c).bound i.slot) + (qf (slotOf i.word 6)).key)), false)] }] }) := by
  refine (Becomes.qkRow hc issue phase (show _ = execKeyRead c s from rfl) hop).onlyCore ?_
  unfold Device.phaseQk Device.qkLane Device.fly
  simp only [Device.core_begun issue, hop]
  exact Device.onlyCore_onCore (Device.onlyCore_onCore (Device.onlyCore_begun issue 8) _) _

theorem keyAdd_brings (hop : (qf (slotOf i.word 6)).op = 0x01) :
    Completes (.keyAdd c) s (fun e => s.dev.onlyCore e c { s.dev.core c with issue := some (if (qf (slotOf i.word 6)).n = 0
      then { i with done := i.done ++ [8] } else { i with done := i.done ++ [8], keyInc := i.keyInc ++
        [(kBase ((s.dev.core c).bound i.slot) + (qf (slotOf i.word 6)).key, (qf (slotOf i.word 6)).n, true)] }) }) := by
  refine (Becomes.qkRow hc issue phase (show _ = execKeyAdd c s from rfl) hop).onlyCore ?_
  unfold Device.phaseQk Device.addKey
  simp only [Device.core_begun issue, hop]
  split
  · exact Device.onlyCore_begun issue 8
  · exact Device.onlyCore_onCore (Device.onlyCore_begun issue 8) _

end

/-! ### The end of an sc for a key -/

theorem foldl_add_eq_sum (l : List (Nat × Bool)) : l.foldl (fun n x => n + x.1) 0 = (l.map (·.1)).sum := by
  rw [List.sum_eq_foldl, List.foldl_map]

theorem Device.turnKey_held {d : Device} {c phys t : Nat} (held : d.keyHolder c phys = some t) (taken : Nat) (incs : List (Nat × Bool)) :
    d.turnKey c phys taken incs =
      if keyCap (d.keyEntry c t (phys - kBase ((d.core c).bound t))) + taken < d.keyCount c phys + (incs.map (·.1)).sum then
        d.coreFault c t 0x0104 (if incs.any (·.2) then 0 else 2)
          (keyDetail phys (phys - kBase ((d.core c).bound t)) (d.keyCount c phys) ((incs.map (·.1)).sum - taken)
            (keyCap (d.keyEntry c t (phys - kBase ((d.core c).bound t)))) (if incs.any (·.2) then 0 else 2) (d.core c).lastSc).1
          (keyDetail phys (phys - kBase ((d.core c).bound t)) (d.keyCount c phys) ((incs.map (·.1)).sum - taken)
            (keyCap (d.keyEntry c t (phys - kBase ((d.core c).bound t)))) (if incs.any (·.2) then 0 else 2) (d.core c).lastSc).2
      else d.setKey c phys (d.keyCount c phys - taken + (incs.map (·.1)).sum) := by
  unfold Device.turnKey
  simp only [held, foldl_add_eq_sum]

/-- Settles O24: each operation of the QK slot on keys by its phase, and the end of an sc by `Device.turnKey`. -/
theorem keySlots : Obligations.KeySlots := by
  unfold Obligations.KeySlots
  refine ⟨fun s c i hc issue phase => ⟨fun hop => qkNop_idle hc issue phase hop,
      fun hop => keySub_later hc issue phase (show _ = execKeyWait c s from rfl) hop (.inl rfl),
      fun hop holds => keySub_later hc issue phase (show _ = execKeyTake c s from rfl) hop (.inr ⟨rfl, holds⟩),
      fun hop short => keyTake_underflow hc issue phase hop short, fun hop => keyRead_flies hc issue phase hop,
      fun hop none => ?_, fun hop some_ => ?_⟩,
    fun d c phys taken t incs hc held => fun fits => ⟨fun room => ?_, fun above => ?_⟩⟩
  · simpa only [none, if_true] using keyAdd_brings hc issue phase hop
  · simpa only [if_neg some_] using keyAdd_brings hc issue phase hop
  · rw [Device.turnKey_held held, if_neg]
    · exact Device.onlyCore_onCore (d.onlyCore_refl c) _
    · rw [Device.keyCount]; omega
  · rw [Device.turnKey_held held, if_pos]
    · unfold Device.coreFault
      refine ⟨(congrArg Core.keys (Device.unstopped_core_fault _ _ _ _ _ _ _ _ _ c) :), Device.lastRecord_fault _ _ _ _ _ _ _ _ _,
        fun alive => Device.stopping_fault _ _ _ _ _ _ _ _ _ alive⟩
    · rw [Device.keyCount]; omega

end Sys2Proof.Machine

/-! PROOFS about varying values (R385, R429, R436, R437, R513): what each varying instruction delivers, and what it notes. -/

namespace Sys2Proof.Machine

set_option Elab.async false

open Sys2Proof

/-- A device without its notes of what varies: the hub, the twin logic, the tasks and the logger. -/
def Device.besideNotes (d : Device) : Device :=
  { d with hub := Hub.reset, twin := Twin.reset, tasks := [], logger := Logger.reset }

@[simp] theorem Device.besideNotes_onTask (d : Device) (t : Nat) (f : Task → Task) : (d.onTask t f).besideNotes = d.besideNotes := rfl
@[simp] theorem Device.besideNotes_onTwin (d : Device) (f : Twin → Twin) : (d.onTwin f).besideNotes = d.besideNotes := rfl
@[simp] theorem Device.besideNotes_twinSend (d : Device) (a b c e f : Nat) (x : List (BitVec 8)) :
    (d.twinSend a b c e f x).besideNotes = d.besideNotes := rfl
@[simp] theorem Device.besideNotes_log (d : Device) (r : HealthRec) : (d.log r).besideNotes = d.besideNotes := by
  rw [Device.log_eq]; rfl
@[simp] theorem Device.besideNotes_countHub (d : Device) (i n : Nat) : (d.countHub i n).besideNotes = d.besideNotes := by
  unfold Device.countHub; split <;> rfl
@[simp] theorem Device.besideNotes_logEvent (d : Device) (t kind : Nat) (core : Option Nat) (detail : Nat) (x : List (BitVec 8)) :
    (d.logEvent t kind core detail x).besideNotes = d.besideNotes := by
  unfold Device.logEvent Device.logRecord
  dsimp only
  split_ifs <;> rfl
@[simp] theorem Device.besideNotes_replayMiss (d : Device) (t kind source : Nat) (core : Option Nat) :
    (d.replayMiss t kind source core).besideNotes = d.besideNotes := by
  unfold Device.replayMiss
  dsimp only
  split <;> simp
@[simp] theorem Device.besideNotes_replayTake (d : Device) (t kind c : Nat) :
    (d.replayTake t kind c).2.besideNotes = d.besideNotes := by
  unfold Device.replayTake
  dsimp only
  split
  · rfl
  · split <;> simp

/-- The flag word of a task. -/
def Device.flagsOf (d : Device) (t : Nat) : Nat := (d.task t).flagWord

theorem Device.flagsOf_of_tasks {d e : Device} (h : d.tasks = e.tasks) (t : Nat) : d.flagsOf t = e.flagsOf t :=
  congrArg Task.flagWord (Device.task_of_tasks h t)

theorem Device.flagsOf_onTask {f : Task → Task} (h : ∀ k, (f k).flagWord = k.flagWord) (d : Device) (t u : Nat) :
    (d.onTask t f).flagsOf u = d.flagsOf u := by
  unfold Device.flagsOf
  by_cases same : u = t
  · rw [same, Device.task_onTask_same, h]
  · rw [Device.task_onTask_other _ _ _ _ same]

@[simp] theorem Device.flagsOf_log (d : Device) (r : HealthRec) (t : Nat) : (d.log r).flagsOf t = d.flagsOf t := by
  rw [Device.log_eq]; rfl

@[simp] theorem Device.flagsOf_countHub (d : Device) (i n t : Nat) : (d.countHub i n).flagsOf t = d.flagsOf t :=
  Device.flagsOf_of_tasks (d.tasks_countHub i n) t

@[simp] theorem Device.flagsOf_logEvent (d : Device) (t kind : Nat) (core : Option Nat) (detail : Nat) (x : List (BitVec 8)) (u : Nat) :
    (d.logEvent t kind core detail x).flagsOf u = d.flagsOf u :=
  (congrArg Task.flagWord ((d.logEvent_frame t kind core detail x).2.2 u) :)

@[simp] theorem Device.flagsOf_replayMiss (d : Device) (t kind source : Nat) (core : Option Nat) (u : Nat) :
    (d.replayMiss t kind source core).flagsOf u = d.flagsOf u := by
  unfold Device.replayMiss
  dsimp only
  split
  · exact d.flagsOf_countHub _ _ _
  · rw [Device.flagsOf_log, Device.flagsOf_onTask, Device.flagsOf_countHub]
    exact fun _ => rfl

@[simp] theorem Device.flagsOf_replayTake (d : Device) (t kind c u : Nat) : (d.replayTake t kind c).2.flagsOf u = d.flagsOf u := by
  unfold Device.replayTake
  dsimp only
  split
  · rfl
  · split
    · rw [Device.flagsOf_countHub, Device.flagsOf_onTask]
      exact fun _ => rfl
    · rfl

/-- The value that the log holds depends on the task's replay, its beat and the sc of the core alone. -/
theorem Device.replayTake_congr {d e : Device} {t kind c : Nat} (replay : (d.task t).replay = (e.task t).replay)
    (beats : (d.task t).runBeats = (e.task t).runBeats) (sc : (d.core c).lastSc = (e.core c).lastSc)
    (image : d.imageCore t c = e.imageCore t c) : (d.replayTake t kind c).1 = (e.replayTake t kind c).1 := by
  unfold Device.replayTake
  rw [replay, beats, sc, image]
  split
  · rfl
  · dsimp only
    split <;> rfl

/-- The value that a varying instruction delivers (R436, R513). -/
def Device.varied (d : Device) (c t kind live : Nat) : Nat :=
  if (d.task t).replay.isSome then ((d.replayTake t kind c).1.map (fun x => bits x 0 32)).getD live
  else if d.twin.role = 5 then (d.heldValue t kind d.gate.e (d.core c).lastSc c).getD live
  else live

/-- The value from the log, from the primary or live, and the device with the record or VALUE gone (R436, R437, R513). -/
def Device.variedFrom (d : Device) (c t kind sc live : Nat) : Nat × Device :=
  if (d.task t).replay.isSome then
    match d.replayTake t kind c with
    | (some x, d) => (bits x 0 32, d)
    | (none, d) => (live, d.replayMiss t kind 0 (some c))
  else
    match (if d.twin.role = 5 then d.heldValue t kind d.gate.e sc c else none) with
    | some x => (x, d.onTwin (fun w => { w with
        values := w.values.filter (fun y => !(y.1 == t && y.2.1 == kind && y.2.2.1 == d.gate.e && y.2.2.2.1 == sc
          && y.2.2.2.2.1 == c)) }))
    | none => (live, d)

theorem Device.variedFrom_eq (d : Device) (c t kind live : Nat) :
    (d.variedFrom c t kind (d.core c).lastSc live).1 = d.varied c t kind live
      ∧ (d.variedFrom c t kind (d.core c).lastSc live).2.besideNotes = d.besideNotes
      ∧ ∀ u, (d.variedFrom c t kind (d.core c).lastSc live).2.flagsOf u = d.flagsOf u := by
  have kept := d.besideNotes_replayTake t kind c
  have flags := d.flagsOf_replayTake t kind c
  unfold Device.variedFrom Device.varied
  split
  · generalize d.replayTake t kind c = r at kept flags ⊢
    obtain ⟨x, e⟩ := r
    cases x with
    | some x => exact ⟨rfl, kept, flags⟩
    | none => exact ⟨rfl, (e.besideNotes_replayMiss _ _ _ _).trans kept, fun u => (e.flagsOf_replayMiss _ _ _ _ u).trans (flags u)⟩
  · by_cases shadow : d.twin.role = 5
    · simp only [if_pos shadow]
      cases d.heldValue t kind d.gate.e (d.core c).lastSc c with
      | some x => exact ⟨rfl, rfl, fun _ => rfl⟩
      | none => exact ⟨rfl, rfl, fun _ => rfl⟩
    · simp only [if_neg shadow]
      exact ⟨trivial, trivial, fun _ => trivial⟩

/-- A varying instruction delivers its value, and notes it. -/
theorem Device.varying_eq (d : Device) (c t kind n live : Nat) : (d.varying c t kind n live).1 = d.varied c t kind live
    ∧ (d.varying c t kind n live).2.besideNotes = d.besideNotes
    ∧ (d.varying c t kind n live).2.flagsOf t = Nat.lor (d.flagsOf t) 1 := by
  generalize hm : d.onTask t (fun k => { k with flagWord := Nat.lor k.flagWord 1 }) = m
  have own : m.task t = { d.task t with flagWord := Nat.lor (d.task t).flagWord 1 } := by rw [← hm, Device.task_onTask_same]
  have image : m.imageCore t c = d.imageCore t c := by rw [Device.imageCore, own]; rfl
  have core : m.core c = d.core c := by rw [← hm]; rfl
  have taken : (m.replayTake t kind c).1 = (d.replayTake t kind c).1 :=
    Device.replayTake_congr (by rw [own]) (by rw [own]) (by rw [core]) image
  have value : m.varied c t kind live = d.varied c t kind live := by
    unfold Device.varied
    rw [taken, own, core, ← hm]; rfl
  obtain ⟨delivered, beside, flags⟩ := m.variedFrom_eq c t kind live
  have finished (v detail : Nat) (e : Device) : let l := e.logEvent t kind (some c) detail []
      let z := if l.twin.role = 4 then l.twinSend 6 l.gate.e (d.core c).lastSc c (t + kind * 8) (leBytes 4 v) else l
      z.besideNotes = e.besideNotes ∧ z.flagsOf t = e.flagsOf t := by
    dsimp only
    split
    · exact ⟨e.besideNotes_logEvent _ _ _ _ _, e.flagsOf_logEvent _ _ _ _ _ _⟩
    · exact ⟨e.besideNotes_logEvent _ _ _ _ _, e.flagsOf_logEvent _ _ _ _ _ _⟩
  have shape : d.varying c t kind n live = (let r := m.variedFrom c t kind (m.core c).lastSc live
      let l := r.2.logEvent t kind (some c) (if kind = 7 then r.1 + n * 2 ^ 32 else if kind = 8 then r.1 + n * 2 ^ 32 else r.1) []
      (r.1, if l.twin.role = 4 then l.twinSend 6 l.gate.e (d.core c).lastSc c (t + kind * 8) (leBytes 4 r.1) else l)) := by
    rw [← hm]; rfl
  rw [shape]
  obtain ⟨rest, noted⟩ := finished (m.variedFrom c t kind (m.core c).lastSc live).1 _ (m.variedFrom c t kind (m.core c).lastSc live).2
  refine ⟨delivered.trans value, rest.trans (beside.trans (by rw [← hm]; rfl)), noted.trans ((flags t).trans ?_)⟩
  rw [Device.flagsOf, own]; rfl

/-! ### The instructions -/

/-- The value of a varying instruction reaches its lane, and the task shows VARIED. -/
theorem Device.varying_qkLane {d : Device} {c t : Nat} (kind n reg ln live : Nat) :
    let e := (d.varying c t kind n live).2.qkLane c t reg ln (d.varying c t kind n live).1
    (e.core c).flights = ((d.core c).endRuns 0 0 [reg]).flights ++ [{ Flight.reset with
        due := (d.core c).sc + 1, unit := 6, issued := (d.core c).sc, slot := t
        regs := [(128 * reg + ln, BitVec.ofNat 32 (d.varied c t kind live), false)] }]
      ∧ (e.task t).flagWord = Nat.lor (d.task t).flagWord 1 ∧ e.dram = d.dram ∧ e.staging = d.staging
      ∧ (e.core c).spad = (d.core c).spad ∧ (e.core c).lanes = (d.core c).lanes ∧ (∀ x, x ≠ c → e.core x = d.core x)
      ∧ e.free = d.free := by
  obtain ⟨value, beside, flags⟩ := d.varying_eq c t kind n live
  rw [← value]
  generalize d.varying c t kind n live = r at beside flags
  have cores (x : Nat) : r.2.core x = d.core x := (congrArg (fun d : Device => d.core x) beside :)
  unfold Device.qkLane Device.fly
  dsimp only
  refine ⟨?_, flags, (congrArg Device.dram beside :), (congrArg Device.staging beside :), ?_, ?_, fun x hx => ?_,
    (congrArg Device.free beside :)⟩
  · rw [Device.core_onCore_same, Device.core_onCore_same, cores]
  · rw [Device.core_onCore_same, Device.core_onCore_same, cores]; rfl
  · rw [Device.core_onCore_same, Device.core_onCore_same, cores]; rfl
  · rw [Device.core_onCore_other _ _ _ _ hx, Device.core_onCore_other _ _ _ _ hx, cores]

/-- A device that has drawn free values up to number n. -/
def Device.drawn (d : Device) (n : Nat) : Device := { d with free := n }

/-- The value is the same once the phase has begun, and whatever has been drawn. -/
theorem Device.varied_begun {d : Device} {c : Nat} {i : Issue} (h : (d.core c).issue = some i) (p n t kind live : Nat) :
    ((d.begun c p).drawn n).varied c t kind live = d.varied c t kind live := by
  have core : ((d.begun c p).drawn n).core c = _ := Device.core_begun h p
  have taken : (((d.begun c p).drawn n).replayTake t kind c).1 = (d.replayTake t kind c).1 :=
    Device.replayTake_congr rfl rfl (by rw [core]) rfl
  unfold Device.varied
  rw [taken, core]; rfl

section
variable {s : State} {c : Nat} {i : Issue} (issue : (s.dev.core c).issue = some i)
include issue

theorem phaseQk_entDraw (hop : (qf (slotOf i.word 6)).op = 0x20) : (s.dev.begun c 8).phaseQk c =
    (((s.dev.begun c 8).drawn (s.dev.free + 1)).varying c i.slot 6 0 (Config.freeNat s.dev.free % 2 ^ 32)).2.qkLane c i.slot
      (qf (slotOf i.word 6)).kd (qf (slotOf i.word 6)).klane
      (((s.dev.begun c 8).drawn (s.dev.free + 1)).varying c i.slot 6 0 (Config.freeNat s.dev.free % 2 ^ 32)).1 := by
  unfold Device.phaseQk
  simp only [Device.core_begun issue, hop]
  rfl

theorem phaseQk_timeRead (hop : (qf (slotOf i.word 6)).op = 0x21) : (s.dev.begun c 8).phaseQk c =
    (((s.dev.begun c 8).drawn s.dev.free).varying c i.slot 7 (qf (slotOf i.word 6)).n
        (bits i.w (32 * (qf (slotOf i.word 6)).n) 32)).2.qkLane c i.slot (qf (slotOf i.word 6)).kd (qf (slotOf i.word 6)).klane
      (((s.dev.begun c 8).drawn s.dev.free).varying c i.slot 7 (qf (slotOf i.word 6)).n
        (bits i.w (32 * (qf (slotOf i.word 6)).n) 32)).1 := by
  unfold Device.phaseQk
  simp only [Device.core_begun issue, hop]
  rfl

theorem phaseQk_cntRead (hop : (qf (slotOf i.word 6)).op = 0x22) : (s.dev.begun c 8).phaseQk c =
    (((s.dev.begun c 8).drawn s.dev.free).varying c i.slot 8 (qf (slotOf i.word 6)).n
        ((Sparse.get 0 (s.dev.core c).counters (qf (slotOf i.word 6)).n).toNat % 2 ^ 32)).2.qkLane c i.slot
      (qf (slotOf i.word 6)).kd (qf (slotOf i.word 6)).klane
      (((s.dev.begun c 8).drawn s.dev.free).varying c i.slot 8 (qf (slotOf i.word 6)).n
        ((Sparse.get 0 (s.dev.core c).counters (qf (slotOf i.word 6)).n).toNat % 2 ^ 32)).1 := by
  unfold Device.phaseQk
  simp only [Device.core_begun issue, hop]
  rfl

end

section
variable {s : State} {c : Nat} {i : Issue} (hc : s.dev.hasCore c = true) (issue : (s.dev.core c).issue = some i)
  (phase : (s.dev.core c).atPhase 8)
include hc issue phase

/-- A row of a varying instruction, by the free values drawn and the value that it would have live. -/
theorem Completes.varyingRow {cmd : Instr} {op kind n live free : Nat} (h : exec cmd s = Machine.slotRow c 6 op 8 s)
    (hop : (qf (slotOf i.word 6)).op = op)
    (act : (s.dev.begun c 8).phaseQk c = (((s.dev.begun c 8).drawn free).varying c i.slot kind n live).2.qkLane c i.slot
      (qf (slotOf i.word 6)).kd (qf (slotOf i.word 6)).klane (((s.dev.begun c 8).drawn free).varying c i.slot kind n live).1) :
    Completes cmd s (fun e => ((e.core c).flights = ((s.dev.core c).endRuns 0 0 [(qf (slotOf i.word 6)).kd]).flights ++ [{ Flight.reset with
          due := (s.dev.core c).sc + 1, unit := 6, issued := (s.dev.core c).sc, slot := i.slot
          regs := [(128 * (qf (slotOf i.word 6)).kd + (qf (slotOf i.word 6)).klane,
            BitVec.ofNat 32 (s.dev.varied c i.slot kind live), false)] }]
        ∧ (e.task i.slot).flagWord = Nat.lor (s.dev.task i.slot).flagWord 1 ∧ e.dram = s.dev.dram ∧ e.staging = s.dev.staging
        ∧ (e.core c).spad = (s.dev.core c).spad ∧ (e.core c).lanes = (s.dev.core c).lanes
        ∧ (∀ x, x ≠ c → e.core x = s.dev.core x)) ∧ e.free = free) := by
  refine (Becomes.qkRow hc issue phase h hop).completes_withBeat ?_
  have core : ((s.dev.begun c 8).drawn free).core c = { s.dev.core c with issue := some { i with done := i.done ++ [8] } } :=
    Device.core_begun issue 8
  have value := Device.varied_begun issue 8 free i.slot kind live
  have other (x : Nat) (hx : x ≠ c) : ((s.dev.begun c 8).drawn free).core x = s.dev.core x :=
    (Device.onlyCore_begun issue 8).2.1 x hx
  rw [act]
  have out := Device.varying_qkLane (d := (s.dev.begun c 8).drawn free) (c := c) (t := i.slot) kind n (qf (slotOf i.word 6)).kd
    (qf (slotOf i.word 6)).klane live
  dsimp only at out
  rw [value, core] at out
  generalize Device.qkLane _ c i.slot _ _ _ = e at out ⊢
  obtain ⟨flights, flags, dram, staging, spad, lanes, rest, drew⟩ := out
  exact ⟨⟨flights, flags, dram, staging, spad, lanes, fun x hx => (rest x hx).trans (other x hx)⟩, drew⟩

end

/-- Settles O26: each varying instruction by the value that it delivers. -/
theorem varyingSlots : Obligations.VaryingSlots := by
  unfold Obligations.VaryingSlots
  intro s c i hc k t issue phase f value done
  exact ⟨fun hop => .varyingRow hc issue phase (show _ = execEntDraw c s from rfl) hop (phaseQk_entDraw issue hop),
    fun hop => .varyingRow hc issue phase (show _ = execTimeRead c s from rfl) hop (phaseQk_timeRead issue hop),
    fun hop => .varyingRow hc issue phase (show _ = execCntRead c s from rfl) hop (phaseQk_cntRead issue hop)⟩

end Sys2Proof.Machine

/-! PROOFS about the CU and MX slots (R156, R173, R259 to R261, R383): a copy is taken into flight, a pass enters the feed. -/

namespace Sys2Proof.Machine

set_option Elab.async false

open Sys2Proof

theorem Device.onlyCore_countCore {d e : Device} {c : Nat} {k : Core} (h : d.onlyCore e c k) (i : Nat) {n : Nat} (hn : n ≠ 0) :
    d.onlyCore (e.countCore c i n) c { k with counters := countIn k.counters i n } := by
  rw [Device.countCore, if_neg hn]
  exact Device.onlyCore_onCore h _

/-- A copy between scratchpads and DRAM waits for banks and ticks alone: nothing of it moves at once (R355). -/
theorem Device.copyFlow_banked {d : Device} {c id : Nat} {x : Copy} (h : (d.core c).copyOf id = some x) (s2 : x.srcKind ≠ 2)
    (s4 : x.srcKind ≠ 4) (z2 : x.dstKind ≠ 2) (z4 : x.dstKind ≠ 4) : d.copyFlow c id = d := by
  unfold Device.copyFlow
  rw [h]
  simp [s2, s4, z2, z4]

/-- The record of a copy that a bundle issues (R260, R261). -/
def Core.issuedCopy (k : Core) (c t slot bundle scIdx : Nat) : Copy :=
  let x := cd (k.copyDescAt t slot)
  let a := endAt c (k.bound t) x.srcKind x.src
  let z := endAt c (k.bound t) x.dstKind x.dst
  { Copy.reset with
    slot := t, desc := BitVec.ofNat 512 (k.copyDescAt t slot), srcKind := a.1, dstKind := z.1, srcBase := a.2, dstBase := z.2
    readBytes := x.rowLen * x.rows, writeBytes := x.dstRow * x.rows, issueBundle := bundle, issueSc := scIdx }

/-- The core once its copy is counted and its descriptor stands advanced. -/
def Core.copying (k : Core) (t slot : Nat) : Core := { k with
  copyDesc := Sparse.set 0 k.copyDesc (256 * t + bits slot 48 8) (BitVec.ofNat 512 (advanceDesc (k.copyDescAt t slot) slot))
  counters := countIn k.counters 21 1 }

/-- The core with the copy in flight, its ranges on the scoreboard. -/
def Core.tookCopy (k : Core) (x : Copy) (ranges : List (Nat × Nat × Bool)) (far num : Nat) : Core := { k with
  nextCopy := (k.nextCopy + 1) % 2 ^ 16
  copies := k.copies ++ [{ x with id := k.nextCopy, ready := k.cyc, farAt := far, farNum := num }]
  scoreboard := k.scoreboard ++ ranges.map (fun r => ⟨r.1, r.1 + r.2.1 - 1, r.2.2, k.nextCopy⟩) }

/-- Of d and e, only core c and the number of requests to crossings differ. -/
def Device.onlyCopy (d e : Device) (c : Nat) (k : Core) : Prop :=
  e.core c = k ∧ (∀ x, x ≠ c → e.core x = d.core x) ∧ e = { d with cores := e.cores, crossNum := d.crossNum + 1 }

theorem Device.issueCopy_banked {d e : Device} {c t slot bundle scIdx : Nat} {k : Core} (only : d.onlyCore e c k)
    (free : k.copyOf k.nextCopy = none) (s2 : (k.issuedCopy c t slot bundle scIdx).srcKind ≠ 2)
    (s4 : (k.issuedCopy c t slot bundle scIdx).srcKind ≠ 4) (z2 : (k.issuedCopy c t slot bundle scIdx).dstKind ≠ 2)
    (z4 : (k.issuedCopy c t slot bundle scIdx).dstKind ≠ 4) (same : k.cyc = (d.core c).cyc) :
    d.onlyCopy (e.issueCopy c t slot bundle scIdx) c ((k.copying t slot).tookCopy (k.issuedCopy c t slot bundle scIdx)
      ((k.copyRanges c t slot).1.map (fun r => (r.1, r.2, false)) ++ (k.copyRanges c t slot).2.map (fun r => (r.1, r.2, true)))
      (d.core (rzCore (k.issuedCopy c t slot bundle scIdx).srcBase)).cyc d.crossNum) := by
  have own : e.core c = k := only.1
  have counted := Device.onlyCore_countCore (Device.onlyCore_onCore only (fun x => { x with
    copyDesc := Sparse.set 0 x.copyDesc (256 * t + bits slot 48 8) (BitVec.ofNat 512 (advanceDesc (k.copyDescAt t slot) slot)) })) 21
    Nat.one_ne_zero
  unfold Device.issueCopy Device.startCopy
  simp only [own]
  generalize Device.countCore (e.onCore c _) c 21 1 = g at counted ⊢
  obtain ⟨core, other, rest⟩ := counted
  have num : g.crossNum = d.crossNum := by rw [rest]
  have far (y : Nat) : (g.core y).cyc = (d.core y).cyc := by
    by_cases here : y = c
    · rw [here, core]; exact same
    · rw [other y here]
  have next : (g.core c).nextCopy = k.nextCopy := by rw [core]
  rw [num, far, next]
  generalize hl : (({ g with crossNum := d.crossNum + 1 } : Device).onCore c _) = l
  have taken : l.core c = (k.copying t slot).tookCopy (k.issuedCopy c t slot bundle scIdx)
      ((k.copyRanges c t slot).1.map (fun r => (r.1, r.2, false)) ++ (k.copyRanges c t slot).2.map (fun r => (r.1, r.2, true)))
      (d.core (rzCore (k.issuedCopy c t slot bundle scIdx).srcBase)).cyc d.crossNum := by
    rw [← hl, Device.core_onCore_same]
    show _ = _
    have core : (({ g with crossNum := d.crossNum + 1 } : Device).core c) = k.copying t slot := core
    rw [core]
    rfl
  have found : (l.core c).copyOf k.nextCopy = some { k.issuedCopy c t slot bundle scIdx with
      id := k.nextCopy, ready := k.cyc, farAt := (d.core (rzCore (k.issuedCopy c t slot bundle scIdx).srcBase)).cyc
      farNum := d.crossNum } := by
    have before : k.copies.find? (fun x => x.id == k.nextCopy) = none := free
    rw [taken, Core.copyOf]
    simp [Core.tookCopy, Core.copying, List.find?_append, before]
  rw [Device.copyFlow_banked found s2 s4 z2 z4]
  refine ⟨taken, fun x hx => ?_, ?_⟩
  · rw [← hl, Device.core_onCore_other _ _ _ _ hx]
    exact other x hx
  · rw [← hl]
    exact (congrArg (fun g : Device => (({ g with crossNum := d.crossNum + 1 } : Device).onCore c _)) rest).trans rfl

section
variable {s : State} {c : Nat} {i : Issue} (hc : s.dev.hasCore c = true) (issue : (s.dev.core c).issue = some i)
include hc issue

theorem cuNop_idle (phase : (s.dev.core c).atPhase 1) (hop : opc (slotOf i.word 2) = 0) : Completes (.cuNop c) s (fun e =>
    s.dev.onlyCore e c { s.dev.core c with issue := some { i with done := i.done ++ [1] } }) := by
  refine (Becomes.slotRow (p := 0) (show _ = execCuNop c s from rfl) hc issue phase hop).onlyCore ?_
  show s.dev.onlyCore ((s.dev.begun c 1).phaseCu c) c _
  unfold Device.phaseCu
  simp only [Device.core_begun issue, hop]
  exact Device.onlyCore_begun issue 1

theorem cuCopy_issues (phase : (s.dev.core c).atPhase 1) (hop : opc (slotOf i.word 2) = 1) :
    Becomes (.cuCopy c) s ((s.dev.begun c 1).issueCopy c i.slot (slotOf i.word 2) i.index (s.dev.core c).lastSc) := by
  have row := Becomes.slotRow (p := 0) (show exec (.cuCopy c) s = execCuCopy c s from rfl) hc issue phase hop
  have act : (s.dev.begun c 1).phaseCu c
      = (s.dev.begun c 1).issueCopy c i.slot (slotOf i.word 2) i.index (s.dev.core c).lastSc := by
    unfold Device.phaseCu
    simp only [Device.core_begun issue, hop, if_true]
  rw [← act]
  exact row

theorem mxNop_idle (phase : (s.dev.core c).atPhase 2) (hop : opc (slotOf i.word 3) = 0) : Completes (.mxNop c) s (fun e =>
    s.dev.onlyCore e c { s.dev.core c with issue := some { i with done := i.done ++ [2] } }) := by
  refine (Becomes.slotRow (p := 1) (show _ = execMxNop c s from rfl) hc issue phase hop).onlyCore ?_
  show s.dev.onlyCore ((s.dev.begun c 2).phaseMx c) c _
  unfold Device.phaseMx
  simp only [Device.core_begun issue, hop]
  exact Device.onlyCore_begun issue 2

/-- The pass that the MX slot of a bundle starts (R172, R179). -/
def Device.startedPass (d : Device) (c : Nat) (i : Issue) : Pass :=
  let k := d.core c
  let p := k.mkPass i.slot (d.levelOf i.slot == 1) (mf (slotOf i.word 3)) i.index k.lastSc d.gate.e k.sc
  { p with s1 := passStart k.mx p }

/-- The descriptor of a pass after its issue (R173, R383). -/
def Core.steppedDesc (k : Core) (t slot : Nat) (p : Pass) : Nat :=
  let d := k.mxDescAt t (mf slot)
  if (mf slot).noadv then d
  else setBits (setBits d 160 32 ((p.xAddr + bits d 224 32) % 2 ^ 32)) 128 32 ((p.wAddr + bits d 192 32) % 2 ^ 32)

/-- A feed with a pass more. -/
def Mx.entered (m : Mx) (p : Pass) : Mx :=
  let n := match m.cur with
    | none => { m with cur := some p }
    | some _ => { m with nxt := some p }
  { n with lastKey := some p.key, passesOpen := n.passesOpen + 1 }

theorem mxPass_enters (phase : (s.dev.core c).atPhase 2) (hop : opc (slotOf i.word 3) = 1) : Completes (.mxPass c) s (fun e =>
    s.dev.onlyCore e c { s.dev.core c with
      issue := some { i with done := i.done ++ [2] }
      mx := (s.dev.core c).mx.entered (s.dev.startedPass c i)
      mxDesc := Sparse.set 0 (s.dev.core c).mxDesc (64 * i.slot + (mf (slotOf i.word 3)).md)
        (BitVec.ofNat 256 ((s.dev.core c).steppedDesc i.slot (slotOf i.word 3) (s.dev.startedPass c i))) }) := by
  refine (Becomes.slotRow (p := 1) (show _ = execMxPass c s from rfl) hc issue phase hop).onlyCore ?_
  show s.dev.onlyCore ((s.dev.begun c 2).phaseMx c) c _
  unfold Device.phaseMx
  simp only [Device.core_begun issue, hop, if_true]
  exact Device.onlyCore_onCore (Device.onlyCore_begun issue 2) _

end

/-- Settles O27: a copy by `Device.issueCopy`, a pass by `Mx.entered`. -/
theorem copyAndMatrixSlots : Obligations.CopyAndMatrixSlots := by
  unfold Obligations.CopyAndMatrixSlots
  intro s c i hc k issue cu mx k1
  refine ⟨fun phase hop => cuNop_idle hc issue phase hop, fun phase hop => cuCopy_issues hc issue phase hop,
    fun phase hop => ?_, fun phase hop => mxNop_idle hc issue phase hop, fun phase hop => ?_⟩
  · intro desc x a z r s2 s4 z2 z4 free
    obtain ⟨core, other, rest⟩ := Device.issueCopy_banked (bundle := i.index) (scIdx := (s.dev.core c).lastSc)
      (Device.onlyCore_begun issue 1) free s2 s4 z2 z4 rfl
    refine (cuCopy_issues hc issue phase hop).completes_withBeat ?_
    generalize (s.dev.begun c 1).issueCopy c i.slot (slotOf i.word 2) i.index (s.dev.core c).lastSc = e at core other rest ⊢
    rw [Device.withBeat_self (by rw [rest])]
    refine ⟨by rw [core]; rfl, ?_, ?_, ?_, other, rest⟩
    · rw [core]
      show k.scoreboard ++ List.map _ _ = _
      simp only [List.map_append, List.map_map]
      rfl
    · rw [core]
      exact Sparse.get_set_same _ _ _ _
    · rw [core]
      exact (Sparse.get_countIn _ _ _ _).trans (if_pos rfl)
  · intro f p0 p
    refine (mxPass_enters hc issue phase hop).mono fun e ⟨core, other, rest⟩ => ⟨?_, ?_, ?_, ?_, ?_, other, rest⟩
    · rw [core]
      show if k.mx.cur = none then (k.mx.entered p).cur = some p ∧ (k.mx.entered p).nxt = k.mx.nxt
        else (k.mx.entered p).cur = k.mx.cur ∧ (k.mx.entered p).nxt = some p
      unfold Mx.entered
      cases h : k.mx.cur with
      | none => exact ⟨rfl, rfl⟩
      | some q => exact ⟨rfl, rfl⟩
    · rw [core]
      show (k.mx.entered p).passesOpen = _
      unfold Mx.entered
      cases h : k.mx.cur <;> rfl
    · rw [core]
    · rw [core]
    · rw [core]
      exact Sparse.get_set_same _ _ _ _

end Sys2Proof.Machine

/-! PROOFS about the vector slots (R207 to R233): what an operation sends on its way, and the pointers and accumulators. -/

namespace Sys2Proof.Machine

set_option Elab.async false

open Sys2Proof

/-- The row of a vector command is that of its opcode and slot. -/
theorem exec_vectorCmd {op c : Nat} {sl : VSlot} {cmd : Instr} (h : vectorCmd op c sl = some cmd) (s : State) :
    exec cmd s = vectorRow c sl op s := by
  unfold vectorCmd at h
  split at h <;> cases h <;> rfl

/-- A command of a vector slot runs the phase of its slot. -/
theorem Becomes.vectorRow {op c : Nat} {sl : VSlot} {cmd : Instr} {s : State} {i : Issue} (h : vectorCmd op c sl = some cmd)
    (hc : s.dev.hasCore c = true) (issue : (s.dev.core c).issue = some i) (phase : (s.dev.core c).atPhase (vUnit sl).2)
    (hop : (vf (slotOf i.word (vUnit sl).1)).op = op) :
    Becomes cmd s ((s.dev.begun c (vUnit sl).2).phaseV c (vUnit sl).1) := by
  have row := exec_vectorCmd h s
  cases sl with
  | va => exact .slotRow (p := 3) (row.trans (vectorRow_va c op s)) hc issue phase hop
  | vb => exact .slotRow (p := 5) (row.trans (vectorRow_vb c op s)) hc issue phase hop

/-- The issue of a bundle whose vector slot has entered its phase (R207, R213). -/
def Issue.vectored (i : Issue) (ph : Nat) (f : VF) : Issue :=
  { i with done := i.done ++ [ph], rel := i.rel || f.releases, ptrStep := f.pointers.foldl (fun l p => insertNew p l) i.ptrStep }

/-- A core whose vector slot has entered its phase: the runs that the operation is none of have ended (R233). -/
def Core.vectored (k : Core) (i : Issue) (ph : Nat) (f : VF) : Core :=
  { k.endRuns f.chain f.d f.laneRegs with issue := some (i.vectored ph f) }

/-- The device with the vector slot entered. -/
def Device.vectored (d : Device) (c ph : Nat) (f : VF) : Device :=
  ((d.begun c ph).vEnter c f).onCore c (fun x => x.endRuns f.chain f.d f.laneRegs)

theorem Device.onlyCore_onIssue {d e : Device} {c : Nat} {k : Core} {i : Issue} (h : d.onlyCore e c { k with issue := some i })
    (f : Issue → Issue) : d.onlyCore (e.onIssue c f) c { k with issue := some (f i) } :=
  Device.onlyCore_onCore h _

theorem Device.onlyCore_vEnter {d e : Device} {c : Nat} {k : Core} {i : Issue} (h : d.onlyCore e c { k with issue := some i }) (f : VF) :
    d.onlyCore (e.vEnter c f) c { k with issue := some { i with
      rel := i.rel || f.releases, ptrStep := f.pointers.foldl (fun l p => insertNew p l) i.ptrStep } } := by
  unfold Device.vEnter
  cases rel : f.releases with
  | true =>
    rw [Bool.or_true, if_pos rfl]
    exact Device.onlyCore_onIssue (Device.onlyCore_onIssue h _) _
  | false =>
    rw [Bool.or_false, if_neg Bool.false_ne_true]
    exact Device.onlyCore_onIssue h _

theorem Device.onlyCore_vectored {d : Device} {c : Nat} {i : Issue} (h : (d.core c).issue = some i) (ph : Nat) (f : VF) :
    d.onlyCore (d.vectored c ph f) c ((d.core c).vectored i ph f) :=
  Device.onlyCore_onCore (Device.onlyCore_vEnter (Device.onlyCore_begun h ph) f) _

theorem Device.onlyCore_fly {d e : Device} {c : Nat} {k : Core} (h : d.onlyCore e c k) (f : Flight) :
    d.onlyCore (e.fly c f) c { k with flights := k.flights ++ [f] } :=
  Device.onlyCore_onCore h _

/-- An operand of a register, the bell or a broadcast lane reads no memory. -/
theorem Device.operand_registers (d : Device) (c slot unit v idx : Nat) {kind : Nat} (ptr : Nat → BitVec 96) (h : kind ≠ 1) :
    d.operand c slot unit kind v idx ptr = (some ((d.core c).operandOf kind v idx), d) := by
  rcases kind with _ | _ | _ | _ | n
  · rfl
  · exact absurd rfl h
  · rfl
  · rfl
  · rfl

/-! ### The phase, by operation -/

section
variable {d : Device} {c : Nat} {i : Issue} {ph u : Nat} {o : VOp} (issue : (d.core c).issue = some i)
  (shape : vopOf (vf (slotOf i.word u)).op = some o)
include issue shape

theorem phaseV_idle (hop : (vf (slotOf i.word u)).op = 0x00 ∨ (vf (slotOf i.word u)).op = 0x4A) :
    (d.begun c ph).phaseV c u = d.vectored c ph (vf (slotOf i.word u)) := by
  unfold Device.phaseV
  simp only [Device.core_begun issue, shape]
  obtain hop | hop := hop <;> simp only [hop] <;> rfl

/-- The pointer operations find the bundle as the slot has entered it. -/
theorem phaseV_pointers (hop : (vf (slotOf i.word u)).op = 0x48 ∨ (vf (slotOf i.word u)).op = 0x49) :
    (d.begun c ph).phaseV c u = (d.vectored c ph (vf (slotOf i.word u))).pointerSet c (slotOf i.word u)
      (i.vectored ph (vf (slotOf i.word u))) := by
  have own : ((d.vectored c ph (vf (slotOf i.word u))).core c).issue = some _ :=
    (congrArg Core.issue (Device.onlyCore_vectored issue ph _).1 :)
  have found : (((d.vectored c ph (vf (slotOf i.word u))).core c).issue).getD { i with done := i.done ++ [ph] }
      = i.vectored ph (vf (slotOf i.word u)) := by rw [own]; rfl
  rw [← found]
  unfold Device.phaseV
  simp only [Device.core_begun issue, shape]
  obtain hop | hop := hop <;> simp only [hop] <;> rfl

omit shape in
theorem vFlight_begun : (d.begun c ph).vFlight c u { i with done := i.done ++ [ph] } o (vf (slotOf i.word u))
    = d.vFlight c u i o (vf (slotOf i.word u)) := by
  unfold Device.vFlight
  rw [Device.core_begun issue]; rfl

theorem phaseV_accRead (hop : (vf (slotOf i.word u)).op = 0x39) :
    (d.begun c ph).phaseV c u = (d.vectored c ph (vf (slotOf i.word u))).fly c
      (let f := vf (slotOf i.word u)
      let acc := Sparse.get XAcc.reset (d.core c).xa (f.imm % 8)
      let r := acc.readOut (d.vEnvOf c i o f).fmt ((d.vEnvOf c i o f).rnd f.idx)
      { d.vFlight c u i o f with regs := regWrites f [(0, f.idx, r.1, acc.poison)], flags := r.2 }) := by
  unfold Device.phaseV
  simp only [Device.core_begun issue, shape]
  simp only [hop]
  rw [vFlight_begun issue]
  rfl

theorem phaseV_accClear (hop : (vf (slotOf i.word u)).op = 0x3A) :
    (d.begun c ph).phaseV c u = (d.vectored c ph (vf (slotOf i.word u))).fly c { d.vFlight c u i o (vf (slotOf i.word u)) with
      xaIdx := (vf (slotOf i.word u)).imm % 8, xaClr := true } := by
  unfold Device.phaseV
  simp only [Device.core_begun issue, shape]
  simp only [hop]
  rw [vFlight_begun issue]
  rfl

theorem phaseV_accStore (hop : (vf (slotOf i.word u)).op = 0x3B) :
    (d.begun c ph).phaseV c u = (d.vectored c ph (vf (slotOf i.word u))).fly c
      (let acc := Sparse.get XAcc.reset (d.core c).xa ((vf (slotOf i.word u)).imm % 8)
      { d.vFlight c u i o (vf (slotOf i.word u)) with
        addr := ptrAddr (Sparse.get 0 i.ptr0 (vf (slotOf i.word u)).dp), data := acc.image
        marks := acc.image.map (fun _ => acc.poison) }) := by
  unfold Device.phaseV
  simp only [Device.core_begun issue, shape]
  simp only [hop]
  rw [vFlight_begun issue]
  rfl

omit shape in
/-- The operands of a slot that has entered its phase are those of the core before it. -/
theorem operand_vectored (bank kind v idx : Nat) (ptr : Nat → BitVec 96) (h : kind ≠ 1) :
    (d.vectored c ph (vf (slotOf i.word u))).operand c i.slot bank kind v idx ptr
      = (some ((d.core c).operandOf kind v idx), d.vectored c ph (vf (slotOf i.word u))) := by
  rw [Device.operand_registers _ _ _ _ _ _ _ h, (Device.onlyCore_vectored issue ph _).1]
  rfl

theorem phaseV_accAdd (hop : (vf (slotOf i.word u)).op = 0x38) (held : (vf (slotOf i.word u)).ak ≠ 1) :
    (d.begun c ph).phaseV c u = (d.vectored c ph (vf (slotOf i.word u))).fly c
      (let f := vf (slotOf i.word u)
      let a := (d.core c).operandOf f.ak f.a f.idx
      { d.vFlight c u i o f with
        xaIdx := f.imm % 8
        xaAdd := some (xaddSum ((List.range 128).map (fun j =>
          xaddOf ((d.vEnvOf c i o f).fmt.read (lane a j)) (bits f.imm 3 6) (mark a j)))) }) := by
  have read := operand_vectored (u := u) (ph := ph) issue (u - 1) _ (vf (slotOf i.word u)).a (vf (slotOf i.word u)).idx
    (fun p => Sparse.get 0 i.ptr0 p) held
  unfold Device.phaseV
  simp only [Device.core_begun issue, shape]
  simp only [hop]
  rw [vFlight_begun issue]
  rw [Device.vectored] at read
  rw [read]
  rfl

/-- A load of an image, where its read is delivered. -/
theorem phaseV_accLoad {bs : List (BitVec 8 × Bool)} {r : Device} (hop : (vf (slotOf i.word u)).op = 0x3C)
    (read : (d.vectored c ph (vf (slotOf i.word u))).unitRead c i.slot (u - 1)
      (ptrAddr (Sparse.get 0 i.ptr0 (vf (slotOf i.word u)).a)) 80 = (some bs, r)) :
    (d.begun c ph).phaseV c u = r.fly c { d.vFlight c u i o (vf (slotOf i.word u)) with
      xaIdx := (vf (slotOf i.word u)).imm % 8, xaAdd := some (imageAdd (bs.map (·.1)) (bs.any (·.2))) } := by
  unfold Device.phaseV
  simp only [Device.core_begun issue, shape]
  simp only [hop]
  rw [vFlight_begun issue, ← Device.vectored, read]

/-- An unpack, where its read is delivered. -/
theorem phaseV_unpack {bs : List (BitVec 8 × Bool)} {r : Device} (hop : (vf (slotOf i.word u)).op = 0x24)
    (read : (d.vectored c ph (vf (slotOf i.word u))).unitRead c i.slot (u - 1)
      (ptrAddr (Sparse.get 0 i.ptr0 (vf (slotOf i.word u)).a)) (vf (slotOf i.word u)).aBytes = (some bs, r)) :
    (d.begun c ph).phaseV c u = r.fly c { d.vFlight c u i o (vf (slotOf i.word u)) with
      regs := regWrites (vf (slotOf i.word u)) (outVec 0 (opUnpk (fmtOfTy (vf (slotOf i.word u)).ty) bs)) } := by
  unfold Device.phaseV
  simp only [Device.core_begun issue, shape]
  simp only [hop]
  rw [vFlight_begun issue, ← Device.vectored, read]

/-- The operations with effects of their own: no operation, unpack, the accumulators, the pointers and the release. -/
def vSpecial : List Nat := [0x00, 0x24, 0x38, 0x39, 0x3A, 0x3B, 0x3C, 0x48, 0x49, 0x4A]

theorem phaseV_computes (hop : (vf (slotOf i.word u)).op ∉ vSpecial) (heldA : (vf (slotOf i.word u)).ak ≠ 1)
    (heldB : (vf (slotOf i.word u)).bk ≠ 1) :
    (d.begun c ph).phaseV c u = (d.vectored c ph (vf (slotOf i.word u))).fly c
      (let f := vf (slotOf i.word u)
      let k := d.core c
      let a := if o.useA = 0 then [] else k.operandOf f.ak f.a f.idx
      let b := if o.useB then k.operandOf f.bk f.b f.idx else []
      vResult (d.vFlight c u i o f) f o (Sparse.get 0 i.ptr0 f.dp) (vCompute (d.vEnvOf c i o f) a b
        (if o.useC then k.vreg f.c else []) ((k.endRuns f.chain f.d f.laneRegs).state f))) := by
  have readA := operand_vectored (u := u) (ph := ph) issue (u - 1) _ (vf (slotOf i.word u)).a (vf (slotOf i.word u)).idx
    (fun p => Sparse.get 0 i.ptr0 p) heldA
  have readB := operand_vectored (u := u) (ph := ph) issue (u - 1) _ (vf (slotOf i.word u)).b (vf (slotOf i.word u)).idx
    (fun p => Sparse.get 0 i.ptr0 p) heldB
  have state : ((d.vectored c ph (vf (slotOf i.word u))).core c).state (vf (slotOf i.word u))
      = ((d.core c).endRuns (vf (slotOf i.word u)).chain (vf (slotOf i.word u)).d (vf (slotOf i.word u)).laneRegs).state
        (vf (slotOf i.word u)) := by
    rw [(Device.onlyCore_vectored issue ph _).1]; rfl
  unfold Device.phaseV
  simp only [Device.core_begun issue, shape]
  rw [vFlight_begun issue]
  split
  case h_11 =>
    rw [← Device.vectored]
    generalize d.vectored c ph (vf (slotOf i.word u)) = e at readA readB state ⊢
    rw [← state]
    by_cases noA : o.useA = 0
    · simp only [if_pos noA, readB]
      cases o.useB <;> rfl
    · simp only [if_neg noA, readA, readB]
      cases o.useB <;> rfl
  all_goals
    rename_i special
    rw [special] at hop
    exact absurd (by decide) hop

end

/-! ### The rows -/

section
variable {s : State} {op c : Nat} {sl : VSlot} {i : Issue} {cmd : Instr} (hc : s.dev.hasCore c = true)
  (named : vectorCmd op c sl = some cmd) (issue : (s.dev.core c).issue = some i) (phase : (s.dev.core c).atPhase (vUnit sl).2)
  (hop : (vf (slotOf i.word (vUnit sl).1)).op = op)
include hc named issue phase hop

/-- The row of a vector operation of which all that is left is a result on its way. -/
theorem Completes.vFlies {fl : Flight} (act : (s.dev.begun c (vUnit sl).2).phaseV c (vUnit sl).1
      = (s.dev.vectored c (vUnit sl).2 (vf (slotOf i.word (vUnit sl).1))).fly c fl) :
    Completes cmd s (fun e => s.dev.onlyCore e c
      { (s.dev.core c).vectored i (vUnit sl).2 (vf (slotOf i.word (vUnit sl).1)) with
        flights := ((s.dev.core c).vectored i (vUnit sl).2 (vf (slotOf i.word (vUnit sl).1))).flights ++ [fl] }) := by
  refine (Becomes.vectorRow named hc issue phase hop).onlyCore ?_
  rw [act]
  exact Device.onlyCore_fly (Device.onlyCore_vectored issue _ _) fl

end

/-- A result is due at the end of sc s + L - 1 (R208). -/
theorem vResult_due (base : Flight) (f : VF) (o : VOp) (dest : BitVec 96) (out : VOut) : (vResult base f o dest out).due = base.due := by
  unfold vResult
  split <;> rfl

/-- Settles O28: every vector operation by the phase of its slot; the computing ones fly one result. -/
theorem vectorSlots : Obligations.VectorSlots := by
  unfold Obligations.VectorSlots
  intro s c op sl i cmd o hc k u ph f named issue phase hop shape
  have shape : vopOf f.op = some o := hop ▸ shape
  refine ⟨.vectorRow named hc issue phase hop, fun special heldA heldB => ?_⟩
  intro a b run out
  exact ⟨.vFlies hc named issue phase hop (phaseV_computes issue shape (hop ▸ special) heldA heldB), vResult_due _ _ _ _ _⟩


/-! ### Reads and pointers -/

@[simp] theorem Device.steady_spadUe (d : Device) (c a cause : Nat) : (d.spadUe c a cause).steady = d.steady :=
  (congrArg Device.steady (d.spadUe_besideCores c a cause) :)

@[simp] theorem Device.steady_spadRead (d : Device) (c a n : Nat) : (d.spadRead c a n).2.steady = d.steady := by
  unfold Device.spadRead
  dsimp only
  rw [foldl_keeps Device.steady _ (fun d x => d.steady_spadUe c x 0)]
  simp

@[simp] theorem Device.steady_unitRead (d : Device) (c t unit a n : Nat) : (d.unitRead c t unit a n).2.steady = d.steady := by
  unfold Device.unitRead
  dsimp only
  split
  · rfl
  · split
    · split
      · rw [Device.steady_consume, Device.steady_spadRead]; rfl
      · rw [Device.steady_spadRead]; rfl
    · rw [Device.steady_countCore]; rfl

section
variable {s : State} {op c : Nat} {sl : VSlot} {i : Issue} {cmd : Instr} (hc : s.dev.hasCore c = true)
  (named : vectorCmd op c sl = some cmd) (issue : (s.dev.core c).issue = some i) (phase : (s.dev.core c).atPhase (vUnit sl).2)
  (hop : (vf (slotOf i.word (vUnit sl).1)).op = op)
include hc named issue phase hop

/-- The row of an operation that reads the scratchpad: beside the read, its result alone is new. -/
theorem Completes.vReads {fl : Flight} {bs : List (BitVec 8 × Bool)} {r : Device} {bank a n : Nat}
    (read : (s.dev.vectored c (vUnit sl).2 (vf (slotOf i.word (vUnit sl).1))).unitRead c i.slot bank a n = (some bs, r))
    (act : (s.dev.begun c (vUnit sl).2).phaseV c (vUnit sl).1 = r.fly c fl) :
    Completes cmd s (fun e => r.onlyCore e c { r.core c with flights := (r.core c).flights ++ [fl] }) := by
  refine (Becomes.vectorRow named hc issue phase hop).completes_withBeat ?_
  have kept := (s.dev.vectored c (vUnit sl).2 (vf (slotOf i.word (vUnit sl).1))).steady_unitRead c i.slot bank a n
  rw [read] at kept
  have beat : r.beat = s.dev.beat :=
    (Device.beat_of_steady kept).trans (congrArg Device.beat (Device.onlyCore_vectored issue _ _).2.2 :)
  rw [act, ← beat]
  exact Device.onlyCore_withBeat (Device.onlyCore_fly (Device.onlyCore_refl r c) fl)

/-- A set of a pointer that VA has set in this bundle is dropped and counted (R207). -/
theorem pointer_dropped (pointers : op = 0x48 ∨ op = 0x49) (shape : (vopOf (vf (slotOf i.word (vUnit sl).1)).op).isSome = true)
    (taken : i.ptrSet.contains (2 * bits (slotOf i.word (vUnit sl).1) 53 3) = true
      ∨ i.ptrSet.contains (2 * bits (slotOf i.word (vUnit sl).1) 53 3 + 1) = true) :
    Completes cmd s (fun e => (e.core c).ptrs = (s.dev.core c).ptrs
      ∧ Sparse.get 0 (e.core c).counters 10 = Sparse.get 0 (s.dev.core c).counters 10 + 1#64) := by
  refine ((Becomes.vectorRow named hc issue phase hop).onlyCore (c := c) (k := { (s.dev.core c).vectored i (vUnit sl).2
    (vf (slotOf i.word (vUnit sl).1)) with counters := countIn (s.dev.core c).counters 10 1 }) ?_).mono
    fun e ⟨core, _, _⟩ => ?_
  · obtain ⟨o, shape⟩ := Option.isSome_iff_exists.1 shape
    rw [phaseV_pointers issue shape (hop ▸ pointers), Device.pointerSet]
    have taken := Bool.or_eq_true_iff.2 taken
    exact (if_pos taken).symm ▸ Device.onlyCore_countCore (Device.onlyCore_vectored issue _ _) 10 Nat.one_ne_zero
  · rw [core]
    exact ⟨rfl, (Sparse.get_countIn _ _ _ _).trans (if_pos rfl)⟩

/-- A pointer operation sets its fields (R207). -/
theorem pointer_set (pointers : op = 0x48 ∨ op = 0x49) (shape : (vopOf (vf (slotOf i.word (vUnit sl).1)).op).isSome = true)
    (freeA : i.ptrSet.contains (2 * bits (slotOf i.word (vUnit sl).1) 53 3) = false)
    (freeP : i.ptrSet.contains (2 * bits (slotOf i.word (vUnit sl).1) 53 3 + 1) = false) :
    let w := slotOf i.word (vUnit sl).1
    let p := bits w 53 3
    let k := s.dev.core c
    let i1 := i.vectored (vUnit sl).2 (vf w)
    Completes cmd s (fun e => s.dev.onlyCore e c { k.vectored i (vUnit sl).2 (vf w) with
      issue := some { i1 with ptrSet := i.ptrSet ++ [if opc w == 0x48 then 2 * p else 2 * p + 1] }
      ptrs := Sparse.set 0 k.ptrs p (if opc w == 0x48 then mkPtr (bits w 0 32) (bits w 32 16) (ptrBuf (k.ptr p)) (ptrPos (k.ptr p))
        else mkPtr (ptrAddr (k.ptr p)) (bits (k.ptr p).toNat 32 16) (bits w 32 16) (bits w 0 32)) }) := by
  intro w p k i1
  refine (Becomes.vectorRow named hc issue phase hop).onlyCore ?_
  obtain ⟨o, shape⟩ := Option.isSome_iff_exists.1 shape
  rw [phaseV_pointers issue shape (hop ▸ pointers), Device.pointerSet]
  have free : ¬ ((i.vectored (vUnit sl).2 (vf w)).ptrSet.contains (2 * p)
      || (i.vectored (vUnit sl).2 (vf w)).ptrSet.contains (2 * p + 1)) = true := by
    rw [Bool.or_eq_true, not_or]
    exact ⟨Bool.not_eq_true _ ▸ freeA, Bool.not_eq_true _ ▸ freeP⟩
  rw [if_neg free]
  exact Device.onlyCore_onCore (Device.onlyCore_onIssue (Device.onlyCore_vectored issue _ _) _) _

end

/-- Settles O29: each operation by what its slot sends, reads or sets. -/
theorem vectorSpecialSlots : Obligations.VectorSpecialSlots := by
  unfold Obligations.VectorSpecialSlots
  intro s c op sl i cmd o hc k u ph w f named issue phase hop shape i1 run k1 entered fl acc p
  have shape : vopOf f.op = some o := hop ▸ shape
  have some : (vopOf f.op).isSome = true := Option.isSome_iff_exists.2 ⟨o, shape⟩
  refine ⟨fun idle => ?_, fun set freeA freeP => ?_, fun set freeA freeP => ?_, fun pointers taken => ?_, fun acc => ?_, fun acc => ?_,
    fun acc => ?_, fun acc held => ?_, fun bs d load read => ?_, fun bs d unpack read => ?_⟩
  · refine (Becomes.vectorRow named hc issue phase hop).onlyCore ?_
    rw [phaseV_idle issue shape (hop ▸ idle)]
    exact Device.onlyCore_vectored issue _ _
  · have out := pointer_set hc named issue phase hop (.inl set) some freeA freeP
    have hop : opc w = 0x48 := hop.trans set
    simp only [w, u, hop] at out
    exact out
  · have out := pointer_set hc named issue phase hop (.inr set) some freeA freeP
    have hop : opc w = 0x49 := hop.trans set
    simp only [w, u, hop] at out
    exact out
  · exact pointer_dropped hc named issue phase hop pointers some taken
  · exact .vFlies hc named issue phase hop (phaseV_accRead issue shape (hop.trans acc))
  · exact .vFlies hc named issue phase hop (phaseV_accClear issue shape (hop.trans acc))
  · exact .vFlies hc named issue phase hop (phaseV_accStore issue shape (hop.trans acc))
  · exact .vFlies hc named issue phase hop (phaseV_accAdd issue shape (hop.trans acc) held)
  · exact .vReads hc named issue phase hop read (phaseV_accLoad issue shape (hop.trans load) read)
  · exact .vReads hc named issue phase hop read (phaseV_unpack issue shape (hop.trans unpack) read)

end Sys2Proof.Machine

/-! PROOFS about the landings of an sc (R149, R177 to R188, R208, R210, R225): lane results, the reads of the feed, array results. -/

namespace Sys2Proof.Machine

set_option Elab.async false

open Sys2Proof

/-! ### Lane results -/

theorem Core.putLanes_cons (k : Core) (w : Nat × BitVec 32 × Bool) (ws : List (Nat × BitVec 32 × Bool)) :
    k.putLanes (w :: ws) = ({ k with
      lanes := Sparse.set 0 k.lanes w.1 w.2.1, laneMarks := Sparse.set false k.laneMarks w.1 w.2.2 } : Core).putLanes ws := rfl

/-- A lane that no write names keeps its value and mark. -/
theorem Core.putLanes_other (k : Core) {ws : List (Nat × BitVec 32 × Bool)} {n : Nat} (h : n ∉ ws.map (·.1)) :
    Sparse.get 0 (k.putLanes ws).lanes n = Sparse.get 0 k.lanes n
      ∧ Sparse.get false (k.putLanes ws).laneMarks n = Sparse.get false k.laneMarks n := by
  induction ws generalizing k with
  | nil => exact ⟨rfl, rfl⟩
  | cons w ws ih =>
    rw [List.map_cons, List.mem_cons, not_or] at h
    obtain ⟨value, mark⟩ := ih { k with
      lanes := Sparse.set 0 k.lanes w.1 w.2.1, laneMarks := Sparse.set false k.laneMarks w.1 w.2.2 } h.2
    rw [Core.putLanes_cons]
    exact ⟨value.trans (Sparse.get_set_other _ _ _ _ _ h.1), mark.trans (Sparse.get_set_other _ _ _ _ _ h.1)⟩

/-- A write that names its lane alone is what the lane holds. -/
theorem Core.putLanes_same (k : Core) {ws : List (Nat × BitVec 32 × Bool)} (nodup : (ws.map (·.1)).Nodup)
    {w : Nat × BitVec 32 × Bool} (h : w ∈ ws) :
    Sparse.get 0 (k.putLanes ws).lanes w.1 = w.2.1 ∧ Sparse.get false (k.putLanes ws).laneMarks w.1 = w.2.2 := by
  induction ws generalizing k with
  | nil => exact absurd h List.not_mem_nil
  | cons x ws ih =>
    obtain ⟨fresh, nodup⟩ := List.nodup_cons.1 nodup
    rw [Core.putLanes_cons]
    obtain rfl | h := List.mem_cons.1 h
    · obtain ⟨value, mark⟩ := Core.putLanes_other { k with
        lanes := Sparse.set 0 k.lanes w.1 w.2.1, laneMarks := Sparse.set false k.laneMarks w.1 w.2.2 } fresh
      exact ⟨value.trans (Sparse.get_set_same _ _ _ _), mark.trans (Sparse.get_set_same _ _ _ _)⟩
    · exact ih _ nodup h

/-- A core with what lands in an sc, beside the lanes, hidden. -/
def Core.unlanded (k : Core) : Core :=
  { k with xa := [], flags := [], counters := [], issue := none }

/-- A core with the lanes hidden too. -/
def Core.unlaned (k : Core) : Core := { k.unlanded with lanes := [], laneMarks := [] }

theorem Core.unlaned_putLanes (k : Core) (ws : List (Nat × BitVec 32 × Bool)) : (k.putLanes ws).unlaned = k.unlaned := by
  unfold Core.putLanes
  refine foldl_keeps Core.unlaned _ (fun _ _ => ?_) _ _
  rfl

theorem Core.unlanded_foldl_accs {g : Core → Flight → Core} (h : ∀ k f, ∃ xa, g k f = { k with xa := xa }) (l : List Flight) (k : Core) :
    (l.foldl g k).unlanded = k.unlanded := by
  refine foldl_keeps Core.unlanded g (fun k f => ?_) l k
  obtain ⟨xa, h⟩ := h k f
  rw [h]; rfl

theorem Core.unlanded_landAccs (k : Core) (due : List Flight) : (k.landAccs due).unlanded = k.unlanded := by
  unfold Core.landAccs
  dsimp only
  rw [Core.unlanded_foldl_accs, Core.unlanded_foldl_accs]
  · exact fun k f => ⟨_, rfl⟩
  · intro k f
    split
    · exact ⟨_, rfl⟩
    · exact ⟨_, rfl⟩

/-- Of d and e, only core c differs, and against k it holds only other flags, accumulators and books. -/
def Device.lands (d e : Device) (c : Nat) (k : Core) : Prop :=
  ∃ l : Core, l.unlanded = k.unlanded ∧ d.onlyCore e c l

theorem Device.lands_of_onlyCore {d e : Device} {c : Nat} {k : Core} (h : d.onlyCore e c k) : d.lands e c k := ⟨k, rfl, h⟩

theorem Device.lands_onCore {d e : Device} {c : Nat} {k : Core} (h : d.lands e c k) {f : Core → Core}
    (kept : ∀ k, (f k).unlanded = k.unlanded) : d.lands (e.onCore c f) c k := by
  obtain ⟨l, same, only⟩ := h
  exact ⟨f l, (kept l).trans same, Device.onlyCore_onCore only f⟩

theorem Device.lands_raise {d e : Device} {c : Nat} {k : Core} (h : d.lands e c k) (t flags : Nat) :
    d.lands (e.raise c t flags) c k := by
  unfold Device.raise
  split
  · exact h
  · exact Device.lands_onCore h (fun _ => rfl)

theorem Device.lands_countCore {d e : Device} {c : Nat} {k : Core} (h : d.lands e c k) (i n : Nat) :
    d.lands (e.countCore c i n) c k := by
  unfold Device.countCore
  split
  · exact h
  · exact Device.lands_onCore h (fun _ => rfl)

/-- Lanes written over what has landed. -/
theorem Device.lands_putLanes {d e : Device} {c : Nat} {k : Core} (h : d.lands e c k) (ws : List (Nat × BitVec 32 × Bool)) :
    d.lands (e.onCore c (fun k => k.putLanes ws)) c (k.putLanes ws) := by
  obtain ⟨l, same, only⟩ := h
  refine ⟨l.putLanes ws, ?_, Device.onlyCore_onCore only _⟩
  have step (l k : Core) (w : Nat × BitVec 32 × Bool) (same : l.unlanded = k.unlanded) :
      ({ l with lanes := Sparse.set 0 l.lanes w.1 w.2.1, laneMarks := Sparse.set false l.laneMarks w.1 w.2.2 } : Core).unlanded
        = ({ k with lanes := Sparse.set 0 k.lanes w.1 w.2.1, laneMarks := Sparse.set false k.laneMarks w.1 w.2.2 } : Core).unlanded :=
    (congrArg (fun k : Core => ({ k with
      lanes := Sparse.set 0 k.lanes w.1 w.2.1, laneMarks := Sparse.set false k.laneMarks w.1 w.2.2 } : Core)) same :)
  clear only
  induction ws generalizing l k with
  | nil => exact same
  | cons w ws ih => exact ih _ (step l k w same)

/-- What becomes of the flags before the results land (R116, R168). -/
theorem Device.lands_flags {d e : Device} {c : Nat} {k : Core} (h : d.lands e c k) (i : Issue) :
    d.lands ((i.late.foldl (fun d x => d.raise c x.1 x.2) (if i.flagClr = 0 then e else e.clearFlags c i.slot i.flagClr)).onIssue c
      (fun i => { i with late := [] })) c k := by
  refine Device.lands_onCore ?_ (fun _ => rfl)
  have cleared : d.lands (if i.flagClr = 0 then e else e.clearFlags c i.slot i.flagClr) c k := by
    split
    · exact h
    · exact Device.lands_onCore h (fun _ => rfl)
  generalize (if i.flagClr = 0 then e else e.clearFlags c i.slot i.flagClr) = g at cleared
  induction i.late generalizing g with
  | nil => exact cleared
  | cons x l ih => exact ih _ (Device.lands_raise cleared _ _)

/-- One result lands beside those that landed before it in this sc (R149, R210). -/
def Device.landResult (c : Nat) (a : Device × List (Nat × Nat × Nat)) (f : Flight) : Device × List (Nat × Nat × Nat) :=
  (((a.1.onCore c (fun k => k.putLanes (landLanes a.2 f).1)).countCore c 10 (landLanes a.2 f).2.2).raise c f.slot f.flags,
    (landLanes a.2 f).2.1)

/-- One result lands with the writes of it that are kept (R149). -/
theorem Device.lands_result {d e : Device} {c : Nat} {k : Core} (h : d.lands e c k) (seen : List (Nat × Nat × Nat)) (f : Flight) :
    d.lands (Device.landResult c (e, seen) f).1 c
      (k.putLanes (landLanes seen f).1) :=
  Device.lands_raise (Device.lands_countCore (Device.lands_putLanes h _) _ _) _ _

/-- A result that lands first keeps all its writes. -/
theorem landLanes_first (f : Flight) : landLanes [] f = (f.regs, f.regs.map (fun w => (w.1, f.chain, f.chainBase)), 0) := by
  simp [landLanes]

/-- A result that is no operation of a run writes no lane that an earlier one has. -/
theorem landLanes_later {f g : Flight} (alone : g.chain = 0) {w : Nat × BitVec 32 × Bool} (h : w ∈ f.regs) :
    w.1 ∉ (landLanes (f.regs.map (fun w => (w.1, f.chain, f.chainBase))) g).1.map (·.1) := by
  intro named
  obtain ⟨x, kept, same⟩ := List.mem_map.1 named
  have free := (List.mem_filter.1 kept).2
  simp only [alone, List.any_map, Bool.not_eq_true', List.any_eq_false] at free
  exact free w h (by simp [same])

/-- Two results in the order of their units. -/
theorem foldl_insertFlight_pair {f g : Flight} (h : f.unit < g.unit) : [f, g].foldl (fun l f => insertFlight f l) [] = [f, g] := by
  have later : ¬ g.unit < f.unit := by omega
  have other : g.unit ≠ f.unit := by omega
  simp [insertFlight, later, other]

/-! ### VECTOR_WRITEBACK -/

/-- The core in the phase in which its results land. -/
def Core.landing (k : Core) (i : Issue) : Core := { k with issue := some { i with done := i.done ++ [9] } }

section
variable {s : State} {c : Nat} {i : Issue} (hc : s.dev.hasCore c = true) (issue : (s.dev.core c).issue = some i)
  (phase : (s.dev.core c).atPhase 9)
include hc issue phase

omit hc phase in
theorem phaseLand_due {due : List Flight}
    (order : ((s.dev.core c).flights.filter (fun f => f.due == (s.dev.core c).sc)).foldl (fun l f => insertFlight f l) [] = due) :
    ∃ e : Device, s.dev.lands e c ((s.dev.core c).landing i)
      ∧ (s.dev.begun c 9).phaseLand c = (due.foldl (Device.landResult c) (e, [])).1.onCore c (fun k => { k.landAccs due with
        flights := k.flights.filter (fun f => f.due != k.sc) }) := by
  have ready := Device.lands_flags (Device.lands_of_onlyCore (Device.onlyCore_begun issue 9)) { i with done := i.done ++ [9] }
  refine ⟨_, ready, ?_⟩
  unfold Device.phaseLand
  simp only [Device.core_begun issue, order]
  rfl

/-- The row of what lands: the lanes are those of k, and the results are no longer in flight. -/
theorem vectorWriteback_lands {due : List Flight} {k : Core} (some : due ≠ [])
    (found : (s.dev.core c).flights.filter (fun f => f.due == (s.dev.core c).sc) = due)
    (order : due.foldl (fun l f => insertFlight f l) [] = due)
    (lands : ∀ e, s.dev.lands e c ((s.dev.core c).landing i) →
      s.dev.lands (due.foldl (Device.landResult c) (e, [])).1 c k) :
    Completes (.vectorWriteback c) s (fun e => (e.core c).flights = k.flights.filter (fun f => f.due != k.sc)
      ∧ (e.core c).lanes = k.lanes ∧ (e.core c).laneMarks = k.laneMarks ∧ (e.core c).spad = k.spad
      ∧ (∀ x, x ≠ c → e.core x = s.dev.core x) ∧ e.tasks = s.dev.tasks) := by
  have any : ((s.dev.core c).awaits 9 && (s.dev.core c).flights.any (fun f => f.due == (s.dev.core c).sc)) = true := by
    obtain ⟨f, hf⟩ := List.exists_mem_of_ne_nil _ some
    obtain ⟨held, now⟩ := List.mem_filter.1 (found ▸ hf)
    rw [phase.1, Bool.true_and]
    exact List.any_eq_true.2 ⟨f, held, now⟩
  refine .unitRow (show _ = execVectorWriteback c s from rfl) hc ?_
  dsimp only
  rw [if_pos any, Device.phasesTo_atPhase (p := 8) phase]
  obtain ⟨e, ready, act⟩ := phaseLand_due issue ((congrArg (List.foldl _ []) found).trans order)
  obtain ⟨l, same, only⟩ := lands e ready
  have done : s.dev.onlyCore ((s.dev.begun c 9).phaseLand c) c { l.landAccs due with
      flights := l.flights.filter (fun f => f.due != l.sc) } := act ▸ Device.onlyCore_onCore only _
  show _ ∧ _
  obtain ⟨core, other, rest⟩ := Device.onlyCore_withBeat done
  have kept : (l.landAccs due).unlanded = k.unlanded := (l.unlanded_landAccs due).trans same
  have flights : l.flights = k.flights := (congrArg Core.flights same :)
  have sc : l.sc = k.sc := (congrArg Core.sc same :)
  refine ⟨?_, ?_, ?_, ?_, other, (congrArg Device.tasks rest :)⟩
  · refine (congrArg Core.flights core).trans ?_
    rw [← flights, ← sc]
  · exact (congrArg Core.lanes core).trans (congrArg Core.lanes kept :)
  · exact (congrArg Core.laneMarks core).trans (congrArg Core.laneMarks kept :)
  · exact (congrArg Core.spad core).trans (congrArg Core.spad kept :)

theorem vectorWriteback_single {f : Flight} (found : (s.dev.core c).flights.filter (fun g => g.due == (s.dev.core c).sc) = [f])
    (nodup : (f.regs.map (·.1)).Nodup) :
    Completes (.vectorWriteback c) s (fun e => (e.core c).flights = (s.dev.core c).flights.filter (fun g => g.due != (s.dev.core c).sc)
      ∧ (∀ w ∈ f.regs, Sparse.get 0 (e.core c).lanes w.1 = w.2.1 ∧ Sparse.get false (e.core c).laneMarks w.1 = w.2.2)
      ∧ (∀ n, n ∉ f.regs.map (·.1) → Sparse.get 0 (e.core c).lanes n = Sparse.get 0 (s.dev.core c).lanes n)
      ∧ (e.core c).spad = (s.dev.core c).spad ∧ (∀ x, x ≠ c → e.core x = s.dev.core x) ∧ e.tasks = s.dev.tasks) := by
  have landed (e : Device) (h : s.dev.lands e c ((s.dev.core c).landing i)) : s.dev.lands ([f].foldl (Device.landResult c) (e, [])).1 c (((s.dev.core c).landing i).putLanes f.regs) := by
    have out := Device.lands_result h [] f
    rwa [landLanes_first] at out
  refine (vectorWriteback_lands hc issue phase (List.cons_ne_nil _ _) found rfl landed).mono
    fun e ⟨flights, lanes, marks, spad, other, tasks⟩ => ?_
  have kept := ((s.dev.core c).landing i).unlaned_putLanes f.regs
  have old : (((s.dev.core c).landing i).putLanes f.regs).flights = (s.dev.core c).flights := (congrArg Core.flights kept :)
  have sc : (((s.dev.core c).landing i).putLanes f.regs).sc = (s.dev.core c).sc := (congrArg Core.sc kept :)
  refine ⟨by rw [flights, old, sc], fun w hw => ?_, fun n hn => ?_, spad.trans (congrArg Core.spad kept :), other, tasks⟩
  · rw [lanes, marks]
    exact Core.putLanes_same _ nodup hw
  · rw [lanes, (Core.putLanes_other _ hn).1]
    rfl

theorem vectorWriteback_pair {f g : Flight} (order : f.unit < g.unit) (alone : g.chain = 0)
    (found : (s.dev.core c).flights.filter (fun g => g.due == (s.dev.core c).sc) = [f, g]) (nodup : (f.regs.map (·.1)).Nodup) :
    Completes (.vectorWriteback c) s (fun e =>
      ∀ w ∈ f.regs, Sparse.get 0 (e.core c).lanes w.1 = w.2.1 ∧ Sparse.get false (e.core c).laneMarks w.1 = w.2.2) := by
  generalize hl : (landLanes (f.regs.map (fun w => (w.1, f.chain, f.chainBase))) g).1 = later
  have landed (e : Device) (h : s.dev.lands e c ((s.dev.core c).landing i)) :
      s.dev.lands ([f, g].foldl (Device.landResult c) (e, [])).1 c ((((s.dev.core c).landing i).putLanes f.regs).putLanes later) := by
    have first := Device.lands_result h [] f
    rw [landLanes_first] at first
    have out := Device.lands_result first (f.regs.map (fun w => (w.1, f.chain, f.chainBase))) g
    rw [hl] at out
    have seen : (Device.landResult c (e, []) f).2 = f.regs.map (fun w => (w.1, f.chain, f.chainBase)) := by
      rw [Device.landResult, landLanes_first]
    rw [← seen] at out
    exact out
  refine (vectorWriteback_lands hc issue phase (List.cons_ne_nil _ _) found (foldl_insertFlight_pair order) landed).mono
    fun e ⟨_, lanes, marks, _⟩ w hw => ?_
  have free := landLanes_later (f := f) alone hw
  rw [hl] at free
  obtain ⟨value, mark⟩ := (((s.dev.core c).landing i).putLanes f.regs).putLanes_other free
  rw [lanes, marks, value, mark]
  exact Core.putLanes_same _ nodup hw

end

/-! ### MX_FEED_READ -/

/-- A read of a bundle unit changes of its core only the bundle's claims, the scratchpad's marks and the books. -/
theorem Device.core_unitRead (d : Device) (c t unit a n : Nat) : ∃ i m,
    ((d.unitRead c t unit a n).2.core c).noBooks = ({ d.core c with issue := i, spad := m } : Core).noBooks := by
  unfold Device.unitRead
  dsimp only
  split
  · exact ⟨_, _, rfl⟩
  · have read (d : Device) (a n : Nat) (i : Option Issue) (k : Core) (h : d.core c = { k with issue := i }) :
        ((d.spadRead c a n).2.core c).noBooks = ({ k with issue := i, spad := (k.spad.read 8 a n).mem } : Core).noBooks := by
      rw [Device.noBooks_spadRead, h]
    split
    · split
      · rw [Device.core_consume]
        exact ⟨_, _, read _ _ _ _ _ (Device.core_onCore_same _ _ _)⟩
      · exact ⟨_, _, read _ _ _ _ _ (Device.core_onCore_same _ _ _)⟩
    · rw [Device.noBooks_countCore, Device.onIssue, Device.core_onCore_same]
      exact ⟨_, _, rfl⟩

/-- The feed of a core, and the number of its sc, outlast a read. -/
theorem Device.feed_unitRead {d r : Device} {c t unit a n : Nat} {bs : Option (List (BitVec 8 × Bool))}
    (h : d.unitRead c t unit a n = (bs, r)) : (r.core c).mx = (d.core c).mx ∧ (r.core c).sc = (d.core c).sc := by
  obtain ⟨i, m, kept⟩ := d.core_unitRead c t unit a n
  rw [h] at kept
  exact ⟨(congrArg Core.mx kept :), (congrArg Core.sc kept :)⟩

/-- What both branches of a choice have, the choice has. -/
theorem both_branches {α β : Type} (π : α → β) {P : Prop} [Decidable P] {a b : α} {v : β} (ha : π a = v) (hb : π b = v) :
    π (if P then a else b) = v := by
  split
  · exact ha
  · exact hb

/-- The pass that a weight read is of goes on with its tile reads as planned. -/
theorem tileAt_weightRead (m : Mx) (p : Pass) (k t n : Nat) (w : List (BitVec 8 × Bool)) (x : Nat) :
    (weightRead m p k t n w).2.tileAt x = p.tileAt x := by
  unfold weightRead
  exact both_branches (fun r : Mx × Pass => r.2.tileAt x) rfl rfl

theorem nxt_weightRead (m : Mx) (p : Pass) (k t n : Nat) (w : List (BitVec 8 × Bool)) : (weightRead m p k t n w).1.nxt = m.nxt := by
  unfold weightRead
  exact both_branches (fun r : Mx × Pass => r.1.nxt) (both_branches Mx.nxt rfl rfl) (both_branches Mx.nxt rfl rfl)

/-- A feed with no tile row planned for the pass reads none. -/
theorem Device.feedTile_idle {d : Device} {c : Nat} {next : Bool}
    (h : ∀ p, (if next then (d.core c).mx.nxt else (d.core c).mx.cur) = some p → p.tileAt (d.core c).sc = none) :
    d.feedTile c next = d := by
  unfold Device.feedTile
  dsimp only
  cases pass : (if next then (d.core c).mx.nxt else (d.core c).mx.cur) with
  | none => rfl
  | some p =>
    dsimp only
    rw [h p pass]

section
variable {s : State} {c : Nat} {i : Issue} (hc : s.dev.hasCore c = true) (issue : (s.dev.core c).issue = some i)
  (phase : (s.dev.core c).atPhase 3)
include hc phase

theorem mxFeedRead_reads (due : (s.dev.core c).feedDue = true) : Becomes (.mxFeedRead c) s ((s.dev.begun c 3).phaseFeed c) := by
  refine .onUnit (show _ = execMxFeedRead c s from rfl) hc ?_
  dsimp only
  rw [Device.phasesTo_past (p := 2) phase (le_refl 2), phase.1, due, Bool.true_and, if_pos rfl, Device.phasesTo_atPhase (p := 2) phase]
  rfl

/-- The row of a feed that reads once. -/
theorem Completes.feedReads {r : Device} {bs : List (BitVec 8 × Bool)} {t unit a n : Nat} {m : Mx} (due : (s.dev.core c).feedDue = true)
    (read : (s.dev.begun c 3).unitRead c t unit a n = (some bs, r))
    (act : (s.dev.begun c 3).phaseFeed c = r.onCore c (fun k => { k with mx := m })) :
    Completes (.mxFeedRead c) s (fun e => r.onlyCore e c { r.core c with mx := m }) := by
  refine (mxFeedRead_reads hc phase due).completes_withBeat ?_
  have kept := (s.dev.begun c 3).steady_unitRead c t unit a n
  rw [read] at kept
  have beat : r.beat = s.dev.beat := Device.beat_of_steady kept
  rw [act, ← beat]
  exact Device.onlyCore_withBeat (Device.onlyCore_onCore (Device.onlyCore_refl r c) _)

include issue

theorem mxFeedRead_weight {p : Pass} {sweep v : Nat} {bs : List (BitVec 8 × Bool)} {r : Device} (cur : (s.dev.core c).mx.cur = some p)
    (weight : p.weightAt (s.dev.core c).sc = some (sweep, v)) (own : p.tileAt (s.dev.core c).sc = none)
    (next : ∀ q, (s.dev.core c).mx.nxt = some q → q.tileAt (s.dev.core c).sc = none)
    (read : (s.dev.begun c 3).unitRead c p.slot 1 (p.wAddr + v * p.wStride) (readBytes p.format p.shape) = (some bs, r)) :
    Completes (.mxFeedRead c) s (fun e => r.onlyCore e c { r.core c with
      mx := { (weightRead (s.dev.core c).mx p sweep v (s.dev.core c).sc bs).1 with
        cur := some (weightRead (s.dev.core c).mx p sweep v (s.dev.core c).sc bs).2 } }) := by
  have due : (s.dev.core c).feedDue = true := by
    simp [Core.feedDue, cur, weight]
  have core := Device.core_begun issue 3
  have mx : ((s.dev.begun c 3).core c).mx = (s.dev.core c).mx := by rw [core]
  have sc : ((s.dev.begun c 3).core c).sc = (s.dev.core c).sc := by rw [core]
  obtain ⟨mx1, sc1⟩ := Device.feed_unitRead read
  refine Completes.feedReads hc phase due read ?_
  have weighed : (s.dev.begun c 3).feedWeight c = r.onCore c (fun k => { k with
      mx := { (weightRead (s.dev.core c).mx p sweep v (s.dev.core c).sc bs).1 with
        cur := some (weightRead (s.dev.core c).mx p sweep v (s.dev.core c).sc bs).2 } }) := by
    unfold Device.feedWeight
    simp only [mx, sc, cur, weight, read, mx1]
  rw [Device.phaseFeed, weighed]
  have core := Device.core_onCore_same r c (fun k => { k with
      mx := { (weightRead (s.dev.core c).mx p sweep v (s.dev.core c).sc bs).1 with
        cur := some (weightRead (s.dev.core c).mx p sweep v (s.dev.core c).sc bs).2 } })
  generalize r.onCore c _ = e at core ⊢
  have sc : (e.core c).sc = (s.dev.core c).sc := by rw [core]; exact sc1.trans sc
  have kept : e.feedTile c false = e := Device.feedTile_idle fun q hq => by
    have this : q = (weightRead (s.dev.core c).mx p sweep v (s.dev.core c).sc bs).2 := by
      rw [if_neg Bool.false_ne_true, core] at hq
      exact (Option.some.inj hq).symm
    rw [this, sc, tileAt_weightRead, own]
  rw [kept]
  refine Device.feedTile_idle fun q hq => ?_
  rw [if_pos rfl, core] at hq
  rw [sc]
  exact next q ((nxt_weightRead _ _ _ _ _ _).symm.trans hq)

theorem mxFeedRead_tile {p : Pass} {j : Nat} {bs : List (BitVec 8 × Bool)} {r : Device} (cur : (s.dev.core c).mx.cur = some p)
    (weight : p.weightAt (s.dev.core c).sc = none) (own : p.tileAt (s.dev.core c).sc = some j)
    (next : ∀ q, (s.dev.core c).mx.nxt = some q → q.tileAt (s.dev.core c).sc = none)
    (read : (s.dev.begun c 3).unitRead c p.slot 2 (p.xAddr + j % tileRows p.shape * p.xStride) (rowBytes p.format p.shape)
      = (some bs, r)) :
    Completes (.mxFeedRead c) s (fun e => r.onlyCore e c { r.core c with mx := { (s.dev.core c).mx with cur := some { p with
      tile := loadRow p.format p.shape p.trans j bs p.tile
      tilePoison := (j != 0 && p.tilePoison) || bs.any (·.2), readsDone := p.readsDone + 1 } } }) := by
  have due : (s.dev.core c).feedDue = true := by
    simp [Core.feedDue, cur, own]
  have core := Device.core_begun issue 3
  have mx : ((s.dev.begun c 3).core c).mx = (s.dev.core c).mx := by rw [core]
  have sc : ((s.dev.begun c 3).core c).sc = (s.dev.core c).sc := by rw [core]
  obtain ⟨mx1, sc1⟩ := Device.feed_unitRead read
  refine Completes.feedReads hc phase due read ?_
  have unweighed : (s.dev.begun c 3).feedWeight c = s.dev.begun c 3 := by
    unfold Device.feedWeight
    simp only [mx, sc, cur, weight]
  have stored : (s.dev.begun c 3).feedTile c false = r.onCore c (fun k => { k with mx := { (s.dev.core c).mx with cur := some { p with
      tile := loadRow p.format p.shape p.trans j bs p.tile
      tilePoison := (j != 0 && p.tilePoison) || bs.any (·.2), readsDone := p.readsDone + 1 } } }) := by
    unfold Device.feedTile
    simp only [mx, sc, cur, own, read, if_neg Bool.false_ne_true]
    rw [← mx, ← mx1]
    rfl
  rw [Device.phaseFeed, unweighed, stored]
  refine Device.feedTile_idle fun q hq => ?_
  rw [if_pos rfl, Device.core_onCore_same] at hq
  rw [Device.core_onCore_same]
  exact (congrArg q.tileAt (sc1.trans sc)).trans (next q hq)

end

/-! ### PASS_RESULT_LAND -/

/-- The array after a result vector has landed (R174, R177). -/
def Core.landedMx (k : Core) (l : Landing) : Mx :=
  { k.mx with out := k.mx.out.erase l, passesOpen := k.mx.passesOpen - b2n l.closes }

theorem Core.landedMx_eq (k : Core) (l : Landing) : ({ k.mx with
    out := k.mx.out.erase l, passesOpen := if l.closes then k.mx.passesOpen - 1 else k.mx.passesOpen } : Mx) = k.landedMx l := by
  unfold Core.landedMx b2n
  split <;> rfl

theorem Device.onlyCore_raise {d e : Device} {c : Nat} {k : Core} (h : d.onlyCore e c k) (t flags : Nat) :
    ∃ v, d.onlyCore (e.raise c t flags) c { k with flags := v } := by
  unfold Device.raise
  split
  · exact ⟨k.flags, h⟩
  · exact ⟨_, Device.onlyCore_onCore h _⟩

/-- A result vector whose tiles have room lands in the bell queue. -/
theorem Device.land_room {d e : Device} {c : Nat} {k : Core} (h : d.onlyCore e c k) {l : Landing} {bell : List BellTile}
    (room : ¬ (l.perRead * l.read % 128 = 0 ∧ 8 - k.bell.length < l.tiles))
    (tiles : bell = if l.perRead * l.read % 128 = 0 then k.bell ++ List.replicate l.tiles { BellTile.reset with horn := l.horn }
      else k.bell) :
    ∃ v, d.onlyCore (e.land c l) c { k with mx := k.landedMx l, bell := landRows bell l, flags := v } := by
  unfold Device.land
  simp only [h.1, Core.landedMx_eq, Bool.and_eq_true, beq_iff_eq, decide_eq_true_eq]
  rw [if_neg room, ← tiles]
  exact Device.onlyCore_raise (Device.onlyCore_onCore h _) _ _

/-- A result vector whose new tiles find too few free entries faults its task (R184). -/
theorem Device.land_overflow {e : Device} {c : Nat} {l : Landing} (opens : l.perRead * l.read % 128 = 0)
    (full : 8 - (e.core c).bell.length < l.tiles) :
    ((e.land c l).core c).bell = (e.core c).bell ∧ (e.land c l).lastRecord = some (0x0108, 0, 1, c) := by
  unfold Device.land
  simp only [opens, beq_self_eq_true, full, decide_true, Bool.and_self, if_true]
  unfold Device.coreFault
  refine ⟨?_, Device.lastRecord_fault _ _ _ _ _ _ _ _ _⟩
  refine (congrArg Core.bell (Device.unstopped_core_fault _ _ _ _ _ _ _ _ _ c) :).trans ?_
  rw [Device.core_onCore_same]
  rfl

section
variable {s : State} {c : Nat} {i : Issue} (hc : s.dev.hasCore c = true) (phase : (s.dev.core c).atPhase 10)
include hc phase

theorem passResultLand_lands (due : (s.dev.core c).mx.out.any (fun l => l.due == (s.dev.core c).sc) = true) :
    Becomes (.passResultLand c none) s ((s.dev.begun c 10).phasePass c) := by
  refine .onUnit (show _ = execPassResultLand c none s from rfl) hc ?_
  dsimp only
  rw [phase.1, due, Bool.true_and, if_pos rfl, Device.phasesTo_atPhase (p := 9) phase]
  rfl

variable (issue : (s.dev.core c).issue = some i)
include issue

/-- A result vector that is due alone lands. -/
theorem passResultLand_single {l : Landing} (found : (s.dev.core c).mx.out.filter (fun x => x.due == (s.dev.core c).sc) = [l]) :
    Becomes (.passResultLand c none) s ((s.dev.begun c 10).land c l) := by
  have due : (s.dev.core c).mx.out.any (fun l => l.due == (s.dev.core c).sc) = true := by
    obtain ⟨held, now⟩ := List.mem_filter.1 (found ▸ List.mem_singleton_self l)
    exact List.any_eq_true.2 ⟨l, held, now⟩
  have act : (s.dev.begun c 10).phasePass c = (s.dev.begun c 10).land c l := by
    unfold Device.phasePass
    simp only [Device.core_begun issue, found]
    rfl
  rw [← act]
  exact passResultLand_lands hc phase due

theorem passResultLand_room {l : Landing} {bell : List BellTile}
    (found : (s.dev.core c).mx.out.filter (fun x => x.due == (s.dev.core c).sc) = [l])
    (room : ¬ (l.perRead * l.read % 128 = 0 ∧ 8 - (s.dev.core c).bell.length < l.tiles))
    (tiles : bell = if l.perRead * l.read % 128 = 0
      then (s.dev.core c).bell ++ List.replicate l.tiles { BellTile.reset with horn := l.horn } else (s.dev.core c).bell) :
    Completes (.passResultLand c none) s (fun e => (e.core c).bell = landRows bell l ∧ (e.core c).mx = (s.dev.core c).landedMx l
      ∧ e = { s.dev with cores := e.cores }) := by
  obtain ⟨v, landed⟩ := Device.land_room (Device.onlyCore_begun issue 10) room tiles
  refine ((passResultLand_single hc phase issue found).onlyCore landed).mono fun e ⟨core, _, rest⟩ => ?_
  rw [core]
  exact ⟨rfl, rfl, rest⟩

end

/-- A check of the array that fails faults the task and marks the core (R188, R549). -/
theorem passResultLand_residue {s : State} {c cause low : Nat} {i : Issue} (hc : s.dev.hasCore c = true)
    (issue : (s.dev.core c).issue = some i) (measured : cause ≤ 2) :
    Completes (.passResultLand c (some (cause, low))) s (fun e =>
      (e.core c).marked = true ∧ e.lastRecord = some (0x0201, cause, 1, c)) := by
  refine .unitRow (show _ = execPassResultLand c (some (cause, low)) s from rfl) hc ?_
  dsimp only
  rw [issue]
  dsimp only
  rw [if_pos measured]
  unfold Device.coreFault
  have record := Device.lastRecord_fault (s.dev.phasesTo c 10) i.slot 0x0201 cause 1 c ((s.dev.phasesTo c 10).core c).lastSc
    ((s.dev.core c).lastSc % 2 ^ 11) (low % 2 ^ 29)
  generalize Device.fault _ _ _ _ _ _ _ _ _ = d at record ⊢
  exact ⟨(congrArg Core.marked (Device.core_onCore_same d c (fun k => { k with marked := true })) :), record⟩

/-- Settles O30: the landings by how many results are due, the feed by what it reads, the array results by their room. -/
theorem resultsLand : Obligations.ResultsLand := by
  unfold Obligations.ResultsLand
  intro s c i hc k issue
  refine ⟨fun f phase found nodup => vectorWriteback_single hc issue phase found nodup,
    fun f g phase found order alone nodup => vectorWriteback_pair hc issue phase order alone found nodup,
    fun phase due => mxFeedRead_reads hc phase due,
    fun p sweep v bs d phase cur weight own next read => mxFeedRead_weight hc issue phase cur weight own next read,
    fun p j bs d phase cur weight own next read => mxFeedRead_tile hc issue phase cur weight own next read,
    fun phase due => passResultLand_lands hc phase due, fun l phase found => ?_,
    fun cause low measured => passResultLand_residue hc issue measured⟩
  refine ⟨fun opens room => ?_, fun later => ?_, fun opens full => ?_⟩
  · exact passResultLand_room hc phase issue found (fun h => absurd h.2 (Nat.not_lt.2 room)) (if_pos opens).symm
  · exact passResultLand_room hc phase issue found (fun h => later h.1) (if_neg later).symm
  · refine (passResultLand_single hc phase issue found).completes_withBeat ?_
    have bell : ((s.dev.begun c 10).core c).bell = k.bell := by rw [Device.core_begun issue]
    obtain ⟨kept, record⟩ := Device.land_overflow (e := s.dev.begun c 10) (c := c) opens (bell ▸ full)
    exact ⟨kept.trans bell, record⟩

end Sys2Proof.Machine

/-! PROOFS about the issue of a bundle and its CT slot (R146 to R168, R381, R397): a bundle issues, waits or faults. -/

namespace Sys2Proof.Machine

set_option Elab.async false

open Sys2Proof

/-! ### The sc opens -/

/-- Of d and e, only core c and its region differ: the core is k, and the region has counted an sc more. -/
def Device.opensAs (d e : Device) (c : Nat) (k : Core) : Prop :=
  e.core c = k ∧ (∀ x, x ≠ c → e.core x = d.core x ∧ e.region x = d.region x)
    ∧ e.region c = { d.region c with count := (d.region c).count + 1 } ∧ e = { d with cores := e.cores, regions := e.regions }

theorem Device.opensAs_onCore {d e : Device} {c : Nat} {k : Core} (h : d.opensAs e c k) (f : Core → Core) :
    d.opensAs (e.onCore c f) c (f k) := by
  obtain ⟨own, other, region, rest⟩ := h
  refine ⟨by rw [Device.core_onCore_same, own], fun x hx => ?_, region, ?_⟩
  · exact ⟨(Device.core_onCore_other _ _ _ _ hx).trans (other x hx).1, (other x hx).2⟩
  · exact (congrArg (fun e : Device => e.onCore c f) rest).trans rfl

theorem Device.opensAs_advance {d e : Device} {c : Nat} {k : Core} (h : d.opensAs e c k) :
    d.opensAs (e.advance c) c (k.goOn (k.bundleNow + 1)) :=
  Device.opensAs_onCore h _

/-- A core whose bundle has issued, with the books cnt. -/
def Core.opened (k : Core) (t : Nat) (w : BitVec 384) (index n beat : Nat) (cnt : List (Nat × BitVec 64)) : Core := { k with
  sc := k.sc + 1, cyc := k.cyc + 1, lastSc := n, extra := 0, copyUsed := [], wait := none
  mx := (k.mx.promote (k.sc + 1)).settle (k.sc + 1), counters := cnt
  issue := some { Issue.reset with
    word := w, index := index, slot := t, ptr0 := k.ptrs, keys0 := k.keys, w := beat, choice := k.recvQueue t (qf (slotOf w 6)) } }

theorem Device.chargeHeld_eq (d : Device) (c : Nat) : ∃ cnt, d.onlyCore (d.chargeHeld c) c { d.core c with counters := cnt } := by
  unfold Device.chargeHeld
  split
  · exact ⟨_, Device.onlyCore_countCore (Device.onlyCore_refl d c) 5 Nat.one_ne_zero⟩
  · exact ⟨_, Device.onlyCore_refl d c⟩

theorem Device.countCore_onRegion (d : Device) (c r i n : Nat) (f : Region → Region) :
    (d.onRegion r f).countCore c i n = (d.countCore c i n).onRegion r f := by
  unfold Device.countCore
  split <;> rfl

/-- What the issue of a bundle makes of the device (R74, R148, R161). -/
theorem Device.openSc_opensAs (d : Device) (c t : Nat) (w : BitVec 384) (index : Nat) : ∃ cnt,
    d.opensAs (d.openSc c t w index) c ((d.core c).opened t w index (d.region c).count d.beat.w cnt) := by
  obtain ⟨cnt, charged⟩ := d.chargeHeld_eq c
  unfold Device.openSc
  generalize d.chargeHeld c = e at charged
  dsimp only
  have beat : e.beat = d.beat := by rw [charged.2.2]
  rw [beat]
  have counted := Device.onlyCore_countCore (Device.onlyCore_onCore charged (fun k => { k with
    sc := k.sc + 1, cyc := k.cyc + 1, lastSc := (d.region c).count, extra := 0, copyUsed := [], wait := none
    mx := (k.mx.promote (k.sc + 1)).settle (k.sc + 1)
    issue := some { Issue.reset with
      word := w, index := index, slot := t, ptr0 := k.ptrs, keys0 := k.keys, w := d.beat.w
      choice := k.recvQueue t (qf (slotOf w 6)) } })) 7 Nat.one_ne_zero
  refine ⟨countIn cnt 7 1, ?_⟩
  rw [Device.countCore_onRegion]
  generalize Device.countCore _ c 7 1 = g at counted ⊢
  obtain ⟨own, other, rest⟩ := counted
  have regions : g.regions = d.regions := by rw [rest]
  refine ⟨own, fun x hx => ⟨other x hx, ?_⟩, ?_, ?_⟩
  · rw [Device.region_onRegion_other _ _ _ _ hx]
    exact congrArg (fun r => Sparse.get Region.reset r x) regions
  · rw [Device.region_onRegion_same]
    exact congrArg (fun r => { Sparse.get Region.reset r c with count := (d.region c).count + 1 }) regions
  · rw [Device.onRegion, regions, rest]

/-! ### The next bundle -/

section
variable {d : Device} {c t : Nat} {w : BitVec 384} {want : Nat → Nat → Bool} {eff : Nat → Nat → Device → Device}

/-- The bundle that comes next at a core whose sc has closed. -/
def Device.next (d : Device) (c t : Nat) (w : BitVec 384) : Prop :=
  d.ready c = some t ∧ (d.core c).fill = none ∧ (d.core c).pc < instrCount ((d.core c).bound t)
    ∧ (d.core c).bundleAt t (d.core c).pc = w ∧ (d.core c).parityBad t (d.core c).pc = []

/-- The local cycle of a row that takes the bundle that comes next, by its waits and its checks. -/
theorem Device.ctRow_next (h : (d.closeSc c).next c t w) (wanted : want (opc (slotOf w 1)) ((d.closeSc c).levelOf t) = true) :
    d.ctRow c want eff = match (d.closeSc c).waitKind c t w ((d.closeSc c).core c).pc (((d.closeSc c).core c).sc + 1) with
      | some kind => (d.closeSc c).waitCycle c kind
      | none =>
        match (d.closeSc c).bundleBad c t w ((d.closeSc c).core c).pc (((d.closeSc c).core c).sc + 1) with
        | [] => eff t (slotOf w 1) ((d.closeSc c).openSc c t w ((d.closeSc c).core c).pc)
        | bad => bad.foldl (fun e x => e.slotFault c t ((d.closeSc c).core c).pc ((d.closeSc c).region c).count x) (d.closeSc c) := by
  obtain ⟨ready, fill, inside, found, parity⟩ := h
  unfold Device.ctRow
  simp only [ready, fill, found, parity, wanted, if_neg (Nat.not_le.2 inside), if_true] <;> rfl

/-- A row whose bundle waits. -/
theorem Device.ctRow_waits {kind : Nat} (h : (d.closeSc c).next c t w) (wanted : want (opc (slotOf w 1)) ((d.closeSc c).levelOf t) = true)
    (waits : (d.closeSc c).waitKind c t w ((d.closeSc c).core c).pc (((d.closeSc c).core c).sc + 1) = some kind) :
    d.ctRow c want eff = (d.closeSc c).waitCycle c kind := by
  rw [Device.ctRow_next h wanted, waits]

/-- A row whose bundle breaks a check. -/
theorem Device.ctRow_faults (h : (d.closeSc c).next c t w) (wanted : want (opc (slotOf w 1)) ((d.closeSc c).levelOf t) = true)
    (none : (d.closeSc c).waitKind c t w ((d.closeSc c).core c).pc (((d.closeSc c).core c).sc + 1) = none)
    (bad : (d.closeSc c).bundleBad c t w ((d.closeSc c).core c).pc (((d.closeSc c).core c).sc + 1) ≠ []) :
    d.ctRow c want eff = ((d.closeSc c).bundleBad c t w ((d.closeSc c).core c).pc (((d.closeSc c).core c).sc + 1)).foldl
      (fun e x => e.slotFault c t ((d.closeSc c).core c).pc ((d.closeSc c).region c).count x) (d.closeSc c) := by
  rw [Device.ctRow_next h wanted, none]
  dsimp only
  split
  · next empty => exact absurd empty bad
  · rfl

theorem Device.next_of_issues (h : d.issues c t w) : d.next c t w := by
  obtain ⟨ready, fill, inside, found, parity, -, -⟩ := h
  exact ⟨ready, fill, inside, found, parity⟩

/-- A row whose bundle issues. -/
theorem Device.ctRow_issues (h : (d.closeSc c).issues c t w) (wanted : want (opc (slotOf w 1)) ((d.closeSc c).levelOf t) = true) :
    d.ctRow c want eff = eff t (slotOf w 1) ((d.closeSc c).openSc c t w ((d.closeSc c).core c).pc) := by
  rw [Device.ctRow_next (Device.next_of_issues h) wanted, h.2.2.2.2.2.1, h.2.2.2.2.2.2]

end

/-! ### The CT slot -/

/-- The issue of a bundle as O21 states it. -/
def Device.issuesAs (d e : Device) (c t : Nat) (w : BitVec 384) : Prop :=
  (e.core c).sc = (d.core c).sc + 1 ∧ (e.core c).lastSc = (d.region c).count ∧ (e.region c).count = (d.region c).count + 1
    ∧ (e.core c).wait = none ∧ (e.core c).issue.map (fun i => (i.word, i.index, i.slot, i.done)) = some (w, (d.core c).pc, t, [])
    ∧ (∀ x, x ≠ c → e.core x = d.core x ∧ e.region x = d.region x)
    ∧ e.tasks = d.tasks ∧ e.dram = d.dram ∧ e.staging = d.staging ∧ e.fabric = d.fabric ∧ e.hub = d.hub
    ∧ (e.core c).spad = (d.core c).spad ∧ (e.core c).lanes = (d.core c).lanes ∧ (e.core c).keys = (d.core c).keys

/-- What the CT slot works on of a core, beside the flags of the bundle that issues. -/
def Core.beforeCt (k : Core) : Core := { k with
  pc := 0, loops := [], fill := none, yielded := false, power := CorePower.reset, flights := []
  issue := k.issue.map (fun i => { i with flagClr := 0 }) }

theorem Device.issuesAs_of_opensAs {d e : Device} {c t n : Nat} {w : BitVec 384} {k : Core} {cnt : List (Nat × BitVec 64)}
    (h : d.opensAs e c k) (same : k.beforeCt = ((d.core c).opened t w (d.core c).pc (d.region c).count n cnt).beforeCt) :
    d.issuesAs e c t w := by
  obtain ⟨own, other, region, rest⟩ := h
  have issue : k.issue.map (fun i => (i.word, i.index, i.slot, i.done)) = some (w, (d.core c).pc, t, []) := by
    have shown := (congrArg (fun k : Core => k.issue.map (fun i => (i.word, i.index, i.slot, i.done))) same :)
    have hidden : k.beforeCt.issue.map (fun i => (i.word, i.index, i.slot, i.done))
        = k.issue.map (fun i => (i.word, i.index, i.slot, i.done)) := by
      unfold Core.beforeCt
      cases k.issue <;> rfl
    exact hidden.symm.trans shown
  unfold Device.issuesAs
  rw [own, region]
  exact ⟨(congrArg Core.sc same :), (congrArg Core.lastSc same :), rfl, (congrArg Core.wait same :), issue, other,
    (congrArg Device.tasks rest :), (congrArg Device.dram rest :), (congrArg Device.staging rest :), (congrArg Device.fabric rest :),
    (congrArg Device.hub rest :), (congrArg Core.spad same :), (congrArg Core.lanes same :), (congrArg Core.keys same :)⟩

section
variable {s : State} {c t : Nat} {w : BitVec 384} (hc : s.dev.hasCore c = true) (h : (s.dev.closeSc c).issues c t w)
include hc h

/-- The row of a CT operation whose bundle issues. -/
theorem Becomes.ctRow {cmd : Instr} {op : Nat} {want : Nat → Nat → Bool} {eff : Nat → Nat → Device → Device}
    (row : exec cmd s = Machine.onUnit (fun d => d.hasCore c) (fun d => d.ctRow c want eff) s)
    (hop : opc (slotOf w 1) = op) (wanted : ∀ l, want op l = true) :
    Becomes cmd s (eff t (slotOf w 1) ((s.dev.closeSc c).openSc c t w ((s.dev.closeSc c).core c).pc)) := by
  refine .onUnit row hc ?_
  exact Device.ctRow_issues h (hop ▸ wanted _)

/-- A CT operation whose effect is one on its core. -/
theorem Completes.ctIssues {cmd : Instr} {op : Nat} {want : Nat → Nat → Bool} {eff : Nat → Nat → Device → Device}
    {f : Device → Core → Core} {P : Core → Prop}
    (row : exec cmd s = Machine.onUnit (fun d => d.hasCore c) (fun d => d.ctRow c want eff) s)
    (hop : opc (slotOf w 1) = op) (wanted : ∀ l, want op l = true)
    (acts : ∀ e k, (s.dev.closeSc c).opensAs e c k → (s.dev.closeSc c).opensAs (eff t (slotOf w 1) e) c (f e k))
    (out : ∀ e cnt, e.core c = ((s.dev.closeSc c).core c).opened t w ((s.dev.closeSc c).core c).pc
        ((s.dev.closeSc c).region c).count (s.dev.closeSc c).beat.w cnt →
      (f e (e.core c)).beforeCt = (e.core c).beforeCt ∧ P (f e (e.core c))) :
    Completes cmd s (fun e => (s.dev.closeSc c).issuesAs e c t w ∧ P (e.core c)) := by
  refine (Becomes.ctRow hc h row hop wanted).completes_withBeat ?_
  obtain ⟨cnt, opened⟩ := (s.dev.closeSc c).openSc_opensAs c t w ((s.dev.closeSc c).core c).pc
  generalize (s.dev.closeSc c).openSc c t w ((s.dev.closeSc c).core c).pc = e at opened ⊢
  have acted := acts e _ opened
  rw [← opened.1] at acted
  obtain ⟨same, holds⟩ := out e cnt opened.1
  have issued := Device.issuesAs_of_opensAs acted (same.trans (congrArg Core.beforeCt opened.1))
  refine ⟨issued, ?_⟩
  rw [Device.core_withBeat, acted.1]
  exact holds

theorem ctNop_issues (hop : opc (slotOf w 1) = 0x00) : Completes (.ctNop c) s (fun e =>
    (s.dev.closeSc c).issuesAs e c t w
      ∧ (e.core c).pc = (loopEnds ((s.dev.closeSc c).core c).loops (((s.dev.closeSc c).core c).pc + 1)).1
      ∧ (e.core c).loops = (loopEnds ((s.dev.closeSc c).core c).loops (((s.dev.closeSc c).core c).pc + 1)).2) := by
  refine .ctIssues (P := fun k => k.pc = _ ∧ k.loops = _) hc h (show _ = execCtNop c s from rfl) hop (fun _ => rfl)
    (fun e k opened => Device.opensAs_advance opened) fun e cnt opened => ?_
  rw [opened]
  exact ⟨rfl, rfl, rfl⟩

theorem ctLoop_issues (hop : opc (slotOf w 1) = 0x01) : Completes (.ctLoop c) s (fun e => (s.dev.closeSc c).issuesAs e c t w
    ∧ (if bits (slotOf w 1) 32 24 = 0 then (e.core c).pc
        = (loopEnds ((s.dev.closeSc c).core c).loops (((s.dev.closeSc c).core c).pc + 1 + bits (slotOf w 1) 19 13)).1
      else (e.core c).pc = ((s.dev.closeSc c).core c).pc + 1
        ∧ (e.core c).loops = { left := bits (slotOf w 1) 32 24, start := ((s.dev.closeSc c).core c).pc + 1, len := bits (slotOf w 1) 19 13 }
          :: ((s.dev.closeSc c).core c).loops)) := by
  refine .ctIssues (P := fun k => if bits (slotOf w 1) 32 24 = 0 then k.pc = _ else k.pc = _ ∧ k.loops = _) hc h (show _ = execCtLoop c s from rfl) hop
    (fun _ => rfl) (fun e k opened => Device.opensAs_onCore opened _) fun e cnt opened => ?_
  rw [opened]
  dsimp only
  split
  · exact ⟨rfl, rfl⟩
  · exact ⟨rfl, rfl, rfl⟩

theorem ctJump_issues (hop : opc (slotOf w 1) = 0x02) : Completes (.ctJump c) s (fun e => (s.dev.closeSc c).issuesAs e c t w
    ∧ (e.core c).pc = bits (slotOf w 1) 5 14 ∧ (e.core c).loops = ((s.dev.closeSc c).core c).loops) := by
  refine .ctIssues (P := fun k => k.pc = _ ∧ k.loops = _) hc h (show _ = execCtJump c s from rfl) hop (fun _ => rfl)
    (fun e k opened => Device.opensAs_onCore opened _) fun e cnt opened => ?_
  rw [opened]
  exact ⟨rfl, rfl, rfl⟩

theorem ctGate_issues (hop : opc (slotOf w 1) = 0x03) : Completes (.ctGate c) s (fun e => (s.dev.closeSc c).issuesAs e c t w
    ∧ (e.core c).fill = some ((s.dev.closeSc c).core c).pc ∧ (e.core c).yielded = ((s.dev.closeSc c).core c).yielded) := by
  refine .ctIssues (P := fun k => k.fill = _ ∧ k.yielded = _) hc h (show _ = execCtGate c s from rfl) hop (fun _ => rfl)
    (fun e k opened => Device.opensAs_onCore (Device.opensAs_advance opened) _) fun e cnt opened => ?_
  rw [opened]
  exact ⟨rfl, rfl, rfl⟩

theorem ctYield_issues (hop : opc (slotOf w 1) = 0x04) : Completes (.ctYield c) s (fun e => (s.dev.closeSc c).issuesAs e c t w
    ∧ (e.core c).fill = some ((s.dev.closeSc c).core c).pc ∧ (e.core c).pc = ((s.dev.closeSc c).core c).pc + 1
    ∧ (e.core c).yielded = true) := by
  refine .ctIssues (P := fun k => k.fill = _ ∧ k.pc = _ ∧ k.yielded = true) hc h (show _ = execCtYield c s from rfl) hop
    (fun _ => rfl) (fun e k opened => Device.opensAs_onCore opened _) fun e cnt opened => ?_
  rw [opened]
  exact ⟨rfl, rfl, rfl, rfl⟩

theorem ctHint_issues (hop : opc (slotOf w 1) = 0x05) : Completes (.ctHint c) s (fun e => (s.dev.closeSc c).issuesAs e c t w
    ∧ (e.core c).power.hintNew = some (t, bits (slotOf w 1) 32 24, bits (slotOf w 1) 29 3)
    ∧ (e.core c).power.state = ((s.dev.closeSc c).core c).power.state) := by
  refine .ctIssues (P := fun k => k.power.hintNew = _ ∧ k.power.state = _) hc h (show _ = execCtHint c s from rfl) hop
    (fun _ => rfl) (fun e k opened => Device.opensAs_onCore (Device.opensAs_advance opened) _) fun e cnt opened => ?_
  rw [opened]
  exact ⟨rfl, rfl, rfl⟩

theorem ctFlagrd_issues (hop : opc (slotOf w 1) = 0x06) : Completes (.ctFlagrd c) s (fun e => (s.dev.closeSc c).issuesAs e c t w
    ∧ (e.core c).flights = (((s.dev.closeSc c).core c).endRuns 0 0 [31]).flights ++ [{ Flight.reset with
        due := ((s.dev.closeSc c).core c).sc + 1, unit := 1, issued := ((s.dev.closeSc c).core c).sc + 1, slot := t
        regs := [(31 * 128, (s.dev.closeSc c).flagWord c t, false)] }]) := by
  refine .ctIssues (P := fun k => k.flights = _) hc h (show _ = execCtFlagrd c s from rfl) hop (fun _ => rfl)
    (fun e k opened => Device.opensAs_onCore (Device.opensAs_onCore (Device.opensAs_advance opened) _) _) fun e cnt opened => ?_
  have word : e.flagWord c t = (s.dev.closeSc c).flagWord c t := by
    unfold Device.flagWord
    rw [opened]; rfl
  rw [word, opened]
  exact ⟨rfl, rfl⟩

theorem ctFlagclr_issues (hop : opc (slotOf w 1) = 0x07) : Completes (.ctFlagclr c) s (fun e => (s.dev.closeSc c).issuesAs e c t w
    ∧ (e.core c).issue.map (fun i => i.flagClr) = some (bits (slotOf w 1) 0 5)
    ∧ (e.core c).flags = ((s.dev.closeSc c).core c).flags) := by
  refine .ctIssues (P := fun k => k.issue.map _ = _ ∧ k.flags = _) hc h (show _ = execCtFlagclr c s from rfl) hop
    (fun _ => rfl) (fun e k opened => Device.opensAs_onCore (Device.opensAs_advance opened) _) fun e cnt opened => ?_
  rw [opened]
  exact ⟨rfl, rfl, rfl⟩

end

/-- Settles O21: the issue of the bundle, and what each CT operation makes of its core. -/
theorem bundleIssuesControl : Obligations.BundleIssuesControl := by
  unfold Obligations.BundleIssuesControl
  intro opens s c t w hc d k ct h
  exact ⟨ctNop_issues hc h, ctLoop_issues hc h, ctJump_issues hc h, ctGate_issues hc h, ctYield_issues hc h, ctHint_issues hc h,
    ctFlagrd_issues hc h, ctFlagclr_issues hc h⟩

end Sys2Proof.Machine

/-! PROOFS about the end of a core (R297, R79) and about bundles that wait or break a check (R148, R160, R161, R165). -/

namespace Sys2Proof.Machine

set_option Elab.async false

open Sys2Proof

/-! ### CT_END -/

/-- A core whose sc has closed issues no bundle. -/
theorem Device.issue_closeSc (d : Device) (c : Nat) : ((d.closeSc c).core c).issue = none := by
  unfold Device.closeSc
  split
  · rw [Device.core_onCore_same]
  · next h => exact Option.not_isSome_iff_eq_none.1 h

theorem mem_insertNew (x : Nat) (l : List Nat) : (insertNew x l).contains x = true := by
  unfold insertNew
  split
  · assumption
  · simp

theorem Device.restRegion_frame (d : Device) (c : Nat) : (d.restRegion c).cores = d.cores ∧ (d.restRegion c).tasks = d.tasks
    ∧ (d.restRegion c).dram = d.dram ∧ (d.restRegion c).fabric = d.fabric
    ∧ ((d.restRegion c).region c).finished = !d.scrubDue c := by
  refine ⟨rfl, rfl, rfl, rfl, ?_⟩
  rw [Device.restRegion, Device.region_onRegion_same]

/-- A core that has ended for a task slot. -/
def Device.coreEnded (d : Device) (c t : Nat) : Device :=
  (d.onCore c (fun k => { k with ended := insertNew t k.ended })).restRegion c

section
variable (d : Device) (c t : Nat)

theorem Device.core_coreEnded_same : (d.coreEnded c t).core c = { d.core c with ended := insertNew t (d.core c).ended } := by
  rw [Device.coreEnded, Device.restRegion, Device.core_onRegion, Device.core_onCore_same]

theorem Device.core_coreEnded_other {x : Nat} (h : x ≠ c) : (d.coreEnded c t).core x = d.core x := by
  rw [Device.coreEnded, Device.restRegion, Device.core_onRegion, Device.core_onCore_other _ _ _ _ h]

theorem Device.finished_coreEnded : ((d.coreEnded c t).region c).finished = !d.scrubDue c := by
  refine (Device.restRegion_frame _ c).2.2.2.2.trans ?_
  unfold Device.scrubDue
  rw [Device.core_onCore_same]
  rfl

/-- Every core of the task has ended when all the others have. -/
theorem Device.allEnded_coreEnded : (((d.coreEnded c t).task t).cores.all (fun x => ((d.coreEnded c t).core x).ended.contains t)) = true
    ↔ ∀ x ∈ (d.task t).cores, x ≠ c → (d.core x).ended.contains t = true := by
  rw [List.all_eq_true]
  refine forall₂_congr fun x _ => ?_
  by_cases same : x = c
  · simp only [same, ne_eq, not_true_eq_false, false_implies, iff_true]
    rw [Device.core_coreEnded_same]
    exact mem_insertNew t _
  · rw [Device.core_coreEnded_other _ _ _ same]
    exact ⟨fun h _ => h, fun h => h same⟩

end

/-- The device whose core has run its `ct.end` to the end of the sc. -/
def Device.endRun (d : Device) (c t : Nat) (w : BitVec 384) : Device :=
  (((d.openSc c t w (d.core c).pc).advance c).onIssue c (fun i => { i with ends := true })).closeSc c

/-- What `ct.end` makes of the device at the end of its sc: nothing where the task stops, else its core has ended, and the task
with the last of its cores. -/
def Device.ctEnds (u : Device) (c t : Nat) : Device :=
  if (u.task t).stopping then u
  else if ((u.coreEnded c t).task t).cores.all (fun x => ((u.coreEnded c t).core x).ended.contains t) then (u.coreEnded c t).endTask t
  else u.coreEnded c t

theorem ctEnd_becomes {s : State} {c t : Nat} {w : BitVec 384} (hc : s.dev.hasCore c = true) (h : (s.dev.closeSc c).issues c t w)
    (hop : opc (slotOf w 1) = 0x08) : Becomes (.ctEnd c) s (((s.dev.closeSc c).endRun c t w).ctEnds c t) := by
  have row := Becomes.ctRow hc h (show exec (.ctEnd c) s = execCtEnd c s from rfl) hop (fun _ => rfl)
  unfold Device.endRun
  generalize (s.dev.closeSc c).openSc c t w ((s.dev.closeSc c).core c).pc = e at row ⊢
  exact row

/-- Settles O22: the end of the sc, then the core, then the task with its last core. -/
theorem coreEnds : Obligations.CoreEnds := by
  unfold Obligations.CoreEnds
  intro s c t w hc d h hop u
  have row : Becomes (.ctEnd c) s (u.ctEnds c t) := ctEnd_becomes hc h hop
  have closed : (u.core c).issue = none := Device.issue_closeSc _ c
  clear_value u
  unfold Device.ctEnds at row
  refine ⟨fun stops => ?_, fun goes others => ?_, fun goes others => ?_⟩
  · rwa [if_pos stops] at row
  · obtain ⟨x, member, away, open_⟩ := others
    have notAll : ¬ ((u.coreEnded c t).task t).cores.all (fun x => ((u.coreEnded c t).core x).ended.contains t) = true := by
      rw [Device.allEnded_coreEnded]
      exact fun all => Bool.false_ne_true (open_.symm.trans (all x member away))
    rw [goes, if_neg Bool.false_ne_true, if_neg notAll] at row
    refine row.completes_withBeat ⟨?_, u.finished_coreEnded c t, ?_, rfl, rfl, rfl, fun x hx => u.core_coreEnded_other c t hx⟩
    · rw [Device.core_withBeat, Device.core_coreEnded_same]
      exact mem_insertNew t _
    · rw [Device.core_withBeat, Device.core_coreEnded_same]
      exact closed
  · rwa [goes, if_neg Bool.false_ne_true, if_pos ((Device.allEnded_coreEnded _ _ _).2 others)] at row

/-! ### A bundle that waits -/

/-- A local cycle of waiting (R160, R161, R610): its core alone changes, and the wait is counted under its kind. -/
theorem Device.waitCycle_eq (d : Device) (c kind : Nat) : ∃ since cnt, Sparse.get 0 cnt kind = Sparse.get 0 (d.core c).counters kind + 1#64
    ∧ d.onlyCore (d.waitCycle c kind) c { d.core c with
      cyc := (d.core c).cyc + 1, extra := (d.core c).extra + 1, copyUsed := [], wait := some (kind, since), counters := cnt } := by
  have charged : ∃ cnt, Sparse.get 0 cnt kind = Sparse.get 0 (d.core c).counters kind
      ∧ d.onlyCore (if kind = 5 then d else d.chargeHeld c) c { d.core c with counters := cnt } := by
    split
    · exact ⟨_, rfl, Device.onlyCore_refl d c⟩
    · next other =>
      unfold Device.chargeHeld
      split
      · exact ⟨_, (Sparse.get_countIn _ _ _ _).trans (if_neg other), Device.onlyCore_countCore (Device.onlyCore_refl d c) 5 Nat.one_ne_zero⟩
      · exact ⟨_, rfl, Device.onlyCore_refl d c⟩
  obtain ⟨cnt, count, charged⟩ := charged
  unfold Device.waitCycle
  generalize (if kind = 5 then d else d.chargeHeld c) = e at charged
  refine ⟨_, countIn cnt kind 1, ?_, Device.onlyCore_countCore (Device.onlyCore_onCore charged _) kind Nat.one_ne_zero⟩
  rw [Sparse.get_countIn, if_pos rfl, count]

/-! ### A bundle that breaks a check -/

theorem Device.slotFault_fault (d : Device) (c t index sc : Nat) (x : Nat × Bad) : ∃ code cause hi lo,
    d.slotFault c t index sc x = d.fault t code cause 1 c sc hi lo := by
  unfold Device.slotFault
  split
  · exact ⟨_, _, _, _, rfl⟩
  · exact ⟨_, _, _, _, rfl⟩

/-- The faults of a bundle: each is recorded, the task stops, and nothing else of cores and regions changes but for the stop. -/
theorem Device.slotFaults (c t index sc : Nat) (bad : List (Nat × Bad)) (d : Device) :
    let e := bad.foldl (fun d x => d.slotFault c t index sc x) d
    (e.core c).unstopped = (d.core c).unstopped ∧ (e.region c).unfinished = (d.region c).unfinished
      ∧ e.hub.healthNext = d.hub.healthNext + bad.length
      ∧ ((d.task t).state ≠ 5 → bad ≠ [] ∨ (d.task t).stopping = true → (e.task t).stopping = true) := by
  induction bad generalizing d with
  | nil => exact ⟨rfl, rfl, rfl, fun _ h => h.resolve_left (fun none => none rfl)⟩
  | cons x bad ih =>
    obtain ⟨code, cause, hi, lo, fault⟩ := d.slotFault_fault c t index sc x
    obtain ⟨core, region, next, stops⟩ := ih (d.slotFault c t index sc x)
    rw [fault] at core region next stops
    rw [List.foldl_cons, fault]
    refine ⟨core.trans (d.unstopped_core_fault _ _ _ _ _ _ _ _ c), region.trans (d.unfinished_region_fault _ _ _ _ _ _ _ _ c), ?_,
      fun alive _ => stops ?_ (.inr (d.stopping_fault _ _ _ _ _ _ _ _ alive))⟩
    · rw [next, Device.healthNext_fault, List.length_cons]
      omega
    · rw [(d.task_fault t code cause 1 c sc hi lo).1]
      split
      · exact alive
      · exact alive

/-- The task of a core that may take its next local cycle is RUNNING. -/
theorem Device.state_of_ready {d : Device} {c t : Nat} (h : d.ready c = some t) : (d.task t).state = 2 := by
  unfold Device.ready at h
  dsimp only at h
  split at h
  · cases h
  · split at h
    · next running _ may =>
      obtain rfl := Option.some.inj h
      simp only [Bool.and_eq_true, beq_iff_eq] at may
      tauto
    · cases h

/-- Settles O23: the local cycle of the row, by what waits and what is wrong. -/
theorem coreWaitsAndFaults : Obligations.CoreWaitsAndFaults := by
  unfold Obligations.CoreWaitsAndFaults
  intro s c t w hc d k ready fill inside found hop parity
  have row (P : Device → Prop) (hP : P ((s.dev.ctRow c isNop (fun _ _ e => e.advance c)).withBeat s.dev.beat)) : Completes (.ctNop c) s P :=
    .unitRow (show _ = execCtNop c s from rfl) hc hP
  have next : d.next c t w := ⟨ready, fill, inside, found, parity⟩
  have wanted : isNop (opc (slotOf w 1)) (d.levelOf t) = true := by rw [hop]; rfl
  refine ⟨fun kind waits => row _ ?_, fun none bad => row _ ?_⟩
  · rw [Device.ctRow_waits next wanted waits]
    obtain ⟨since, cnt, count, core, other, rest⟩ := d.waitCycle_eq c kind
    generalize d.waitCycle c kind = e at core other rest ⊢
    refine ⟨?_, ?_, ?_, ?_, ?_, ?_, (congrArg Device.tasks rest :), (congrArg (fun e : Device => e.hub.health) rest :), other⟩
    · exact (congrArg (fun e : Device => e.region c) rest :)
    all_goals rw [Device.core_withBeat, core]
    · rfl
    · exact count
  · rw [Device.ctRow_faults next wanted none bad]
    obtain ⟨core, region, next, stops⟩ := Device.slotFaults c t k.pc (d.region c).count (d.bundleBad c t w k.pc (k.sc + 1)) d
    generalize List.foldl _ _ _ = e at core region next stops ⊢
    have alive : (d.task t).state ≠ 5 := by
      rw [Device.state_of_ready ready]
      decide
    exact ⟨(congrArg Region.count region :), (congrArg Core.issue core :), (congrArg Core.pc core :), (congrArg Core.spad core :),
      (congrArg Core.lanes core :), (congrArg Core.keys core :), stops alive (.inl bad), next⟩

end Sys2Proof.Machine

/-! PROOFS about what the phases of an sc leave alone (R245): of a task all but its faults, flags and notes, and of a core where it
stands in its program. -/

namespace Sys2Proof.Machine

set_option Elab.async false

open Sys2Proof

/-- A task without its mark of stopping, its flags, its marks consumed, its replay and the books of its log and compare. -/
def Task.ruling (k : Task) : Task := { k with
  stopping := false, flagWord := 0, consumed := none, consumeCount := 0, logSeq := 0, replay := none, mismatchSeen := false
  writeDigest := 0 }

/-- Where a core stands: the task slot that it runs, the next bundle, the indices kept for other slots, and its windows and power. -/
structure Posture where
  running : Option Nat
  pc : Nat
  resume : Sparse Nat
  ended : List Nat
  bounds : Sparse (BitVec 256)
  power : CorePower

def Core.posture (k : Core) : Posture := ⟨k.running, k.pc, k.resume, k.ended, k.bounds, k.power⟩

/-- What the phases of an sc leave alone. -/
def Device.posture (d : Device) : (Nat → Task) × (Nat → Posture) := (fun t => (d.task t).ruling, fun c => (d.core c).posture)

theorem Device.posture_of {d e : Device} (tasks : d.tasks = e.tasks) (cores : d.cores = e.cores) : d.posture = e.posture := by
  unfold Device.posture Device.task Device.core
  rw [tasks, cores]

theorem Device.ruling_of_posture {d e : Device} (h : d.posture = e.posture) (t : Nat) : (d.task t).ruling = (e.task t).ruling :=
  congrFun (congrArg Prod.fst h) t

theorem Device.core_of_posture {d e : Device} (h : d.posture = e.posture) (c : Nat) : (d.core c).posture = (e.core c).posture :=
  congrFun (congrArg Prod.snd h) c

/-! ### The updates of a device -/

theorem Device.posture_onCore (d : Device) (c : Nat) (f : Core → Core) (h : ∀ k, (f k).posture = k.posture := by intro _; rfl) :
    (d.onCore c f).posture = d.posture := by
  refine Prod.ext rfl (funext fun x => ?_)
  show ((d.onCore c f).core x).posture = _
  by_cases same : x = c
  · rw [same, Device.core_onCore_same, h]; rfl
  · rw [Device.core_onCore_other _ _ _ _ same]; rfl

theorem Device.posture_onTask (d : Device) (t : Nat) (f : Task → Task) (h : ∀ k, (f k).ruling = k.ruling := by intro _; rfl) :
    (d.onTask t f).posture = d.posture := by
  refine Prod.ext (funext fun x => ?_) rfl
  show ((d.onTask t f).task x).ruling = _
  by_cases same : x = t
  · rw [same, Device.task_onTask_same, h]; rfl
  · rw [Device.task_onTask_other _ _ _ _ same]; rfl

theorem Device.posture_onIssue (d : Device) (c : Nat) (f : Issue → Issue) : (d.onIssue c f).posture = d.posture :=
  Device.posture_onCore d c _

theorem Device.posture_onCopy (d : Device) (c id : Nat) (f : Copy → Copy) : (d.onCopy c id f).posture = d.posture :=
  Device.posture_onCore d c _

@[simp] theorem Device.posture_onHub (d : Device) (f : Hub → Hub) : (d.onHub f).posture = d.posture := rfl
@[simp] theorem Device.posture_onTwin (d : Device) (f : Twin → Twin) : (d.onTwin f).posture = d.posture := rfl
@[simp] theorem Device.posture_onPort (d : Device) (p : Nat) (f : Port → Port) : (d.onPort p f).posture = d.posture := rfl
@[simp] theorem Device.posture_restRegion (d : Device) (c : Nat) : (d.restRegion c).posture = d.posture := rfl
@[simp] theorem Device.posture_twinSend (d : Device) (a b c e f : Nat) (x : List (BitVec 8)) :
    (d.twinSend a b c e f x).posture = d.posture := rfl

@[simp] theorem Device.posture_countCore (d : Device) (c i n : Nat) : (d.countCore c i n).posture = d.posture := by
  unfold Device.countCore
  split
  · rfl
  · exact Device.posture_onCore d c _

@[simp] theorem Device.posture_countHub (d : Device) (i n : Nat) : (d.countHub i n).posture = d.posture := by
  unfold Device.countHub; split <;> rfl

@[simp] theorem Device.posture_log (d : Device) (r : HealthRec) : (d.log r).posture = d.posture := by
  rw [Device.log_eq]; rfl

@[simp] theorem Device.posture_event (d : Device) (a b c e f g : Nat) : (d.event a b c e f g).posture = d.posture :=
  d.posture_log _

@[simp] theorem Device.posture_setKey (d : Device) (c k n : Nat) : (d.setKey c k n).posture = d.posture :=
  Device.posture_onCore d c _

@[simp] theorem Device.posture_raise (d : Device) (c t flags : Nat) : (d.raise c t flags).posture = d.posture := by
  unfold Device.raise
  split
  · rfl
  · exact Device.posture_onCore d c _

@[simp] theorem Device.posture_clearFlags (d : Device) (c t mask : Nat) : (d.clearFlags c t mask).posture = d.posture :=
  Device.posture_onCore d c _

@[simp] theorem Device.posture_fly (d : Device) (c : Nat) (f : Flight) : (d.fly c f).posture = d.posture :=
  Device.posture_onCore d c _

@[simp] theorem Device.posture_subKey (d : Device) (c k n : Nat) : (d.subKey c k n).posture = d.posture :=
  Device.posture_onCore d c _

@[simp] theorem Device.posture_consume (d : Device) (t c a source n : Nat) : (d.consume t c a source n).posture = d.posture := by
  unfold Device.consume
  split
  · rfl
  · exact Device.posture_onTask d t _

@[simp] theorem Device.posture_digestWrite (d : Device) (slots : List Nat) (a : Nat) (bs : List (BitVec 8)) :
    (d.digestWrite slots a bs).posture = d.posture := by
  unfold Device.digestWrite
  split
  · exact foldl_keeps Device.posture _ (fun d t => Device.posture_onTask d t _) _ _
  · rfl

@[simp] theorem Device.posture_markDirty (d : Device) (kind k : Nat) : (d.markDirty kind k).posture = d.posture := by
  unfold Device.markDirty; split <;> rfl

@[simp] theorem Device.posture_logEvent (d : Device) (t kind : Nat) (core : Option Nat) (detail : Nat) (x : List (BitVec 8)) :
    (d.logEvent t kind core detail x).posture = d.posture := by
  have noted := Device.posture_onTask d t (fun k => { k with logSeq := k.logSeq + 1 })
  unfold Device.logEvent Device.logRecord
  split
  · exact both_branches Device.posture noted noted
  · rfl

/-! ### Faults and keys -/

@[simp] theorem Device.posture_stopTask (d : Device) (t : Nat) : (d.stopTask t).posture = d.posture := by
  unfold Device.stopTask
  dsimp only
  refine (foldl_keeps Device.posture _ (fun d c => ?_) _ _).trans (Device.posture_onTask d t _)
  split
  · exact (Device.posture_restRegion _ c).trans (Device.posture_onCore d c _)
  · rfl

@[simp] theorem Device.posture_matchFaults (d : Device) (t beat sc : Nat) : (d.matchFaults t beat sc).posture = d.posture := by
  obtain ⟨-, -, cores, tasks, -⟩ := d.matchFaults_frame t beat sc
  exact Device.posture_of tasks cores

@[simp] theorem Device.posture_fault (d : Device) (t code cause unitKind unit sc dHi dLo : Nat) :
    (d.fault t code cause unitKind unit sc dHi dLo).posture = d.posture := by
  obtain ⟨e, cores, -, tasks, -, -, same, -, sameTasks, -⟩ := d.fault_frame t code cause unitKind unit sc dHi dLo
  rw [Device.posture_of sameTasks same]
  split
  · exact Device.posture_of tasks cores
  · rw [Device.posture_stopTask]
    exact Device.posture_of tasks cores

@[simp] theorem Device.posture_coreFault (d : Device) (c t code cause dHi dLo : Nat) :
    (d.coreFault c t code cause dHi dLo).posture = d.posture := d.posture_fault _ _ _ _ _ _ _ _

@[simp] theorem Device.posture_poisonFault (d : Device) (c t sc : Nat) : (d.poisonFault c t sc).posture = d.posture :=
  d.posture_fault _ _ _ _ _ _ _ _

@[simp] theorem Device.posture_lateKey (d : Device) (c k n : Nat) : (d.lateKey c k n).posture = d.posture := by
  unfold Device.lateKey
  dsimp only
  split
  · exact d.posture_countCore _ _ _
  · rw [Device.posture_log, Device.posture_countCore]

@[simp] theorem Device.posture_turnKey (d : Device) (c k sub : Nat) (incs : List (Nat × Bool)) :
    (d.turnKey c k sub incs).posture = d.posture := by
  unfold Device.turnKey
  dsimp only
  split
  · split
    · exact foldl_keeps Device.posture _ (fun d (x : Nat × Bool) => d.posture_lateKey c k x.1) _ _
    · exact d.posture_setKey _ _ _
  · split
    · exact d.posture_coreFault _ _ _ _ _ _
    · exact d.posture_setKey _ _ _

@[simp] theorem Device.posture_turnKeys (d : Device) (c : Nat) (i : Issue) : (d.turnKeys c i).posture = d.posture :=
  foldl_keeps Device.posture _ (fun d k => d.posture_turnKey c k _ _) _ _

@[simp] theorem Device.posture_addKey (d : Device) (c k n : Nat) (isAdd : Bool) : (d.addKey c k n isAdd).posture = d.posture := by
  unfold Device.addKey
  split
  · rfl
  · split
    · exact Device.posture_onCore d c _
    · exact d.posture_turnKey _ _ _ _

@[simp] theorem Device.posture_showMessages (d : Device) (c mq : Nat) : (d.showMessages c mq).posture = d.posture := by
  unfold Device.showMessages
  dsimp only
  split
  · rfl
  · split
    · exact Device.posture_onCore d c _
    · split
      · rw [Device.posture_addKey]
        exact Device.posture_onCore d c _
      · exact Device.posture_onCore d c _

@[simp] theorem Device.posture_showAll (d : Device) (c : Nat) : (d.showAll c).posture = d.posture :=
  foldl_keeps Device.posture _ (fun d (e : Nat × QState) => d.posture_showMessages c e.1) _ _

/-! ### Memories -/

@[simp] theorem Device.posture_spadUe (d : Device) (c a cause : Nat) : (d.spadUe c a cause).posture = d.posture := by
  have retire (d : Device) (g : Nat) : (d.retirePage c g).posture = d.posture := by
    unfold Device.retirePage
    split
    · rfl
    · rw [Device.posture_event, Device.posture_countCore]
      exact (Device.posture_onCore _ _ _).trans (Device.posture_onCore _ _ _)
  unfold Device.spadUe
  dsimp only
  split
  · rw [retire, Device.posture_event]
    exact Device.posture_onCore _ _ _
  · rw [Device.posture_event]
    exact Device.posture_onCore _ _ _

@[simp] theorem Device.posture_spadRead (d : Device) (c a n : Nat) : (d.spadRead c a n).2.posture = d.posture := by
  unfold Device.spadRead
  dsimp only
  rw [foldl_keeps Device.posture _ (fun d x => d.posture_spadUe c x 0), Device.posture_countCore, Device.posture_countCore,
    Device.posture_countCore]
  exact Device.posture_onCore _ _ _

@[simp] theorem Device.posture_spadWrite (d : Device) (c a : Nat) (data : List (BitVec 8 × Bool)) :
    (d.spadWrite c a data).posture = d.posture := by
  unfold Device.spadWrite
  dsimp only
  rw [foldl_keeps Device.posture _ (fun d g => d.posture_markDirty 0 (c * 32768 + g)), Device.posture_digestWrite,
    foldl_keeps Device.posture _ (fun d x => d.posture_spadUe c x 1), Device.posture_countCore, Device.posture_countCore]
  exact Device.posture_onCore _ _ _

@[simp] theorem Device.posture_stageRead (d : Device) (a n : Nat) : (d.stageRead a n).2.posture = d.posture := by
  unfold Device.stageRead
  dsimp only
  rw [foldl_keeps Device.posture _ (fun d x => d.posture_event _ _ _ _ x _), Device.posture_countHub, Device.posture_countHub,
    Device.posture_countHub]
  rfl

@[simp] theorem Device.posture_stagePut (d : Device) (a : Nat) (data : List (BitVec 8 × Bool)) :
    (d.stagePut a data).posture = d.posture := by
  unfold Device.stagePut
  dsimp only
  rw [foldl_keeps Device.posture _ (fun d g => d.posture_markDirty 2 g),
    foldl_keeps Device.posture _ (fun d x => d.posture_event _ _ _ _ x _), Device.posture_countHub, Device.posture_countHub]
  rfl

@[simp] theorem Device.posture_stageWrite (d : Device) (a : Nat) (data : List (BitVec 8 × Bool)) :
    (d.stageWrite a data).posture = d.posture := by
  unfold Device.stageWrite
  rw [Device.posture_stagePut, Device.posture_digestWrite]

@[simp] theorem Device.posture_unitRead (d : Device) (c t unit a n : Nat) : (d.unitRead c t unit a n).2.posture = d.posture := by
  unfold Device.unitRead
  dsimp only
  split
  · rfl
  · split
    · split
      · rw [Device.posture_consume, Device.posture_spadRead, Device.posture_onIssue]
      · rw [Device.posture_spadRead, Device.posture_onIssue]
    · rw [Device.posture_countCore, Device.posture_onIssue]

@[simp] theorem Device.posture_unitWrite (d : Device) (c t unit a : Nat) (data : List (BitVec 8 × Bool)) :
    (d.unitWrite c t unit a data).posture = d.posture := by
  unfold Device.unitWrite
  dsimp only
  split
  · rfl
  · split
    · rw [Device.posture_spadWrite, Device.posture_onIssue]
    · rw [Device.posture_countCore, Device.posture_onIssue]

/-! ### Crossings, packets and copies -/

@[simp] theorem Device.posture_crossMove (d : Device) (q : Nat) : (d.crossMove q).posture = d.posture := by
  unfold Device.crossMove
  split
  · rfl
  · dsimp only
    split
    · rfl
    · split
      · rfl
      · split <;> rfl

@[simp] theorem Device.posture_crossFlow (d : Device) : d.crossFlow.posture = d.posture :=
  foldl_keeps Device.posture _ (fun d _ => foldl_keeps Device.posture _ (fun d (e : Nat × List CrossItem) => d.posture_crossMove e.1) _ d) _ _

@[simp] theorem Device.posture_crossPush (d : Device) (c id off : Nat) : (d.crossPush c id off).posture = d.posture := by
  unfold Device.crossPush
  split
  · rfl
  · dsimp only
    split
    · rfl
    · rw [Device.posture_crossFlow]
      split <;> rfl

@[simp] theorem Device.posture_crossTake (d : Device) (c id : Nat) : (d.crossTake c id).posture = d.posture := by
  unfold Device.crossTake
  split
  · rfl
  · exact Device.posture_crossFlow _

@[simp] theorem Device.posture_meter (d : Device) (t : Option Nat) (f : Ledger → Ledger) : (d.meter t f).posture = d.posture := rfl

@[simp] theorem Device.posture_sendPacket (d : Device) (dev : Nat) (pk : Packet) : (d.sendPacket dev pk).posture = d.posture := by
  unfold Device.sendPacket
  split
  · rfl
  · dsimp only
    split <;> rfl

@[simp] theorem Device.posture_originate (d : Device) (t dev : Nat) (pk : Packet) : (d.originate t dev pk).posture = d.posture := by
  unfold Device.originate Device.meterFabric
  rw [Device.posture_sendPacket, Device.posture_meter]

@[simp] theorem Device.posture_raiseCopy (d : Device) (c t flags : Nat) : (d.raiseCopy c t flags).posture = d.posture := by
  unfold Device.raiseCopy
  split
  · exact d.posture_raise _ _ _
  · split
    · exact d.posture_raise _ _ _
    · exact Device.posture_onCore d c _

@[simp] theorem Device.posture_clearSource (d : Device) (c id : Nat) : (d.clearSource c id).posture = d.posture := by
  unfold Device.clearSource
  split
  · rfl
  · split
    · exact (Device.posture_onCore _ _ _).trans (Device.posture_onCopy _ _ _ _)
    · rfl

@[simp] theorem Device.posture_copyGot (d : Device) (c id off : Nat) (data : List (BitVec 8 × Bool)) (source a : Nat) :
    (d.copyGot c id off data source a).posture = d.posture := by
  unfold Device.copyGot
  split
  · rfl
  · dsimp only
    rw [Device.posture_crossPush, Device.posture_clearSource]
    split
    · rw [Device.posture_consume, Device.posture_countCore, Device.posture_onCopy]
    · rw [Device.posture_countCore, Device.posture_onCopy]

@[simp] theorem Device.posture_copyForm (d : Device) (c : Nat) (x : Copy) (off n : Nat) : (d.copyForm c x off n).2.posture = d.posture := by
  unfold Device.copyForm
  dsimp only
  rw [Device.posture_crossTake, Device.posture_onCopy, Device.posture_raiseCopy]

@[simp] theorem Device.posture_copyFlow (d : Device) (c id : Nat) : (d.copyFlow c id).posture = d.posture := by
  unfold Device.copyFlow
  split
  · rfl
  · next x _ =>
    extract_lets key tag read pieces blank asked
    have reading : read.posture = d.posture := by
      refine both_branches Device.posture (foldl_keeps Device.posture _ (fun d p => ?_) _ _) rfl
      refine both_branches Device.posture rfl ?_
      exact (Device.posture_copyGot _ _ _ _ _ _ _).trans (d.posture_stageRead _ _)
    have asking : asked.posture = d.posture := by
      refine (both_branches Device.posture (foldl_keeps Device.posture _ (fun d p => ?_) _ _) rfl).trans reading
      split
      · rfl
      · refine both_branches Device.posture rfl ?_
        exact (Device.posture_onCopy _ _ _ _).trans (Device.posture_originate _ _ _ _)
    refine Eq.trans ?_ asking
    refine both_branches Device.posture (foldl_keeps Device.posture _ (fun d p => ?_) _ _)
      (both_branches Device.posture (foldl_keeps Device.posture _ (fun d p => ?_) _ _) rfl)
    · split
      · rfl
      · refine both_branches Device.posture rfl ?_
        exact (Device.posture_stageWrite _ _ _).trans (d.posture_copyForm _ _ _ _)
    · split
      · rfl
      · refine both_branches Device.posture rfl ?_
        exact (Device.posture_originate _ _ _ _).trans (d.posture_copyForm _ _ _ _)

@[simp] theorem Device.posture_startCopy (d : Device) (c : Nat) (x : Copy) (ranges : List (Nat × Nat × Bool)) :
    (d.startCopy c x ranges).posture = d.posture := by
  unfold Device.startCopy
  dsimp only
  rw [Device.posture_copyFlow]
  exact Device.posture_onCore _ _ _

@[simp] theorem Device.posture_issueCopy (d : Device) (c t slot bundle scIdx : Nat) :
    (d.issueCopy c t slot bundle scIdx).posture = d.posture := by
  unfold Device.issueCopy
  dsimp only
  rw [Device.posture_startCopy, Device.posture_countCore]
  exact Device.posture_onCore _ _ _

@[simp] theorem Device.posture_receive (d : Device) (c t r a bundle scIdx : Nat) (desc : List (BitVec 8)) :
    (d.receive c t r a bundle scIdx desc).posture = d.posture := by
  unfold Device.receive
  dsimp only
  rw [Device.posture_startCopy]
  exact (Device.posture_onCore _ _ _).trans (Device.posture_onCore _ _ _)

@[simp] theorem Device.posture_send (d : Device) (c t : Nat) (block : List (BitVec 8 × Bool)) : (d.send c t block).posture = d.posture := by
  unfold Device.send
  dsimp only
  split
  · exact (Device.posture_onCore _ _ _).trans (Device.posture_onCore _ _ _)
  · rw [Device.posture_originate]
    exact Device.posture_onCore _ _ _

/-! ### The phases -/

@[simp] theorem Device.posture_phaseCu (d : Device) (c : Nat) : (d.phaseCu c).posture = d.posture := by
  unfold Device.phaseCu
  dsimp only
  split
  · rfl
  · exact both_branches Device.posture (d.posture_issueCopy _ _ _ _ _) rfl

@[simp] theorem Device.posture_phaseMx (d : Device) (c : Nat) : (d.phaseMx c).posture = d.posture := by
  unfold Device.phaseMx
  dsimp only
  split
  · rfl
  · exact both_branches Device.posture (Device.posture_onCore d c _) rfl

@[simp] theorem Device.posture_phaseFeed (d : Device) (c : Nat) : (d.phaseFeed c).posture = d.posture := by
  have weight (d : Device) : (d.feedWeight c).posture = d.posture := by
    unfold Device.feedWeight
    dsimp only
    split
    · rfl
    · split
      · rfl
      · next p _ _ sweep v _ =>
        have read := d.posture_unitRead c p.slot 1 (p.wAddr + v * p.wStride) (readBytes p.format p.shape)
        split
        · next h => rwa [h] at read
        · next h =>
          rw [h] at read
          exact (Device.posture_onCore _ _ _).trans read
  have tile (d : Device) (next : Bool) : (d.feedTile c next).posture = d.posture := by
    unfold Device.feedTile
    dsimp only
    split
    · rfl
    · split
      · rfl
      · next p _ _ j _ =>
        have read := d.posture_unitRead c p.slot 2 (p.xAddr + j % tileRows p.shape * p.xStride) (rowBytes p.format p.shape)
        split
        · next h => rwa [h] at read
        · next h =>
          rw [h] at read
          refine (Device.posture_onCore _ _ _ fun k => ?_).trans read
          exact both_branches (fun m : Mx => ({ k with mx := m } : Core).posture) rfl rfl
  unfold Device.phaseFeed
  rw [tile, tile, weight]

@[simp] theorem Device.posture_operand (d : Device) (c slot unit kind v idx : Nat) (ptr : Nat → BitVec 96) :
    (d.operand c slot unit kind v idx ptr).2.posture = d.posture := by
  unfold Device.operand
  dsimp only
  split
  · exact d.posture_unitRead _ _ _ _ _
  · rfl
  · rfl
  · rfl

@[simp] theorem Device.posture_pointerSet (d : Device) (c w : Nat) (i : Issue) : (d.pointerSet c w i).posture = d.posture := by
  unfold Device.pointerSet
  refine both_branches Device.posture (d.posture_countCore _ _ _) ?_
  exact (Device.posture_onCore _ _ _).trans (d.posture_onIssue _ _)

theorem Device.posture_vectored (d : Device) (c : Nat) (f : VF) :
    ((d.vEnter c f).onCore c (fun k => k.endRuns f.chain f.d f.laneRegs)).posture = d.posture := by
  refine (Device.posture_onCore _ _ _).trans ?_
  unfold Device.vEnter
  exact (Device.posture_onIssue _ _ _).trans (both_branches Device.posture (d.posture_onIssue _ _) rfl)

@[simp] theorem Device.posture_phaseV (d : Device) (c unit : Nat) : (d.phaseV c unit).posture = d.posture := by
  unfold Device.phaseV
  dsimp only
  split
  · rfl
  · next i _ =>
    split
    · rfl
    · next o _ =>
      have entered := d.posture_vectored c (vf (slotOf i.word unit))
      generalize (d.vEnter c (vf (slotOf i.word unit))).onCore c _ = e at entered ⊢
      refine Eq.trans ?_ entered
      split
      · rfl
      · rfl
      · exact e.posture_pointerSet _ _ _
      · exact e.posture_pointerSet _ _ _
      · have read := e.posture_unitRead c i.slot (unit - 1) (ptrAddr (Sparse.get 0 i.ptr0 (vf (slotOf i.word unit)).a))
          (vf (slotOf i.word unit)).aBytes
        split
        · next h => rwa [h] at read
        · next h =>
          rw [h] at read
          exact (Device.posture_fly _ _ _).trans read
      · have read := e.posture_operand c i.slot (unit - 1) (vf (slotOf i.word unit)).ak (vf (slotOf i.word unit)).a
          (vf (slotOf i.word unit)).idx (fun p => Sparse.get 0 i.ptr0 p)
        split
        · next h => rwa [h] at read
        · next h =>
          rw [h] at read
          exact (Device.posture_fly _ _ _).trans read
      · exact e.posture_fly _ _
      · exact e.posture_fly _ _
      · exact e.posture_fly _ _
      · have read := e.posture_unitRead c i.slot (unit - 1) (ptrAddr (Sparse.get 0 i.ptr0 (vf (slotOf i.word unit)).a)) 80
        split
        · next h => rwa [h] at read
        · next h =>
          rw [h] at read
          exact (Device.posture_fly _ _ _).trans read
      · have readA : (if o.useA = 0 then (some [], e) else e.operand c i.slot (unit - 1) (vf (slotOf i.word unit)).ak
            (vf (slotOf i.word unit)).a (vf (slotOf i.word unit)).idx (fun p => Sparse.get 0 i.ptr0 p)).2.posture = e.posture :=
          both_branches (fun r : Option Vec × Device => r.2.posture) rfl (e.posture_operand _ _ _ _ _ _ _)
        split
        · next h =>
          rw [h] at readA
          exact both_branches Device.posture ((Device.posture_operand _ _ _ _ _ _ _ _).trans readA) readA
        · next _ r h =>
          rw [h] at readA
          have readB : (if o.useB then r.operand c i.slot (unit - 1) (vf (slotOf i.word unit)).bk
              (vf (slotOf i.word unit)).b (vf (slotOf i.word unit)).idx (fun p => Sparse.get 0 i.ptr0 p) else (some [], r)).2.posture
                = r.posture :=
            both_branches (fun r : Option Vec × Device => r.2.posture) (r.posture_operand _ _ _ _ _ _ _) rfl
          split
          · next h =>
            rw [h] at readB
            exact readB.trans readA
          · next h =>
            rw [h] at readB
            exact (Device.posture_fly _ _ _).trans (readB.trans readA)

@[simp] theorem Device.posture_phaseVw (d : Device) (c unit : Nat) : (d.phaseVw c unit).posture = d.posture :=
  foldl_keeps Device.posture _ (fun d (f : Flight) => d.posture_unitWrite c f.slot (unit - 1) f.addr _) _ _

@[simp] theorem Device.posture_replayTake (d : Device) (t kind c : Nat) : (d.replayTake t kind c).2.posture = d.posture := by
  unfold Device.replayTake
  dsimp only
  split
  · rfl
  · split
    · exact (Device.posture_countHub _ _ _).trans (Device.posture_onTask _ _ _)
    · rfl

@[simp] theorem Device.posture_replayMiss (d : Device) (t kind source : Nat) (core : Option Nat) :
    (d.replayMiss t kind source core).posture = d.posture := by
  unfold Device.replayMiss
  dsimp only
  split
  · exact d.posture_countHub _ _
  · rw [Device.posture_log]
    exact (Device.posture_onTask _ _ _).trans (d.posture_countHub _ _)

@[simp] theorem Device.posture_varying (d : Device) (c t kind n live : Nat) : (d.varying c t kind n live).2.posture = d.posture := by
  have marked := Device.posture_onTask d t (fun k => { k with flagWord := Nat.lor k.flagWord 1 })
  unfold Device.varying
  generalize d.onTask t _ = m at marked
  have from_ : (m.variedFrom c t kind (d.core c).lastSc live).2.posture = m.posture := by
    unfold Device.variedFrom
    split
    · have taken := m.posture_replayTake t kind c
      split
      · next h => rwa [h] at taken
      · next h =>
        rw [h] at taken
        exact (Device.posture_replayMiss _ _ _ _ _).trans taken
    · split <;> rfl
  have sent (e : Device) (detail v : Nat) : (let l := e.logEvent t kind (some c) detail []
      if l.twin.role = 4 then l.twinSend 6 l.gate.e (d.core c).lastSc c (t + kind * 8) (leBytes 4 v) else l).posture = e.posture :=
    both_branches Device.posture (e.posture_logEvent _ _ _ _ _) (e.posture_logEvent _ _ _ _ _)
  exact (sent _ _ _).trans (from_.trans marked)

@[simp] theorem Device.posture_qkLane (d : Device) (c t reg ln v : Nat) : (d.qkLane c t reg ln v).posture = d.posture := by
  unfold Device.qkLane
  exact (Device.posture_fly _ _ _).trans (Device.posture_onCore _ _ _)

@[simp] theorem Device.posture_qkReceive (d : Device) (c t : Nat) (f : QF) (i : Issue) : (d.qkReceive c t f i).posture = d.posture := by
  unfold Device.qkReceive
  dsimp only
  have noted : (if (d.core c).recvVaries t f then (d.countCore c 27 1).onTask t (fun x => { x with flagWord := Nat.lor x.flagWord 1 })
      else d.countCore c 27 1).posture = d.posture :=
    both_branches Device.posture ((Device.posture_onTask _ _ _).trans (d.posture_countCore _ _ _)) (d.posture_countCore _ _ _)
  generalize (if (d.core c).recvVaries t f then _ else d.countCore c 27 1) = e at noted
  refine Eq.trans ?_ noted
  split
  · rfl
  · next r _ =>
    have read := e.posture_unitRead c t 5 (qRing ((d.core c).qEntry t r)
      + 32 * ((d.core c).qState (qBase ((d.core c).bound t) + r)).head) 32
    split
    · next h => rwa [h] at read
    · next bs m h =>
      rw [h] at read
      refine Eq.trans ?_ read
      refine both_branches Device.posture (m.posture_poisonFault _ _ _) ?_
      refine (Device.posture_receive _ _ _ _ _ _ _ _).trans ?_
      have rotated : (if f.op = 0x12 && f.rot then m.onCore c (fun k => { k with rot := BitVec.ofNat 8 (128 + r) }) else m).posture
          = m.posture := both_branches Device.posture (Device.posture_onCore _ _ _) rfl
      exact both_branches Device.posture ((Device.posture_qkLane _ _ _ _ _ _).trans rotated) rotated

@[simp] theorem Device.posture_phaseQk (d : Device) (c : Nat) : (d.phaseQk c).posture = d.posture := by
  unfold Device.phaseQk
  dsimp only
  split
  · rfl
  · next i _ =>
    split
    · exact d.posture_addKey _ _ _ _
    · exact d.posture_subKey _ _ _
    · exact both_branches Device.posture (d.posture_coreFault _ _ _ _ _ _) (d.posture_subKey _ _ _)
    · exact d.posture_qkLane _ _ _ _ _
    · have read := (d.countCore c 26 1).posture_unitRead c i.slot 5 ((qf (slotOf i.word 6)).addr * 32) 64
      split
      · next h =>
        rw [h] at read
        exact read.trans (d.posture_countCore _ _ _)
      · next h =>
        rw [h] at read
        exact (Device.posture_send _ _ _ _).trans (read.trans (d.posture_countCore _ _ _))
    · exact d.posture_qkReceive _ _ _ _
    · exact d.posture_qkReceive _ _ _ _
    · rw [Device.posture_qkLane, Device.posture_varying]
      rfl
    · rw [Device.posture_qkLane, Device.posture_varying]
    · rw [Device.posture_qkLane, Device.posture_varying]
    · rfl

@[simp] theorem Device.posture_phaseLand (d : Device) (c : Nat) : (d.phaseLand c).posture = d.posture := by
  unfold Device.phaseLand
  dsimp only
  refine (Device.posture_onCore _ _ _ fun k => ?_).trans ?_
  · exact (congrArg Core.posture (k.unlanded_landAccs _) :)
  · have result (a : Device × List (Nat × Nat × Nat)) (f : Flight) : (Device.landResult c a f).1.posture = a.1.posture := by
      rw [Device.landResult, Device.posture_raise, Device.posture_countCore]
      exact Device.posture_onCore _ _ _ fun k => (congrArg Core.posture (k.unlaned_putLanes _) :)
    refine (foldl_keeps (fun a : Device × List (Nat × Nat × Nat) => a.1.posture) (Device.landResult c) result _ _).trans ?_
    split
    · rw [Device.posture_onIssue, foldl_keeps Device.posture _ (fun d (x : Nat × Nat) => d.posture_raise c x.1 x.2)]
      exact both_branches Device.posture rfl (d.posture_clearFlags _ _ _)
    · rfl

@[simp] theorem Device.posture_phasePass (d : Device) (c : Nat) : (d.phasePass c).posture = d.posture := by
  have land (d : Device) (l : Landing) : (d.land c l).posture = d.posture := by
    unfold Device.land
    refine both_branches Device.posture ?_ ?_
    · exact (Device.posture_coreFault _ _ _ _ _ _ _).trans (Device.posture_onCore _ _ _)
    · exact (Device.posture_raise _ _ _ _).trans (Device.posture_onCore _ _ _)
  exact foldl_keeps Device.posture _ land _ _

theorem Core.posture_ptrs (k : Core) (p : Sparse (BitVec 96)) : ({ k with ptrs := p } : Core).posture = k.posture := rfl

theorem Core.posture_stepPtrs (k : Core) (i : Issue) : (k.stepPtrs i).posture = k.posture := by
  unfold Core.stepPtrs
  exact foldl_keeps Core.posture _ (fun k p => k.posture_ptrs _) _ _

theorem Core.posture_turned (k : Core) (i : Issue) (b : List BellTile) :
    ({ k.stepPtrs i with bell := b } : Core).posture = k.posture := k.posture_stepPtrs i

@[simp] theorem Device.posture_phaseClose (d : Device) (c : Nat) : (d.phaseClose c).posture = d.posture := by
  unfold Device.phaseClose
  extract_lets k
  split
  · rfl
  · next i _ =>
    extract_lets stepped shown turned judged b
    have start : stepped.posture = d.posture := Device.posture_onCore _ _ _ fun k => k.posture_turned i _
    have turn : turned.posture = d.posture := (Device.posture_turnKeys _ _ _).trans ((stepped.posture_showAll c).trans start)
    clear_value turned
    have judge : judged.posture = d.posture := by
      unfold judged
      split
      · exact (turned.posture_fault _ _ _ _ _ _ _ _).trans turn
      · exact turn
    clear_value judged
    refine both_branches Device.posture ?_ judge
    split
    · exact (judged.posture_coreFault _ _ _ _ _ _).trans judge
    · exact judge

@[simp] theorem Device.posture_phase (d : Device) (c p : Nat) : (d.phase c p).posture = d.posture := by
  have run (d : Device) : (d.runPhase c p).posture = d.posture := by
    unfold Device.runPhase
    split <;> simp
  unfold Device.phase
  exact both_branches Device.posture ((run _).trans (d.posture_onIssue _ _)) rfl

/-- The end of an sc moves no core and no task. -/
@[simp] theorem Device.posture_closeSc (d : Device) (c : Nat) : (d.closeSc c).posture = d.posture := by
  have phases : (d.phasesTo c 11).posture = d.posture := foldl_keeps Device.posture _ (fun d i => d.posture_phase c (i + 1)) _ _
  unfold Device.closeSc
  exact both_branches Device.posture ((Device.posture_onCore _ _ _).trans phases) rfl

end Sys2Proof.Machine

/-! PROOFS about the events of tasks (R162, R411 to R418, R541): yield points, overdue yields and bundles, and faults. -/

namespace Sys2Proof.Machine

set_option Elab.async false

open Sys2Proof

/-! ### A task leaves its cores -/

/-- Where a core stands, apart from the slot that it runs. -/
def Posture.away (p : Posture) : Posture := { p with running := none }

/-- What the events of a task leave of the device: every task but for its notes, and where every core stands. -/
def Device.stands (d e : Device) : Prop :=
  (∀ u, (e.task u).ruling = (d.task u).ruling) ∧ ∀ x, (e.core x).posture.away = (d.core x).posture.away

theorem Device.stands_of_posture {d e : Device} (h : e.posture = d.posture) : d.stands e :=
  ⟨Device.ruling_of_posture h, fun x => congrArg Posture.away (Device.core_of_posture h x)⟩

theorem Device.stands_trans {d e f : Device} (h : d.stands e) (g : e.stands f) : d.stands f :=
  ⟨fun u => (g.1 u).trans (h.1 u), fun x => (g.2 x).trans (h.2 x)⟩

theorem Device.core_restRegion (d : Device) (c x : Nat) : (d.restRegion c).core x = d.core x := rfl

/-- A core that its task has left. -/
def Core.left (k : Core) : Core := { k with
  running := none, issue := none, stopped := false, fill := none, yielded := false, wait := none }

/-- Task t leaves core c; the sc that it still has open ends. -/
def Device.leaveCore (t : Nat) (d : Device) (c : Nat) : Device :=
  if (d.core c).running == some t then ((d.closeSc c).onCore c Core.left).restRegion c else d

theorem Device.leaveCore_left (t : Nat) (d : Device) (c : Nat) : d.stands (d.leaveCore t c)
    ∧ ((d.leaveCore t c).core c).running ≠ some t
    ∧ ∀ x, (d.core x).running ≠ some t → ((d.leaveCore t c).core x).running ≠ some t := by
  unfold Device.leaveCore
  split
  · have closed := d.posture_closeSc c
    generalize d.closeSc c = e at closed
    have own : ((e.onCore c Core.left).restRegion c).core c = (e.core c).left := by
      rw [Device.core_restRegion, Device.core_onCore_same]
    have other (x : Nat) (hx : x ≠ c) : ((e.onCore c Core.left).restRegion c).core x = e.core x := by
      rw [Device.core_restRegion, Device.core_onCore_other _ _ _ _ hx]
    refine ⟨Device.stands_trans (Device.stands_of_posture closed) ⟨fun _ => rfl, fun x => ?_⟩, ?_, fun x away => ?_⟩
    · by_cases here : x = c
      · rw [here, own]; rfl
      · rw [other x here]
    · rw [own]; exact nofun
    · by_cases here : x = c
      · rw [here, own]; exact nofun
      · have same : (e.core x).running = (d.core x).running := (congrArg Posture.running (Device.core_of_posture closed x) :)
        rw [other x here, same]
        exact away
  · next away =>
    exact ⟨Device.stands_of_posture rfl, by simpa using away, fun x h => h⟩

theorem Device.leaveCores_left (d : Device) (t : Nat) : d.stands (d.leaveCores t)
    ∧ ∀ c ∈ (d.task t).cores, ((d.leaveCores t).core c).running ≠ some t :=
  foldl_establishes (I := fun e => d.stands e) (P := fun c e => (e.core c).running ≠ some t) (g := Device.leaveCore t)
    (fun e c _ h => Device.stands_trans h (e.leaveCore_left t c).1) (fun e c _ _ => (e.leaveCore_left t c).2.1)
    (fun e c _ x _ h => (e.leaveCore_left t c).2.2 x h) (Device.stands_of_posture rfl)

/-- A task whose cores have no sc open leaves them with nothing else of it. -/
theorem Device.leaveCores_idle (d : Device) (t : Nat) (idle : ∀ c ∈ (d.task t).cores, (d.core c).issue = none) :
    (d.leaveCores t).tasks = d.tasks ∧ ∀ x, ((d.leaveCores t).core x).copies = (d.core x).copies := by
  refine (foldl_establishes (P := fun _ _ => True) (g := Device.leaveCore t)
    (I := fun e => (∀ c ∈ (d.task t).cores, (e.core c).issue = none) ∧ e.tasks = d.tasks ∧ ∀ x, (e.core x).copies = (d.core x).copies)
    (fun e c member ⟨idle, tasks, copies⟩ => ?_) (fun _ _ _ _ => trivial) (fun _ _ _ _ _ _ => trivial)
    ⟨idle, rfl, fun _ => rfl⟩).1.2
  unfold Device.leaveCore
  rw [Device.closeSc_of_none (idle c member)]
  split
  · refine ⟨fun x hx => ?_, tasks, fun x => ?_⟩
    · by_cases here : x = c
      · rw [here, Device.core_restRegion, Device.core_onCore_same]; rfl
      · rw [Device.core_restRegion, Device.core_onCore_other _ _ _ _ here]
        exact idle x hx
    · by_cases here : x = c
      · rw [here, Device.core_restRegion, Device.core_onCore_same]
        exact copies c
      · rw [Device.core_restRegion, Device.core_onCore_other _ _ _ _ here]
        exact copies x
  · exact ⟨idle, tasks, copies⟩

/-! ### The slot becomes UNBOUND -/

@[simp] theorem Device.tasks_retireDue (d : Device) (cores : List Nat) : (d.retireDue cores).tasks = d.tasks := by
  have page (d : Device) (c g : Nat) : (d.retirePage c g).tasks = d.tasks := by
    unfold Device.retirePage
    split
    · rfl
    · rw [Device.tasks_event, Device.countCore, if_neg Nat.one_ne_zero]; rfl
  have block (d : Device) (b : Nat) : (d.retireBlock b).tasks = d.tasks := by
    unfold Device.retireBlock
    dsimp only
    split
    · rfl
    · rw [Device.tasks_event, Device.tasks_countStack, Device.tasks_onStack]
  unfold Device.retireDue
  dsimp only
  rw [foldl_keeps Device.tasks, foldl_keeps Device.tasks]
  · exact fun d c => foldl_keeps Device.tasks _ (fun d (e : Nat × Nat) => both_branches Device.tasks rfl (page d c e.1)) _ _
  · exact fun d k => foldl_keeps Device.tasks _ (fun d (e : Nat × Nat) => both_branches Device.tasks rfl (block d _)) _ _

theorem Device.task_unbind (d : Device) (t : Nat) : (d.unbind t).task t = Task.reset := by
  unfold Device.unbind
  dsimp only
  rw [Device.task_of_tasks (Device.tasks_retireDue _ _), Device.task_of_tasks (Device.tasks_freeRing _)]
  exact Sparse.get_set_same Task.reset _ t Task.reset

/-- A stop that has nothing to wait for unbinds the slot. -/
theorem Device.task_tryStop {d : Device} {t : Nat} (registered : (d.task t).stopReg = true) (yielded : (d.task t).state = 3)
    (free : d.inFlight t = false) (alive : (d.task t).stopping = false) : (d.tryStop t).task t = Task.reset := by
  unfold Device.tryStop
  rw [if_pos (by simp [registered, yielded, free, alive])]
  exact d.task_unbind t

/-! ### YIELD_POINT -/

/-- The task at its yield point: it is noted, and its cores go on without it (R411, R432). -/
def Device.yieldNoted (d : Device) (t : Nat) : Device :=
  (d.task t).cores.foldl (fun d c => d.onCore c (fun x => { x with yielded := false, mx := { x.mx with lastKey := none } }))
    ((d.logEvent t 0x02 none d.gate.e []).onTask t (fun k => { k with
      lastYield := d.gate.e, captureS := d.gate.e, consumed := none, consumeCount := 0 }))

section
variable {d : Device} {t : Nat}

theorem Device.yieldNoted_frame (d : Device) (t : Nat) :
    (((d.yieldNoted t).task t).noNotes = { (d.task t).noNotes with lastYield := d.gate.e, captureS := d.gate.e }
      ∧ ((d.yieldNoted t).task t).consumed = none)
    ∧ (∀ x, ((d.yieldNoted t).core x).posture = (d.core x).posture ∧ ((d.yieldNoted t).core x).issue = (d.core x).issue
      ∧ ((d.yieldNoted t).core x).copies = (d.core x).copies)
    ∧ ∀ c ∈ (d.task t).cores, ((d.yieldNoted t).core c).yielded = false := by
  obtain ⟨cores, -, tasks⟩ := d.logEvent_frame t 0x02 none d.gate.e []
  unfold Device.yieldNoted
  generalize d.logEvent t 0x02 none d.gate.e [] = l at cores tasks
  generalize hm : l.onTask t _ = m
  have own : m.task t = { l.task t with lastYield := d.gate.e, captureS := d.gate.e, consumed := none, consumeCount := 0 } := by
    rw [← hm, Device.task_onTask_same]
  have before (x : Nat) : m.core x = d.core x := by
    rw [← hm]
    exact congrArg (fun r => Sparse.get Core.reset r x) cores
  have step (e : Device) (c x : Nat) : let f := e.onCore c (fun x => { x with yielded := false, mx := { x.mx with lastKey := none } })
      (f.core x).posture = (e.core x).posture ∧ (f.core x).issue = (e.core x).issue ∧ (f.core x).copies = (e.core x).copies
      ∧ ((e.core x).yielded = false ∨ x = c → (f.core x).yielded = false) := by
    dsimp only
    by_cases here : x = c
    · rw [here, Device.core_onCore_same]
      exact ⟨rfl, rfl, rfl, fun _ => rfl⟩
    · rw [Device.core_onCore_other _ _ _ _ here]
      exact ⟨rfl, rfl, rfl, fun h => h.resolve_right here⟩
  have all := foldl_establishes (I := fun e : Device => e.tasks = m.tasks ∧ ∀ x, (e.core x).posture = (d.core x).posture
      ∧ (e.core x).issue = (d.core x).issue ∧ (e.core x).copies = (d.core x).copies)
    (P := fun c e => (e.core c).yielded = false) (l := (d.task t).cores) (d := m)
    (g := fun d c => d.onCore c (fun x => { x with yielded := false, mx := { x.mx with lastKey := none } }))
    (fun e c _ ⟨tasks, kept⟩ => ⟨tasks, fun x => ?_⟩) (fun e c _ _ => (step e c c).2.2.2 (.inr rfl))
    (fun e c _ x _ h => (step e c x).2.2.2 (.inl h)) ⟨rfl, fun x => by rw [before]; exact ⟨rfl, rfl, rfl⟩⟩
  · obtain ⟨⟨same, kept⟩, yielded⟩ := all
    refine ⟨?_, kept, yielded⟩
    rw [Device.task_of_tasks same, own]
    exact ⟨(congrArg (fun k : Task => { k with lastYield := d.gate.e, captureS := d.gate.e }) (tasks t) :), rfl⟩
  · obtain ⟨posture, issue, copies, -⟩ := step e c x
    obtain ⟨posture', issue', copies'⟩ := kept x
    exact ⟨posture.trans posture', issue.trans issue', copies.trans copies'⟩

theorem Device.twin_yieldNoted (d : Device) (t : Nat) : (d.yieldNoted t).twin = d.twin := by
  have logged : (d.logEvent t 0x02 none d.gate.e []).twin = d.twin := by
    unfold Device.logEvent Device.logRecord
    exact both_branches Device.twin (both_branches Device.twin rfl rfl) rfl
  unfold Device.yieldNoted
  refine (foldl_keeps Device.twin _ (fun _ _ => ?_) _ _).trans logged
  rfl

/-- The yield point of a task all of whose cores yield, outside a pair: it stops, yields or goes on. -/
theorem Device.yieldPoint_all (due : d.yieldDue t = true) (all : ∀ c, c < 144 → c ∈ (d.task t).cores → (d.core c).yielded = true)
    (alone : d.inPair = false) : d.yieldPoint t =
      if (d.task t).stopReg then
        ((((d.yieldNoted t).changing (d.task t).stopMb t).settle (d.task t).yieldMb 2).onTask t (fun k => { k with
          yieldMb := none, state := 3 })).leaveCores t |>.tryStop t
      else if (d.task t).yieldsAt d.gate.e then (d.yieldNoted t).yieldTask t
      else (d.yieldNoted t).onTask t (fun x => { x with
        lastCompare := if x.lastCompare + 4096 ≤ d.gate.e then d.gate.e else x.lastCompare }) := by
  have notFound : (List.range 144).find? (fun c => (d.task t).cores.contains c && !(d.core c).yielded) = none := by
    rw [List.find?_eq_none]
    intro c hc
    have yields := all c (List.mem_range.1 hc)
    simp only [Bool.and_eq_true, List.contains_eq_mem, decide_eq_true_eq, Bool.not_eq_true', not_and, Bool.not_eq_false]
    exact yields
  have single : (d.yieldNoted t).inPair = false := (congrArg (fun w : Twin => w.role == 4 || w.role == 5) (d.twin_yieldNoted t)).trans alone
  have body : d.yieldPoint t = (
      let m := if (d.yieldNoted t).inPair && ((d.task t).yieldsAt d.gate.e || decide ((d.task t).lastCompare + 4096 ≤ d.gate.e))
        then (d.yieldNoted t).comparePoint t d.gate.e else d.yieldNoted t
      if (d.task t).stopReg then
        (((m.changing (d.task t).stopMb t).settle (d.task t).yieldMb 2).onTask t (fun k => { k with
          yieldMb := none, state := 3 })).leaveCores t |>.tryStop t
      else if (d.task t).yieldsAt d.gate.e then m.yieldTask t
      else m.onTask t (fun x => { x with
        lastCompare := if x.lastCompare + 4096 ≤ d.gate.e then d.gate.e else x.lastCompare })) := by
    unfold Device.yieldPoint
    rw [if_pos due]
    dsimp only
    rw [notFound]
    rfl
  rw [body, single]
  rfl

end

/-- A task that yields: each core keeps the index behind its `ct.yield`, and runs the slot no more (R414, R418). -/
theorem Device.yieldTask_frame (d : Device) (t : Nat) :
    ((d.yieldTask t).task t).ruling = ({ d.task t with
      state := 3, runBeats := (d.task t).runBeats + 1, yieldS := none, yieldMb := none, replay := none, spillDue := true } : Task).ruling
    ∧ ∀ c ∈ (d.task t).cores, ((d.yieldTask t).core c).running ≠ some t ∧ Sparse.get 0 ((d.yieldTask t).core c).resume t = (d.core c).pc := by
  unfold Device.yieldTask
  extract_lets changed kept settled ended
  have same : changed.task t = d.task t := Device.task_of_tasks (d.tasks_changing _ _) t
  have before (c : Nat) : changed.core c = d.core c := congrArg (fun r => Sparse.get Core.reset r c) (d.cores_changing _ _)
  have keeps : kept.tasks = changed.tasks ∧ ∀ c ∈ (d.task t).cores, Sparse.get 0 (kept.core c).resume t = (d.core c).pc := by
    have all := foldl_establishes (I := fun e : Device => e.tasks = changed.tasks ∧ ∀ c, (e.core c).pc = (d.core c).pc)
      (P := fun c e => Sparse.get 0 (e.core c).resume t = (d.core c).pc) (l := (changed.task t).cores) (d := changed)
      (g := fun d c => d.onCore c (fun k => { k with resume := Sparse.set 0 k.resume t k.pc }))
      (fun e c _ ⟨tasks, pc⟩ => ⟨tasks, fun x => ?_⟩) (fun e c _ ⟨_, pc⟩ => ?_) (fun e c _ x ⟨_, pc⟩ h => ?_)
      ⟨rfl, fun c => by rw [before]⟩
    · exact ⟨all.1.1, fun c hc => all.2 c (same.symm ▸ hc)⟩
    · by_cases here : x = c
      · rw [here, Device.core_onCore_same]; exact pc c
      · rw [Device.core_onCore_other _ _ _ _ here]; exact pc x
    · rw [Device.core_onCore_same, ← pc c]
      exact Sparse.get_set_same _ _ _ _
    · by_cases here : x = c
      · rw [here, Device.core_onCore_same, ← pc c]
        exact Sparse.get_set_same _ _ _ _
      · rw [Device.core_onCore_other _ _ _ _ here]; exact h
  have settledTask : settled.task t = d.task t :=
    (Device.task_of_tasks (kept.tasks_settle _ _) t).trans ((Device.task_of_tasks keeps.1 t).trans same)
  have settledCore (c : Nat) : settled.core c = kept.core c := (congrArg (fun d : Device => d.core c) (kept.settle_frame _ _) :)
  have endedTask : ended.task t = { d.task t with
      state := 3, runBeats := (d.task t).runBeats + 1, yieldS := none, yieldMb := none, replay := none, spillDue := true } := by
    rw [← settledTask]
    exact Device.task_onTask_same _ _ _
  obtain ⟨stands, left⟩ := ended.leaveCores_left t
  refine ⟨(stands.1 t).trans (congrArg Task.ruling endedTask), fun c hc => ⟨left c (by rw [endedTask]; exact hc), ?_⟩⟩
  have resume : ((ended.leaveCores t).core c).resume = (settled.core c).resume := (congrArg Posture.resume (stands.2 c) :)
  rw [resume, settledCore]
  exact keeps.2 c hc

/-- A task with a stop registered, at its yield point (R415). -/
def Device.yieldStopped (d : Device) (t : Nat) : Device :=
  (((d.yieldNoted t).changing (d.task t).stopMb t).settle (d.task t).yieldMb 2).onTask t (fun k => { k with yieldMb := none, state := 3 })

/-- The same once it has left its cores. -/
def Device.yieldLeft (d : Device) (t : Nat) : Device := (d.yieldStopped t).leaveCores t

theorem Device.yieldStopped_frame (d : Device) (t : Nat) :
    ((d.yieldStopped t).task t).noNotes = { (d.task t).noNotes with
      lastYield := d.gate.e, captureS := d.gate.e, yieldMb := none, state := 3 }
    ∧ ∀ x, ((d.yieldStopped t).core x).issue = (d.core x).issue ∧ ((d.yieldStopped t).core x).copies = (d.core x).copies := by
  obtain ⟨⟨task, -⟩, cores, -⟩ := d.yieldNoted_frame t
  unfold Device.yieldStopped
  generalize d.yieldNoted t = n at task cores
  have settled : ((n.changing (d.task t).stopMb t).settle (d.task t).yieldMb 2).task t = n.task t :=
    (Device.task_of_tasks (Device.tasks_settle _ _ _) t).trans (Device.task_of_tasks (n.tasks_changing _ _) t)
  have core (x : Nat) : ((n.changing (d.task t).stopMb t).settle (d.task t).yieldMb 2).core x = n.core x :=
    (congrArg (fun d : Device => d.core x) (Device.settle_frame _ _ _) :).trans
      (congrArg (fun r => Sparse.get Core.reset r x) (n.cores_changing _ _) :)
  generalize (n.changing (d.task t).stopMb t).settle (d.task t).yieldMb 2 = m at settled core
  refine ⟨?_, fun x => ?_⟩
  · rw [Device.task_onTask_same, settled]
    exact (congrArg (fun k : Task => { k with yieldMb := none, state := 3 }) task :)
  · rw [Device.core_onTask, core]
    exact (cores x).2

theorem Device.yieldLeft_frame (d : Device) (t : Nat) : ((d.yieldLeft t).task t).ruling = ({ d.task t with
    lastYield := d.gate.e, captureS := d.gate.e, yieldMb := none, state := 3 } : Task).ruling :=
  ((d.yieldStopped t).leaveCores_left t).1.1 t |>.trans (congrArg Task.ruling (d.yieldStopped_frame t).1 :)

/-- With no sc open and no copy of it in flight, nothing holds the task up. -/
theorem Device.yieldLeft_free {d : Device} {t : Nat} (alive : (d.task t).stopping = false)
    (idle : ∀ c ∈ (d.task t).cores, (d.core c).issue = none ∧ ∀ x ∈ (d.core c).copies, x.slot ≠ t) :
    (d.yieldLeft t).inFlight t = false ∧ ((d.yieldLeft t).task t).stopping = false := by
  obtain ⟨task, cores⟩ := d.yieldStopped_frame t
  have members : ((d.yieldStopped t).task t).cores = (d.task t).cores := (congrArg Task.cores task :)
  obtain ⟨tasks, copies⟩ := (d.yieldStopped t).leaveCores_idle t fun c hc => (cores c).1.trans (idle c (members ▸ hc)).1
  obtain ⟨-, left⟩ := (d.yieldStopped t).leaveCores_left t
  have same := Device.task_of_tasks tasks t
  rw [← Device.yieldLeft] at same copies left
  refine ⟨?_, by rw [same]; exact (congrArg Task.stopping task :).trans alive⟩
  unfold Device.inFlight
  rw [same, List.any_eq_false]
  intro c hc
  have none : ((d.yieldLeft t).core c).copies.any (fun x => x.slot == t) = false := by
    rw [copies c, (cores c).2, List.any_eq_false]
    intro x hx
    simpa using (idle c (members ▸ hc)).2 x hx
  simp only [none, Bool.false_or, Bool.and_eq_true, beq_iff_eq, not_and]
  exact fun running => absurd running (left c hc)

section
variable {s : State} {t : Nat} (ht : t < 8)
include ht

theorem yieldPoint_idle (idle : s.dev.yieldDue t = false) : Becomes (.yieldPoint t) s s.dev :=
  .onUnit (show _ = execYieldPoint t s from rfl) (decide_eq_true ht) (if_neg (by simp [idle]))

/-- The row of a yield point; the cores of a task that runs on go on behind their `ct.yield` (R411). -/
theorem Completes.yieldPoint {P : Device → Prop} (due : s.dev.yieldDue t = true)
    (hP : P ((if ((s.dev.yieldPoint t).task t).state == 2 && !((s.dev.yieldPoint t).task t).stopping then
        ((s.dev.yieldPoint t).task t).cores.foldl (fun e c => e.onCore c (fun k => k.goOn k.pc)) (s.dev.yieldPoint t)
      else s.dev.yieldPoint t).withBeat s.dev.beat)) : Completes (.yieldPoint t) s P := by
  refine .unitRow (show _ = execYieldPoint t s from rfl) (decide_eq_true ht) ?_
  dsimp only
  rw [if_pos due]
  exact hP

omit ht in
theorem Device.alive_of_yieldDue {d : Device} {t : Nat} (due : d.yieldDue t = true) : (d.task t).state = 2 ∧ (d.task t).stopping = false := by
  unfold Device.yieldDue at due
  simp only [Bool.and_eq_true, beq_iff_eq, Bool.not_eq_true'] at due
  exact ⟨due.1.1.1, due.1.1.2⟩

/-- A core of the task that issued no `ct.yield` in this beat faults the task (R411). -/
theorem yieldPoint_unequal {c : Nat} (due : s.dev.yieldDue t = true) (hc : c < 144) (member : c ∈ (s.dev.task t).cores)
    (missing : (s.dev.core c).yielded = false) (lowest : ∀ x, x < c → x ∈ (s.dev.task t).cores → (s.dev.core x).yielded = true) :
    Completes (.yieldPoint t) s (fun e => e.lastRecord = some (0x0102, 2, 1, c) ∧ (e.task t).stopping = true ∧ (e.task t).state = 2) := by
  obtain ⟨running, alive⟩ := Device.alive_of_yieldDue due
  have found : (List.range 144).find? (fun c => (s.dev.task t).cores.contains c && !(s.dev.core c).yielded) = some c := by
    rw [List.find?_range_eq_some]
    refine ⟨by simp [member, missing], List.mem_range.2 hc, fun x hx => ?_⟩
    by_cases part : x ∈ (s.dev.task t).cores
    · simp [lowest x hx part]
    · simp [part]
  have act : s.dev.yieldPoint t = s.dev.fault t 0x0102 2 1 c 0 0 0 := by
    unfold Device.yieldPoint
    rw [if_pos due]
    dsimp only
    rw [found]
  refine .yieldPoint ht due ?_
  have record := s.dev.lastRecord_fault t 0x0102 2 1 c 0 0 0
  have task := (s.dev.task_fault t 0x0102 2 1 c 0 0 0).1
  rw [act]
  generalize s.dev.fault t 0x0102 2 1 c 0 0 0 = e at record task
  rw [if_neg (by simp [running])] at task
  have stops : (e.task t).stopping = true := by rw [task]
  rw [if_neg (by simp [stops])]
  exact ⟨record, stops, (by rw [task]; exact running : (e.task t).state = 2)⟩

section
variable (due : s.dev.yieldDue t = true) (all : ∀ c, c < 144 → c ∈ (s.dev.task t).cores → (s.dev.core c).yielded = true)
  (alone : s.dev.inPair = false)
include due all alone

theorem yieldPoint_goesOn (stop : (s.dev.task t).stopReg = false) (yield : (s.dev.task t).yieldsAt s.dev.gate.e = false) :
    Completes (.yieldPoint t) s (fun e => (e.task t).state = 2 ∧ (e.task t).stopping = false ∧ (e.task t).lastYield = s.dev.gate.e
      ∧ (e.task t).consumed = none
      ∧ ∀ c ∈ (s.dev.task t).cores, (e.core c).yielded = false ∧ (e.core c).running = (s.dev.core c).running) := by
  obtain ⟨running, alive⟩ := Device.alive_of_yieldDue due
  obtain ⟨⟨task, consumed⟩, cores, yielded⟩ := s.dev.yieldNoted_frame t
  refine .yieldPoint ht due ?_
  have act := Device.yieldPoint_all due all alone
  rw [stop, if_neg Bool.false_ne_true, yield, if_neg Bool.false_ne_true] at act
  have own : (s.dev.yieldPoint t).task t = { (s.dev.yieldNoted t).task t with
      lastCompare := if ((s.dev.yieldNoted t).task t).lastCompare + 4096 ≤ s.dev.gate.e then s.dev.gate.e
        else ((s.dev.yieldNoted t).task t).lastCompare } := by
    rw [act, Device.task_onTask_same]
  have core (c : Nat) : (s.dev.yieldPoint t).core c = (s.dev.yieldNoted t).core c := by rw [act]; rfl
  generalize s.dev.yieldPoint t = e at own core
  have state : (e.task t).state = 2 := by rw [own]; exact (congrArg Task.state task :).trans running
  have stopping : (e.task t).stopping = false := by rw [own]; exact (congrArg Task.stopping task :).trans alive
  have onward (l : List Nat) : (l.foldl (fun e c => e.onCore c (fun k => k.goOn k.pc)) e).tasks = e.tasks
      ∧ ∀ c, ((l.foldl (fun e c => e.onCore c (fun k => k.goOn k.pc)) e).core c).yielded = (e.core c).yielded
        ∧ ((l.foldl (fun e c => e.onCore c (fun k => k.goOn k.pc)) e).core c).running = (e.core c).running := by
    refine ⟨foldl_keeps Device.tasks _ (fun d x => ?_) _ _, fun c => ⟨?_, ?_⟩⟩
    · rfl
    · refine foldl_keeps (fun d : Device => (d.core c).yielded) _ (fun d x => ?_) _ _
      by_cases here : c = x
      · rw [here, Device.core_onCore_same]; rfl
      · rw [Device.core_onCore_other _ _ _ _ here]
    · refine foldl_keeps (fun d : Device => (d.core c).running) _ (fun d x => ?_) _ _
      by_cases here : c = x
      · rw [here, Device.core_onCore_same]; rfl
      · rw [Device.core_onCore_other _ _ _ _ here]
  rw [if_pos (by simp [state, stopping])]
  obtain ⟨tasks, onward⟩ := onward (e.task t).cores
  generalize List.foldl _ e _ = f at tasks onward ⊢
  have same : (f.withBeat s.dev.beat).task t = e.task t := Device.task_of_tasks tasks t
  rw [same]
  refine ⟨state, stopping, ?_, ?_, fun c hc => ⟨?_, ?_⟩⟩
  · rw [own]; exact (congrArg Task.lastYield task :)
  · rw [own]; exact consumed
  · rw [Device.core_withBeat, (onward c).1, core]
    exact yielded c hc
  · rw [Device.core_withBeat, (onward c).2, core]
    exact (congrArg Posture.running (cores c).1 :)

theorem yieldPoint_yields (stop : (s.dev.task t).stopReg = false) (yield : (s.dev.task t).yieldsAt s.dev.gate.e = true) :
    Completes (.yieldPoint t) s (fun e => (e.task t).state = 3 ∧ (e.task t).yieldS = none
      ∧ (e.task t).runBeats = (s.dev.task t).runBeats + 1 ∧ (e.task t).lastYield = s.dev.gate.e
      ∧ ∀ c ∈ (s.dev.task t).cores, (e.core c).running ≠ some t ∧ Sparse.get 0 (e.core c).resume t = (s.dev.core c).pc) := by
  obtain ⟨⟨task, -⟩, cores, -⟩ := s.dev.yieldNoted_frame t
  refine .yieldPoint ht due ?_
  have act := Device.yieldPoint_all due all alone
  rw [stop, if_neg Bool.false_ne_true, yield, if_pos rfl] at act
  obtain ⟨own, left⟩ := (s.dev.yieldNoted t).yieldTask_frame t
  rw [← act] at own left
  generalize s.dev.yieldPoint t = e at own left ⊢
  have state : (e.task t).state = 3 := (congrArg Task.state own :)
  rw [if_neg (by simp [state])]
  have members : ((s.dev.yieldNoted t).task t).cores = (s.dev.task t).cores := (congrArg Task.cores task :)
  have beats : ((s.dev.yieldNoted t).task t).runBeats = (s.dev.task t).runBeats := (congrArg Task.runBeats task :)
  refine ⟨state, (congrArg Task.yieldS own :), ?_, (congrArg Task.lastYield own :).trans (congrArg Task.lastYield task :), fun c hc => ?_⟩
  · rw [← beats]
    exact (congrArg Task.runBeats own :)
  · obtain ⟨away, kept⟩ := left c (members ▸ hc)
    exact ⟨away, kept.trans (congrArg Posture.pc (cores c).1 :)⟩

/-- A stop at a yield point: the slot is UNBOUND unless something of the task is in flight or stops it first (R415). -/
theorem yieldPoint_stops (stop : (s.dev.task t).stopReg = true) : Completes (.yieldPoint t) s (fun e =>
    e.inFlight t = false → (e.task t).stopping = false → e.task t = Task.reset) := by
  refine .yieldPoint ht due ?_
  have act := Device.yieldPoint_all due all alone
  rw [stop, if_pos rfl] at act
  have left := s.dev.yieldLeft_frame t
  have registered : ((s.dev.yieldLeft t).task t).stopReg = true := (congrArg Task.stopReg left :).trans stop
  have yielded : ((s.dev.yieldLeft t).task t).state = 3 := (congrArg Task.state left :)
  have out : (s.dev.yieldPoint t).task t = Task.reset ∨ s.dev.yieldPoint t = s.dev.yieldLeft t := by
    rw [act, ← Device.yieldStopped, ← Device.yieldLeft]
    by_cases goes : (s.dev.yieldLeft t).inFlight t = false ∧ ((s.dev.yieldLeft t).task t).stopping = false
    · exact .inl (Device.task_tryStop registered yielded goes.1 goes.2)
    · refine .inr (if_neg fun h => goes ?_)
      simp only [Bool.and_eq_true, Bool.not_eq_true'] at h
      exact ⟨h.2, h.1.2⟩
  have state : ((s.dev.yieldPoint t).task t).state ≠ 2 := by
    rcases out with out | out
    · rw [out]; decide
    · rw [out, yielded]; decide
  rw [if_neg (by simp [state])]
  intro free alive
  rcases out with out | out
  · exact out
  · rw [act, ← Device.yieldStopped, ← Device.yieldLeft]
    rw [out] at free alive
    exact Device.task_tryStop registered yielded free alive

/-- With no sc open and no copy in flight the slot is UNBOUND at once (R415). -/
theorem yieldPoint_unbinds (stop : (s.dev.task t).stopReg = true)
    (idle : ∀ c ∈ (s.dev.task t).cores, (s.dev.core c).issue = none ∧ ∀ x ∈ (s.dev.core c).copies, x.slot ≠ t) :
    Completes (.yieldPoint t) s (fun e => e.task t = Task.reset) := by
  refine .yieldPoint ht due ?_
  have act := Device.yieldPoint_all due all alone
  rw [stop, if_pos rfl] at act
  have left := s.dev.yieldLeft_frame t
  obtain ⟨free, alive⟩ := Device.yieldLeft_free (Device.alive_of_yieldDue due).2 idle
  have unbound : (s.dev.yieldPoint t).task t = Task.reset := act ▸ Device.task_tryStop
    ((congrArg Task.stopReg left :).trans stop) (congrArg Task.state left :) free alive
  rw [if_neg (by rw [unbound]; decide)]
  exact unbound

end
end

/-! ### Overdue yields and bundles, and faults -/

section
variable {s : State} {t : Nat} (ht : t < 8)
include ht

theorem yieldOverdue_faults (late : s.dev.overdue t = true) (other : s.dev.yieldDue t = false) :
    Completes (.yieldOverdue t) s (fun e => e.lastRecord = some (0x010A, 1, 0, 0) ∧ (e.task t).stopping = true) := by
  refine .unitRow (show _ = execYieldOverdue t s from rfl) (decide_eq_true ht) ?_
  rw [if_pos (by simp [late, other])]
  have running : (s.dev.task t).state = 2 := by
    unfold Device.overdue at late
    simp only [Bool.and_eq_true, beq_iff_eq] at late
    exact late.1.1.1
  exact ⟨Device.lastRecord_fault _ _ _ _ _ _ _ _ _, Device.stopping_fault _ _ _ _ _ _ _ _ _ (by rw [running]; decide)⟩

theorem yieldOverdue_idle (idle : s.dev.overdue t = false) : Becomes (.yieldOverdue t) s s.dev :=
  .onUnit (show _ = execYieldOverdue t s from rfl) (decide_eq_true ht) (if_neg (by simp [idle]))

theorem taskFaulted_idle (idle : (s.dev.task t).stopping = false) : Becomes (.taskFaulted t) s s.dev :=
  .onUnit (show _ = execTaskFaulted t s from rfl) (decide_eq_true ht) (if_pos (by simp [idle]))

theorem taskFaulted_becomes (stops : (s.dev.task t).stopping = true) : Becomes (.taskFaulted t) s
    (if (s.dev.closeScs t).inFlight t then s.dev.closeScs t else (s.dev.closeScs t).faultTask t) :=
  .onUnit (show _ = execTaskFaulted t s from rfl) (decide_eq_true ht) (if_neg (by simp [stops]))

end

/-- A task that faults with no stop registered: its cores run it no more (R416, R541). -/
theorem Device.faultTask_frame {d : Device} {t : Nat} (unregistered : (d.task t).stopReg = false) :
    ((d.faultTask t).task t).state = 5 ∧ ((d.faultTask t).task t).stopping = false ∧ ((d.faultTask t).task t).startS = none
      ∧ ∀ c ∈ (d.task t).cores, ((d.faultTask t).core c).running ≠ some t := by
  unfold Device.faultTask
  extract_lets k logged settled cleared left faulted
  have before : cleared.posture = d.posture := by
    refine (foldl_keeps Device.posture _ (fun d c => ?_) _ _).trans ?_
    · refine both_branches Device.posture ?_ rfl
      exact (Device.posture_onCore _ _ _).trans (Device.posture_onCore _ _ _)
    · have settle (d : Device) (mb : Option Nat) (st : Nat) : (d.settle mb st).posture = d.posture :=
        (congrArg Device.posture (d.settle_frame mb st) :)
      exact (settle _ _ _).trans ((settle _ _ _).trans (d.posture_logEvent _ _ _ _ _))
  have members : (cleared.task t).cores = (d.task t).cores := (congrArg Task.cores (Device.ruling_of_posture before t) :)
  obtain ⟨stands, away⟩ := cleared.leaveCores_left t
  have stop : (faulted.task t).stopReg = false := by
    have same : (faulted.task t).stopReg = (left.task t).stopReg := by
      unfold faulted
      rw [Device.task_onTask_same]
    rw [same]
    exact (congrArg Task.stopReg (stands.1 t) :).trans
      ((congrArg Task.stopReg (Device.ruling_of_posture before t) :).trans unregistered)
  have kept : faulted.tryStop t = faulted := by
    unfold Device.tryStop
    exact if_neg (by simp [stop])
  have own : faulted.task t = { left.task t with
      state := 5, stopping := false, startS := none, startMb := none, yieldS := none, yieldMb := none, replay := none } :=
    Device.task_onTask_same _ _ _
  rw [kept, own]
  exact ⟨rfl, rfl, rfl, fun c hc => away c (members.symm ▸ hc)⟩

section
variable {s : State} {c t kind w0 : Nat} (hc : s.dev.hasCore c = true) (running : (s.dev.core c).running = some t)
  (wait : (s.dev.core c).wait = some (kind, w0))
include hc running wait

theorem bundleWaitOverdue_faults (alive : (s.dev.task t).stopping = false) (late : w0 + 4096 ≤ s.dev.beat.w)
    (bound : (s.dev.task t).state ≠ 5) : Completes (.bundleWaitOverdue c) s (fun e =>
      e.lastRecord = some (0x010A, 0, 1, c) ∧ (e.task t).stopping = true) := by
  refine .unitRow (show _ = execBundleWaitOverdue c s from rfl) hc ?_
  dsimp only
  rw [running, wait]
  dsimp only
  rw [if_pos (by simp [late, alive])]
  exact ⟨Device.lastRecord_fault _ _ _ _ _ _ _ _ _, Device.stopping_fault _ _ _ _ _ _ _ _ _ bound⟩

theorem bundleWaitOverdue_idle (early : s.dev.beat.w < w0 + 4096) : Becomes (.bundleWaitOverdue c) s s.dev := by
  refine .onUnit (show _ = execBundleWaitOverdue c s from rfl) hc ?_
  dsimp only
  rw [running, wait]
  exact if_neg (by simp [Nat.not_le.2 early])

end

/-- Settles O47: yield points by what is registered, and the faults of tasks that are late or stop. -/
theorem taskEvents : Obligations.TaskEvents := by
  unfold Obligations.TaskEvents
  refine ⟨fun s t ht => ?_, fun s c t kind w0 hc running wait alive => ?_⟩
  · intro d k
    refine ⟨yieldPoint_idle ht, fun c due hc member missing lowest => yieldPoint_unequal ht due hc member missing lowest,
      fun due all alone => ?_, yieldOverdue_faults ht, yieldOverdue_idle ht, fun stops => ?_, taskFaulted_idle ht⟩
    · exact ⟨yieldPoint_goesOn ht due all alone, yieldPoint_yields ht due all alone, yieldPoint_stops ht due all alone,
        yieldPoint_unbinds ht due all alone⟩
    · intro q
      have row := taskFaulted_becomes ht stops
      refine ⟨fun free unregistered => ?_, fun busy => ?_⟩
      · rw [show s.dev.closeScs t = q from rfl, free, if_neg Bool.false_ne_true] at row
        exact row.completes_withBeat (Device.faultTask_frame unregistered)
      · rwa [show s.dev.closeScs t = q from rfl, busy, if_pos rfl] at row
  · exact ⟨bundleWaitOverdue_faults hc running wait alive, bundleWaitOverdue_idle hc running wait⟩

end Sys2Proof.Machine

/-! PROOFS about power (R90, R549, R562, R570, R593, R594): the cap, the share-out of energy, rails, wakes and remaps. -/

namespace Sys2Proof.Machine

set_option Elab.async false

open Sys2Proof

/-! ### The power cap -/

theorem capAfter_bounds {cap power limit : Nat} (low : 800 ≤ cap) (high : cap ≤ 2150) :
    800 ≤ capAfter cap power limit ∧ capAfter cap power limit ≤ 2150 := by
  unfold capAfter
  split
  · omega
  · split <;> omega

theorem capAfter_above {cap power limit : Nat} (above : limit < power) (high : 825 ≤ cap) : capAfter cap power limit + 25 = cap := by
  unfold capAfter
  rw [if_pos above]
  omega

/-! ### Shares of a rail -/

theorem sum_foldl_add {α : Type} (l : List α) (f : α → Nat) : l.foldl (fun a e => a + f e) 0 = (l.map f).sum := by
  rw [List.sum_eq_foldl, List.foldl_map]

theorem sum_map_comm {α β : Type} (l : List α) (m : List β) (f : α → β → Nat) :
    (l.map (fun x => (m.map (fun y => f x y)).sum)).sum = (m.map (fun y => (l.map (fun x => f x y)).sum)).sum := by
  induction l with
  | nil => simp
  | cons x l ih =>
    simp only [List.map_cons, List.sum_cons, ih]
    rw [← List.sum_map_add]

theorem sum_map_le {α : Type} {l : List α} {f g : α → Nat} (h : ∀ x ∈ l, f x ≤ g x) : (l.map f).sum ≤ (l.map g).sum :=
  List.sum_le_sum h

/-- The shares of parts that a whole holds are no more than what is shared. -/
theorem sum_shareOf_le {α : Type} (l : List α) (f : α → Nat) (n whole : Nat) (inside : (l.map f).sum ≤ whole) :
    (l.map (fun e => shareOf n (f e) whole)).sum ≤ n := by
  by_cases nothing : whole = 0
  · simp [shareOf, nothing]
  · have parts (m : List α) : (m.map (fun e => n * f e / whole)).sum ≤ n * (m.map f).sum / whole := by
      induction m with
      | nil => simp
      | cons x m ih =>
        simp only [List.map_cons, List.sum_cons, Nat.mul_add]
        exact (Nat.add_le_add_left ih _).trans Nat.div_add_div_le_add_div
    simp only [shareOf, nothing, if_false]
    refine (parts l).trans (Nat.div_le_of_le_mul ?_)
    rw [Nat.mul_comm whole]
    exact Nat.mul_le_mul_left n inside

/-- What some keys of a table hold is no more than what all of it does. -/
theorem sum_get_le (m : Sparse Nat) (ks : List Nat) (nodup : ks.Nodup) : (ks.map (fun k => Sparse.get 0 m k)).sum ≤ (m.map (·.2)).sum := by
  induction m generalizing ks with
  | nil => simp [Sparse.get]
  | cons e m ih =>
    have past (l : List Nat) (away : ∀ k ∈ l, k ≠ e.1) : l.map (fun k => Sparse.get 0 (e :: m) k) = l.map (fun k => Sparse.get 0 m k) :=
      List.map_congr_left fun k hk => if_neg (away k hk).symm
    rw [List.map_cons, List.sum_cons]
    by_cases listed : e.1 ∈ ks
    · have own : Sparse.get 0 (e :: m) e.1 = e.2 := if_pos rfl
      rw [← List.sum_map_erase _ listed, own, past _ fun k hk => (nodup.mem_erase_iff.1 hk).1]
      exact Nat.add_le_add_left (ih _ (nodup.erase _)) _
    · rw [past _ fun k hk same => listed (same ▸ hk)]
      exact (ih ks nodup).trans (Nat.le_add_left _ _)

/-! ### The share-out -/

/-- The shares of an entry, rail by rail (R570). -/
theorem railShare_eq (entries : List Ledger) (uj : Nat → Nat) (l : Ledger) : railShare entries uj l =
    ((List.range 4).map (fun q => shareOf (uj q) (Sparse.get 0 l.pCore q) (entries.map (fun e => Sparse.get 0 e.pCore q)).sum)).sum
    + shareOf (uj 4) l.coresAll (entries.map Ledger.coresAll).sum
    + shareOf (uj 7) l.pFabric (entries.map Ledger.pFabric).sum + shareOf (uj 8) l.pFabric (entries.map Ledger.pFabric).sum
    + ((List.range 8).map (fun k =>
        shareOf (shareOf (uj 9) (entries.map (fun e => Sparse.get 0 e.pDram k)).sum (entries.map (fun e => (e.pDram.map (·.2)).sum)).sum)
          (Sparse.get 0 l.pDram k) (entries.map (fun e => Sparse.get 0 e.pDram k)).sum
        + shareOf (uj (10 + k)) (Sparse.get 0 l.pDram k) (entries.map (fun e => Sparse.get 0 e.pDram k)).sum
        + shareOf (uj (18 + k)) (Sparse.get 0 l.pDram k) (entries.map (fun e => Sparse.get 0 e.pDram k)).sum)).sum := by
  unfold railShare
  simp only [Nat.add_assoc, sum_foldl_add]

/-- What the pump rail gives the stacks is no more than it has used. -/
theorem sum_pump_le (entries : List Ledger) (n : Nat) :
    ((List.range 8).map (fun k => shareOf n (entries.map (fun e => Sparse.get 0 e.pDram k)).sum
      (entries.map (fun e => (e.pDram.map (·.2)).sum)).sum)).sum ≤ n := by
  refine sum_shareOf_le _ _ _ _ ?_
  rw [sum_map_comm]
  exact sum_map_le fun e _ => sum_get_le e.pDram _ List.nodup_range

/-- No more is shared out than the rails have used. -/
theorem sum_railShare_le (entries : List Ledger) (uj : Nat → Nat) :
    (entries.map (railShare entries uj)).sum ≤ ((List.range 26).map uj).sum := by
  have stack (n k : Nat) := sum_shareOf_le entries (fun e => Sparse.get 0 e.pDram k) n _ le_rfl
  have dram : ((List.range 8).map (fun k => (entries.map (fun l =>
        shareOf (shareOf (uj 9) (entries.map (fun e => Sparse.get 0 e.pDram k)).sum (entries.map (fun e => (e.pDram.map (·.2)).sum)).sum)
          (Sparse.get 0 l.pDram k) (entries.map (fun e => Sparse.get 0 e.pDram k)).sum
        + shareOf (uj (10 + k)) (Sparse.get 0 l.pDram k) (entries.map (fun e => Sparse.get 0 e.pDram k)).sum
        + shareOf (uj (18 + k)) (Sparse.get 0 l.pDram k) (entries.map (fun e => Sparse.get 0 e.pDram k)).sum)).sum)).sum
      ≤ uj 9 + ((List.range 8).map (fun k => uj (10 + k))).sum + ((List.range 8).map (fun k => uj (18 + k))).sum := by
    simp only [List.sum_map_add]
    exact Nat.add_le_add (Nat.add_le_add ((sum_map_le fun k _ => stack _ k).trans (sum_pump_le entries (uj 9)))
      (sum_map_le fun k _ => stack _ k)) (sum_map_le fun k _ => stack _ k)
  have quarters := sum_map_le (l := List.range 4) fun q _ => sum_shareOf_le entries (fun e => Sparse.get 0 e.pCore q) (uj q) _ le_rfl
  have bank := sum_shareOf_le entries Ledger.coresAll (uj 4) _ le_rfl
  have fabric (n : Nat) := sum_shareOf_le entries Ledger.pFabric n _ le_rfl
  have rails : ((List.range 26).map uj).sum = ((List.range 4).map uj).sum + uj 4 + uj 5 + uj 6 + uj 7 + uj 8 + uj 9
      + ((List.range 8).map (fun k => uj (10 + k))).sum + ((List.range 8).map (fun k => uj (18 + k))).sum := by
    have all : List.range 26 = List.range 4 ++ [4, 5, 6, 7, 8, 9] ++ (List.range 8).map (10 + ·) ++ (List.range 8).map (18 + ·) := rfl
    simp only [all, List.map_append, List.sum_append, List.map_map, List.map_cons, List.map_nil, List.sum_cons, List.sum_nil,
      Nat.add_zero, Nat.add_assoc]
    rfl
  have parts : (entries.map (railShare entries uj)).sum = _ := congrArg List.sum (List.map_congr_left fun e _ => railShare_eq entries uj e)
  rw [parts, List.sum_map_add, List.sum_map_add, List.sum_map_add, List.sum_map_add, sum_map_comm entries (List.range 4),
    sum_map_comm entries (List.range 8)]
  have link := fabric (uj 7)
  have other := fabric (uj 8)
  omega

/-- What the rails have used, in whole uJ, goes to the entries that are open. -/
theorem sum_microJ (l : List Ledger) (share : Ledger → Nat) (rest : Nat) :
    ((l.map (fun e => if !e.isOpen then e
        else { e with microJ := e.microJ + (if e.device then rest else share e), pCore := [], pDram := [], pFabric := 0 })).map
      (·.microJ)).sum
    = (l.map (·.microJ)).sum + ((l.filter (fun e => e.isOpen)).map (fun e => if e.device then 0 else share e)).sum
      + (l.filter (fun e => e.isOpen && e.device)).length * rest := by
  induction l with
  | nil => simp
  | cons e l ih =>
    simp only [List.map_cons, List.sum_cons, ih]
    cases shut : e.isOpen <;> cases own : e.device <;> simp [shut, own, Nat.add_mul] <;> omega

theorem get_restedEnergy (m : Sparse Nat) (r n : Nat) (known : r < n) : Sparse.get 0
      ((List.range n).foldl (fun m r => Sparse.upd 0 m r (fun e => e % 10 ^ 9)) m) r = Sparse.get 0 m r % 10 ^ 9 := by
  have all (k : Nat) : Sparse.get 0 ((List.range k).foldl (fun m r => Sparse.upd 0 m r (fun e => e % 10 ^ 9)) m) r
      = if r < k then Sparse.get 0 m r % 10 ^ 9 else Sparse.get 0 m r := by
    induction k with
    | zero => rfl
    | succ k ih =>
      rw [List.range_succ, List.foldl_append, List.foldl_cons, List.foldl_nil, Sparse.get_upd]
      split
      · next same => subst same; rw [ih, if_neg (lt_irrefl r), if_pos (Nat.lt_succ_self r)]
      · next other => rw [ih]; simp only [Nat.lt_succ_iff_lt_or_eq, other, or_false]
  rw [all n, if_pos known]

/-- A share-out with one open device entry gives out all that the rails have used (R570). -/
theorem Device.shareEnergy_spec (d : Device) (one : (d.ledger.filter (fun e => e.isOpen && e.device)).length = 1) :
    (d.shareEnergy.ledger.map (·.microJ)).sum
        = (d.ledger.map (·.microJ)).sum + ((List.range 26).map (fun r => Sparse.get 0 d.power.energy r / 10 ^ 9)).sum
      ∧ (∀ r, r < 26 → Sparse.get 0 d.shareEnergy.power.energy r = Sparse.get 0 d.power.energy r % 10 ^ 9)
      ∧ d.shareEnergy.power.shareW = some d.beat.w := by
  unfold Device.shareEnergy
  extract_lets uj entries given all
  refine ⟨?_, fun r known => ?_, rfl⟩
  rotate_left
  · dsimp only
    exact get_restedEnergy d.power.energy r 26 known
  have shared : given = (entries.map (fun e => if e.device then 0 else railShare entries uj e)).sum := by
    rw [← sum_foldl_add]
    refine congrArg (fun g => entries.foldl g 0) (funext₂ fun a e => ?_)
    split <;> rfl
  have used : all = ((List.range 26).map uj).sum := sum_foldl_add _ _
  have fits : given ≤ all := by
    rw [shared, used]
    refine (sum_map_le fun e _ => ?_).trans (sum_railShare_le entries uj)
    split
    · exact Nat.zero_le _
    · exact le_rfl
  have total := sum_microJ d.ledger (railShare entries uj) (all - given)
  rw [one, Nat.one_mul] at total
  have open_ : (d.ledger.filter (fun e => e.isOpen)) = entries := rfl
  rw [open_, ← shared] at total
  refine total.trans ?_
  rw [← used]
  omega

/-! ### The rows of the telemetry -/

theorem Device.readsDue {d : Device} {n : Nat} {last : Option Nat} (due : d.readsRails = true ∧ d.everyBeats n last = true) :
    (d.readsRails && d.everyBeats n last) = true := by
  rw [due.1, due.2, Bool.and_self]

theorem Device.readsIdle {d : Device} {n : Nat} {last : Option Nat} (idle : ¬(d.readsRails = true ∧ d.everyBeats n last = true)) :
    ¬(d.readsRails && d.everyBeats n last) = true := by
  rwa [Bool.and_eq_true]

section
variable (s : State)

theorem powerCapUpdate_due (due : s.dev.readsRails = true ∧ s.dev.everyBeats 64 s.dev.power.capW = true) :
    Completes .powerCapUpdate s (fun e =>
      e.power.cap = capAfter s.dev.power.cap s.dev.packagePower (s.dev.power.policy.limitW * 1000000)
        ∧ (800 ≤ s.dev.power.cap → s.dev.power.cap ≤ 2150 → 800 ≤ e.power.cap ∧ e.power.cap ≤ 2150)
        ∧ (s.dev.power.policy.limitW * 1000000 < s.dev.packagePower → 825 ≤ s.dev.power.cap → e.power.cap + 25 = s.dev.power.cap)
        ∧ e.power.capW = some s.dev.beat.w) := by
  refine .row (show _ = execPowerCapUpdate s from rfl) ?_
  rw [if_pos (Device.readsDue due)]
  generalize hb : Device.recapAll _ = b
  have power := (congrArg Device.power hb.symm).trans (Device.power_recapAll _)
  have cap : b.power.cap = capAfter s.dev.power.cap s.dev.packagePower (s.dev.power.policy.limitW * 1000000) :=
    (congrArg Power.cap power :)
  refine ⟨cap, fun low high => ?_, fun above high => ?_, (congrArg Power.capW power :)⟩
  · exact cap.symm ▸ capAfter_bounds low high
  · exact cap.symm ▸ capAfter_above above high

theorem meterEnergyShare_due (due : s.dev.readsRails = true ∧ s.dev.everyBeats 64 s.dev.power.shareW = true)
    (one : (s.dev.ledger.filter (fun e => e.isOpen && e.device)).length = 1) :
    Completes .meterEnergyShare s (fun e =>
      (e.ledger.map (·.microJ)).sum
          = (s.dev.ledger.map (·.microJ)).sum + ((List.range 26).map (fun r => Sparse.get 0 s.dev.power.energy r / 10 ^ 9)).sum
        ∧ (∀ r, r < 26 → Sparse.get 0 e.power.energy r = Sparse.get 0 s.dev.power.energy r % 10 ^ 9)
        ∧ e.power.shareW = some s.dev.beat.w) := by
  refine .row (show _ = execMeterEnergyShare s from rfl) ?_
  rw [if_pos (Device.readsDue due)]
  exact s.dev.shareEnergy_spec one

theorem railTelemetryRead_good {r mv ma : Nat} (due : s.dev.readsRails = true ∧ s.dev.everyBeats 32 s.dev.power.railW = true)
    (known : s.dev.hasRail r = true) (good : s.dev.railBad r mv = false) :
    Completes (.railTelemetryRead [(r, mv, ma)]) s (fun e =>
      Sparse.get (0, 0) e.power.rails r = (mv, ma) ∧ Sparse.get 0 e.power.bad r = 0
        ∧ Sparse.get 0 e.power.energy r = Sparse.get 0 s.dev.power.energy r + mv * ma * 32768 ∧ e.power.railW = some s.dev.beat.w) := by
  refine .row (show _ = execRailTelemetryRead _ s from rfl) ?_
  rw [if_pos (Device.readsDue due), List.foldl_cons, List.foldl_nil, if_pos known, Device.railReading, good]
  refine ⟨?_, ?_, ?_, rfl⟩ <;> dsimp only [Device.withBeat]
  · exact (Sparse.get_set (0, 0) s.dev.power.rails r r (mv, ma)).trans (if_pos rfl)
  · exact (Sparse.get_set 0 s.dev.power.bad r r 0).trans (if_pos rfl)
  · exact (Sparse.get_upd 0 s.dev.power.energy r (fun e => e + mv * ma * 32768) r).trans (if_pos rfl)

theorem railStatusRead_due (l : List Nat) (due : s.dev.readsRails = true ∧ s.dev.everyBeats 1024 s.dev.power.statusW = true) :
    Completes (.railStatusRead l) s (fun e =>
      (∀ r, r ∈ e.power.status ↔ r < 26 ∧ r ∈ l ∧ s.dev.hasRail r = true) ∧ e.power.statusW = some s.dev.beat.w) := by
  refine .row (show _ = execRailStatusRead l s from rfl) ?_
  rw [if_pos (Device.readsDue due)]
  refine ⟨fun r => ?_, rfl⟩
  simp [Device.withBeat]

end

/-! ### Records that stay in the log -/

/-- With at most k records between them, what the health log of d holds that of e still does, where it has room (R545). -/
def Device.keepsRecords (d : Device) (k : Nat) (e : Device) : Prop :=
  ∀ x n, n + k ≤ 65536 → x ∈ d.hub.health.take n → x ∈ e.hub.health.take (n + k)

theorem Device.keepsRecords_of_hub {d e : Device} (h : e.hub = d.hub) (k : Nat) : d.keepsRecords k e := by
  intro x n _ hx
  rw [h]
  exact (List.take_subset_take_left _ (Nat.le_add_right n k)) hx

theorem Device.keepsRecords_trans {a b c : Device} {j k : Nat} (h : a.keepsRecords j b) (g : b.keepsRecords k c) :
    a.keepsRecords (j + k) c := by
  intro x n room hx
  have := g x (n + j) (by omega) (h x n (by omega) hx)
  rwa [Nat.add_assoc] at this

theorem Device.keepsRecords_log (d : Device) (r : HealthRec) : d.keepsRecords 1 (d.log r) := by
  intro x n room hx
  rw [Device.log_eq, Device.onHub_hub]
  have log : (d.hub.logged (d.recordOf r)).health = (d.recordOf r :: d.hub.health).take 65536 := rfl
  rw [log, List.take_take, Nat.min_eq_left room, List.take_succ_cons]
  exact List.mem_cons_of_mem _ hx

theorem Device.keepsRecords_foldl {β : Type} {k : Nat} {g : Device → β → Device} (I : Device → Prop)
    (step : ∀ d x, I d → I (g d x) ∧ d.keepsRecords k (g d x)) (l : List β) {d : Device} (h : I d) :
    d.keepsRecords (l.length * k) (l.foldl g d) := by
  induction l generalizing d with
  | nil => exact Device.keepsRecords_of_hub rfl _
  | cons x l ih =>
    have rest := Device.keepsRecords_trans (step d x h).2 (ih (step d x h).1)
    rwa [List.length_cons, Nat.succ_mul, Nat.add_comm]

theorem Device.mem_of_keepsRecords {d e : Device} {k n : Nat} (h : d.keepsRecords k e) (room : n + k ≤ 65536) {x : HealthRec}
    (hx : x ∈ d.hub.health.take n) : x ∈ e.hub.health :=
  List.mem_of_mem_take (h x n room hx)

/-! ### The failure of a unit -/

/-- A device without its records, its twin logic and its pins. -/
def Device.besideSignals (d : Device) : Device := { d with hub := Hub.reset, twin := Twin.reset, pins := Pins.reset }

theorem Device.besideSignals_log (d : Device) (r : HealthRec) : (d.log r).besideSignals = d.besideSignals := by
  rw [Device.log_eq]; rfl

theorem Device.twin_log (d : Device) (r : HealthRec) : (d.log r).twin = d.twin := by
  rw [Device.log_eq]; rfl

theorem Device.inPair_log (d : Device) (r : HealthRec) : (d.log r).inPair = d.inPair := by
  unfold Device.inPair; rw [Device.twin_log]

theorem Device.standBy_frame (d : Device) : d.standBy.besideSignals = d.besideSignals ∧ d.standBy.inPair = false
    ∧ d.keepsRecords 1 d.standBy := by
  unfold Device.standBy Device.setRole Device.roleRecord Device.event
  refine ⟨Device.besideSignals_log .., Device.inPair_log .., ?_⟩
  exact Device.keepsRecords_trans (j := 0) (Device.keepsRecords_of_hub (by rfl) 0) (Device.keepsRecords_log _ _)

/-- In solo mode a fault of a task is its record, and its stop. -/
theorem Device.fault_solo {d : Device} (solo : d.inPair = false) (t code cause unitKind unit sc dHi dLo : Nat) : ∃ r : HealthRec,
    d.fault t code cause unitKind unit sc dHi dLo = d.log r
      ∨ d.fault t code cause unitKind unit sc dHi dLo = (d.log r).stopTask t := by
  unfold Device.fault
  simp only [solo, Bool.false_and, Bool.false_eq_true, if_false]
  split
  · exact ⟨_, .inl rfl⟩
  · exact ⟨_, .inr rfl⟩

theorem Device.keepsRecords_fault {d : Device} (solo : d.inPair = false) (t code cause unitKind unit sc dHi dLo : Nat) :
    let e := d.fault t code cause unitKind unit sc dHi dLo
    e.inPair = false ∧ d.keepsRecords 1 e := by
  obtain ⟨r, same | same⟩ := Device.fault_solo solo t code cause unitKind unit sc dHi dLo <;> dsimp only <;> rw [same]
  · exact ⟨(d.inPair_log r).trans solo, d.keepsRecords_log r⟩
  · obtain ⟨-, -, -, hub, twin⟩ := (d.log r).stopTask_frame t
    refine ⟨?_, Device.keepsRecords_trans (k := 0) (d.keepsRecords_log r) (Device.keepsRecords_of_hub hub 0)⟩
    rw [Device.inPair, twin]
    exact (d.inPair_log r).trans solo

/-- A device without its cores. -/
def Device.noCores (d : Device) : Device := { d with cores := [] }

/-- Changes of cores leave the rest of the device. -/
theorem Device.noCores_foldl_onCore (f : Nat → Core → Core) (l : List Nat) (d : Device) :
    (l.foldl (fun d c => d.onCore c (f c)) d).noCores = d.noCores :=
  foldl_keeps Device.noCores (fun (d : Device) (c : Nat) => d.onCore c (f c)) (fun _ _ => rfl) l d

theorem Device.noCores_dropWork (d : Device) (t : Nat) : (d.dropWork t).noCores = d.noCores := by
  refine foldl_keeps Device.noCores _ (fun (d : Device) (c : Nat) => ?_) _ _
  rfl

theorem Device.portGone_frame (d : Device) (p : Nat) : (d.portGone p).tasks = d.tasks ∧ ((d.portGone p).port p).step = 0
    ∧ (∀ x, x ≠ p → (d.portGone p).port x = d.port x) ∧ d.keepsRecords 1 (d.portGone p) := by
  unfold Device.portGone
  split
  · next down => exact ⟨rfl, down, fun _ _ => rfl, Device.keepsRecords_of_hub rfl 1⟩
  · unfold Device.event
    refine ⟨?_, ?_, fun x other => ?_, ?_⟩
    · rw [Device.log_eq]; rfl
    · rw [Device.port_onPort_same]; rfl
    · rw [Device.port_onPort_other _ _ _ _ other, Device.log_eq]; rfl
    · exact Device.keepsRecords_trans (k := 0) (Device.keepsRecords_log d _) (Device.keepsRecords_of_hub rfl 0)

theorem Device.length_portNums (d : Device) : d.portNums.length ≤ 34 := (List.length_filter_le _ _).trans (by decide)

theorem Device.length_boundSlots (d : Device) : d.boundSlots.length ≤ 8 := (List.length_filter_le _ _).trans (by decide)

/-- The unit is out of service (R548). -/
theorem Device.dropUnit_spec (d : Device) (cause unit : Nat) : (d.dropUnit cause unit).tasks = d.tasks
    ∧ d.keepsRecords 34 (d.dropUnit cause unit)
    ∧ (cause = 1 ∨ cause = 2 → ∀ c ∈ d.coresOfQuarter unit, ((d.dropUnit cause unit).core c).absent = true)
    ∧ (cause = 3 → ((d.dropUnit cause unit).stack unit).absent = true)
    ∧ (cause = 0 ∨ cause = 4 → ∀ p, d.hasPort p = true → ((d.dropUnit cause unit).port p).step = 0) := by
  unfold Device.dropUnit
  dsimp only
  split
  · next die =>
    generalize hb : List.foldl _ d (d.coresOfQuarter unit) = b
    have beside : b.noCores = d.noCores := by rw [← hb]; exact Device.noCores_foldl_onCore (fun _ k => { k with absent := true }) _ d
    have tasks : b.tasks = d.tasks := (congrArg Device.tasks beside :)
    have hub : b.hub = d.hub := (congrArg Device.hub beside :)
    have absent : ∀ c ∈ d.coresOfQuarter unit, (b.core c).absent = true := by
      rw [← hb]
      refine (foldl_establishes (I := fun _ => True) (P := fun c (d : Device) => (d.core c).absent = true) (fun _ _ _ _ => trivial)
        (fun d c _ _ => ?_) (fun d c _ y _ was => ?_) trivial).2
      · rw [Device.core_onCore_same]
      · by_cases same : y = c
        · rw [same, Device.core_onCore_same]
        · rwa [Device.core_onCore_other _ _ _ _ same]
    rw [Bool.or_eq_true, decide_eq_true_eq, decide_eq_true_eq] at die
    refine ⟨tasks, Device.keepsRecords_of_hub hub 34, fun _ => absent, fun stack => ?_, fun hub => ?_⟩ <;> omega
  · next other =>
    rw [Bool.or_eq_true, decide_eq_true_eq, decide_eq_true_eq] at other
    split
    · next stack =>
      refine ⟨rfl, Device.keepsRecords_of_hub rfl 34, fun die => absurd die other, fun _ => ?_, fun hub => ?_⟩
      · rw [Device.stack_onStack_same]
      · omega
    · next dram =>
      have each := foldl_establishes (l := d.portNums) (I := fun e => e.tasks = d.tasks) (P := fun p (e : Device) => (e.port p).step = 0)
        (g := fun d p => d.portGone p) (fun e p _ h => (e.portGone_frame p).1.trans h) (fun e p _ _ => (e.portGone_frame p).2.1)
        (fun e p _ x _ was => by
          by_cases same : x = p
          · rw [same]; exact (e.portGone_frame p).2.1
          · rwa [(e.portGone_frame p).2.2.1 x same]) (d := d) rfl
      have records := Device.keepsRecords_foldl (k := 1) (g := fun d p => d.portGone p) (fun _ => True)
        (fun e p _ => ⟨trivial, (e.portGone_frame p).2.2.2⟩) d.portNums (d := d) trivial
      refine ⟨each.1, fun x n room hx => ?_, fun die => absurd die other, fun stack => absurd stack dram, fun _ p known =>
        each.2 p (Device.mem_portNums known)⟩
      have few := d.length_portNums
      exact List.take_subset_take_left _ (by omega) (records x n (by omega) hx)

theorem Device.hitBy_congr {d e : Device} (h : e.besideSignals = d.besideSignals) (cause unit : Nat) :
    e.hitBy cause unit = d.hitBy cause unit :=
  (congrArg (fun d : Device => d.hitBy cause unit) h :)

/-- The tasks that a failure hits stop, and nothing else becomes of a task (R548). -/
theorem Device.stopHit (l : List Nat) (d : Device) (solo : d.inPair = false) (code cause kind n sc dHi dLo : Nat) :
    let e := l.foldl (fun d t => d.fault t code cause kind n sc dHi dLo) d
    (∀ t ∈ l, (d.task t).state ≠ 5 → (e.task t).stopping = true) ∧ e.steady = d.steady ∧ d.keepsRecords l.length e := by
  refine ⟨?_, foldl_keeps Device.steady _ (fun d t => d.steady_fault ..) _ _, ?_⟩
  · refine (foldl_establishes (I := fun e => ∀ t, (e.task t).state = (d.task t).state)
      (P := fun t (e : Device) => (d.task t).state ≠ 5 → (e.task t).stopping = true) (fun e t _ same x => ?_) (fun e t _ same alive => ?_)
      (fun e t _ x same was alive => ?_) (fun _ => rfl)).2
    · obtain ⟨own, other⟩ := e.task_fault t code cause kind n sc dHi dLo
      by_cases at_ : x = t
      · rw [at_, own, ← same t]; split <;> rfl
      · rw [other x at_, same]
    · exact e.stopping_fault t code cause kind n sc dHi dLo (by rwa [same])
    · obtain ⟨own, other⟩ := e.task_fault t code cause kind n sc dHi dLo
      by_cases at_ : x = t
      · subst at_
        exact e.stopping_fault x code cause kind n sc dHi dLo (by rwa [same])
      · rw [other x at_]; exact was alive
  · have records := Device.keepsRecords_foldl (k := 1) (g := fun d t => d.fault t code cause kind n sc dHi dLo)
      (fun d => d.inPair = false) (fun d t solo => Device.keepsRecords_fault solo t code cause kind n sc dHi dLo) l solo
    rwa [Nat.mul_one] at records

/-- A PACKAGE_FAULT is recorded; a pair asks for a mute, and else its tasks stop and its unit goes out of service (R548). -/
theorem Device.packageFail_spec (d : Device) (cause unit rail : Nat) :
    let e := d.packageFail cause unit rail
    (∃ x ∈ e.hub.health, x.code = 0x0205 ∧ x.cause = cause ∧ x.dLo = rail ∧ x.index = d.hub.healthNext)
    ∧ (d.inPair = true → e.twin.muteReq = 1 ∧ e.cores = d.cores ∧ e.tasks = d.tasks)
    ∧ (d.inPair = false →
      (∀ t ∈ d.boundSlots, d.hitBy cause unit t = true → (d.task t).state ≠ 5 → (e.task t).stopping = true)
      ∧ (cause = 1 ∨ cause = 2 → ∀ c ∈ d.coresOfQuarter unit, (e.core c).absent = true)
      ∧ (cause = 3 → (e.stack unit).absent = true)
      ∧ (cause = 0 ∨ cause = 4 → ∀ p, d.hasPort p = true → (e.port p).step = 0)) := by
  dsimp only
  unfold Device.packageFail
  generalize failedUnit cause unit = unit_
  obtain ⟨kind, n, die⟩ := unit_
  dsimp -zeta only
  extract_lets blank a b pins c hit g k
  obtain ⟨r, first, code⟩ : ∃ r, a.hub.health.take 1 = [r]
      ∧ (r.code = 0x0205 ∧ r.cause = cause ∧ r.dLo = rail ∧ r.index = d.hub.healthNext) :=
    ⟨_, (congrArg (fun e : Device => e.hub.health.take 1) (Device.log_eq ..)).trans rfl, rfl, rfl, rfl, rfl⟩
  have beside : a.besideSignals = d.besideSignals := Device.besideSignals_log ..
  have same : a.inPair = d.inPair := Device.inPair_log ..
  clear_value a
  have own : r ∈ a.hub.health.take 1 := by rw [first]; exact List.mem_cons_self
  by_cases pair : a.inPair = true
  · rw [if_pos pair]
    exact ⟨⟨r, List.mem_of_mem_take own, code⟩, fun _ => ⟨rfl, (congrArg Device.cores beside :), (congrArg Device.tasks beside :)⟩,
      fun solo => absurd pair (Bool.eq_false_iff.1 (same.trans solo))⟩
  · rw [if_neg pair]
    have alone : b.besideSignals = a.besideSignals ∧ b.inPair = false ∧ a.keepsRecords 1 b := by
      simp only [b]
      split
      · exact Device.standBy_frame _
      · exact ⟨rfl, Bool.eq_false_iff.2 pair, Device.keepsRecords_of_hub rfl 1⟩
    clear_value b
    obtain ⟨besideB, solo, records⟩ := alone
    have shown : c.besideSignals = d.besideSignals ∧ c.inPair = false ∧ c.hub = b.hub := by
      simp only [c]
      split
      · exact ⟨besideB.trans beside, solo, rfl⟩
      · exact ⟨besideB.trans beside, solo, rfl⟩
    clear_value c
    obtain ⟨besideC, soloC, hub⟩ := shown
    obtain ⟨stop, steady, stopped⟩ := Device.stopHit hit c soloC 0x0205 cause kind n 0 die rail
    have dropped : k.hub = g.hub ∧ k.tasks = g.tasks ∧ k.grade = g.grade := by
      simp only [k]
      split
      · have beside := foldl_keeps Device.noCores (fun (d : Device) (t : Nat) => d.dropWork t) (fun d t => d.noCores_dropWork t) hit g
        exact ⟨(congrArg Device.hub beside :), (congrArg Device.tasks beside :), (congrArg Device.grade beside :)⟩
      · exact ⟨rfl, rfl, rfl⟩
    clear_value k
    obtain ⟨hubK, tasksK, gradeK⟩ := dropped
    have few : hit.length ≤ 8 := (List.length_filter_le _ _).trans c.length_boundSlots
    have grade : k.grade = d.grade := calc
      k.grade = g.grade := gradeK
      _ = c.grade := (congrArg Device.grade steady :)
      _ = d.grade := (congrArg Device.grade besideC :)
    obtain ⟨tasks, kept, cores, stack, ports⟩ := k.dropUnit_spec cause unit
    have log : a.keepsRecords (1 + 0 + hit.length + 0 + 34) (k.dropUnit cause unit) :=
      Device.keepsRecords_trans (Device.keepsRecords_trans (Device.keepsRecords_trans (Device.keepsRecords_trans records
        (Device.keepsRecords_of_hub hub 0)) stopped) (Device.keepsRecords_of_hub hubK 0)) kept
    refine ⟨⟨r, Device.mem_of_keepsRecords log (by omega) own, code⟩, fun paired => absurd (same.trans paired) pair,
      fun _ => ⟨fun t bound hits alive => ?_, fun die => ?_, stack, fun all p known => ?_⟩⟩
    · rw [Device.task_of_tasks (tasks.trans tasksK)]
      have before : c.task t = d.task t := Device.task_of_tasks (congrArg Device.tasks besideC :) t
      refine stop t (List.mem_filter.2 ⟨?_, ?_⟩) (by rwa [before])
      · have bounds : c.boundSlots = d.boundSlots := (congrArg Device.boundSlots besideC :)
        rwa [bounds]
      · rwa [Device.hitBy_congr besideC]
    · have of_grade : k.coresOfQuarter unit = d.coresOfQuarter unit := by unfold Device.coresOfQuarter; rw [grade]
      exact of_grade ▸ cores die
    · exact ports all p (by rwa [Device.hasPort, grade])

/-! ### Wakes (R562) -/

theorem Device.wakeCore_frame (d : Device) (c : Nat) :
    (d.wakeCore c).core c = { d.core c with power := { (d.core c).power with state := 0, waking := none } }
      ∧ (∀ x, x ≠ c → (d.wakeCore c).core x = d.core x) ∧ (d.wakeCore c).tasks = d.tasks ∧ (d.wakeCore c).power = d.power := by
  unfold Device.wakeCore
  generalize hb : d.onCore c _ = b
  obtain ⟨cores, -⟩ := b.regionRuns_frame c
  refine ⟨?_, fun x other => ?_, ?_, ?_⟩
  · rw [cores, ← hb, Device.core_onCore_same]; rfl
  · rw [cores, ← hb, Device.core_onCore_other _ _ _ _ other]
  · unfold Device.regionRuns; split <;> rw [← hb] <;> rfl
  · unfold Device.regionRuns; split <;> rw [← hb] <;> rfl

/-- POWER_STATUS shows the present states. -/
theorem Device.showPower_shown (d : Device) (b : Beat) : (d.showPower.withBeat b).power.shown = (d.showPower.withBeat b).powerWord := rfl

theorem wakeComplete_core {s : State} {c : Nat} (known : s.dev.hasCore c = true) (over_ : (s.dev.core c).power.waking = some 0) :
    Completes (.wakeComplete 0 c) s (fun e =>
      e.core c = { s.dev.core c with power := { (s.dev.core c).power with state := 0, waking := none } }
        ∧ (∀ x, x ≠ c → e.core x = s.dev.core x) ∧ e.tasks = s.dev.tasks ∧ e.power.shown = e.powerWord) := by
  refine .unitRow (show _ = execWakeComplete 0 c s from rfl) (by simp [known]) ?_
  rw [if_pos rfl, if_pos over_]
  obtain ⟨own, other, tasks, -⟩ := s.dev.wakeCore_frame c
  exact ⟨own, other, tasks, Device.showPower_shown _ _⟩

theorem wakeComplete_core_idle {s : State} {c : Nat} (known : s.dev.hasCore c = true) (not_yet : (s.dev.core c).power.waking ≠ some 0) :
    Becomes (.wakeComplete 0 c) s s.dev :=
  .onUnit (show _ = execWakeComplete 0 c s from rfl) (by simp [known]) ((if_pos rfl).trans (if_neg not_yet))

/-- The stacks of a quarter are refreshed; its cores and tasks, and the power logic, stay. -/
theorem Device.refreshedNow_frame (d : Device) (q : Nat) : (d.refreshedNow q).cores = d.cores
    ∧ (d.refreshedNow q).power = d.power := ⟨rfl, rfl⟩

theorem Device.regionRuns_power (d : Device) (r : Nat) : (d.regionRuns r).cores = d.cores ∧ (d.regionRuns r).power = d.power := by
  unfold Device.regionRuns; split <;> exact ⟨rfl, rfl⟩

theorem wakeComplete_quarter {s : State} {q : Nat} (known : q < 4) (state : Sparse.get 0 s.dev.power.quarters q = 7)
    (over_ : Sparse.get 0 s.dev.power.qWake q = 0) :
    Completes (.wakeComplete 1 q) s (fun e =>
      Sparse.get 0 e.power.quarters q = 0
        ∧ (∀ c ∈ s.dev.coresOfQuarter q, (e.core c).power.state = 0 ∧ (e.core c).power.waking = none)
        ∧ (∀ x, x ∉ s.dev.coresOfQuarter q → e.core x = s.dev.core x) ∧ e.power.shown = e.powerWord) := by
  refine .unitRow (show _ = execWakeComplete 1 q s from rfl) (by simp [known]) ?_
  rw [if_neg (by decide), if_pos rfl, if_pos (by rw [state, over_]; rfl)]
  dsimp only
  generalize ha : ({ s.dev with power := _ } : Device) = a
  have cores : a.cores = s.dev.cores := by rw [← ha]
  have quarters : Sparse.get 0 a.power.quarters q = 0 := by
    rw [← ha]; exact Sparse.get_set_same 0 s.dev.power.quarters q 0
  have listed : a.coresOfQuarter q = s.dev.coresOfQuarter q := by rw [← ha]; rfl
  clear ha
  rw [listed]
  have woken := foldl_establishes (l := s.dev.coresOfQuarter q) (g := fun d c => d.wakeCore c)
    (I := fun e => e.power = a.power ∧ ∀ x, x ∉ s.dev.coresOfQuarter q → e.core x = a.core x)
    (P := fun c (e : Device) => (e.core c).power.state = 0 ∧ (e.core c).power.waking = none)
    (fun e c listed h => by
      obtain ⟨-, other, -, power⟩ := e.wakeCore_frame c
      exact ⟨power.trans h.1, fun x away => (other x fun same => away (same ▸ listed)).trans (h.2 x away)⟩)
    (fun e c _ _ => by rw [(e.wakeCore_frame c).1]; exact ⟨rfl, rfl⟩)
    (fun e c _ x _ was => by
      by_cases same : x = c
      · rw [same, (e.wakeCore_frame c).1]; exact ⟨rfl, rfl⟩
      · rwa [(e.wakeCore_frame c).2.1 x same]) (d := a) ⟨rfl, fun _ _ => rfl⟩
  generalize List.foldl _ a _ = b at woken ⊢
  obtain ⟨⟨power, others⟩, awake⟩ := woken
  obtain ⟨coresR, powerR⟩ := b.regionRuns_power (144 + q)
  generalize b.regionRuns (144 + q) = r at coresR powerR
  have core (x : Nat) : ((r.refreshedNow q).showPower.withBeat s.dev.beat).core x = b.core x := by
    unfold Device.core; exact congrArg (Sparse.get Core.reset · x) coresR
  refine ⟨?_, fun c listed => ?_, fun x away => ?_, Device.showPower_shown _ _⟩
  · have same : ((r.refreshedNow q).showPower.withBeat s.dev.beat).power.quarters = a.power.quarters :=
      
      (congrArg Power.quarters (powerR.trans power) :)
    rw [same, quarters]
  · rw [core]; exact awake c listed
  · rw [core, others x away]; unfold Device.core; rw [cores]

theorem wakeComplete_quarter_idle {s : State} {q : Nat} (known : q < 4)
    (not_yet : Sparse.get 0 s.dev.power.quarters q ≠ 7 ∨ Sparse.get 0 s.dev.power.qWake q ≠ 0) :
    Becomes (.wakeComplete 1 q) s s.dev := by
  refine .onUnit (show _ = execWakeComplete 1 q s from rfl) (by simp [known]) ?_
  rw [if_neg (by decide), if_pos rfl, if_neg ?_]
  rw [Bool.and_eq_true, beq_iff_eq, beq_iff_eq]
  exact fun h => not_yet.elim (absurd h.1) (absurd h.2)

theorem wakeComplete_device {s : State} (u : Nat) (state : s.dev.power.device = 5) (over_ : s.dev.power.devWake = 0) :
    Completes (.wakeComplete 2 u) s (fun e =>
      e.power.device = 0 ∧ (∀ c, s.dev.hasCore c = true → (e.core c).spad = Mem.reset) ∧ e.power.shown = e.powerWord) := by
  refine .unitRow (show _ = execWakeComplete 2 u s from rfl) (by simp) ?_
  rw [if_neg (by decide), if_neg (by decide), if_pos (by rw [state, over_]; rfl)]
  dsimp only
  generalize ha : ({ s.dev with power := _ } : Device) = a
  have power : a.power.device = 0 := by rw [← ha]
  have grade : a.grade = s.dev.grade := by rw [← ha]; rfl
  clear ha
  have beside : a.clearSpads.noCores = a.noCores :=
    Device.noCores_foldl_onCore (fun _ k => { k with spad := Mem.reset }) _ _
  have clear_ : ∀ c ∈ List.range a.grade.cores, (a.clearSpads.core c).spad = Mem.reset :=
    (foldl_establishes (I := fun _ => True) (P := fun c (d : Device) => (d.core c).spad = Mem.reset) (fun _ _ _ _ => trivial)
      (fun d c _ _ => by rw [Device.core_onCore_same]) (fun d c _ y _ was => by
        by_cases same : y = c
        · rw [same, Device.core_onCore_same]
        · rwa [Device.core_onCore_other _ _ _ _ same]) trivial).2
  generalize a.clearSpads = b at beside clear_
  generalize hf : List.foldl _ b (List.range 4) = f
  have frame : (f.cores, f.power) = (b.cores, b.power) := by
    rw [← hf]
    refine foldl_keeps (fun d : Device => (d.cores, d.power)) _ (fun (d : Device) (q : Nat) => ?_) _ _
    exact congrArg₂ Prod.mk (d.regionRuns_power (144 + q)).1 (d.regionRuns_power (144 + q)).2
  have cores : f.cores = b.cores := (congrArg Prod.fst frame :)
  have powerF : f.power = a.power := (congrArg Prod.snd frame :).trans (congrArg Device.power beside :)
  refine ⟨?_, fun c known => ?_, Device.showPower_shown _ _⟩
  · have same : (f.showPower.withBeat s.dev.beat).power.device = a.power.device :=
      (congrArg Power.device powerF :)
    rw [same, power]
  · have core : (f.showPower.withBeat s.dev.beat).core c = b.core c := by
      unfold Device.core; exact congrArg (Sparse.get Core.reset · c) cores
    rw [core]
    refine clear_ c (List.mem_range.2 ?_)
    rw [grade]
    simpa [Device.hasCore] using known

theorem wakeComplete_device_idle {s : State} (u : Nat) (not_yet : s.dev.power.device ≠ 5 ∨ s.dev.power.devWake ≠ 0) :
    Becomes (.wakeComplete 2 u) s s.dev := by
  refine .onUnit (show _ = execWakeComplete 2 u s from rfl) (by simp) ?_
  rw [if_neg (by decide), if_neg (by decide), if_neg ?_]
  rw [Bool.and_eq_true, beq_iff_eq, beq_iff_eq]
  exact fun h => not_yet.elim (absurd h.1) (absurd h.2)

/-! ### Remapping (R549, R550) -/

section
variable {s : State} {c : Nat} (known : s.dev.hasCore c = true)
include known

theorem coreRemap_idle (idle : (s.dev.core c).marked = false ∨ (s.dev.core c).absent = true ∨ s.dev.slotsOn c ≠ []
    ∨ s.dev.boot.phase ≠ .running) : Becomes (.coreRemap c) s s.dev := by
  refine .onUnit (show _ = execCoreRemap c s from rfl) known (if_neg ?_)
  simp only [Bool.and_eq_true, beq_iff_eq, Bool.not_eq_true']
  rintro ⟨⟨⟨marked, present⟩, free⟩, running⟩
  rcases idle with h | h | h | h
  · exact absurd (h.symm.trans marked) Bool.false_ne_true
  · exact absurd (present.symm.trans h) Bool.false_ne_true
  · exact h free
  · exact h running

variable (marked : (s.dev.core c).marked = true) (present : (s.dev.core c).absent = false) (free : s.dev.slotsOn c = [])
  (running : s.dev.boot.phase = .running)
include marked present free running

theorem coreRemap_remaps {P : Device → Prop} (h : P ((s.dev.remap c).withBeat s.dev.beat)) : Completes (.coreRemap c) s P := by
  refine .unitRow (show _ = execCoreRemap c s from rfl) known ?_
  rwa [if_pos (by rw [marked, present, free, running]; rfl)]

theorem coreRemap_without (spare : s.dev.spareCore (s.dev.quarterOf c) = none) :
    Completes (.coreRemap c) s (fun e => (e.core c).absent = true ∧ (e.core c).marked = false
      ∧ e.lastRecord = some (0x0010, 0, 1, c)) := by
  refine coreRemap_remaps known marked present free running ?_
  unfold Device.remap
  rw [spare]
  dsimp only
  unfold Device.event
  refine ⟨?_, ?_, ?_⟩
  · rw [Device.core_withBeat, Device.core_log, Device.core_onCore_same]
  · rw [Device.core_withBeat, Device.core_log, Device.core_onCore_same]
  · rw [Device.lastRecord_of_hub (Device.withBeat_hub _ _), Device.lastRecord_log]

theorem coreRemap_spare {p : Nat} (spare : s.dev.spareCore (s.dev.quarterOf c) = some p) :
    Completes (.coreRemap c) s (fun e => (e.core c).phys = some p ∧ (e.core c).marked = false ∧ (e.core c).spad = Mem.reset
      ∧ (e.core c).retired = [] ∧ (e.core c).counters = (s.dev.core c).counters ∧ (∀ x, x ≠ c → e.core x = s.dev.core x)
      ∧ e.lastRecord = some (0x0010, b2n (decide (s.dev.ident.repairLeft = 0)), 1, c)) := by
  refine coreRemap_remaps known marked present free running ?_
  unfold Device.remap
  rw [spare]
  dsimp only
  unfold Device.event
  generalize ha : ({ s.dev with ident := _ } : Device) = a
  have cores : a.cores = s.dev.cores := by rw [← ha]
  have core (x : Nat) : a.core x = s.dev.core x := by unfold Device.core; rw [cores]
  clear ha
  have own (r : HealthRec) : (((a.onCore c (fun k => k.onNew p)).log r).withBeat s.dev.beat).core c = (s.dev.core c).onNew p := by
    rw [Device.core_withBeat, Device.core_log, Device.core_onCore_same, core]
  refine ⟨by rw [own]; rfl, by rw [own]; rfl, by rw [own]; rfl, by rw [own]; rfl, by rw [own]; rfl, fun x other => ?_, ?_⟩
  · rw [Device.core_withBeat, Device.core_log, Device.core_onCore_other _ _ _ _ other, core]
  · rw [Device.lastRecord_of_hub (Device.withBeat_hub _ _), Device.lastRecord_log]
    by_cases fuses : s.dev.ident.repairLeft = 0 <;> simp [fuses, Nat.pos_iff_ne_zero]

end

/-- Settles O59: the rows of power, of the rails, of wakes and of units that fail, each by its own lemma above. -/
theorem powerRows : Obligations.PowerRows := by
  unfold Obligations.PowerRows
  refine ⟨fun s => ⟨powerCapUpdate_due s, fun idle => ?_, meterEnergyShare_due s, fun idle => ?_,
      fun r mv ma due known => ⟨railTelemetryRead_good s due known, fun bad three => ?_⟩, fun l idle => ?_, railStatusRead_due s,
      fun l idle => ?_⟩,
    fun s c known => ⟨wakeComplete_core known, wakeComplete_core_idle known, coreRemap_idle known,
      fun marked present free running => ⟨coreRemap_without known marked present free running,
        fun p => coreRemap_spare known marked present free running⟩⟩,
    fun s q known => ⟨wakeComplete_quarter known, wakeComplete_quarter_idle known⟩,
    fun s u => ⟨wakeComplete_device u, wakeComplete_device_idle u⟩, fun s cause unit known => ?_⟩
  · exact .lift (show _ = execPowerCapUpdate s from rfl) (if_neg (Device.readsIdle idle))
  · exact .lift (show _ = execMeterEnergyShare s from rfl) (if_neg (Device.readsIdle idle))
  · refine .row (show _ = execRailTelemetryRead _ s from rfl) ?_
    rw [if_pos (Device.readsDue due), List.foldl_cons, List.foldl_nil, if_pos known, Device.railReading, bad]
    dsimp only
    rw [three, if_pos rfl, if_pos rfl]
    obtain ⟨⟨x, logged, code, cause, low, -⟩, -⟩ := Device.packageFail_spec _ 0 0 r
    exact ⟨x, logged, code, cause, low⟩
  · exact .lift (show _ = execRailTelemetryRead l s from rfl) (if_neg (Device.readsIdle idle))
  · exact .lift (show _ = execRailStatusRead l s from rfl) (if_neg (Device.readsIdle idle))
  · refine .unitRow (show _ = execPackageFault cause unit s from rfl) known ?_
    split
    · next rail =>
      subst rail
      obtain ⟨⟨x, logged, code, why, -, index⟩, pair, solo⟩ := s.dev.packageFail_spec 0 0 unit
      refine ⟨⟨x, logged, code, why, index⟩, pair, fun alone => ?_⟩
      obtain ⟨stops, -, -, ports⟩ := solo alone
      exact ⟨stops, by omega, by omega, ports⟩
    · next other =>
      obtain ⟨⟨x, logged, code, why, -, index⟩, pair, solo⟩ := s.dev.packageFail_spec cause unit 0
      exact ⟨⟨x, logged, code, why, index⟩, pair, solo⟩

end Sys2Proof.Machine

/-! PROOFS about the rows of copies and messages (R241 to R244, R269, R270, R307, R313): which access a bank makes, what a complete
copy leaves, and where a message goes. -/

namespace Sys2Proof.Machine

set_option Elab.async false

open Sys2Proof

/-! ### The order at a bank (R244) -/

theorem Access.first_ready (a b : Access) : (Access.first a b).ready ≤ a.ready ∧ (Access.first a b).ready ≤ b.ready := by
  unfold Access.first
  split_ifs <;> omega

/-- None of the accesses that a bank has was ready before the one that it makes. -/
theorem Access.ready_foldl_first (l : List Access) (a : Access) :
    (l.foldl Access.first a).ready ≤ a.ready ∧ ∀ x ∈ l, (l.foldl Access.first a).ready ≤ x.ready := by
  induction l generalizing a with
  | nil => exact ⟨le_rfl, fun x hx => by cases hx⟩
  | cons y l ih =>
    obtain ⟨start, rest⟩ := ih (Access.first a y)
    obtain ⟨left, right⟩ := Access.first_ready a y
    refine ⟨start.trans left, fun x hx => ?_⟩
    rcases List.mem_cons.1 hx with rfl | hx
    · exact start.trans right
    · exact rest x hx

/-- The accesses of core c that a bank may make in the present cycle. -/
def Device.bankWaits (d : Device) (c bank : Nat) : List Access :=
  (d.accesses c).filter (fun a => (d.core c).bankOf a.pa == bank && decide (a.ready < (d.core c).cyc))

theorem Device.bestAccess_eq (d : Device) (c bank : Nat) : d.bestAccess c bank = match d.bankWaits c bank with
    | [] => none
    | a :: r => some (r.foldl Access.first a) := rfl

theorem Device.bestAccess_ready {d : Device} {c bank : Nat} {a : Access} (h : d.bestAccess c bank = some a) :
    ∀ x ∈ d.bankWaits c bank, a.ready ≤ x.ready := by
  rw [Device.bestAccess_eq] at h
  generalize d.bankWaits c bank = l at h ⊢
  cases l with
  | nil => simp
  | cons y l =>
    obtain ⟨start, rest⟩ := Access.ready_foldl_first l y
    rw [← Option.some.inj h]
    exact fun x hx => (List.mem_cons.1 hx).elim (fun same => same ▸ start) (rest x)

/-- A bank outside the copy group, one that has had its access, and one for which none waits make none. -/
theorem Device.accessBank_idle {d : Device} {c bank : Nat} (idle : inGroup ((d.core c).lastSc + (d.core c).extra) bank = false
    ∨ (d.core c).copyUsed.contains bank = true ∨ (d.bankWaits c bank).isEmpty = true) : d.accessBank c bank = d := by
  unfold Device.accessBank
  dsimp only
  rcases idle with out | used | nothing
  · rw [out]; rfl
  · rw [used]; simp
  · rw [Device.bestAccess_eq, List.isEmpty_iff.1 nothing]
    split <;> rfl

theorem Device.accessBank_run {d : Device} {c bank : Nat} {a : Access} (inside : inGroup ((d.core c).lastSc + (d.core c).extra) bank = true)
    (unused : (d.core c).copyUsed.contains bank = false) (best : d.bestAccess c bank = some a) :
    d.accessBank c bank = a.run (d.onCore c (fun k => { k with copyUsed := k.copyUsed ++ [bank] })) := by
  unfold Device.accessBank
  dsimp only
  rw [inside, unused, best]
  rfl

/-! ### A forced wake (R559) -/

theorem Device.forceWake_frame (d : Device) (c source : Nat) (low : (d.core c).power.state ≠ 0) :
    (d.forceWake c source).tasks = d.tasks ∧ ((d.forceWake c source).core c).spad = (d.core c).spad
      ∧ ((d.core c).power.state < 3 → ((d.forceWake c source).core c).power.waking.isSome = true) := by
  have start : (d.startWake c).tasks = d.tasks ∧ ((d.startWake c).core c).spad = (d.core c).spad
      ∧ ((d.core c).power.state < 3 → ((d.startWake c).core c).power.waking.isSome = true) := by
    unfold Device.startWake
    dsimp only
    rw [if_neg low]
    split
    · next deep =>
      refine ⟨?_, ?_, fun shallow => absurd deep (Nat.ne_of_lt shallow)⟩ <;> unfold Device.wakeQuarter <;> split <;> rfl
    · refine ⟨rfl, ?_, fun _ => ?_⟩ <;> rw [Device.core_onCore_same]
      dsimp only
      split <;> rfl
  generalize hs : d.startWake c = e at start
  obtain ⟨tasks, spad, waking⟩ := start
  unfold Device.forceWake
  dsimp -zeta only
  extract_lets p e' due
  have same : e' = e := hs
  clear_value e'
  subst same
  rw [if_neg low]
  split
  · unfold Device.drawFree
    dsimp only
    rw [Device.tasks_event, Device.core_event, Device.core_onCore_same]
    exact ⟨tasks, spad, waking⟩
  · exact ⟨tasks, spad, waking⟩

/-! ### COPY_ACCESS -/

section
variable {s : State} {c : Nat} (known : s.dev.hasCore c = true) (bank : Nat) (fresh : Bool)
include known

theorem copyAccess_idle (idle : (s.dev.core c).absent = true ∨ (s.dev.accesses c).isEmpty = true) :
    Becomes (.copyAccess c bank fresh) s s.dev := by
  refine .onUnit (show _ = execCopyAccess c bank fresh s from rfl) known (if_pos ?_)
  rcases idle with gone | nothing
  · rw [gone]; rfl
  · rw [nothing]; exact Bool.or_true _

variable (present : (s.dev.core c).absent = false) (waits : (s.dev.accesses c).isEmpty = false)
include present waits

theorem copyAccess_wakes (low : (s.dev.core c).power.state ≠ 0) : Completes (.copyAccess c bank fresh) s (fun e =>
    e.tasks = s.dev.tasks ∧ (e.core c).spad = (s.dev.core c).spad
      ∧ ((s.dev.core c).power.state < 3 → (e.core c).power.waking.isSome = true)) := by
  refine .unitRow (show _ = execCopyAccess c bank fresh s from rfl) known ?_
  rw [if_neg (by rw [present, waits]; decide), if_pos (by simpa using low)]
  exact s.dev.forceWake_frame c c low

variable (active : (s.dev.core c).power.state = 0)
include active

/-- In the present copy cycle the row makes the access of its bank. -/
theorem copyAccess_accesses : Becomes (.copyAccess c bank false) s (s.dev.accessBank c bank).flowAll := by
  refine .onUnit (show _ = execCopyAccess c bank false s from rfl) known ?_
  rw [if_neg (by rw [present, waits]; decide), if_neg (by rw [active]; decide), if_neg Bool.false_ne_true]

theorem copyAccess_fresh (stopped : (s.dev.region c).finished = true ∨ (s.dev.core c).running = none) :
    Becomes (.copyAccess c bank true) s ((s.dev.copyCycle c).accessBank c bank).flowAll := by
  refine .onUnit (show _ = execCopyAccess c bank true s from rfl) known ?_
  rw [if_neg (by rw [present, waits]; decide), if_neg (by rw [active]; decide), if_pos rfl, if_pos]
  rcases stopped with finished | free
  · rw [finished]; rfl
  · rw [free]; exact Bool.or_true _

theorem copyAccess_runs (unfinished : (s.dev.region c).finished = false) (running : (s.dev.core c).running ≠ none) :
    Becomes (.copyAccess c bank true) s s.dev := by
  refine .onUnit (show _ = execCopyAccess c bank true s from rfl) known ?_
  rw [if_neg (by rw [present, waits]; decide), if_neg (by rw [active]; decide), if_pos rfl, if_neg]
  rw [unfinished, Bool.false_or]
  simpa using running

end

/-! ### What a core has in flight -/

/-- The copies in flight of a core, with their ranges. -/
def Device.copyBooks (d : Device) (c : Nat) : List Copy × List Range := ((d.core c).copies, (d.core c).scoreboard)

theorem Device.copyBooks_of_cores {d e : Device} (h : d.cores = e.cores) : d.copyBooks = e.copyBooks := by
  unfold Device.copyBooks Device.core
  rw [h]

theorem Device.copyBooks_onCore (d : Device) (c : Nat) (f : Core → Core)
    (h : ∀ k, ((f k).copies, (f k).scoreboard) = (k.copies, k.scoreboard) := by intro _; rfl) : (d.onCore c f).copyBooks = d.copyBooks := by
  funext x
  unfold Device.copyBooks
  by_cases same : x = c
  · rw [same, Device.core_onCore_same, h]
  · rw [Device.core_onCore_other _ _ _ _ same]

theorem Device.copyBooks_log (d : Device) (r : HealthRec) : (d.log r).copyBooks = d.copyBooks := by
  unfold Device.copyBooks
  simp only [Device.core_log]

theorem Device.copyBooks_countCore (d : Device) (c i n : Nat) : (d.countCore c i n).copyBooks = d.copyBooks := by
  unfold Device.countCore
  split
  · rfl
  · exact Device.copyBooks_onCore _ _ _

theorem Device.copyBooks_coreFault (d : Device) (c t code cause dHi dLo : Nat) :
    (d.coreFault c t code cause dHi dLo).copyBooks = d.copyBooks := by
  funext x
  exact (congrArg (fun k : Core => (k.copies, k.scoreboard)) (d.unstopped_core_fault t code cause 1 c (d.core c).lastSc dHi dLo x) :)

theorem Device.copyBooks_lateKey (d : Device) (c k n : Nat) : (d.lateKey c k n).copyBooks = d.copyBooks := by
  unfold Device.lateKey
  dsimp only
  split
  · exact d.copyBooks_countCore _ _ _
  · exact (Device.copyBooks_log _ _).trans (d.copyBooks_countCore _ _ _)

theorem Device.copyBooks_turnKey (d : Device) (c k sub : Nat) (incs : List (Nat × Bool)) :
    (d.turnKey c k sub incs).copyBooks = d.copyBooks := by
  unfold Device.turnKey
  dsimp only
  split
  · split
    · exact foldl_keeps Device.copyBooks _ (fun (d : Device) (x : Nat × Bool) => d.copyBooks_lateKey c k x.1) _ _
    · exact Device.copyBooks_onCore _ _ _
  · split
    · exact d.copyBooks_coreFault _ _ _ _ _ _
    · exact Device.copyBooks_onCore _ _ _

theorem Device.copyBooks_addKey (d : Device) (c k n : Nat) (isAdd : Bool) : (d.addKey c k n isAdd).copyBooks = d.copyBooks := by
  unfold Device.addKey
  split
  · rfl
  · split
    · exact Device.copyBooks_onCore _ _ _
    · exact d.copyBooks_turnKey _ _ _ _

theorem Device.copyBooks_copyKey (d : Device) (c : Nat) (x : Copy) : (d.copyKey c x).copyBooks = d.copyBooks := by
  unfold Device.copyKey
  dsimp only
  split
  · exact d.copyBooks_addKey _ _ _ _
  · split
    · exact d.copyBooks_addKey _ _ _ _
    · rfl

theorem Device.copyBooks_retireDue (d : Device) (cores : List Nat) : (d.retireDue cores).copyBooks = d.copyBooks := by
  have page (d : Device) (c g : Nat) : (d.retirePage c g).copyBooks = d.copyBooks := by
    unfold Device.retirePage
    split
    · rfl
    · refine (Device.copyBooks_log _ _).trans ((Device.copyBooks_countCore _ _ _ _).trans ?_)
      refine (Device.copyBooks_onCore _ _ _ ?_).trans (Device.copyBooks_onCore d _ _ ?_) <;> (intro; rfl)
  have block (d : Device) (b : Nat) : (d.retireBlock b).copyBooks = d.copyBooks :=
    Device.copyBooks_of_cores (Device.cores_of_besideBooks (d.besideBooks_retireBlock b))
  unfold Device.retireDue
  dsimp only
  rw [foldl_keeps Device.copyBooks, foldl_keeps Device.copyBooks]
  · exact fun d c => foldl_keeps Device.copyBooks _ (fun d (e : Nat × Nat) => both_branches Device.copyBooks rfl (page d c e.1)) _ _
  · exact fun d k => foldl_keeps Device.copyBooks _ (fun d (e : Nat × Nat) => both_branches Device.copyBooks rfl (block d _)) _ _

theorem Device.cores_settle (d : Device) (mb : Option Nat) (st : Nat) : (d.settle mb st).cores = d.cores :=
  (congrArg Device.cores (d.settle_frame mb st) :)

/-- A slot that becomes UNBOUND leaves what is in flight. -/
theorem Device.copyBooks_unbind (d : Device) (t : Nat) : (d.unbind t).copyBooks = d.copyBooks := by
  unfold Device.unbind
  extract_lets k a b f
  have settled : a.copyBooks = d.copyBooks := Device.copyBooks_of_cores (by
    simp only [a]
    rw [Device.cores_settle, Device.cores_settle, Device.cores_settle, Device.cores_changing])
  have cleared : b.copyBooks = a.copyBooks := foldl_keeps Device.copyBooks (fun (d : Device) (c : Nat) => d.onCore c (fun x => x.clearSlot t))
    (fun d c => d.copyBooks_onCore c _) _ _
  have kept : f.copyBooks = b.copyBooks := rfl
  clear_value a b f
  rw [Device.copyBooks_retireDue]
  refine Eq.trans (Device.copyBooks_of_cores ?_) (kept.trans (cleared.trans settled))
  unfold Device.freeRing
  split <;> rfl

theorem Device.copyBooks_tryStop (d : Device) (t : Nat) : (d.tryStop t).copyBooks = d.copyBooks := by
  unfold Device.tryStop
  dsimp only
  split
  · exact d.copyBooks_unbind t
  · rfl

theorem Device.settleTags_idle {d : Device} (idle : d.fabric.lasts = []) : d.settleTags = d := by
  unfold Device.settleTags
  rw [idle, List.foldl_nil, ← idle]

theorem Device.tryStop_idle {d : Device} {t : Nat} (idle : (d.task t).stopReg = false) : d.tryStop t = d := by
  unfold Device.tryStop
  dsimp only
  rw [idle]
  rfl

/-! ### COPY_COMPLETE -/

/-- The device with a copy out of flight (R269). -/
def Device.copyOut (d : Device) (c id : Nat) : Device := d.onCore c (fun k => { k with
  copies := k.copies.filter (fun y => y.id != id), scoreboard := k.scoreboard.filter (fun r => r.copy != id) })

/-- A complete copy out of flight, with its key and the fault of one that a refusal left short. -/
def Device.copyEnded (d : Device) (c id : Nat) (x : Copy) : Device :=
  let e := (d.copyOut c id).copyKey c x
  if x.landedBytes < x.writeBytes then
    e.coreFault c x.slot 0x0102 4 (boundDetail x.issueBundle x.issueSc (if x.receive then 6 else 2) 5) x.landedBytes
  else e

section
variable {s : State} {c : Nat} (known : s.dev.hasCore c = true)
include known

theorem copyComplete_gone {id : Nat} (gone : (s.dev.core c).copyOf id = none) : Becomes (.copyComplete c id) s s.dev := by
  refine .onUnit (show _ = execCopyComplete c id s from rfl) known ?_
  rw [gone]

theorem copyComplete_flies {id : Nat} {x : Copy} (found : (s.dev.core c).copyOf id = some x) (flies : x.complete = false) :
    Becomes (.copyComplete c id) s s.dev := by
  refine .onUnit (show _ = execCopyComplete c id s from rfl) known ?_
  rw [found]
  dsimp only
  rw [flies]
  rfl

variable {id : Nat} {x : Copy} (found : (s.dev.core c).copyOf id = some x) (full : x.complete = true)
include found full

theorem copyComplete_completes : Becomes (.copyComplete c id) s ((s.dev.copyEnded c id x).settleTags.tryStop x.slot) := by
  refine .onUnit (show _ = execCopyComplete c id s from rfl) known ?_
  rw [found]
  dsimp only
  rw [full]
  rfl

end

theorem Device.steady_copyKey (d : Device) (c : Nat) (x : Copy) : (d.copyKey c x).steady = d.steady := by
  unfold Device.copyKey
  dsimp only
  split
  · exact d.steady_addKey _ _ _ _
  · split
    · exact d.steady_addKey _ _ _ _
    · rfl

theorem Device.posture_copyKey (d : Device) (c : Nat) (x : Copy) : (d.copyKey c x).posture = d.posture := by
  unfold Device.copyKey
  dsimp only
  split
  · exact d.posture_addKey _ _ _ _
  · split
    · exact d.posture_addKey _ _ _ _
    · rfl

/-- The end of a copy leaves the fabric, and of its task all but its mark of stopping and its notes. -/
theorem Device.copyEnded_frame (d : Device) (c id : Nat) (x : Copy) : (d.copyEnded c id x).fabric = d.fabric
    ∧ (∀ t, ((d.copyEnded c id x).task t).ruling = (d.task t).ruling)
    ∧ (d.copyEnded c id x).copyBooks c
      = ((d.core c).copies.filter (fun y => y.id != id), (d.core c).scoreboard.filter (fun r => r.copy != id)) := by
  have out : (d.copyOut c id).copyBooks c
      = ((d.core c).copies.filter (fun y => y.id != id), (d.core c).scoreboard.filter (fun r => r.copy != id)) := by
    unfold Device.copyBooks Device.copyOut
    rw [Device.core_onCore_same]
  have steady := (d.copyOut c id).steady_copyKey c x
  have posture := (d.copyOut c id).posture_copyKey c x
  have books := (d.copyOut c id).copyBooks_copyKey c x
  unfold Device.copyEnded
  dsimp only
  generalize (d.copyOut c id).copyKey c x = e at steady posture books
  have fabric : e.fabric = d.fabric := Device.fabric_of_steady steady
  have ruling (t : Nat) : (e.task t).ruling = (d.task t).ruling := Device.ruling_of_posture posture t
  split
  · refine ⟨(Device.fabric_of_steady (Device.steady_coreFault ..)).trans fabric, fun t =>
      (Device.ruling_of_posture (Device.posture_coreFault ..) t).trans (ruling t), ?_⟩
    rw [Device.copyBooks_coreFault, books, out]
  · exact ⟨fabric, ruling, by rw [books, out]⟩

theorem Device.slotsOn_congr {d e : Device} (tasks : e.tasks = d.tasks) (c : Nat) : e.slotsOn c = d.slotsOn c := by
  unfold Device.slotsOn
  rw [Device.boundSlots_congr tasks]
  simp only [Device.task_of_tasks tasks]

theorem Device.keyHolder_congr {d e : Device} {c : Nat} (tasks : e.tasks = d.tasks) (bounds : (e.core c).bounds = (d.core c).bounds)
    (k : Nat) : e.keyHolder c k = d.keyHolder c k := by
  unfold Device.keyHolder Core.bound
  simp only [Device.slotsOn_congr tasks, Device.task_of_tasks tasks, bounds]

/-- An increment that fits, while no sc is open, raises the key at once (R294). -/
theorem Device.addKey_fits {d : Device} {c k t n : Nat} (isAdd : Bool) (idle : (d.core c).issue = none) (some_ : 0 < n)
    (held : d.keyHolder c k = some t) (fits : d.keyCount c k + n ≤ keyCap (d.keyEntry c t (k - kBase ((d.core c).bound t)))) :
    d.addKey c k n isAdd = d.setKey c k (d.keyCount c k + n) := by
  unfold Device.addKey
  rw [if_neg (Nat.ne_of_gt some_), idle]
  dsimp only
  rw [Device.turnKey_held held, if_neg]
  · simp
  · simpa using fits

section
variable {s : State} {c : Nat} (known : s.dev.hasCore c = true) (still : s.dev.fabric.lasts = []) {id : Nat} {x : Copy}
  (found : (s.dev.core c).copyOf id = some x) (full : x.complete = true)
include known still found full

theorem copyComplete_lands : Becomes (.copyComplete c id) s ((s.dev.copyEnded c id x).tryStop x.slot) := by
  have row := copyComplete_completes known found full
  rwa [Device.settleTags_idle ((congrArg Fabric.lasts (s.dev.copyEnded_frame c id x).1).trans still)] at row

theorem copyComplete_clears : Completes (.copyComplete c id) s (fun e =>
    (∀ y ∈ (e.core c).copies, y.id ≠ id) ∧ (∀ r ∈ (e.core c).scoreboard, r.copy ≠ id)) := by
  refine (copyComplete_lands known still found full).completes_withBeat ?_
  have books := (congrFun ((s.dev.copyEnded c id x).copyBooks_tryStop x.slot) c).trans (s.dev.copyEnded_frame c id x).2.2
  rw [Device.core_withBeat]
  refine ⟨fun y hy => ?_, fun r hr => ?_⟩
  · rw [show (((s.dev.copyEnded c id x).tryStop x.slot).core c).copies = _ from congrArg Prod.fst books] at hy
    simpa using (List.mem_filter.1 hy).2
  · rw [show (((s.dev.copyEnded c id x).tryStop x.slot).core c).scoreboard = _ from congrArg Prod.snd books] at hr
    simpa using (List.mem_filter.1 hr).2

variable (goes : (s.dev.task x.slot).stopReg = false)
include goes

theorem copyComplete_ends : Becomes (.copyComplete c id) s (s.dev.copyEnded c id x) := by
  have row := copyComplete_lands known still found full
  rwa [Device.tryStop_idle ((congrArg Task.stopReg ((s.dev.copyEnded_frame c id x).2.1 x.slot) :).trans goes)] at row

theorem copyComplete_short (short : x.landedBytes < x.writeBytes) : Completes (.copyComplete c id) s (fun e =>
    e.lastRecord = some (0x0102, 4, 1, c) ∧ ((s.dev.task x.slot).state ≠ 5 → (e.task x.slot).stopping = true)) := by
  refine (copyComplete_ends known still found full goes).completes_withBeat ?_
  have posture := (s.dev.copyOut c id).posture_copyKey c x
  unfold Device.copyEnded
  dsimp only
  rw [if_pos short]
  generalize (s.dev.copyOut c id).copyKey c x = e at posture
  have state : (e.task x.slot).state = (s.dev.task x.slot).state := (congrArg Task.state (Device.ruling_of_posture posture x.slot) :)
  unfold Device.coreFault
  rw [Device.lastRecord_of_hub (Device.withBeat_hub _ _), Device.lastRecord_fault, Device.task_withBeat]
  exact ⟨rfl, fun alive => Device.stopping_fault _ _ _ _ _ _ _ _ _ (by rwa [state])⟩

theorem copyComplete_raises (idle : (s.dev.core c).issue = none) (whole : x.writeBytes ≤ x.landedBytes)
    (own : (cd x.desc.toNat).keyKind = 1) (some_ : 0 < (cd x.desc.toNat).keyN) {t : Nat}
    (holder : s.dev.keyHolder c (kBase ((s.dev.core c).bound x.slot) + (cd x.desc.toNat).keyNum) = some t)
    (fits : s.dev.keyCount c (kBase ((s.dev.core c).bound x.slot) + (cd x.desc.toNat).keyNum) + (cd x.desc.toNat).keyN
      ≤ keyCap (s.dev.keyEntry c t (kBase ((s.dev.core c).bound x.slot) + (cd x.desc.toNat).keyNum - kBase ((s.dev.core c).bound t)))) :
    Completes (.copyComplete c id) s (fun e =>
      e.keyCount c (kBase ((s.dev.core c).bound x.slot) + (cd x.desc.toNat).keyNum)
        = s.dev.keyCount c (kBase ((s.dev.core c).bound x.slot) + (cd x.desc.toNat).keyNum) + (cd x.desc.toNat).keyN
      ∧ e.tasks = s.dev.tasks) := by
  refine (copyComplete_ends known still found full goes).completes_withBeat ?_
  generalize hk : kBase ((s.dev.core c).bound x.slot) + (cd x.desc.toNat).keyNum = key at holder fits ⊢
  have core : (s.dev.copyOut c id).core c = { s.dev.core c with
      copies := (s.dev.core c).copies.filter (fun y => y.id != id)
      scoreboard := (s.dev.core c).scoreboard.filter (fun r => r.copy != id) } := Device.core_onCore_same _ _ _
  have tasks : (s.dev.copyOut c id).tasks = s.dev.tasks := rfl
  unfold Device.copyEnded
  dsimp only
  generalize s.dev.copyOut c id = e at core tasks
  have count : e.keyCount c key = s.dev.keyCount c key := by unfold Device.keyCount; rw [core]
  have entry (r : Nat) : e.keyEntry c t r = s.dev.keyEntry c t r := by unfold Device.keyEntry; rw [core]
  have bound (u : Nat) : (e.core c).bound u = (s.dev.core c).bound u := by rw [core]; rfl
  have raised : e.copyKey c x = e.setKey c key (s.dev.keyCount c key + (cd x.desc.toNat).keyN) := by
    unfold Device.copyKey
    dsimp only
    rw [if_pos own, bound, hk, ← count]
    refine Device.addKey_fits false (by rw [core]; exact idle) some_ (t := t) ?_ ?_
    · rw [Device.keyHolder_congr tasks (by rw [core]), holder]
    · rw [count, entry, bound]; exact fits
  rw [if_neg (Nat.not_lt.2 whole), raised]
  refine ⟨?_, tasks⟩
  unfold Device.keyCount Device.setKey
  rw [Device.core_withBeat, Device.core_onCore_same]
  exact Sparse.get_set_same ..

end

/-! ### Messages -/

/-- A core without the sends that it has in flight. -/
def Core.noSends (k : Core) : Core := { k with sends := [] }

/-- The end of a send leaves all but the sends of its core. -/
theorem Device.sendDone_frame (d : Device) (m : Msg) : (∀ x, ((d.sendDone m).core x).noSends = (d.core x).noSends)
    ∧ (d.sendDone m).tasks = d.tasks ∧ (d.sendDone m).hub = d.hub := by
  unfold Device.sendDone
  split
  · exact ⟨fun _ => rfl, rfl, rfl⟩
  · refine ⟨fun x => ?_, rfl, rfl⟩
    by_cases same : x = m.core
    · rw [same, Device.core_onCore_same]; rfl
    · rw [Device.core_onCore_other _ _ _ _ same]

theorem Device.tasks_stagePut (d : Device) (a : Nat) (data : List (BitVec 8 × Bool)) : (d.stagePut a data).tasks = d.tasks := by
  unfold Device.stagePut
  dsimp only
  have mark (d : Device) (g : Nat) : (d.markDirty 2 g).tasks = d.tasks := by unfold Device.markDirty; split <;> rfl
  rw [foldl_keeps Device.tasks _ (fun d g => mark d g), foldl_keeps Device.tasks _ (fun d x => d.tasks_event _ _ _ _ x _),
    Device.tasks_countHub, Device.tasks_countHub]

/-- Where there is room, a message takes a parking record (R315); its core counts it, and a message for no queue is told. -/
theorem Device.parkMsg_frame (d : Device) (c : Nat) (m : Msg) (cause : Nat) (room : d.hub.parkHeld < parkRecords) :
    (d.parkMsg c m cause).2.hub.parkHeld = d.hub.parkHeld + 1 ∧ (d.parkMsg c m cause).2.tasks = d.tasks
      ∧ (∀ x, ((d.parkMsg c m cause).2.core x).noBooks = (d.core x).noBooks)
      ∧ (cause = 3 → (d.parkMsg c m cause).2.lastRecord = some (0x0008, 3, 1, c)) := by
  unfold Device.parkMsg
  extract_lets seq who i h a b e
  rw [if_neg (Nat.not_le.2 room)]
  have beside := d.besideBooks_stagePut (0x9700000 + 64 * i) (m.marked ++ unmarked h)
  have heldA : a.hub.parkHeld = d.hub.parkHeld := (congrArg (fun d : Device => d.hub.parkHeld) beside :)
  have tasksA : a.tasks = d.tasks := d.tasks_stagePut _ _
  have coresA : a.cores = d.cores := (congrArg Device.cores beside :)
  clear_value a
  have held : e.hub.parkHeld = d.hub.parkHeld + 1 := by
    simp only [e, Device.countCore, if_neg Nat.one_ne_zero]
    exact congrArg (· + 1) heldA
  have tasks : e.tasks = d.tasks := by
    simp only [e, Device.countCore, if_neg Nat.one_ne_zero]
    exact tasksA
  have cores (x : Nat) : (e.core x).noBooks = (d.core x).noBooks := by
    simp only [e]
    have same : b.core x = d.core x := by unfold Device.core; exact congrArg (Sparse.get Core.reset · x) coresA
    by_cases here : x = c
    · rw [here, Device.noBooks_countCore, ← here, same]
    · rw [Device.core_countCore_other _ _ _ here, same]
  clear_value e
  dsimp only
  split
  · next three =>
    refine ⟨?_, ?_, fun x => ?_, fun _ => ?_⟩
    · rw [Device.event, Device.log_eq]; exact held
    · rw [Device.tasks_event]; exact tasks
    · rw [Device.core_event]; exact cores x
    · exact Device.lastRecord_log _ _
  · next other => exact ⟨held, tasks, cores, fun three => absurd three other⟩

/-- The device with a message taken off what is on its way to core c. -/
def Device.msgTaken (d : Device) (c i : Nat) : Device := d.onCore c (fun k => { k with msgIn := k.msgIn.eraseIdx i })

theorem Device.core_msgTaken (d : Device) (c i : Nat) :
    (d.msgTaken c i).core c = { d.core c with msgIn := (d.core c).msgIn.eraseIdx i } := Device.core_onCore_same _ _ _

theorem Device.queueHolder_congr {d e : Device} {c : Nat} (tasks : e.tasks = d.tasks) (bounds : (e.core c).bounds = (d.core c).bounds)
    (mq : Nat) : e.queueHolder c mq = d.queueHolder c mq := by
  unfold Device.queueHolder Core.bound
  simp only [Device.slotsOn_congr tasks, bounds]

theorem Device.queueHolder_msgTaken (d : Device) (c i mq : Nat) : (d.msgTaken c i).queueHolder c mq = d.queueHolder c mq := by
  have tasks : (d.msgTaken c i).tasks = d.tasks := rfl
  exact Device.queueHolder_congr tasks (by rw [Device.core_msgTaken]) mq

section
variable {s : State} {c : Nat} (known : s.dev.hasCore c = true)
include known

theorem queueArrival_nothing (nothing : nextMsg (s.dev.core c).msgIn s.dev.msgWaits = none) : Becomes (.queueArrival c) s s.dev := by
  refine .onUnit (show _ = execQueueArrival c s from rfl) known ?_
  rw [nothing]

variable {i : Nat} (next : nextMsg (s.dev.core c).msgIn s.dev.msgWaits = some i)
include next

theorem queueArrival_wakes (low : (s.dev.core c).power.state ≠ 0) :
    Becomes (.queueArrival c) s (s.dev.forceWake c (nth (s.dev.core c).msgIn i Msg.reset).dev) := by
  refine .onUnit (show _ = execQueueArrival c s from rfl) known ?_
  rw [next]
  exact if_pos (by simpa using low)

variable (active : (s.dev.core c).power.state = 0)
include active

theorem queueArrival_arrives {m : Msg} (msg : nth (s.dev.core c).msgIn i Msg.reset = m)
    (live : ∀ t, s.dev.queueHolder c m.mq = some t → (s.dev.task t).replay = none
      ∨ qOpen ((s.dev.core c).qEntry t (m.mq - qBase ((s.dev.core c).bound t))) = false) :
    Becomes (.queueArrival c) s ((s.dev.msgTaken c i).arrive c m) := by
  refine .onUnit (show _ = execQueueArrival c s from rfl) known ?_
  rw [next]
  dsimp only
  rw [if_neg (by rw [active]; decide), msg]
  generalize ha : s.dev.onCore c (fun k => { k with msgIn := k.msgIn.eraseIdx i }) = a
  have core : a.core c = { s.dev.core c with msgIn := (s.dev.core c).msgIn.eraseIdx i } := by rw [← ha, Device.core_onCore_same]
  have taken : s.dev.msgTaken c i = a := ha
  have tasks : a.tasks = s.dev.tasks := by rw [← ha]; rfl
  rw [taken]
  clear ha taken
  split
  · rfl
  · next t held =>
    refine if_neg ?_
    rw [Device.queueHolder_congr tasks (by rw [core])] at held
    have entry : (a.core c).qEntry t (m.mq - qBase ((a.core c).bound t))
        = (s.dev.core c).qEntry t (m.mq - qBase ((s.dev.core c).bound t)) := by rw [core]; rfl
    rw [entry, Device.task_of_tasks tasks]
    rcases live t held with quiet | shut
    · rw [quiet]; exact Bool.false_ne_true
    · rw [shut, Bool.and_false]; exact Bool.false_ne_true

end

/-! ### Where a message goes (R307, R313) -/

theorem Device.arrive_unheld {d : Device} {c : Nat} {m : Msg} (free : d.queueHolder c m.mq = none) :
    d.arrive c m = ((d.sendDone m).parkMsg c m 3).2 := by
  unfold Device.arrive
  rw [free]
  dsimp only
  exact if_pos (by decide)

theorem Device.arrive_held {d : Device} {c t : Nat} {m : Msg} (held : d.queueHolder c m.mq = some t)
    (idle : (d.core c).issue = none) (real_ : qCap ((d.core c).qEntry t (m.mq - qBase ((d.core c).bound t))) ≠ 0) :
    let e := (d.core c).qEntry t (m.mq - qBase ((d.core c).bound t))
    let q := (d.core c).qState m.mq
    d.arrive c m = if q.overflowed then (d.sendDone m).parkArrival c (some t) m e 2
      else if m.openSlot && !qOpen e then (d.sendDone m).parkArrival c (some t) m e 1
      else if qCap e ≤ q.count then (d.sendDone m).parkArrival c (some t) m e 0
      else (d.sendDone m).acceptMsg c t m e := by
  have count : (d.core c).countNow m.mq = ((d.core c).qState m.mq).count := by
    unfold Core.countNow
    rw [idle]
    rfl
  dsimp only
  unfold Device.arrive
  rw [held]
  dsimp only
  rw [if_neg real_, count]

theorem Core.qState_onQueue (k : Core) (mq x : Nat) (f : QState → QState) :
    (k.onQueue mq f).qState x = if x = mq then f (k.qState mq) else k.qState x := by
  unfold Core.qState Core.onQueue
  exact Sparse.get_upd QState.reset k.queues mq f x

/-- An accepted message takes the entry TAIL of its queue. -/
theorem Device.acceptMsg_frame (d : Device) (c t : Nat) (m : Msg) (e : Nat) (real_ : qCap e ≠ 0) :
    (((d.acceptMsg c t m e).core c).qState m.mq).tail = (((d.core c).qState m.mq).tail + 1) % qCap e
    ∧ (((d.acceptMsg c t m e).core c).qState m.mq).count = ((d.core c).qState m.mq).count + 1
    ∧ ((d.acceptMsg c t m e).core c).msgIn = (d.core c).msgIn
    ∧ ∀ x, x ≠ m.mq → ((d.acceptMsg c t m e).core c).qState x = (d.core c).qState x := by
  have core : (d.acceptMsg c t m e).core c = (d.core c).onQueue m.mq (fun q => { q with
      tail := (q.tail + 1) % max 1 (qCap e), count := q.count + 1, wait := q.wait ++ [(q.tail, m.marked, false, (d.core c).cyc)] }) := by
    unfold Device.acceptMsg
    extract_lets a b
    have cores : b.cores = a.cores := by simp only [b]; split <;> rfl
    have own : a.core c = (d.core c).onQueue m.mq (fun q => { q with
      tail := (q.tail + 1) % max 1 (qCap e), count := q.count + 1, wait := q.wait ++ [(q.tail, m.marked, false, (d.core c).cyc)] }) :=
      Device.core_onCore_same d c _
    clear_value a b
    have logged : (if qOpen e = true then b.logEvent t 5 (some c) m.mq m.desc else b).cores = a.cores := by
      split
      · exact (b.logEvent_frame t 5 (some c) m.mq m.desc).1.trans cores
      · exact cores
    rw [← own, Device.core, logged]
    rfl
  have cap : max 1 (qCap e) = qCap e := by omega
  rw [core]
  simp only [Core.qState_onQueue, if_true, cap]
  exact ⟨trivial, trivial, rfl, fun x other => if_neg other⟩

/-- A fault parks nothing. -/
theorem Device.parkHeld_fault (d : Device) (t code cause unitKind unit sc dHi dLo : Nat) :
    (d.fault t code cause unitKind unit sc dHi dLo).hub.parkHeld = d.hub.parkHeld := by
  have matched (d : Device) (t beat sc : Nat) : (d.matchFaults t beat sc).hub.parkHeld = d.hub.parkHeld := by
    unfold Device.matchFaults
    split
    · split <;> rfl
    · rfl
  have logged (r : HealthRec) : (d.log r).hub.parkHeld = d.hub.parkHeld := by rw [Device.log_eq]; rfl
  unfold Device.fault
  extract_lets k sec pair blank r a b
  have stopped : b.hub.parkHeld = d.hub.parkHeld := by
    simp only [b]
    rw [(a.stopTask_frame t).2.2.2.1]
    exact logged r
  split
  · exact logged r
  · split
    · exact stopped
    · split
      · exact (matched _ _ _ _).trans stopped
      · exact stopped

/-- A message that is not accepted is parked, its queue has overflowed, and its task stops (R313, R314). -/
theorem Device.parkArrival_frame (d : Device) (c t : Nat) (m : Msg) (e n : Nat) (task : n ≠ 3) (room : d.hub.parkHeld < parkRecords)
    (alive : (d.task t).state ≠ 5) :
    let g := d.parkArrival c (some t) m e n
    g.hub.parkHeld = d.hub.parkHeld + 1 ∧ ((g.core c).qState m.mq).overflowed = true ∧ (g.core c).msgIn = (d.core c).msgIn
      ∧ (g.task t).stopping = true ∧ g.lastRecord = some (0x0107, n, 1, c) := by
  obtain ⟨held, tasks, cores, -⟩ := d.parkMsg_frame c m n room
  dsimp only
  unfold Device.parkArrival
  generalize d.parkMsg c m n = p at held tasks cores
  obtain ⟨i, a⟩ := p
  dsimp -zeta only at held tasks cores ⊢
  rw [if_neg task]
  extract_lets x b
  have core : b.core c = (a.core c).onQueue m.mq (fun q => { q with overflowed := true }) := Device.core_onCore_same a c _
  have heldB : b.hub.parkHeld = d.hub.parkHeld + 1 := held
  have state : (b.task t).state ≠ 5 := by rwa [Device.task_of_tasks (show b.tasks = d.tasks from tasks)]
  have msgs : (b.core c).msgIn = (d.core c).msgIn := by rw [core]; exact (congrArg Core.msgIn (cores c) :)
  clear_value b
  have fault (y : Nat) := b.unstopped_core_fault t 0x0107 n 1 c (b.core c).lastSc (x / 2 ^ 64) (x % 2 ^ 64) y
  unfold Device.coreFault
  refine ⟨(b.parkHeld_fault ..).trans heldB, ?_, (congrArg Core.msgIn (fault c) :).trans msgs,
    Device.stopping_fault _ _ _ _ _ _ _ _ _ state, Device.lastRecord_fault ..⟩
  · have queues : ((b.fault t 0x0107 n 1 c (b.core c).lastSc (x / 2 ^ 64) (x % 2 ^ 64)).core c).qState m.mq = (b.core c).qState m.mq :=
      (congrArg (fun k : Core => k.qState m.mq) (fault c) :)
    rw [queues, core, Core.qState_onQueue, if_pos rfl]

section
variable {s : State} {c : Nat} (known : s.dev.hasCore c = true) {i : Nat} (next : nextMsg (s.dev.core c).msgIn s.dev.msgWaits = some i)
  (active : (s.dev.core c).power.state = 0)
include known next active

theorem queueArrival_parks (free : s.dev.queueHolder c (nth (s.dev.core c).msgIn i Msg.reset).mq = none)
    (room : s.dev.hub.parkHeld < parkRecords) :
    Completes (.queueArrival c) s (fun d => d.hub.parkHeld = s.dev.hub.parkHeld + 1
      ∧ (d.core c).msgIn = (s.dev.core c).msgIn.eraseIdx i ∧ (d.core c).queues = (s.dev.core c).queues ∧ d.tasks = s.dev.tasks
      ∧ d.lastRecord = some (0x0008, 3, 1, c)) := by
  refine (queueArrival_arrives known next active rfl fun t held => absurd (free.symm.trans held) (by simp)).completes_withBeat ?_
  generalize nth (s.dev.core c).msgIn i Msg.reset = m at free ⊢
  have core := s.dev.core_msgTaken c i
  rw [Device.arrive_unheld ((s.dev.queueHolder_msgTaken c i m.mq).trans free)]
  obtain ⟨sends, tasks, hub⟩ := (s.dev.msgTaken c i).sendDone_frame m
  have before := (sends c).trans (congrArg Core.noSends core)
  generalize (s.dev.msgTaken c i).sendDone m = e at tasks hub before
  have heldE : e.hub = s.dev.hub := hub
  obtain ⟨held, tasksP, cores, record⟩ := e.parkMsg_frame c m 3 (by rwa [heldE])
  refine ⟨held.trans (by rw [heldE]), ?_, ?_, tasksP.trans tasks, record rfl⟩
  · exact (congrArg Core.msgIn (cores c) :).trans (congrArg Core.msgIn before :)
  · exact (congrArg Core.queues (cores c) :).trans (congrArg Core.queues before :)

variable (idle : (s.dev.core c).issue = none) {t : Nat} {m : Msg} (msg : nth (s.dev.core c).msgIn i Msg.reset = m)
  {e : Nat} (entry : (s.dev.core c).qEntry t (m.mq - qBase ((s.dev.core c).bound t)) = e)
  (holder : s.dev.queueHolder c m.mq = some t) (live : (s.dev.task t).replay = none ∨ qOpen e = false) (real_ : qCap e ≠ 0)
include idle msg entry holder live real_

/-- Why a message is not accepted (R313): the first cause that applies. -/
def msgRefusal (q : QState) (m : Msg) (e : Nat) : Option Nat :=
  if q.overflowed then some 2 else if m.openSlot && !qOpen e then some 1 else if qCap e ≤ q.count then some 0 else none

theorem queueArrival_at : Becomes (.queueArrival c) s (match msgRefusal ((s.dev.core c).qState m.mq) m e with
    | none => ((s.dev.msgTaken c i).sendDone m).acceptMsg c t m e
    | some n => ((s.dev.msgTaken c i).sendDone m).parkArrival c (some t) m e n) := by
  have row := queueArrival_arrives known next active msg fun u held => by
    rw [Option.some.inj (holder.symm.trans held)] at entry live
    rwa [entry]
  have core := s.dev.core_msgTaken c i
  have heldA : (s.dev.msgTaken c i).queueHolder c m.mq = some t := (s.dev.queueHolder_msgTaken c i m.mq).trans holder
  have entryA : ((s.dev.msgTaken c i).core c).qEntry t (m.mq - qBase (((s.dev.msgTaken c i).core c).bound t)) = e := by
    rw [core]; exact entry
  have queueA : ((s.dev.msgTaken c i).core c).qState m.mq = (s.dev.core c).qState m.mq := by rw [core]; rfl
  have arrives := Device.arrive_held heldA (by rw [core]; exact idle) (by rwa [entryA])
  dsimp only at arrives
  rw [entryA, queueA] at arrives
  rw [arrives] at row
  unfold msgRefusal
  split_ifs at row ⊢ <;> exact row

theorem queueArrival_accepts (accepted : msgRefusal ((s.dev.core c).qState m.mq) m e = none) :
    Completes (.queueArrival c) s (fun d => ((d.core c).qState m.mq).tail = (((s.dev.core c).qState m.mq).tail + 1) % qCap e
      ∧ ((d.core c).qState m.mq).count = ((s.dev.core c).qState m.mq).count + 1
      ∧ (d.core c).msgIn = (s.dev.core c).msgIn.eraseIdx i
      ∧ (∀ x, x ≠ m.mq → (d.core c).qState x = (s.dev.core c).qState x)) := by
  refine (queueArrival_at known next active idle msg entry holder live real_).completes_withBeat ?_
  rw [accepted]
  dsimp only
  obtain ⟨sends, -, -⟩ := (s.dev.msgTaken c i).sendDone_frame m
  have before := (sends c).trans (congrArg Core.noSends (s.dev.core_msgTaken c i))
  generalize (s.dev.msgTaken c i).sendDone m = a at before
  have queue (x : Nat) : (a.core c).qState x = (s.dev.core c).qState x := (congrArg (fun k : Core => k.qState x) before :)
  obtain ⟨tail, count, msgs, others⟩ := a.acceptMsg_frame c t m e real_
  refine ⟨?_, ?_, msgs.trans (congrArg Core.msgIn before :), fun x other => (others x other).trans (queue x)⟩
  · rw [Device.core_withBeat, tail, queue]
  · rw [Device.core_withBeat, count, queue]

theorem queueArrival_overflows {n : Nat} (refused : msgRefusal ((s.dev.core c).qState m.mq) m e = some n)
    (room : s.dev.hub.parkHeld < parkRecords) (alive : (s.dev.task t).state ≠ 5) :
    Completes (.queueArrival c) s (fun d => d.hub.parkHeld = s.dev.hub.parkHeld + 1
      ∧ ((d.core c).qState m.mq).overflowed = true ∧ (d.core c).msgIn = (s.dev.core c).msgIn.eraseIdx i
      ∧ (d.task t).stopping = true ∧ d.lastRecord = some (0x0107, n, 1, c)) := by
  refine (queueArrival_at known next active idle msg entry holder live real_).completes_withBeat ?_
  rw [refused]
  dsimp only
  obtain ⟨sends, tasks, hub⟩ := (s.dev.msgTaken c i).sendDone_frame m
  have before := (sends c).trans (congrArg Core.noSends (s.dev.core_msgTaken c i))
  generalize (s.dev.msgTaken c i).sendDone m = a at before tasks hub
  have three : n ≠ 3 := by
    unfold msgRefusal at refused
    split_ifs at refused <;> rw [← Option.some.inj refused] <;> decide
  have hubA : a.hub = s.dev.hub := hub
  obtain ⟨held, over_, msgs, stops, record⟩ := a.parkArrival_frame c t m e n three (by rwa [hubA])
    (by rwa [Device.task_of_tasks (show a.tasks = s.dev.tasks from tasks)])
  exact ⟨held.trans (by rw [hubA]), over_, msgs.trans (congrArg Core.msgIn before :), stops, record⟩

end

/-- Settles O53: the bank's order by `Device.bestAccess_ready`, the end of a copy by `Device.copyEnded`, and the arrival of a message
by `Device.arrive_held`. -/
theorem copyRows : Obligations.CopyRows := by
  unfold Obligations.CopyRows
  refine ⟨fun s c bank fresh known => ⟨copyAccess_idle known bank fresh, copyAccess_wakes known bank fresh, ?_, ?_⟩,
    fun s c id known idle still => ⟨copyComplete_gone known, fun x found flies => copyComplete_flies known found flies,
      fun x found full => copyComplete_clears known still found full,
      fun x t found full whole own some_ goes holder fits =>
        copyComplete_raises known still found full goes idle whole own some_ holder fits,
      fun x found full short goes => copyComplete_short known still found full goes short⟩,
    fun s c known idle => ⟨queueArrival_nothing known, fun i next low => queueArrival_wakes known next low,
      fun i next active free room => queueArrival_parks known next active free room,
      fun i t next active holder live real_ =>
        ⟨fun accepted => queueArrival_accepts known next active idle rfl rfl holder live real_ accepted,
          fun n refused room alive => queueArrival_overflows known next active idle rfl rfl holder live real_ refused room alive⟩⟩⟩
  · rintro present waits active rfl
    refine ⟨fun idle => ?_, fun a inside unused best => ⟨?_, Device.bestAccess_ready best⟩⟩
    · have row := copyAccess_accesses known bank present waits active
      rwa [Device.accessBank_idle idle] at row
    · have row := copyAccess_accesses known bank present waits active
      rwa [Device.accessBank_run inside unused best] at row
  · rintro present waits active rfl
    exact ⟨copyAccess_fresh known bank present waits active, copyAccess_runs known bank present waits active⟩

end Sys2Proof.Machine

/-! PROOFS about what the movers of bytes leave alone: the flow of copies (R80, R241 to R270), and what follows the packets of a TAG
(R356, R357). -/

namespace Sys2Proof.Machine

set_option Elab.async false

open Sys2Proof

/-! ### The flow of copies -/

/-- A device with what the flow of copies works on hidden: counts and records, the twin logic, cores and tasks, hub staging, the
ledger and the crossings. -/
def Device.besideMoves (d : Device) : Device := { d with
  hub := Hub.reset, twin := Twin.reset, cores := [], tasks := [], staging := Mem.reset, ledger := [], cross := [], crossNum := 0 }

theorem Device.besideMoves_of_noHub {d e : Device} (h : d.noHub = e.noHub) : d.besideMoves = e.besideMoves :=
  (congrArg Device.besideMoves h :)

theorem Device.besideMoves_stageRead (d : Device) (a n : Nat) : (d.stageRead a n).2.besideMoves = d.besideMoves := by
  unfold Device.stageRead
  dsimp only
  have count (d : Device) (i n : Nat) : (d.countHub i n).besideMoves = d.besideMoves := by unfold Device.countHub; split <;> rfl
  rw [foldl_keeps Device.besideMoves _ (fun d x => Device.besideMoves_of_noHub (d.event_noHub _ _ _ _ x _)), count, count, count]
  rfl

theorem Device.besideMoves_stageWrite (d : Device) (a : Nat) (data : List (BitVec 8 × Bool)) :
    (d.stageWrite a data).besideMoves = d.besideMoves := by
  have mark (d : Device) (g : Nat) : (d.markDirty 2 g).besideMoves = d.besideMoves := by unfold Device.markDirty; split <;> rfl
  have count (d : Device) (i n : Nat) : (d.countHub i n).besideMoves = d.besideMoves := by unfold Device.countHub; split <;> rfl
  unfold Device.stageWrite Device.stagePut
  dsimp only
  rw [foldl_keeps Device.besideMoves _ (fun d g => mark d g),
    foldl_keeps Device.besideMoves _ (fun d x => Device.besideMoves_of_noHub (d.event_noHub _ _ _ _ x _)), count, count]
  unfold Device.digestWrite
  split
  · refine (foldl_keeps Device.besideMoves _ (fun d t => ?_) _ d)
    rfl
  · rfl

theorem Device.besideMoves_crossMove (d : Device) (q : Nat) : (d.crossMove q).besideMoves = d.besideMoves := by
  unfold Device.crossMove
  split
  · rfl
  · dsimp only
    split
    · rfl
    · split
      · rfl
      · split <;> rfl

theorem Device.besideMoves_crossFlow (d : Device) : d.crossFlow.besideMoves = d.besideMoves :=
  foldl_keeps Device.besideMoves _
    (fun d _ => foldl_keeps Device.besideMoves _ (fun d (e : Nat × List CrossItem) => d.besideMoves_crossMove e.1) _ d) _ _

theorem Device.besideMoves_crossPush (d : Device) (c id off : Nat) : (d.crossPush c id off).besideMoves = d.besideMoves := by
  unfold Device.crossPush
  split
  · rfl
  · dsimp only
    split
    · rfl
    · rw [Device.besideMoves_crossFlow]
      split <;> rfl

theorem Device.besideMoves_crossTake (d : Device) (c id : Nat) : (d.crossTake c id).besideMoves = d.besideMoves := by
  unfold Device.crossTake
  split
  · rfl
  · exact Device.besideMoves_crossFlow _

theorem Device.besideMoves_onCopy (d : Device) (c id : Nat) (f : Copy → Copy) : (d.onCopy c id f).besideMoves = d.besideMoves := rfl

theorem Device.besideMoves_raiseCopy (d : Device) (c t flags : Nat) : (d.raiseCopy c t flags).besideMoves = d.besideMoves := by
  have raised : (d.raise c t flags).besideMoves = d.besideMoves := by unfold Device.raise; split <;> rfl
  unfold Device.raiseCopy
  split
  · exact raised
  · exact both_branches Device.besideMoves raised rfl

theorem Device.besideMoves_copyGot (d : Device) (c id off : Nat) (data : List (BitVec 8 × Bool)) (source a : Nat) :
    (d.copyGot c id off data source a).besideMoves = d.besideMoves := by
  have clear_ (d : Device) (c id : Nat) : (d.clearSource c id).besideMoves = d.besideMoves := by
    unfold Device.clearSource
    split
    · rfl
    · split <;> rfl
  have count (d : Device) (c i n : Nat) : (d.countCore c i n).besideMoves = d.besideMoves := by unfold Device.countCore; split <;> rfl
  have consume (d : Device) (t c a source n : Nat) : (d.consume t c a source n).besideMoves = d.besideMoves := by
    unfold Device.consume; split <;> rfl
  unfold Device.copyGot
  split
  · rfl
  · dsimp only
    rw [Device.besideMoves_crossPush, clear_]
    split
    · rw [consume, count]; rfl
    · rw [count]; rfl

theorem Device.besideMoves_copyForm (d : Device) (c : Nat) (x : Copy) (off n : Nat) : (d.copyForm c x off n).2.besideMoves = d.besideMoves := by
  unfold Device.copyForm
  dsimp only
  rw [Device.besideMoves_crossTake, Device.besideMoves_onCopy, Device.besideMoves_raiseCopy]

/-- A device with the packets that the flow of copies sends hidden too. -/
def Device.besideFlow (d : Device) : Device := { d.besideMoves with fabric := { d.fabric with openIn := [], ports := [] } }

theorem Device.besideFlow_of_besideMoves {d e : Device} (h : d.besideMoves = e.besideMoves) : d.besideFlow = e.besideFlow :=
  (congrArg Device.besideFlow h :)

theorem Device.besideFlow_sendPacket (d : Device) (dev : Nat) (pk : Packet) : (d.sendPacket dev pk).besideFlow = d.besideFlow := by
  unfold Device.sendPacket
  split
  · rfl
  · dsimp only
    split <;> rfl

theorem Device.besideFlow_originate (d : Device) (t dev : Nat) (pk : Packet) : (d.originate t dev pk).besideFlow = d.besideFlow := by
  unfold Device.originate Device.meterFabric
  rw [Device.besideFlow_sendPacket]
  rfl

theorem Device.besideFlow_copyFlow (d : Device) (c id : Nat) : (d.copyFlow c id).besideFlow = d.besideFlow := by
  unfold Device.copyFlow
  split
  · rfl
  · next x _ =>
    extract_lets key tag read pieces blank asked
    have reading : read.besideFlow = d.besideFlow := by
      refine both_branches Device.besideFlow (foldl_keeps Device.besideFlow _ (fun d p => ?_) _ _) rfl
      refine both_branches Device.besideFlow rfl ?_
      exact Device.besideFlow_of_besideMoves ((Device.besideMoves_copyGot _ _ _ _ _ _ _).trans (d.besideMoves_stageRead _ _))
    have asking : asked.besideFlow = d.besideFlow := by
      refine (both_branches Device.besideFlow (foldl_keeps Device.besideFlow _ (fun d p => ?_) _ _) rfl).trans reading
      split
      · rfl
      · refine both_branches Device.besideFlow rfl ?_
        exact (Device.besideFlow_of_besideMoves (Device.besideMoves_onCopy _ _ _ _)).trans (Device.besideFlow_originate _ _ _ _)
    refine Eq.trans ?_ asking
    refine both_branches Device.besideFlow (foldl_keeps Device.besideFlow _ (fun d p => ?_) _ _)
      (both_branches Device.besideFlow (foldl_keeps Device.besideFlow _ (fun d p => ?_) _ _) rfl)
    · split
      · rfl
      · refine both_branches Device.besideFlow rfl ?_
        exact Device.besideFlow_of_besideMoves ((Device.besideMoves_stageWrite _ _ _).trans (d.besideMoves_copyForm _ _ _ _))
    · split
      · rfl
      · refine both_branches Device.besideFlow rfl ?_
        exact (Device.besideFlow_originate _ _ _ _).trans (Device.besideFlow_of_besideMoves (d.besideMoves_copyForm _ _ _ _))

/-- The flow of copies leaves all that its mask shows. -/
theorem Device.besideFlow_flowAll (d : Device) : d.flowAll.besideFlow = d.besideFlow :=
  foldl_keeps Device.besideFlow _ (fun d (e : Nat × Core) =>
    foldl_keeps Device.besideFlow _ (fun d (x : Copy) => d.besideFlow_copyFlow e.1 x.id) _ d) _ _

/-! ### What follows the last packet of a TAG -/

/-- A device with what the packets of a TAG work on hidden. -/
def Device.besideTags (d : Device) : Device := { d.steady with
  fabric := { d.fabric with openIn := [], ports := [], landedTag := [], lasts := [] }, ledger := [] }

theorem Device.besideTags_of_steady {d e : Device} (h : d.steady = e.steady) : d.besideTags = e.besideTags :=
  (congrArg Device.besideTags h :)

theorem Device.besideTags_sendPacket (d : Device) (dev : Nat) (pk : Packet) : (d.sendPacket dev pk).besideTags = d.besideTags := by
  unfold Device.sendPacket
  split
  · rfl
  · dsimp only
    split <;> rfl

theorem Device.besideTags_answer (d : Device) (p : Packet) (dest aux op : Nat) (last : Bool) (data : List (BitVec 8 × Bool)) :
    (d.answer p dest aux op last data).besideTags = d.besideTags := by
  unfold Device.answer Device.meterFabric
  rw [Device.besideTags_sendPacket]
  rfl

theorem Device.besideTags_openKey (d : Device) (p : Packet) : (d.openKey p).besideTags = d.besideTags := by
  unfold Device.openKey
  dsimp only
  split
  · rfl
  · exact (Device.besideTags_of_steady (Device.steady_addKey ..)).trans rfl

theorem Device.besideTags_settleLast (d : Device) (p : Packet) : (d.settleLast p).besideTags = d.besideTags := by
  unfold Device.settleLast
  extract_lets here key fabric keep back n dropped m e f
  have kept : keep.besideTags = d.besideTags := rfl
  refine both_branches Device.besideTags kept ?_
  split
  · refine both_branches Device.besideTags (d.besideTags_openKey p) ?_
    exact (congrArg (fun g : Device => ({ g with fabric := d.besideTags.fabric, ledger := [] } : Device))
      (d.steady_forceWake here p.srcDev) :)
  · refine both_branches Device.besideTags kept (both_branches Device.besideTags rfl ?_)
    exact (Device.besideTags_answer ..).trans rfl
  · have counted : e.besideTags = d.besideTags := both_branches Device.besideTags rfl rfl
    refine both_branches Device.besideTags kept ((Device.besideTags_answer ..).trans ?_)
    exact both_branches Device.besideTags counted ((Device.besideTags_answer ..).trans counted)

theorem Device.besideTags_settleTags (d : Device) : d.settleTags.besideTags = d.besideTags := by
  unfold Device.settleTags
  exact (foldl_keeps Device.besideTags _ (fun d p => d.besideTags_settleLast p) _ _).trans rfl

theorem Device.besideTags_addLanded (d : Device) (w : Nat × Nat × Nat) (n : Nat) : (d.addLanded w n).besideTags = d.besideTags := rfl

theorem Device.besideTags_answerRead (d : Device) (r : Req) : (d.answerRead r).besideTags = d.besideTags :=
  (Device.besideTags_answer ..).trans rfl

/-! ### The number of the tick -/

theorem Device.tick_dramWrite (d : Device) (a : Nat) (data : List (BitVec 8 × Bool)) : (d.dramWrite a data).tick = d.tick :=
  (congrArg Device.tick (d.besideBooks_dramWrite a data) :)

theorem Device.tick_dramRead (d : Device) (a n : Nat) : (d.dramRead a n).2.tick = d.tick :=
  (congrArg Device.tick (d.besideBooks_dramRead a n) :)

theorem Device.tick_countCore (d : Device) (c i n : Nat) : (d.countCore c i n).tick = d.tick := by
  unfold Device.countCore; split <;> rfl

theorem Device.tick_countHub (d : Device) (i n : Nat) : (d.countHub i n).tick = d.tick := by
  unfold Device.countHub; split <;> rfl

theorem Device.tick_meterDram (d : Device) (t : Option Nat) (k bytes units : Nat) : (d.meterDram t k bytes units).tick = d.tick := rfl

theorem Device.tick_copyForm (d : Device) (c : Nat) (x : Copy) (off n : Nat) : (d.copyForm c x off n).2.tick = d.tick :=
  (congrArg Device.tick (d.besideMoves_copyForm c x off n) :)

theorem Device.tick_copyGot (d : Device) (c id off : Nat) (data : List (BitVec 8 × Bool)) (source a : Nat) :
    (d.copyGot c id off data source a).tick = d.tick := (congrArg Device.tick (d.besideMoves_copyGot c id off data source a) :)

theorem Device.tick_copyFlow (d : Device) (c id : Nat) : (d.copyFlow c id).tick = d.tick :=
  (congrArg Device.tick (d.besideFlow_copyFlow c id) :)

theorem Device.tick_settleTags (d : Device) : d.settleTags.tick = d.tick := (congrArg Device.tick d.besideTags_settleTags :)

theorem Device.tick_answerRead (d : Device) (r : Req) : (d.answerRead r).tick = d.tick :=
  (congrArg Device.tick (d.besideTags_answerRead r) :)

theorem Device.tick_hostLanded (d : Device) (kind a : Nat) (bs : List (BitVec 8)) : (d.hostLanded kind a bs).tick = d.tick :=
  (congrArg Device.tick (d.besideBooks_hostLanded kind a bs) :)

theorem Device.tick_serveGroup (d : Device) (e k g : Nat) : (d.serveGroup e k g).tick = d.tick := by
  unfold Device.serveGroup
  dsimp only
  split
  · split
    · rw [Device.tick_meterDram, Device.tick_countCore, Device.tick_dramWrite, Device.tick_copyForm]
    · exact d.tick_countCore _ _ _
  · split
    · rw [Device.tick_copyFlow, Device.tick_copyGot, Device.tick_meterDram, Device.tick_countCore, Device.tick_dramRead]
    · exact d.tick_countCore _ _ _

theorem Device.tick_windowTick (d : Device) (k tick : Nat) : (d.windowTick k tick).tick = d.tick := by
  unfold Device.windowTick
  dsimp only
  split
  · rfl
  · exact foldl_keeps Device.tick _ (fun d (e : Nat × Nat) => foldl_keeps Device.tick _ (fun d g => d.tick_serveGroup e.2 k g) _ d) _ _

theorem Device.tick_tickLogger (d : Device) (k : Nat) : (d.tickLogger k).tick = d.tick := by
  have free (d : Device) : d.freeRing.tick = d.tick := by unfold Device.freeRing; split <;> rfl
  unfold Device.tickLogger
  split
  · rfl
  · dsimp only
    refine both_branches Device.tick rfl (both_branches Device.tick rfl ?_)
    rw [free, Device.tick_countHub]
    exact d.tick_dramWrite _ _

theorem Device.tick_answerReads (d : Device) (core : Option Nat) : (d.answerReads core).tick = d.tick := by
  unfold Device.answerReads
  dsimp only
  split
  · rfl
  · rw [foldl_keeps Device.tick _ (fun d r => d.tick_answerRead r)]
    split <;> rfl

theorem Device.tick_openUnit (d : Device) (i off a n : Nat) : (d.openUnit i off a n).tick = d.tick := by
  unfold Device.openUnit
  extract_lets r left put b w h
  have put_ (d : Device) (x : Req) : (put d x).tick = d.tick := rfl
  have metered : b.tick = d.tick := rfl
  clear_value b put
  split
  · have written : h.tick = d.tick := by
      have stored : w.tick = d.tick := (Device.tick_dramWrite ..).trans ((put_ b _).trans metered)
      refine both_branches Device.tick ?_ stored
      rw [Device.tick_hostLanded, stored]
    refine both_branches Device.tick ?_ written
    rw [Device.tick_settleTags]
    exact written
  · dsimp only
    rw [Device.tick_answerReads]
    exact (b.tick_dramRead a n).trans metered

theorem Device.tick_tickOpen (d : Device) (k : Nat) : (d.tickOpen k).tick = d.tick := by
  unfold Device.tickOpen
  refine foldl_keeps Device.tick _ (fun d g => ?_) _ _
  dsimp only
  split
  · exact d.tick_openUnit _ _ _ _
  · rfl

theorem Device.tick_hostStore (d : Device) (kind a : Nat) (bs : List (BitVec 8)) : (d.hostStore kind a bs).tick = d.tick := by
  unfold Device.hostStore
  refine (congrArg Device.tick (Device.besideBooks_hostLanded ..) :).trans ?_
  split
  · exact d.tick_dramWrite _ _
  · exact (congrArg Device.tick (d.besideBooks_stageWrite a (unmarked bs)) :)

theorem Device.tick_hostInput (d : Device) (kind a : Nat) (bs : List (BitVec 8)) : (d.hostInput kind a bs).tick = d.tick := by
  unfold Device.hostInput
  dsimp only
  exact both_branches Device.tick rfl (both_branches Device.tick rfl (d.tick_hostStore kind a bs))

theorem Device.tick_hostCopyEnd (d : Device) (mb : Nat) : (d.hostCopyEnd mb).tick = d.tick := by
  unfold Device.hostCopyEnd
  dsimp only
  rw [Device.tick_finish]
  split
  · rw [Device.event, Device.log_eq]; rfl
  · rfl

theorem Device.tick_hostCopyMove (d : Device) (mb a n : Nat) : (d.hostCopyMove mb a n).tick = d.tick := by
  unfold Device.hostCopyMove
  extract_lets m kind host moved
  have read : (if kind = 1 then d.dramRead a n else d.stageRead a n).2.tick = d.tick := by
    split
    · exact d.tick_dramRead a n
    · exact (congrArg Device.tick (d.besideMoves_stageRead a n) :)
  have before : moved.tick = d.tick := by
    simp only [moved]
    refine both_branches Device.tick (d.tick_hostInput _ _ _) ?_
    generalize (if kind = 1 then d.dramRead a n else d.stageRead a n) = p at read
    obtain ⟨bs, e⟩ := p
    dsimp only at read ⊢
    split <;> exact read
  clear_value moved
  split
  · rfl
  · next done total _ =>
    extract_lets noted metered
    have after : metered.tick = d.tick := both_branches Device.tick before before
    exact both_branches Device.tick ((metered.tick_hostCopyEnd mb).trans after) after

theorem Device.tick_tickHost (d : Device) (k : Nat) : (d.tickHost k).tick = d.tick := by
  unfold Device.tickHost
  split
  · rfl
  · refine foldl_keeps Device.tick _ (fun d g => ?_) _ _
    split
    · rfl
    · exact (Device.tick_hostCopyMove ..).trans rfl

theorem Device.tick_refreshTick (d : Device) (k tick : Nat) : (d.refreshTick k tick).tick = d.tick := by
  unfold Device.refreshTick
  refine both_branches Device.tick (foldl_keeps Device.tick _ (fun d g => ?_) _ _) rfl
  exact both_branches Device.tick rfl rfl

end Sys2Proof.Machine

/-! PROOFS about the ticks of the stacks and forced refreshes (R275 to R287). -/

namespace Sys2Proof.Machine

set_option Elab.async false

open Sys2Proof

/-! ### A tick of the wall beat -/

/-- What a tick does on one stack. -/
def Device.tickStack (tick : Nat) (d : Device) (k : Nat) : Device :=
  if tick < 960 then d.windowTick k tick
  else
    (if tick < 976 then
      match tick % 4 with
      | 0 => d.tickLogger k
      | 1 => d.tickOpen k
      | 2 => d.tickHost k
      | _ => d
    else d).refreshTick k tick

/-- The stacks in their tick. -/
def Device.ticked (d : Device) : Device :=
  (((List.range 8).filter d.stackOn).foldl (Device.tickStack d.tick) { d with tick := d.tick + 1 }).flowAll

/-- Does tick 0 wait for a forced refresh? -/
def Device.tickWaits (d : Device) : Prop := d.tick = 0 ∧ ∃ k, k < 8 ∧ d.lapsed k ≠ []

theorem Device.tickWaits_iff (d : Device) : (d.tick == 0 && (List.range 8).any (fun k => d.lapsed k != [])) = true ↔ d.tickWaits := by
  simp [Device.tickWaits]

/-- The wall beat's ticks before alignment go round. -/
def Device.tickStart (d : Device) : Device := if d.tick = 1000 && !d.beat.aligned then { d with tick := 0 } else d

theorem execDramTick_eq (s : State) : exec .dramTick s = Machine.lift (fun d =>
    if !d.tickStart.writesOn || 1000 ≤ d.tickStart.tick
        || (d.tickStart.tick == 0 && (List.range 8).any (fun k => d.tickStart.lapsed k != [])) then d.tickStart
    else d.tickStart.ticked) s := rfl

theorem dramTick_idle {s : State} (idle : s.dev.tickStart.writesOn = false ∨ 1000 ≤ s.dev.tickStart.tick ∨ s.dev.tickStart.tickWaits) :
    Becomes .dramTick s s.dev.tickStart := by
  refine .lift (execDramTick_eq s) (if_pos ?_)
  rw [← Device.tickWaits_iff] at idle
  rcases idle with shut | last | waits
  · rw [shut]; rfl
  · simp [last]
  · rw [waits]; simp

theorem dramTick_ticks {s : State} (open_ : s.dev.tickStart.writesOn = true) (early : s.dev.tickStart.tick < 1000)
    (free : ¬ s.dev.tickStart.tickWaits) : Becomes .dramTick s s.dev.tickStart.ticked := by
  refine .lift (execDramTick_eq s) (if_neg ?_)
  rw [← Device.tickWaits_iff, Bool.not_eq_true] at free
  rw [open_, free]
  simpa using early

theorem Device.tickStart_early {d : Device} (early : d.tick < 1000) : d.tickStart = d := by
  refine if_neg ?_
  have : d.tick ≠ 1000 := Nat.ne_of_lt early
  simp [this]

theorem Device.tickStart_aligned {d : Device} (aligned : d.beat.aligned = true) : d.tickStart = d := by
  refine if_neg ?_
  rw [aligned]
  simp

theorem Device.tickStart_round {d : Device} (last : d.tick = 1000) (unaligned : d.beat.aligned = false) :
    d.tickStart = { d with tick := 0 } := by
  refine if_pos ?_
  rw [last, unaligned]
  rfl

theorem Device.tick_tickStack (tick : Nat) (d : Device) (k : Nat) : (d.tickStack tick k).tick = d.tick := by
  unfold Device.tickStack
  refine both_branches Device.tick (d.tick_windowTick k tick) ?_
  rw [Device.tick_refreshTick]
  refine both_branches Device.tick ?_ rfl
  split
  · exact d.tick_tickLogger k
  · exact d.tick_tickOpen k
  · exact d.tick_tickHost k
  · rfl

/-- A tick moves the number on. -/
theorem Device.tick_ticked (d : Device) : d.ticked.tick = d.tick + 1 := by
  have flowed (e : Device) : e.flowAll.tick = e.tick := (congrArg Device.tick e.besideFlow_flowAll :)
  unfold Device.ticked
  rw [flowed, foldl_keeps Device.tick _ (fun d k => d.tick_tickStack _ k)]

theorem foldl_of_fixed {α β : Type} {f : α → β → α} {a : α} {l : List β} (h : ∀ x ∈ l, f a x = a) : l.foldl f a = a := by
  induction l with
  | nil => rfl
  | cons x l ih =>
    rw [List.foldl_cons, h x List.mem_cons_self]
    exact ih fun y hy => h y (List.mem_cons_of_mem x hy)

/-- A tick that does nothing on any stack lets the copies go on that may. -/
theorem Device.ticked_quiet {d : Device} (quiet : ∀ k, k < 8 → ({ d with tick := d.tick + 1 } : Device).tickStack d.tick k
    = { d with tick := d.tick + 1 }) : d.ticked = ({ d with tick := d.tick + 1 } : Device).flowAll := by
  unfold Device.ticked
  exact congrArg Device.flowAll (foldl_of_fixed fun k hk => quiet k (List.mem_range.1 (List.mem_of_mem_filter hk)))

theorem Device.windowTick_quiet {d : Device} {k tick : Nat} (none_ : ∀ x ∈ d.windowEntries, entryOn x.1 x.2 d.beat.s k tick = false) :
    d.windowTick k tick = d := by
  have nothing : d.windowEntries.filter (fun e => entryOn e.1 e.2 d.beat.s k tick) = [] :=
    List.filter_eq_nil_iff.2 fun x hx => by rw [none_ x hx]; exact Bool.false_ne_true
  unfold Device.windowTick
  dsimp only
  rw [nothing]
  split <;> rfl

theorem Device.windowTick_forced {d : Device} {k tick : Nat} (forced : (d.stack k).forced = some d.beat.w) (early : tick ≤ 341) :
    d.windowTick k tick = d :=
  if_pos (by rw [forced]; simpa using early)

/-! ### Planned refreshes (R284) -/

theorem Device.refreshIn_congr {d e : Device} (tasks : e.tasks = d.tasks) (k g w : Nat) : e.refreshIn k g w = d.refreshIn k g w := by
  unfold Device.refreshIn Device.refreshEntry
  rw [Device.boundSlots_congr tasks]
  simp only [Device.task_of_tasks tasks]

/-- What the end of planned refreshes on a stack leaves, and the groups that it refreshes. -/
theorem Device.refreshTick_spec (d : Device) (k tick : Nat) (ends : tick = 991 ∨ tick = 999) :
    (d.refreshTick k tick).tasks = d.tasks ∧ (d.refreshTick k tick).beat = d.beat
    ∧ (∀ j, j ≠ k → (d.refreshTick k tick).stack j = d.stack j)
    ∧ ∀ g, g < 8 → d.refreshIn k g d.beat.w = some (tick == 999) →
      Sparse.get 0 ((d.refreshTick k tick).stack k).refreshed g = d.beat.w := by
  unfold Device.refreshTick
  rw [if_pos (by simpa using ends)]
  have each := foldl_establishes (l := List.range 8)
    (I := fun e : Device => e.tasks = d.tasks ∧ e.beat = d.beat ∧ ∀ j, j ≠ k → e.stack j = d.stack j)
    (P := fun g (e : Device) => d.refreshIn k g d.beat.w = some (tick == 999) → Sparse.get 0 (e.stack k).refreshed g = d.beat.w)
    (g := fun d g => if d.refreshIn k g d.beat.w == some (tick == 999) then
      d.onStack k (fun s => { s with refreshed := Sparse.set 0 s.refreshed g d.beat.w }) else d)
    (fun e g _ ⟨tasks, beat, others⟩ => by
      split
      · exact ⟨tasks, beat, fun j other => (Device.stack_onStack_other _ _ _ _ other).trans (others j other)⟩
      · exact ⟨tasks, beat, others⟩)
    (fun e g _ ⟨tasks, beat, _⟩ planned => by
      rw [Device.refreshIn_congr tasks, beat, planned, if_pos (beq_self_eq_true _), Device.stack_onStack_same]
      exact Sparse.get_set_same ..)
    (fun e g _ x ⟨_, beat, _⟩ was planned => by
      split
      · rw [Device.stack_onStack_same]
        refine (Sparse.get_set 0 _ g x e.beat.w).trans ?_
        split
        · rw [beat]
        · exact was planned
      · exact was planned) (d := d) ⟨rfl, rfl, fun _ _ => rfl⟩
  obtain ⟨⟨tasks, beat, others⟩, refreshed⟩ := each
  exact ⟨tasks, beat, others, fun g small => refreshed g (List.mem_range.2 small)⟩

theorem Device.tickStack_late {tick : Nat} (late : 976 ≤ tick) (d : Device) (k : Nat) : d.tickStack tick k = d.refreshTick k tick := by
  unfold Device.tickStack
  rw [if_neg (by omega), if_neg (by omega)]

/-- With tick 991 or 999 the groups whose planned refresh ends there have been refreshed. -/
theorem Device.ticked_refreshes (d : Device) (ends : d.tick = 991 ∨ d.tick = 999) {k g : Nat} (hk : k < 8) (hg : g < 8)
    (on : d.stackOn k = true) (planned : d.refreshIn k g d.beat.w = some (d.tick == 999)) :
    Sparse.get 0 (d.ticked.stack k).refreshed g = d.beat.w := by
  have flowed (e : Device) : e.flowAll.stack k = e.stack k := (congrArg (fun e : Device => e.stack k) e.besideFlow_flowAll :)
  unfold Device.ticked
  rw [flowed]
  have each := foldl_establishes (l := (List.range 8).filter d.stackOn)
    (I := fun e : Device => e.tasks = d.tasks ∧ e.beat = d.beat)
    (P := fun k (e : Device) => ∀ g, g < 8 → d.refreshIn k g d.beat.w = some (d.tick == 999) →
      Sparse.get 0 (e.stack k).refreshed g = d.beat.w)
    (g := Device.tickStack d.tick)
    (fun e k _ ⟨tasks, beat⟩ => by
      rw [Device.tickStack_late (by omega)]
      obtain ⟨same, time, -⟩ := e.refreshTick_spec k d.tick ends
      exact ⟨same.trans tasks, time.trans beat⟩)
    (fun e k _ ⟨tasks, beat⟩ g small planned => by
      rw [Device.tickStack_late (by omega)]
      obtain ⟨-, -, -, refreshed⟩ := e.refreshTick_spec k d.tick ends
      exact (refreshed g small (by rw [Device.refreshIn_congr tasks, beat, planned])).trans (by rw [beat]))
    (fun e k _ x ⟨tasks, beat⟩ was g small planned => by
      rw [Device.tickStack_late (by omega)]
      obtain ⟨-, -, others, refreshed⟩ := e.refreshTick_spec k d.tick ends
      by_cases same : x = k
      · subst same
        exact (refreshed g small (by rw [Device.refreshIn_congr tasks, beat, planned])).trans (by rw [beat])
      · rw [others x same]
        exact was g small planned) (d := { d with tick := d.tick + 1 }) ⟨rfl, rfl⟩
  exact each.2 k (List.mem_filter.2 ⟨List.mem_range.2 hk, on⟩) g hg planned

/-! ### The requests of a window tick (R278) -/

/-- A write stores the bytes of its request at its address. -/
theorem Device.serveGroup_write {d : Device} {e k g : Nat} {x : Copy} {off a n : Nat} (write : weWrite e = true)
    (request : d.dramWriteReq (weCore e) k g = some (x, off, a, n)) :
    (d.serveGroup e k g).dram.bytes = Sparse.setMany 0 d.dram.bytes a ((d.copyForm (weCore e) x off n).1.map (·.1)) := by
  have before : (d.copyForm (weCore e) x off n).2.dram = d.dram := (congrArg Device.dram (d.besideMoves_copyForm (weCore e) x off n) :)
  have count (d : Device) (t : Option Nat) : ((d.countCore (weCore e) 24 1).meterDram t k 256 1).dram = d.dram := rfl
  unfold Device.serveGroup
  dsimp only
  rw [if_pos write, request]
  dsimp only
  generalize d.copyForm (weCore e) x off n = p at before
  obtain ⟨bs, f⟩ := p
  dsimp only at before ⊢
  have stored : (f.dramWrite a bs).dram = (f.dram.write 32 a bs).mem := (congrArg Device.dram (f.besideBooks_dramWrite a bs) :)
  rw [count, stored, Mem.write_bytes, before]

/-! ### Forced refreshes (R287) -/

theorem get_allRefreshed (m : Sparse Nat) (w g : Nat) (small : g < 8) :
    Sparse.get 0 ((List.range 8).foldl (fun m i => Sparse.set 0 m i w) m) g = w :=
  (foldl_establishes (I := fun _ => True) (P := fun g (m : Sparse Nat) => Sparse.get 0 m g = w) (fun _ _ _ _ => trivial)
    (fun m g _ _ => Sparse.get_set_same 0 m g w) (fun m i _ g _ was => by
      rw [Sparse.get_set]
      split
      · rfl
      · exact was) trivial).2 g (List.mem_range.2 small)

theorem forcedRefresh_idle {s : State} {k : Nat} (known : s.dev.grade.hasStack k = true)
    (idle : s.dev.lapsed k = [] ∨ s.dev.tick ≠ 0 ∨ s.dev.writesOn = false) : Becomes (.forcedRefresh k) s s.dev := by
  refine .onUnit (show _ = execForcedRefresh k s from rfl) known ?_
  generalize s.dev.lapsed k = groups at idle
  cases groups with
  | nil => rfl
  | cons g r =>
    refine if_pos ?_
    rcases idle with nothing | later | shut
    · cases nothing
    · simp [later]
    · rw [shut]; rfl

/-- A stack in its forced refresh (R287). -/
def Stack.inForced (s : Stack) (w : Nat) : Stack :=
  { s with forced := some w, refreshed := (List.range 8).foldl (fun m i => Sparse.set 0 m i w) s.refreshed }

/-- The device with the forced refresh of stack k, before the hold vote. -/
def Device.refreshForced (d : Device) (k detail : Nat) : Device :=
  ((d.onStack k (fun s => s.inForced d.beat.w)).countStack k 0 1).event 0x0002 0 3 k d.beat.w detail

theorem Device.stack_refreshForced (d : Device) (k detail : Nat) : (d.refreshForced k detail).stack k =
    { (d.stack k).inForced d.beat.w with counters := countIn (d.stack k).counters 0 1 } := by
  unfold Device.refreshForced
  rw [Device.stack_event, Device.countStack, if_neg Nat.one_ne_zero, Device.stack_onStack_same, Device.stack_onStack_same]
  rfl

theorem Device.beat_refreshForced (d : Device) (k detail : Nat) : (d.refreshForced k detail).beat = d.beat := by
  unfold Device.refreshForced
  rw [Device.event, Device.log_eq, Device.countStack, if_neg Nat.one_ne_zero]
  rfl

theorem forcedRefresh_row {s : State} {k : Nat} (known : s.dev.grade.hasStack k = true) (open_ : s.dev.writesOn = true)
    (lapsed : s.dev.lapsed k ≠ []) (first : s.dev.tick = 0) : ∃ detail, Becomes (.forcedRefresh k) s
      { s.dev.refreshForced k detail with hold := { (s.dev.refreshForced k detail).hold with refreshVote := true } } := by
  cases groups : s.dev.lapsed k with
  | nil => exact absurd groups lapsed
  | cons g r =>
    refine ⟨k + g * 2 ^ 8 + maskOf 8 (fun i => (g :: r).contains i) * 2 ^ 16,
      .onUnit (show _ = execForcedRefresh k s from rfl) known ?_⟩
    rw [groups]
    exact if_neg (by rw [open_, first]; decide)

theorem forcedRefresh_forces {s : State} {k : Nat} (known : s.dev.grade.hasStack k = true) (open_ : s.dev.writesOn = true)
    (lapsed : s.dev.lapsed k ≠ []) (first : s.dev.tick = 0) : Completes (.forcedRefresh k) s (fun e =>
      (∀ g, g < 8 → Sparse.get 0 (e.stack k).refreshed g = s.dev.beat.w) ∧ (e.stack k).forced = some s.dev.beat.w
      ∧ e.hold.refreshVote = true ∧ e.lastRecord = some (0x0002, 0, 3, k)
      ∧ Sparse.get 0 (e.stack k).counters 0 = Sparse.get 0 (s.dev.stack k).counters 0 + 1
      ∧ e.lapsed k = []) := by
  obtain ⟨detail, row⟩ := forcedRefresh_row known open_ lapsed first
  refine row.completes_withBeat ?_
  have stack := s.dev.stack_refreshForced k detail
  have record : (s.dev.refreshForced k detail).lastRecord = some (0x0002, 0, 3, k) := Device.lastRecord_log _ _
  generalize s.dev.refreshForced k detail = e at stack record
  have own : (({ e with hold := { e.hold with refreshVote := true } } : Device).withBeat s.dev.beat).stack k = e.stack k := rfl
  rw [own, stack]
  refine ⟨fun g small => get_allRefreshed _ _ g small, rfl, rfl, record, (Sparse.get_countIn ..).trans (if_pos rfl), ?_⟩
  refine if_neg ?_
  rw [own, stack]
  simp [Stack.inForced]

/-- Settles O54: the row by `Device.ticked`, whose parts the lemmas above describe. -/
theorem dramRows : Obligations.DramRows := by
  unfold Obligations.DramRows
  refine ⟨fun s => ⟨fun last aligned => ?_, fun waits => ?_, fun shut early => ?_, fun shut last unaligned => ?_,
      fun open_ early free => ?_, fun open_ last unaligned => ?_, fun open_ early free none_ => ?_,
      fun open_ late early first second => ?_, fun open_ ends => ?_⟩,
    fun d k tick forced early => Device.windowTick_forced forced early,
    fun d e k g => ⟨fun write nothing => ?_, fun read nothing => ?_, fun x off a n write request => Device.serveGroup_write write request⟩,
    fun s k known => ⟨forcedRefresh_idle known, forcedRefresh_forces known⟩⟩
  · have row := dramTick_idle (s := s) (.inr (.inl (by rwa [Device.tickStart_aligned aligned])))
    rwa [Device.tickStart_aligned aligned] at row
  · have start : s.dev.tickStart = s.dev := Device.tickStart_early (by rw [waits.1]; decide)
    have row := dramTick_idle (s := s) (.inr (.inr (by rw [start]; exact waits)))
    rwa [start] at row
  · have row := dramTick_idle (s := s) (.inl (by rwa [Device.tickStart_early early]))
    rwa [Device.tickStart_early early] at row
  · have row := dramTick_idle (s := s) (.inl (by rw [Device.tickStart_round last unaligned]; exact shut))
    rwa [Device.tickStart_round last unaligned] at row
  · have start := Device.tickStart_early early
    have row := dramTick_ticks (s := s) (by rwa [start]) (by rwa [start]) (by rwa [start])
    rw [start] at row
    exact row.completes_withBeat s.dev.tick_ticked
  · have start := Device.tickStart_round last unaligned
    have quiet : ¬ ({ s.dev with tick := 0 } : Device).tickWaits := by
      rintro ⟨-, k, -, lapsed⟩
      refine lapsed (if_neg ?_)
      dsimp only
      rw [unaligned]
      simp
    have row := dramTick_ticks (s := s) (by rw [start]; exact open_) (by rw [start]; exact Nat.zero_lt_succ 999) (by rwa [start])
    rw [start] at row
    exact row.completes_withBeat (Device.tick_ticked _)
  · have start := Device.tickStart_early (early.trans (by decide))
    have row := dramTick_ticks (s := s) (by rwa [start]) (by rw [start]; omega) (by rwa [start])
    rwa [start, Device.ticked_quiet fun k small => ?_] at row
    unfold Device.tickStack
    rw [if_pos early]
    exact Device.windowTick_quiet (none_ k small)
  · have start := Device.tickStart_early early
    have row := dramTick_ticks (s := s) (by rwa [start]) (by rwa [start]) (by rw [start]; exact fun waits => by have := waits.1; omega)
    rwa [start, Device.ticked_quiet fun k small => ?_] at row
    rw [Device.tickStack_late late]
    exact if_neg (by simp [first, second])
  · have start : s.dev.tickStart = s.dev := Device.tickStart_early (by omega)
    have row := dramTick_ticks (s := s) (by rwa [start]) (by rw [start]; omega)
      (by rw [start]; exact fun waits => by have := waits.1; omega)
    rw [start] at row
    exact row.completes_withBeat fun k g hk hg on planned => s.dev.ticked_refreshes ends hk hg on planned
  · unfold Device.serveGroup
    dsimp only
    rw [if_pos write, nothing]
  · unfold Device.serveGroup
    dsimp only
    rw [if_neg (by rw [read]; exact Bool.false_ne_true), nothing]

end Sys2Proof.Machine

/-! PROOFS about what open packets leave of the packets that have arrived (R356, R511): those that wait stay, and answers to the device
itself join behind. -/

namespace Sys2Proof.Machine

set_option Elab.async false

open Sys2Proof

/-- Packets may join those that have arrived; none leaves, and the deferred ones stay. -/
def Device.delivers (d e : Device) : Prop :=
  (∃ l, e.fabric.openIn = d.fabric.openIn ++ l) ∧ e.fabric.deferred = d.fabric.deferred

theorem Device.delivers_refl (d : Device) : d.delivers d := ⟨⟨[], (List.append_nil _).symm⟩, rfl⟩

theorem Device.delivers_of {d e : Device} (open_ : e.fabric.openIn = d.fabric.openIn) (deferred : e.fabric.deferred = d.fabric.deferred) :
    d.delivers e := ⟨⟨[], by rw [open_, List.append_nil]⟩, deferred⟩

theorem Device.delivers_of_fabric {d e : Device} (h : e.fabric = d.fabric) : d.delivers e := Device.delivers_of (by rw [h]) (by rw [h])

theorem Device.delivers_trans {a b c : Device} (h : a.delivers b) (g : b.delivers c) : a.delivers c := by
  obtain ⟨⟨l, first⟩, deferred⟩ := h
  obtain ⟨⟨m, second⟩, still⟩ := g
  exact ⟨⟨l ++ m, by rw [second, first, List.append_assoc]⟩, still.trans deferred⟩

theorem Device.delivers_ite {P : Prop} [Decidable P] {d a b : Device} (ha : d.delivers a) (hb : d.delivers b) :
    d.delivers (if P then a else b) := by
  split
  · exact ha
  · exact hb

theorem Device.delivers_foldl {β : Type} {g : Device → β → Device} (h : ∀ (d : Device) x, d.delivers (g d x)) (l : List β) (d : Device) :
    d.delivers (l.foldl g d) := by
  induction l generalizing d with
  | nil => exact d.delivers_refl
  | cons x l ih => exact Device.delivers_trans (h d x) (ih _)

/-! ### What is sent -/

theorem Device.delivers_sendPacket (d : Device) (dev : Nat) (pk : Packet) : d.delivers (d.sendPacket dev pk) := by
  unfold Device.sendPacket
  refine Device.delivers_ite ⟨⟨_, rfl⟩, rfl⟩ ?_
  dsimp only
  exact Device.delivers_ite (Device.delivers_of rfl rfl) (Device.delivers_of rfl rfl)

theorem Device.delivers_meterFabric (d : Device) (t : Option Nat) (n : Nat) : d.delivers (d.meterFabric t n) :=
  Device.delivers_of_fabric rfl

theorem Device.delivers_originate (d : Device) (t dev : Nat) (pk : Packet) : d.delivers (d.originate t dev pk) :=
  Device.delivers_trans (d.delivers_meterFabric _ _) (Device.delivers_sendPacket _ _ _)

theorem Device.delivers_answer (d : Device) (p : Packet) (dest aux op : Nat) (last : Bool) (data : List (BitVec 8 × Bool)) :
    d.delivers (d.answer p dest aux op last data) :=
  Device.delivers_trans (d.delivers_meterFabric _ _) (Device.delivers_sendPacket _ _ _)

theorem Device.delivers_mgmtSend (d : Device) (dev mb : Nat) (r : Bool) (off : Nat) (x : List (BitVec 8)) (last : Bool) :
    d.delivers (d.mgmtSend dev mb r off x last) := by
  unfold Device.mgmtSend
  exact Device.delivers_trans (Device.delivers_meterFabric _ _ _) (Device.delivers_sendPacket _ _ _)

theorem Device.delivers_mgmtPieces (d : Device) (dev mb : Nat) (r : Bool) (off : Nat) (x : List (BitVec 8)) :
    d.delivers (d.mgmtPieces dev mb r off x) :=
  Device.delivers_foldl (fun d _ => d.delivers_mgmtSend dev mb r _ _ _) _ _

/-! ### Responses of mailboxes -/

theorem Device.delivers_reply (d : Device) (mb : Nat) : d.delivers (d.reply mb) := by
  have window (d : Device) (off : Nat) (x : List (BitVec 8)) (last : Bool) : d.delivers (d.windowPiece mb off x last) :=
    Device.delivers_of_fabric (d.fabric_windowPiece mb off x last)
  have twin (d : Device) (off : Nat) (x : List (BitVec 8)) (last : Bool) : d.delivers (d.mbx14Send true off x last) :=
    Device.delivers_of_fabric rfl
  unfold Device.reply
  extract_lets m done own own'
  refine Device.delivers_ite ?_ (Device.delivers_ite ?_ d.delivers_refl)
  · split
    · exact d.delivers_refl
    · next src _ =>
      refine Device.delivers_ite ?_ ?_
      · exact Device.delivers_ite (Device.delivers_trans (window d _ _ _) (window _ _ _ _)) (window d _ _ _)
      · exact Device.delivers_ite (Device.delivers_trans (d.delivers_mgmtSend _ _ _ _ _ _) (Device.delivers_mgmtPieces _ _ _ _ _ _))
          (d.delivers_mgmtSend _ _ _ _ _ _)
  · exact Device.delivers_ite (Device.delivers_trans (twin d _ _ _) (twin _ _ _ _)) (twin d _ _ _)

theorem Device.delivers_onMbx (d : Device) (mb : Nat) (g : Mbx → Mbx) : d.delivers (d.onMbx mb g) := Device.delivers_of_fabric rfl

theorem Device.delivers_publish (d : Device) (mb : Nat) : d.delivers (d.publish mb) := by
  unfold Device.publish
  extract_lets m
  split
  · exact d.delivers_refl
  · next status detail res _ =>
    extract_lets bs written done replied
    have write : d.delivers written := Device.delivers_ite (Device.delivers_of_fabric rfl) d.delivers_refl
    have reply : d.delivers replied :=
      Device.delivers_trans write (Device.delivers_trans (written.delivers_onMbx mb _) (Device.delivers_reply _ mb))
    exact Device.delivers_ite (Device.delivers_trans reply (Device.delivers_of_fabric (replied.fabric_ringPut _))) reply

theorem Device.delivers_finish (d : Device) (mb a b : Nat) (x : List (BitVec 8)) : d.delivers (d.finish mb a b x) := by
  unfold Device.finish Device.complete
  refine Device.delivers_ite (Device.delivers_of_fabric ?_) (Device.delivers_trans (Device.delivers_of_fabric rfl) (Device.delivers_publish _ mb))
  unfold Device.holdWrite
  split <;> rfl

/-! ### Packets for mailboxes -/

theorem Device.delivers_refuseTo (d : Device) (mb src : Nat) (x : List (BitVec 8)) (a b : Nat) : d.delivers (d.refuseTo mb src x a b) := by
  unfold Device.refuseTo
  extract_lets bs
  exact Device.delivers_ite (Device.delivers_of_fabric rfl)
    (Device.delivers_ite (Device.delivers_of_fabric (d.fabric_windowPiece _ _ _ _)) (d.delivers_mgmtSend _ _ _ _ _ _))

theorem Device.delivers_pend (d : Device) (mb a : Nat) : d.delivers (d.pend mb a) := by
  unfold Device.pend
  extract_lets n e f
  exact Device.delivers_trans (Device.delivers_of_fabric (e := e) rfl)
    (Device.delivers_trans (e.delivers_onMbx mb _) (Device.delivers_reply _ mb))

theorem Device.delivers_accept (d : Device) (mb : Nat) (bytes : List Host.Cell) (source : Option Nat) :
    d.delivers (d.accept mb bytes source) := by
  unfold Device.accept
  extract_lets e f raw sent
  have pending : d.delivers f := Device.delivers_trans (d.delivers_onMbx mb _) (Device.delivers_pend e mb _)
  exact Device.delivers_ite (Device.delivers_trans pending (Device.delivers_of_fabric rfl)) pending

theorem Device.delivers_takePiece (d : Device) (mb src off : Nat) (data : List (BitVec 8)) (last : Bool) :
    d.delivers (d.takePiece mb src off data last) := by
  unfold Device.takePiece
  extract_lets m area e
  have placed : d.delivers e := d.delivers_onMbx mb _
  refine Device.delivers_ite (Device.delivers_ite (d.delivers_refuseTo ..) d.delivers_refl)
    (Device.delivers_ite (Device.delivers_ite (d.delivers_refuseTo ..) d.delivers_refl) (Device.delivers_ite ?_ d.delivers_refl))
  exact Device.delivers_ite (Device.delivers_trans placed (e.delivers_accept ..)) placed

theorem Device.delivers_takeMgmt (d : Device) (p : Packet) : d.delivers (d.takeMgmt p) := by
  unfold Device.takeMgmt
  dsimp only
  have metered := d.delivers_meterFabric none (32 + p.data.length)
  generalize d.meterFabric none (32 + p.data.length) = e at metered
  refine Device.delivers_trans metered (Device.delivers_ite ?_ (Device.delivers_ite e.delivers_refl (Device.delivers_ite ?_ ?_)))
  · unfold Device.countHub
    exact Device.delivers_ite e.delivers_refl (Device.delivers_of_fabric rfl)
  · unfold Device.takeResponse
    exact Device.delivers_ite (Device.delivers_of_fabric (e.fabric_windowPiece _ _ _ _)) e.delivers_refl
  · exact e.delivers_takePiece _ _ _ _ _

/-! ### The flow of copies -/

theorem Device.fabric_of_besideMoves {d e : Device} (h : d.besideMoves = e.besideMoves) : d.fabric = e.fabric :=
  (congrArg Device.fabric h :)

theorem Device.delivers_copyFlow (d : Device) (c id : Nat) : d.delivers (d.copyFlow c id) := by
  unfold Device.copyFlow
  split
  · exact d.delivers_refl
  · next x _ =>
    extract_lets key tag read pieces blank asked
    have reading : d.delivers read := by
      refine Device.delivers_ite (Device.delivers_foldl (fun d p => Device.delivers_ite d.delivers_refl ?_) _ _) d.delivers_refl
      exact Device.delivers_of_fabric (Device.fabric_of_besideMoves
        ((Device.besideMoves_copyGot _ _ _ _ _ _ _).trans (d.besideMoves_stageRead _ _)))
    have asking : d.delivers asked := by
      refine Device.delivers_trans reading (Device.delivers_ite (Device.delivers_foldl (fun d p => ?_) _ _) read.delivers_refl)
      split
      · exact d.delivers_refl
      · exact Device.delivers_ite d.delivers_refl
          (Device.delivers_trans (d.delivers_originate _ _ _) (Device.delivers_of_fabric rfl))
    refine Device.delivers_trans asking (Device.delivers_ite (Device.delivers_foldl (fun d p => ?_) _ _)
      (Device.delivers_ite (Device.delivers_foldl (fun d p => ?_) _ _) asked.delivers_refl))
    · split
      · exact d.delivers_refl
      · refine Device.delivers_ite d.delivers_refl (Device.delivers_of_fabric (Device.fabric_of_besideMoves ?_))
        exact (Device.besideMoves_stageWrite _ _ _).trans (d.besideMoves_copyForm _ _ _ _)
    · split
      · exact d.delivers_refl
      · exact Device.delivers_ite d.delivers_refl (Device.delivers_trans
          (Device.delivers_of_fabric (Device.fabric_of_besideMoves (d.besideMoves_copyForm _ _ _ _))) (Device.delivers_originate _ _ _ _))

/-! ### What follows the packets of a TAG -/

theorem Device.delivers_settleLast (d : Device) (p : Packet) : d.delivers (d.settleLast p) := by
  have kept (e : Device) (l : List Packet) : e.delivers { e with fabric := { e.fabric with lasts := l } } := Device.delivers_of rfl rfl
  have dropped (w : Nat × Nat × Nat) : d.delivers (d.dropLanded w) := Device.delivers_of rfl rfl
  unfold Device.settleLast
  extract_lets here key fabric keep back n dropped' m e f
  refine Device.delivers_ite (kept d _) ?_
  split
  · refine Device.delivers_ite ?_ (Device.delivers_of rfl rfl)
    unfold Device.openKey
    dsimp only
    exact Device.delivers_ite (dropped _) (Device.delivers_trans (dropped _)
      (Device.delivers_of_fabric (Device.fabric_of_steady (Device.steady_addKey ..))))
  · exact Device.delivers_ite (kept d _) (Device.delivers_ite (dropped _)
      (Device.delivers_trans (dropped _) (Device.delivers_answer _ _ _ _ _ _ _)))
  · have counted : d.delivers e := Device.delivers_ite d.delivers_refl (dropped _)
    refine Device.delivers_ite (kept d _) (Device.delivers_trans (b := f) ?_ (Device.delivers_answer _ _ _ _ _ _ _))
    exact Device.delivers_ite counted (Device.delivers_trans counted (Device.delivers_answer _ _ _ _ _ _ _))

theorem Device.delivers_settleTags (d : Device) : d.delivers d.settleTags := by
  unfold Device.settleTags
  exact Device.delivers_trans (Device.delivers_of rfl rfl) (Device.delivers_foldl (fun d p => d.delivers_settleLast p) _ _)

theorem Device.delivers_openLast (d : Device) (p : Packet) : d.delivers (d.openLast p) :=
  Device.delivers_ite (Device.delivers_trans (Device.delivers_of rfl rfl) (Device.delivers_settleTags _)) d.delivers_refl

theorem Device.delivers_addLanded (d : Device) (w : Nat × Nat × Nat) (n : Nat) : d.delivers (d.addLanded w n) := Device.delivers_of rfl rfl

theorem Device.delivers_answerRead (d : Device) (r : Req) : d.delivers (d.answerRead r) :=
  Device.delivers_trans (d.delivers_addLanded _ _) (Device.delivers_answer _ _ _ _ _ _ _)

theorem Device.delivers_answerReads (d : Device) (core : Option Nat) : d.delivers (d.answerReads core) := by
  unfold Device.answerReads
  dsimp only
  split
  · exact d.delivers_refl
  · refine Device.delivers_trans (Device.delivers_of_fabric ?_) (Device.delivers_foldl (fun d r => d.delivers_answerRead r) _ _)
    split <;> rfl

/-! ### A packet acts -/

theorem Device.delivers_refuseOpen (d : Device) (p : Packet) : d.delivers (d.refuseOpen p) := by
  have counted : d.delivers (d.countHub 12 1) := Device.delivers_of_fabric (Device.fabric_of_besideBooks (d.besideBooks_countHub 12 1))
  have noted (e : Device) (w : Option Nat) : e.delivers { e with fabric := { e.fabric with refusedW := w } } := Device.delivers_of rfl rfl
  unfold Device.refuseOpen
  extract_lets e
  refine Device.delivers_trans counted (Device.delivers_ite e.delivers_refl (Device.delivers_trans (noted e (some e.beat.w)) ?_))
  exact Device.delivers_of_fabric (Device.fabric_of_besideBooks (Device.besideBooks_event ..))

theorem Device.fabric_replayCompare (d : Device) (t kind source : Nat) (core : Option Nat) (hit : List (BitVec 8) → Bool) :
    (d.replayCompare t kind source core hit).fabric = d.fabric := by
  have counted : (d.countHub 16 1).fabric = d.fabric := Device.fabric_of_besideBooks (d.besideBooks_countHub 16 1)
  unfold Device.replayCompare
  dsimp only
  split
  · rfl
  · unfold Device.replayMiss
    dsimp only
    split
    · exact counted
    · exact (Device.fabric_of_besideBooks (Device.besideBooks_log ..)).trans counted

theorem Device.delivers_openApplied (d : Device) (t : Nat) (core : Option Nat) (p : Packet) : d.delivers (d.openApplied t core p) := by
  unfold Device.openApplied
  extract_lets e
  have shown : d.delivers e := Device.delivers_of_fabric rfl
  refine Device.delivers_trans shown (Device.delivers_trans (b := e.logEvent t 4 core p.dest p.record) ?_ (Device.delivers_meterFabric _ _ _))
  exact Device.delivers_of_fabric (Device.fabric_of_besideBooks (e.besideBooks_logEvent ..))

theorem Device.delivers_addReq (d : Device) (p : Packet) (a : Nat) (write : Bool) : d.delivers (d.addReq p a write) := by
  refine Device.delivers_of_fabric ?_
  exact (Device.fabric_of_steady (d.steady_forceWake (rzCore a) p.srcDev) :)

theorem Device.delivers_addDramReq (d : Device) (p : Packet) (a : Nat) (write : Bool) : d.delivers (d.addDramReq p a write) := by
  refine Device.delivers_of_fabric ?_
  unfold Device.addDramReq Device.wakeQuarter
  dsimp only
  split <;> rfl

theorem Device.delivers_openData (d : Device) (p : Packet) : d.delivers (d.openData p) := by
  have counted := d.delivers_addLanded p.who 0
  unfold Device.openData
  extract_lets e stored landed
  refine Device.delivers_trans counted (Device.delivers_ite e.delivers_refl ?_)
  split
  · exact e.delivers_addReq _ _ _
  · exact e.delivers_addDramReq _ _ _
  · have store : e.delivers stored := Device.delivers_of_fabric (Device.fabric_of_besideMoves (e.besideMoves_stageWrite _ _))
    refine Device.delivers_trans (b := landed) ?_ (Device.delivers_addLanded _ _ _)
    exact Device.delivers_ite (Device.delivers_trans store (Device.delivers_of_fabric
      (Device.fabric_of_besideBooks (Device.besideBooks_hostLanded ..)))) store

theorem Device.delivers_originData (d : Device) (p : Packet) (counted ok : Bool) : d.delivers (d.originData p counted ok) := by
  unfold Device.originData
  extract_lets c stray
  have strays : d.delivers stray := Device.delivers_ite d.delivers_refl (d.delivers_refuseOpen p)
  split
  · exact strays
  · next x _ =>
    split
    · exact strays
    · next q _ =>
      extract_lets e g
      have counts : d.delivers e := Device.delivers_ite (d.delivers_addLanded _ _) d.delivers_refl
      refine Device.delivers_trans counts (Device.delivers_trans (b := g) ?_ g.delivers_settleTags)
      refine Device.delivers_ite ?_ (Device.delivers_of_fabric rfl)
      exact Device.delivers_trans (Device.delivers_of_fabric (Device.fabric_of_besideMoves (Device.besideMoves_copyGot ..)))
        (Device.delivers_copyFlow _ _ _)

theorem Device.delivers_stageRead (d : Device) (a n : Nat) : d.delivers (d.stageRead a n).2 :=
  Device.delivers_of_fabric (Device.fabric_of_besideMoves (d.besideMoves_stageRead a n))

theorem Device.delivers_waitFor (d : Device) (p : Packet) :
    d.delivers (d.onFabric (fun f => { f with lasts := f.lasts ++ [p] })).settleTags :=
  Device.delivers_trans (Device.delivers_of (e := d.onFabric _) rfl rfl) (Device.delivers_settleTags _)

/-! ### Each kind of packet -/

theorem Device.delivers_refuseRead (d : Device) (p : Packet) : d.delivers (d.refuseRead p) := by
  unfold Device.refuseRead
  extract_lets c blank r
  split
  · exact Device.delivers_ite (Device.delivers_trans (Device.delivers_of_fabric (e := d.onCore c _) rfl) (Device.delivers_answerReads _ _))
      (d.delivers_answerRead r)
  · exact Device.delivers_trans (Device.delivers_of_fabric (e := { d with openReads := d.openReads ++ [r] }) rfl)
      (Device.delivers_answerReads _ _)
  · exact d.delivers_answerRead r

theorem Device.delivers_replayCompare (d : Device) (t kind source : Nat) (core : Option Nat) (hit : List (BitVec 8) → Bool) :
    d.delivers (d.replayCompare t kind source core hit) := Device.delivers_of_fabric (d.fabric_replayCompare ..)

theorem Device.delivers_takeWrite (d : Device) (replayed : Bool) (p : Packet) : d.delivers (d.takeWrite replayed p) := by
  unfold Device.takeWrite
  split
  · exact Device.delivers_trans (d.delivers_refuseOpen p) (Device.delivers_trans (Device.delivers_addLanded _ _ _) (Device.delivers_openLast _ p))
  · exact Device.delivers_ite (d.delivers_replayCompare ..) (Device.delivers_trans (d.delivers_openApplied ..)
      (Device.delivers_trans (Device.delivers_openData _ p) (Device.delivers_openLast _ p)))

theorem Device.delivers_takeRead (d : Device) (replayed : Bool) (p : Packet) : d.delivers (d.takeRead replayed p) := by
  unfold Device.takeRead
  split
  · exact Device.delivers_trans (d.delivers_refuseOpen p)
      (Device.delivers_trans (Device.delivers_refuseRead _ p) (Device.delivers_openLast _ p))
  · next t _ _ =>
    extract_lets core e asked
    refine Device.delivers_ite (d.delivers_replayCompare ..) (Device.delivers_trans (d.delivers_openApplied t core p)
      (Device.delivers_trans (b := asked) ?_ (Device.delivers_openLast _ p)))
    show e.delivers _
    unfold asked
    split
    · exact e.delivers_addReq _ _ _
    · exact e.delivers_addDramReq _ _ _
    · exact Device.delivers_trans (e.delivers_stageRead _ _)
        (Device.delivers_trans (Device.delivers_addLanded _ _ _) (Device.delivers_answer _ _ _ _ _ _ _))

theorem Device.delivers_takeOrigin (d : Device) (replayed : Bool) (p : Packet) : d.delivers (d.takeOrigin replayed p) := by
  unfold Device.takeOrigin
  extract_lets n
  split
  · exact Device.delivers_trans (d.delivers_refuseOpen p) (Device.delivers_originData _ p _ _)
  · exact Device.delivers_ite (d.delivers_replayCompare ..)
      (Device.delivers_trans (d.delivers_openApplied ..) (Device.delivers_originData _ p _ _))

theorem Device.delivers_takeKey (d : Device) (replayed : Bool) (p : Packet) : d.delivers (d.takeKey replayed p) := by
  unfold Device.takeKey
  extract_lets c wait
  refine Device.delivers_ite (d.delivers_refuseOpen p) ?_
  split
  · exact Device.delivers_ite (d.delivers_replayCompare ..)
      (Device.delivers_trans (d.delivers_openApplied ..) (Device.delivers_waitFor _ p))
  · exact d.delivers_waitFor p

theorem Device.delivers_takeMsg (d : Device) (p : Packet) : d.delivers (d.takeMsg p) := by
  unfold Device.takeMsg
  extract_lets c e
  have metered : d.delivers e := by
    unfold e
    split
    · exact d.delivers_meterFabric _ _
    · exact d.delivers_meterFabric _ _
  exact Device.delivers_ite (d.delivers_refuseOpen p) (Device.delivers_trans metered (Device.delivers_of_fabric rfl))

theorem Device.delivers_takeDone (d : Device) (replayed : Bool) (p : Packet) : d.delivers (d.takeDone replayed p) := by
  unfold Device.takeDone
  extract_lets c
  split
  · exact d.delivers_refl
  · exact Device.delivers_ite (d.delivers_replayCompare ..)
      (Device.delivers_trans (d.delivers_openApplied ..) (Device.delivers_of_fabric rfl))

theorem Device.delivers_takeHost (d : Device) (p : Packet) : d.delivers (d.takeHost p) := by
  unfold Device.takeHost
  extract_lets kind ok
  exact Device.delivers_ite (Device.delivers_trans (d.delivers_meterFabric _ _)
      (Device.delivers_trans (Device.delivers_openData _ p) (Device.delivers_openLast _ p)))
    (Device.delivers_trans (d.delivers_addLanded _ _) (Device.delivers_openLast _ p))

theorem Device.delivers_hostDone (d : Device) (mb n : Nat) : d.delivers (d.hostDone mb n) := by
  unfold Device.hostDone
  extract_lets m
  exact Device.delivers_ite (Device.delivers_ite (d.delivers_finish _ _ _ _) (d.delivers_finish _ _ _ _)) d.delivers_refl

theorem Device.delivers_discardOpen (d : Device) (p : Packet) : d.delivers (d.discardOpen p) :=
  Device.delivers_of_fabric (Device.fabric_of_besideBooks (Device.besideBooks_event ..))

/-- Whatever a packet does, those that have arrived and those that are deferred stay. -/
theorem Device.delivers_applyOpen (d : Device) (p : Packet) : d.delivers (d.applyOpen p) := by
  unfold Device.applyOpen
  split
  · exact d.delivers_takeWrite _ p
  · exact d.delivers_takeRead _ p
  · exact Device.delivers_ite (d.delivers_takeOrigin _ p) (d.delivers_takeWrite _ p)
  · exact d.delivers_takeKey _ p
  · exact d.delivers_takeMsg p
  · exact Device.delivers_ite (d.delivers_hostDone _ _) (d.delivers_takeDone _ p)
  · exact d.delivers_takeMgmt p
  · exact d.delivers_takeHost p
  · exact d.delivers_discardOpen p

end Sys2Proof.Machine

/-! PROOFS about what follows the last packet of a TAG (R356, R357): the refusals counted and the requests at the cores stay. -/

namespace Sys2Proof.Machine

set_option Elab.async false

open Sys2Proof

/-- The open packets refused (counter 12 of the hub) and the requests at every core. -/
def Device.asked (d : Device) : BitVec 64 × (Nat → List Req) := (Sparse.get 0 d.hub.counters 12, fun c => (d.core c).reqs)

theorem Device.asked_of {d e : Device} (hub : e.hub = d.hub) (cores : e.cores = d.cores) : e.asked = d.asked := by
  unfold Device.asked Device.core
  rw [hub, cores]

theorem Device.asked_onCore (d : Device) (c : Nat) (f : Core → Core) (h : ∀ k, (f k).reqs = k.reqs := by intro _; rfl) :
    (d.onCore c f).asked = d.asked := by
  refine congrArg (Prod.mk _) (funext fun x => ?_)
  by_cases same : x = c
  · rw [same, Device.core_onCore_same, h]
  · rw [Device.core_onCore_other _ _ _ _ same]

theorem Device.asked_log (d : Device) (r : HealthRec) : (d.log r).asked = d.asked := by
  have cores : (d.log r).cores = d.cores := Device.cores_of_besideBooks (d.besideBooks_log r)
  have count : Sparse.get 0 (d.log r).hub.counters 12 = Sparse.get 0 d.hub.counters 12 := by
    rw [Device.log_eq, Device.onHub_hub, Hub.logged]
    exact both_branches (fun m => Sparse.get 0 m 12) rfl ((Sparse.get_countIn _ 17 1 12).trans (if_neg (by decide)))
  unfold Device.asked Device.core
  rw [cores, count]

theorem Device.asked_countCore (d : Device) (c i n : Nat) : (d.countCore c i n).asked = d.asked := by
  unfold Device.countCore
  exact both_branches Device.asked rfl (d.asked_onCore _ _)

/-! ### What packets send -/

theorem Device.asked_sendPacket (d : Device) (dev : Nat) (pk : Packet) : (d.sendPacket dev pk).asked = d.asked := by
  unfold Device.sendPacket
  refine both_branches Device.asked (Device.asked_of rfl rfl) ?_
  dsimp only
  exact both_branches Device.asked (Device.asked_of rfl rfl) (Device.asked_of rfl rfl)

theorem Device.asked_answer (d : Device) (p : Packet) (dest aux op : Nat) (last : Bool) (data : List (BitVec 8 × Bool)) :
    (d.answer p dest aux op last data).asked = d.asked :=
  (Device.asked_sendPacket _ _ _).trans (Device.asked_of rfl rfl)

/-! ### A key that rises, a core that is woken -/

theorem Device.asked_forceWake (d : Device) (c source : Nat) : (d.forceWake c source).asked = d.asked := by
  have wake (d : Device) (q : Nat) : (d.wakeQuarter q).asked = d.asked := by
    unfold Device.wakeQuarter
    exact both_branches Device.asked (Device.asked_of rfl rfl) rfl
  have started : (d.startWake c).asked = d.asked := by
    unfold Device.startWake
    extract_lets p
    exact both_branches Device.asked rfl (both_branches Device.asked (wake d _) (d.asked_onCore _ _))
  unfold Device.forceWake
  extract_lets p a due
  refine both_branches Device.asked rfl (both_branches Device.asked ?_ started)
  exact (Device.asked_log _ _).trans ((Device.asked_onCore _ _ _).trans ((Device.asked_of (e := a.drawFree.2) rfl rfl).trans started))

theorem Device.asked_stopTask (d : Device) (t : Nat) : (d.stopTask t).asked = d.asked := by
  have rest (d : Device) (c : Nat) : (d.restRegion c).asked = d.asked :=
    Device.asked_of rfl (Device.restRegion_frame d c).1
  unfold Device.stopTask
  extract_lets e
  refine (foldl_keeps Device.asked _ (fun (d : Device) (c : Nat) => both_branches Device.asked ?_ rfl) _ _).trans
    (Device.asked_of rfl rfl)
  exact (rest _ c).trans (Device.asked_onCore ..)

theorem Device.asked_matchFaults (d : Device) (t beat sc : Nat) : (d.matchFaults t beat sc).asked = d.asked := by
  unfold Device.matchFaults
  split
  · exact both_branches Device.asked rfl rfl
  · rfl

theorem Device.asked_fault (d : Device) (t code cause unitKind unit sc dHi dLo : Nat) :
    (d.fault t code cause unitKind unit sc dHi dLo).asked = d.asked := by
  unfold Device.fault
  extract_lets k sec pair blank r e f g
  have logged : e.asked = d.asked := d.asked_log r
  have stopped : f.asked = d.asked := (e.asked_stopTask t).trans logged
  clear_value e f
  refine both_branches Device.asked logged (both_branches Device.asked ?_ (both_branches Device.asked ?_ stopped))
  · exact (Device.asked_of (e := g) rfl rfl).trans stopped
  · have sent : g.asked = d.asked := (Device.asked_of (d := f) rfl rfl).trans stopped
    have noted (a : Device) (h : Twin → Twin) : (a.onTwin h).asked = a.asked := Device.asked_of rfl rfl
    clear_value g
    exact (Device.asked_matchFaults _ _ _ _).trans ((noted g _).trans sent)

theorem Device.asked_lateKey (d : Device) (c k n : Nat) : (d.lateKey c k n).asked = d.asked := by
  unfold Device.lateKey
  dsimp only
  split
  · exact d.asked_countCore _ _ _
  · exact (Device.asked_log _ _).trans (d.asked_countCore _ _ _)

theorem Device.asked_turnKey (d : Device) (c k sub : Nat) (incs : List (Nat × Bool)) : (d.turnKey c k sub incs).asked = d.asked := by
  unfold Device.turnKey
  dsimp only
  split
  · exact both_branches Device.asked
      (foldl_keeps Device.asked _ (fun (d : Device) (x : Nat × Bool) => d.asked_lateKey c k x.1) _ _) (d.asked_onCore _ _)
  · exact both_branches Device.asked (d.asked_fault ..) (d.asked_onCore _ _)

theorem Device.asked_addKey (d : Device) (c k n : Nat) (isAdd : Bool) : (d.addKey c k n isAdd).asked = d.asked := by
  unfold Device.addKey
  split
  · rfl
  · split
    · exact Device.asked_onCore _ _ _
    · exact d.asked_turnKey _ _ _ _

theorem Device.asked_openKey (d : Device) (p : Packet) : (d.openKey p).asked = d.asked := by
  have dropped : (d.dropLanded p.who).asked = d.asked := Device.asked_of rfl rfl
  unfold Device.openKey
  extract_lets c none_ e
  exact both_branches Device.asked dropped ((e.asked_addKey _ _ _ _).trans dropped)

/-! ### The last packets -/

theorem Device.asked_settleLast (d : Device) (p : Packet) : (d.settleLast p).asked = d.asked := by
  have kept (l : List Packet) : ({ d with fabric := { d.fabric with lasts := l } } : Device).asked = d.asked := Device.asked_of rfl rfl
  have dropped (w : Nat × Nat × Nat) : (d.dropLanded w).asked = d.asked := Device.asked_of rfl rfl
  unfold Device.settleLast
  extract_lets here key fabric keep back n dropped' m e f
  refine both_branches Device.asked (kept _) ?_
  split
  · exact both_branches Device.asked (d.asked_openKey p) ((Device.asked_of (d := d.forceWake here p.srcDev) rfl rfl).trans (d.asked_forceWake _ _))
  · exact both_branches Device.asked (kept _) (both_branches Device.asked (dropped _) ((Device.asked_answer ..).trans (dropped _)))
  · have counted : e.asked = d.asked := both_branches Device.asked rfl (dropped _)
    have keyed : f.asked = d.asked := both_branches Device.asked counted ((Device.asked_answer ..).trans counted)
    exact both_branches Device.asked (kept _) ((Device.asked_answer ..).trans keyed)

theorem Device.asked_settleTags (d : Device) : d.settleTags.asked = d.asked := by
  unfold Device.settleTags
  exact (foldl_keeps Device.asked _ (fun (d : Device) (p : Packet) => d.asked_settleLast p) _ _).trans (Device.asked_of rfl rfl)

theorem Device.asked_openLast (d : Device) (p : Packet) : (d.openLast p).asked = d.asked :=
  both_branches Device.asked ((Device.asked_settleTags _).trans (Device.asked_of (e := d.onFabric _) rfl rfl)) rfl

theorem Device.asked_addLanded (d : Device) (w : Nat × Nat × Nat) (n : Nat) : (d.addLanded w n).asked = d.asked := Device.asked_of rfl rfl

theorem Device.asked_answerRead (d : Device) (r : Req) : (d.answerRead r).asked = d.asked :=
  (Device.asked_answer ..).trans (d.asked_addLanded _ _)

end Sys2Proof.Machine

/-! PROOFS about what one open packet does at its destination (R349, R350, R356, R357, R474). -/

namespace Sys2Proof.Machine

set_option Elab.async false

open Sys2Proof

/-! ### Refusals -/

/-- What a refusal is seen in: the open packets refused, and the memories behind the hub. -/
def Device.tally (d : Device) : BitVec 64 × Mem × Mem := (Sparse.get 0 d.hub.counters 12, d.dram, d.staging)

theorem Device.dram_of_besideTags {d e : Device} (h : d.besideTags = e.besideTags) : d.dram = e.dram := (congrArg Device.dram h :)
theorem Device.staging_of_besideTags {d e : Device} (h : d.besideTags = e.besideTags) : d.staging = e.staging :=
  (congrArg Device.staging h :)
theorem Device.openReads_of_besideTags {d e : Device} (h : d.besideTags = e.besideTags) : d.openReads = e.openReads :=
  (congrArg Device.openReads h :)

theorem Device.tally_of {d e : Device} (asked : e.asked = d.asked) (tags : e.besideTags = d.besideTags) : e.tally = d.tally := by
  have count : Sparse.get 0 e.hub.counters 12 = Sparse.get 0 d.hub.counters 12 := congrArg Prod.fst asked
  unfold Device.tally
  rw [count, Device.dram_of_besideTags tags, Device.staging_of_besideTags tags]

theorem Device.besideTags_openLast (d : Device) (p : Packet) : (d.openLast p).besideTags = d.besideTags :=
  both_branches Device.besideTags ((Device.besideTags_settleTags _).trans rfl) rfl

theorem Device.tally_openLast (d : Device) (p : Packet) : (d.openLast p).tally = d.tally :=
  Device.tally_of (d.asked_openLast p) (d.besideTags_openLast p)

theorem Device.tally_addLanded (d : Device) (w : Nat × Nat × Nat) (n : Nat) : (d.addLanded w n).tally = d.tally := rfl

theorem Device.tally_answerRead (d : Device) (r : Req) : (d.answerRead r).tally = d.tally :=
  Device.tally_of (d.asked_answerRead r) (d.besideTags_answerRead r)

theorem Device.tally_answerReads (d : Device) (core : Option Nat) : (d.answerReads core).tally = d.tally := by
  unfold Device.answerReads
  dsimp only
  split
  · rfl
  · refine (foldl_keeps Device.tally _ (fun (d : Device) (r : Req) => d.tally_answerRead r) _ _).trans ?_
    split <;> rfl

theorem Device.tally_refuseRead (d : Device) (p : Packet) : (d.refuseRead p).tally = d.tally := by
  unfold Device.refuseRead
  extract_lets c blank r
  split
  · exact both_branches Device.tally ((Device.tally_answerReads _ _).trans rfl) (d.tally_answerRead r)
  · exact (Device.tally_answerReads _ _).trans rfl
  · exact d.tally_answerRead r

/-- The state of `e` when one packet more has been refused than in `d`, and nothing written. -/
def Device.refusedOne (d e : Device) : Prop := e.tally = (Sparse.get 0 d.hub.counters 12 + 1, d.dram, d.staging)

theorem Device.refusedOne_then {d e f : Device} (h : d.refusedOne e) (g : f.tally = e.tally) : d.refusedOne f := g.trans h

theorem Device.refusedOne_after {d e f : Device} (g : e.tally = d.tally) (h : e.refusedOne f) : d.refusedOne f := by
  have count : Sparse.get 0 e.hub.counters 12 = Sparse.get 0 d.hub.counters 12 := congrArg Prod.fst g
  have dram : e.dram = d.dram := congrArg (fun x => x.2.1) g
  have staging : e.staging = d.staging := congrArg (fun x => x.2.2) g
  unfold Device.refusedOne at h ⊢
  rw [h, count, dram, staging]

theorem Device.refuseOpen_counts (d : Device) (p : Packet) : d.refusedOne (d.refuseOpen p) := by
  have counted : d.refusedOne (d.countHub 12 1) := by
    unfold Device.refusedOne Device.tally Device.countHub
    rw [if_neg (by decide)]
    exact congrArg (Prod.mk · _) ((Sparse.get_countIn _ 12 1 12).trans (if_pos rfl))
  have event (e : Device) (a b c f g h : Nat) : (e.event a b c f g h).tally = e.tally := by
    have books := e.besideBooks_event a b c f g h
    have count : Sparse.get 0 (e.event a b c f g h).hub.counters 12 = Sparse.get 0 e.hub.counters 12 :=
      congrArg Prod.fst (e.asked_log _)
    unfold Device.tally
    rw [count, Device.dram_of_besideBooks books, Device.staging_of_besideBooks books]
  unfold Device.refuseOpen
  extract_lets e
  exact both_branches Device.tally counted ((event _ _ _ _ _ _ _).trans counted)

theorem Device.takeWrite_refused {d : Device} {p : Packet} (out : d.openSlots p.dest p.len = []) : d.refusedOne (d.takeWrite false p) := by
  unfold Device.takeWrite
  rw [out]
  exact Device.refusedOne_then (d.refuseOpen_counts p) ((Device.tally_openLast _ p).trans (Device.tally_addLanded _ _ _))

theorem Device.takeRead_refused {d : Device} {p : Packet} (out : d.openSlots p.dest p.len = []) : d.refusedOne (d.takeRead false p) := by
  unfold Device.takeRead
  rw [out]
  exact Device.refusedOne_then (d.refuseOpen_counts p) ((Device.tally_openLast _ p).trans (Device.tally_refuseRead _ p))

/-! ### A packet that is applied to its task -/

theorem Device.openApplied_books (d : Device) (t : Nat) (core : Option Nat) (p : Packet) :
    ({ d.openApplied t core p with ledger := [] } : Device).besideBooks = ({ d with ledger := [] } : Device).besideBooks := by
  unfold Device.openApplied
  extract_lets e
  exact (congrArg (fun d : Device => ({ d with ledger := [] } : Device)) (e.besideBooks_logEvent t 4 core p.dest p.record) :)

section
variable (d : Device) (t : Nat) (core : Option Nat) (p : Packet)

theorem Device.dram_openApplied : (d.openApplied t core p).dram = d.dram := (congrArg Device.dram (d.openApplied_books t core p) :)
theorem Device.staging_openApplied : (d.openApplied t core p).staging = d.staging :=
  (congrArg Device.staging (d.openApplied_books t core p) :)
theorem Device.cores_openApplied : (d.openApplied t core p).cores = d.cores := (congrArg Device.cores (d.openApplied_books t core p) :)
theorem Device.openReads_openApplied : (d.openApplied t core p).openReads = d.openReads :=
  (congrArg Device.openReads (d.openApplied_books t core p) :)
theorem Device.fabric_openApplied : (d.openApplied t core p).fabric = d.fabric := (congrArg Device.fabric (d.openApplied_books t core p) :)

theorem Device.hub_openApplied : (d.openApplied t core p).hub = d.hub := by
  unfold Device.openApplied
  extract_lets e
  exact (e.hub_logEvent t 4 core p.dest p.record).trans rfl

theorem Device.posture_openApplied : (d.openApplied t core p).posture = d.posture := by
  unfold Device.openApplied
  extract_lets e
  refine Eq.trans ?_ ((e.posture_logEvent t 4 core p.dest p.record).trans (d.posture_onTask t _))
  exact Device.posture_of rfl rfl

theorem Device.core_openApplied (c : Nat) : (d.openApplied t core p).core c = d.core c := by
  unfold Device.core
  rw [d.cores_openApplied]

theorem Device.asked_openApplied : (d.openApplied t core p).asked = d.asked :=
  Device.asked_of (d.hub_openApplied t core p) (d.cores_openApplied t core p)

theorem Device.tally_openApplied : (d.openApplied t core p).tally = d.tally := by
  unfold Device.tally
  rw [d.hub_openApplied, d.dram_openApplied, d.staging_openApplied]

end

theorem Device.originData_stray {d : Device} {p : Packet} (strays : (d.core p.srcCore).copyOf p.tag = none) (counted ok : Bool) :
    d.originData p counted ok = if counted then d else d.refuseOpen p := by
  unfold Device.originData
  dsimp only
  rw [strays]

theorem Device.takeOrigin_refused {d : Device} {p : Packet} (strays : (d.core p.srcCore).copyOf p.tag = none)
    (live : ∀ t r, d.openSlots p.dest p.len = t :: r → (d.task t).replay = none) : d.refusedOne (d.takeOrigin false p) := by
  unfold Device.takeOrigin
  rw [strays]
  dsimp only
  split
  · have still : ((d.refuseOpen p).core p.srcCore).copyOf p.tag = none := by
      have cores : (d.refuseOpen p).cores = d.cores := by
        unfold Device.refuseOpen
        extract_lets e
        have counted : e.cores = d.cores := Device.cores_of_besideBooks (d.besideBooks_countHub 12 1)
        exact both_branches Device.cores counted ((Device.cores_of_besideBooks (Device.besideBooks_event ..)).trans counted)
      unfold Device.core
      rw [cores]
      exact strays
    rw [Device.originData_stray still, if_pos rfl]
    exact d.refuseOpen_counts p
  · next t r slots =>
    rw [if_neg (by rw [live t r slots]; simp), Device.originData_stray (by rw [Device.core_openApplied]; exact strays), if_neg (by simp)]
    exact Device.refusedOne_after (d.tally_openApplied _ _ _) (Device.refuseOpen_counts _ p)

/-- A KEY_ADD or QMSG for a core that the part has not, or that is out of service, is refused. -/
theorem Device.gone_refused {d : Device} {p : Packet} (gone : d.hasCore (rzCore p.dest) = false ∨ (d.core (rzCore p.dest)).absent = true) :
    d.refusedOne (d.takeKey false p) ∧ d.refusedOne (d.takeMsg p) := by
  have barred : (d.power.device != 0 || !d.hasCore (rzCore p.dest) || (d.core (rzCore p.dest)).absent) = true := by
    rcases gone with h | h <;> simp [h]
  constructor
  · unfold Device.takeKey
    dsimp only
    rw [if_pos barred]
    exact d.refuseOpen_counts p
  · unfold Device.takeMsg
    dsimp only
    rw [if_pos barred]
    exact d.refuseOpen_counts p

/-! ### Data on its way to a memory -/

theorem Device.openLast_frame (d : Device) (p : Packet) : (d.openLast p).dram = d.dram ∧ (d.openLast p).staging = d.staging
    ∧ (d.openLast p).openReads = d.openReads ∧ ∀ c, ((d.openLast p).core c).reqs = (d.core c).reqs :=
  ⟨Device.dram_of_besideTags (d.besideTags_openLast p), Device.staging_of_besideTags (d.besideTags_openLast p),
    Device.openReads_of_besideTags (d.besideTags_openLast p), congrFun (congrArg Prod.snd (d.asked_openLast p))⟩

/-- A request of packet `p` for `n` bytes at `a`, as it waits. -/
def Req.waits (x : Req) (p : Packet) (a : Nat) (write : Bool) : Prop := x.write = write ∧ x.addr = a ∧ x.len = p.len ∧ x.pk = p

theorem Device.addDramReq_frame (d : Device) (p : Packet) (a : Nat) (write : Bool) : (d.addDramReq p a write).dram = d.dram
    ∧ (d.addDramReq p a write).staging = d.staging
    ∧ ∃ x, (d.addDramReq p a write).openReads = d.openReads ++ [x] ∧ x.waits p (rzOff a) write := by
  have wake (q : Nat) : (d.wakeQuarter q).dram = d.dram ∧ (d.wakeQuarter q).staging = d.staging
      ∧ (d.wakeQuarter q).openReads = d.openReads := by
    unfold Device.wakeQuarter
    split <;> exact ⟨rfl, rfl, rfl⟩
  obtain ⟨dram, staging, reads⟩ := wake (rzOff a / stackBytes / 2)
  exact ⟨dram, staging, _, congrArg (· ++ _) reads, rfl, rfl, rfl, rfl⟩

theorem Device.addReq_frame (d : Device) (p : Packet) (a : Nat) (write : Bool) : (d.addReq p a write).dram = d.dram
    ∧ (d.addReq p a write).staging = d.staging
    ∧ ∃ x, ((d.addReq p a write).core (rzCore a)).reqs = (d.core (rzCore a)).reqs ++ [x] ∧ x.waits p (rzCoreOff a) write := by
  have steady := d.steady_forceWake (rzCore a) p.srcDev
  have reqs : ((d.forceWake (rzCore a) p.srcDev).core (rzCore a)).reqs = (d.core (rzCore a)).reqs :=
    congrFun (congrArg Prod.snd (d.asked_forceWake (rzCore a) p.srcDev)) _
  refine ⟨(Device.dram_of_steady steady :), (Device.staging_of_steady steady :), ?_⟩
  unfold Device.addReq Device.postReq
  dsimp only
  rw [Device.core_onCore_same, ← reqs]
  exact ⟨_, rfl, rfl, rfl, rfl, rfl⟩

section
variable {d : Device} {p : Packet} (some_ : 0 < p.len)
include some_

theorem Device.openData_staging (staged : rzSpace p.dest = 2) : (d.openData p).dram = d.dram
    ∧ (d.openData p).staging.bytes = Sparse.setMany 0 d.staging.bytes (rzOff p.dest) (p.marked.map (·.1)) := by
  unfold Device.openData
  extract_lets e stored landed
  rw [if_neg (Nat.ne_of_gt some_), staged]
  have store := e.besideBooks_stageWrite (rzOff p.dest) p.marked
  have land : landed.dram = stored.dram ∧ landed.staging = stored.staging := by
    unfold landed
    split
    · exact ⟨Device.dram_of_besideBooks (Device.besideBooks_hostLanded ..), Device.staging_of_besideBooks (Device.besideBooks_hostLanded ..)⟩
    · exact ⟨rfl, rfl⟩
  constructor
  · exact land.1.trans (Device.dram_of_besideBooks store :)
  · have staging : landed.staging = (e.staging.write 8 (rzOff p.dest) p.marked).mem := land.2.trans (Device.staging_of_besideBooks store :)
    show landed.staging.bytes = _
    rw [staging]
    rfl

theorem Device.openData_dram (dram : rzSpace p.dest = 1) : (d.openData p).dram = d.dram ∧ (d.openData p).staging = d.staging
    ∧ ∃ x, (d.openData p).openReads = d.openReads ++ [x] ∧ x.waits p (rzOff p.dest) true := by
  unfold Device.openData
  extract_lets e stored landed
  rw [if_neg (Nat.ne_of_gt some_), dram]
  exact e.addDramReq_frame p p.dest true

theorem Device.openData_core (spad : rzSpace p.dest = 0) : (d.openData p).dram = d.dram ∧ (d.openData p).staging = d.staging
    ∧ ∃ x, ((d.openData p).core (rzCore p.dest)).reqs = (d.core (rzCore p.dest)).reqs ++ [x] ∧ x.waits p (rzCoreOff p.dest) true := by
  unfold Device.openData
  extract_lets e stored landed
  rw [if_neg (Nat.ne_of_gt some_), spad]
  exact e.addReq_frame p p.dest true

end

end Sys2Proof.Machine

/-! PROOFS about the open packets that a device takes (R350, R356, R357, R474, R511): keys, messages, notices, host bytes, and those
that a pair has deferred. -/

namespace Sys2Proof.Machine

set_option Elab.async false

open Sys2Proof

/-! ### Keys, messages and notices -/

theorem Device.keyHolder_of_posture {d e : Device} (h : e.posture = d.posture) (c k : Nat) : e.keyHolder c k = d.keyHolder c k := by
  have state (t : Nat) : (e.task t).state = (d.task t).state := (congrArg (fun k : Task => k.state) (Device.ruling_of_posture h t) :)
  have cores (t : Nat) : (e.task t).cores = (d.task t).cores := (congrArg (fun k : Task => k.cores) (Device.ruling_of_posture h t) :)
  have bounds : (e.core c).bounds = (d.core c).bounds := congrArg Posture.bounds (Device.core_of_posture h c)
  unfold Device.keyHolder Device.slotsOn Device.boundSlots Device.isBound Core.bound
  simp only [state, cores, bounds]

section
variable {d : Device} {p : Packet}

/-- A KEY_ADD whose data has landed raises its key by KEY_N (R357). -/
theorem Device.openKey_raises {t : Nat} (idle : (d.core (rzCore p.dest)).issue = none) (some_ : 0 < p.keyN)
    (landed : d.landedOf p.who ≠ some 0) (held : d.keyHolder (rzCore p.dest) (bits p.dest 0 6) = some t)
    (fits : d.keyCount (rzCore p.dest) (bits p.dest 0 6) + p.keyN ≤ keyCap (d.keyEntry (rzCore p.dest) t
      (bits p.dest 0 6 - kBase ((d.core (rzCore p.dest)).bound t)))) :
    (d.openKey p).keyCount (rzCore p.dest) (bits p.dest 0 6) = d.keyCount (rzCore p.dest) (bits p.dest 0 6) + p.keyN := by
  have raised := Device.addKey_fits (d := d.dropLanded p.who) false idle some_ held fits
  unfold Device.openKey
  dsimp only
  rw [if_neg (by simpa using landed), raised]
  unfold Device.setKey Device.keyCount
  rw [Device.core_onCore_same]
  exact Sparse.get_set_same ..

theorem Device.takeKey_raises {t : Nat} (op : p.op = 3) (none_ : d.fabric.lasts = []) (quiet : d.outstanding p = false)
    (on_ : d.power.device = 0) (has : d.hasCore (rzCore p.dest) = true) (serves : (d.core (rzCore p.dest)).absent = false)
    (idle : (d.core (rzCore p.dest)).issue = none) (landed : d.landedOf p.who ≠ some 0) (some_ : 0 < p.keyN)
    (awake : (d.core (rzCore p.dest)).power.state = 0) (held : d.keyHolder (rzCore p.dest) (bits p.dest 0 6) = some t)
    (live : (d.task t).replay = none)
    (fits : d.keyCount (rzCore p.dest) (bits p.dest 0 6) + p.keyN ≤ keyCap (d.keyEntry (rzCore p.dest) t
      (bits p.dest 0 6 - kBase ((d.core (rzCore p.dest)).bound t)))) :
    (d.takeKey false p).keyCount (rzCore p.dest) (bits p.dest 0 6) = d.keyCount (rzCore p.dest) (bits p.dest 0 6) + p.keyN := by
  have cores := d.cores_openApplied t (some (rzCore p.dest)) p
  have fabric := d.fabric_openApplied t (some (rzCore p.dest)) p
  have reads := d.openReads_openApplied t (some (rzCore p.dest)) p
  have posture := d.posture_openApplied t (some (rzCore p.dest)) p
  unfold Device.takeKey
  dsimp only
  rw [if_neg (by simp [on_, has, serves]), held]
  dsimp only
  rw [if_neg (by simp [live])]
  generalize d.openApplied t (some (rzCore p.dest)) p = e at cores fabric reads posture
  have core (c : Nat) : e.core c = d.core c := by unfold Device.core; rw [cores]
  let f : Device := { e with fabric := { e.fabric with lasts := [] } }
  have settles : (e.onFabric (fun f => { f with lasts := f.lasts ++ [p] })).settleTags = f.settleLast p := by
    show List.foldl _ _ (e.fabric.lasts ++ [p]) = _
    rw [fabric, none_]
    rfl
  have calm : f.outstanding p = false := by
    rw [← quiet]
    show Device.outstanding { e with fabric := _ } p = _
    unfold Device.outstanding Device.devNum
    simp only [Device.core, cores, reads, fabric]
  have waits : f.landedOf p.who ≠ some 0 := by
    show (e.fabric.landedTag.find? _).map _ ≠ some 0
    rw [fabric]
    exact landed
  have holds : f.keyHolder (rzCore p.dest) (bits p.dest 0 6) = some t := (Device.keyHolder_of_posture posture _ _).trans held
  have count : f.keyCount (rzCore p.dest) (bits p.dest 0 6) = d.keyCount (rzCore p.dest) (bits p.dest 0 6) :=
    congrArg (fun k : Core => Sparse.get 0 k.keys _) (core _)
  have same : f.core (rzCore p.dest) = d.core (rzCore p.dest) := core _
  rw [settles, ← count]
  unfold Device.settleLast
  dsimp only
  rw [if_neg (by rw [calm]; simp), op, if_pos (by rw [same]; exact awake)]
  refine Device.openKey_raises (by rw [same]; exact idle) some_ waits holds ?_
  rw [count]
  unfold Device.keyEntry at fits ⊢
  rw [same]
  exact fits

/-- A QMSG is on its way to its core as an open arrival (R307). -/
theorem Device.takeMsg_sends (on_ : d.power.device = 0) (has : d.hasCore (rzCore p.dest) = true)
    (serves : (d.core (rzCore p.dest)).absent = false) :
    ∃ m, ((d.takeMsg p).core (rzCore p.dest)).msgIn = (d.core (rzCore p.dest)).msgIn ++ [m] ∧ m.desc = slice p.data 0 32
      ∧ m.openSlot = true ∧ m.mq = bits p.dest 0 7 ∧ m.dev = p.srcDev ∧ m.core = p.srcCore := by
  unfold Device.takeMsg
  extract_lets c e
  have metered : e.core c = d.core c := by
    unfold e
    split <;> rfl
  rw [if_neg (by simp only [on_, has, serves, c]; simp), Device.core_onCore_same, metered]
  exact ⟨_, rfl, rfl, rfl, rfl, rfl, rfl⟩

/-- A DONE gives its copy the notice. -/
theorem Device.takeDone_notes {x : Copy} (found : (d.core p.srcCore).copyOf p.tag = some x) (live : (d.task x.slot).replay = none) :
    ((d.takeDone false p).core p.srcCore).copyOf p.tag = some { x with notice := some p.aux } := by
  unfold Device.takeDone
  dsimp only
  rw [found]
  dsimp only
  rw [if_neg (by simp [live]), Device.onCopy, Device.core_onCore_same, Device.core_openApplied]
  unfold Core.copyOf at found ⊢
  dsimp only
  have id : x.id = p.tag := by simpa using List.find?_some found
  have keeps : (fun y : Copy => y.id == p.tag) ∘ (fun y : Copy => if y.id = p.tag then { y with notice := some p.aux } else y)
      = fun y => y.id == p.tag := by
    funext y
    exact both_branches (fun y : Copy => y.id == p.tag) rfl rfl
  rw [List.find?_map, keeps, found, Option.map_some, if_pos id]

/-- HOST bytes for task staging are stored (R474). -/
theorem Device.takeHost_stores (staged : rzSpace p.dest = 2) (valid : rzValid d.grade p.dest p.len = true)
    (free : d.hostBarred 2 (rzOff p.dest) p.len = false) (some_ : 0 < p.len) : (d.takeHost p).dram = d.dram
      ∧ (d.takeHost p).staging.bytes = Sparse.setMany 0 d.staging.bytes (rzOff p.dest) (p.marked.map (·.1)) := by
  have here : d.targetGone p.dest p.len = false := by
    unfold Device.targetGone
    rw [staged]
    rfl
  unfold Device.takeHost
  dsimp only
  rw [if_pos (by rw [staged, valid, free, here]; rfl)]
  obtain ⟨dram, staging⟩ := Device.openData_staging (d := d.meterFabric none (32 + p.data.length)) some_ staged
  obtain ⟨last, still, _, _⟩ := Device.openLast_frame ((d.meterFabric none (32 + p.data.length)).openData p) p
  exact ⟨last.trans dram, (congrArg Mem.bytes still).trans staging⟩

/-- HOST bytes for the window of a task in replay, or for the armed ring, land nowhere. -/
theorem Device.takeHost_barred (barred : d.hostBarred (rzSpace p.dest) (rzOff p.dest) p.len = true) :
    (d.takeHost p).dram = d.dram ∧ (d.takeHost p).staging = d.staging := by
  unfold Device.takeHost
  dsimp only
  rw [barred, if_neg (by simp)]
  obtain ⟨dram, staging, _, _⟩ := Device.openLast_frame (d.addLanded p.who 0) p
  exact ⟨dram, staging⟩

/-! ### Writes and reads within a window -/

section
variable {t : Nat} {r : List Nat} (slots : d.openSlots p.dest p.len = t :: r) (live : (d.task t).replay = none)
include slots live

/-- A WRITE in a window is applied to the task, and its data goes to its destination. -/
theorem Device.takeWrite_applied : ∃ core, d.takeWrite false p = ((d.openApplied t core p).openData p).openLast p := by
  unfold Device.takeWrite
  rw [slots]
  dsimp only
  rw [if_neg (by simp [live])]
  exact ⟨_, rfl⟩

theorem Device.takeWrite_staging (some_ : 0 < p.len) (staged : rzSpace p.dest = 2) : (d.takeWrite false p).dram = d.dram
    ∧ (d.takeWrite false p).staging.bytes = Sparse.setMany 0 d.staging.bytes (rzOff p.dest) (p.marked.map (·.1)) := by
  obtain ⟨core, acts⟩ := Device.takeWrite_applied slots live
  obtain ⟨dram, staging⟩ := Device.openData_staging (d := d.openApplied t core p) some_ staged
  obtain ⟨last, still, _, _⟩ := Device.openLast_frame ((d.openApplied t core p).openData p) p
  rw [acts, last, still, dram, staging, Device.dram_openApplied, Device.staging_openApplied]
  exact ⟨rfl, rfl⟩

theorem Device.takeWrite_dram (some_ : 0 < p.len) (dram : rzSpace p.dest = 1) : (d.takeWrite false p).dram = d.dram
    ∧ (d.takeWrite false p).staging = d.staging
    ∧ ∃ x, (d.takeWrite false p).openReads = d.openReads ++ [x] ∧ x.waits p (rzOff p.dest) true := by
  obtain ⟨core, acts⟩ := Device.takeWrite_applied slots live
  obtain ⟨sameDram, sameStaging, x, reads, waits⟩ := Device.openData_dram (d := d.openApplied t core p) some_ dram
  obtain ⟨last, still, waiting, _⟩ := Device.openLast_frame ((d.openApplied t core p).openData p) p
  rw [acts, last, still, waiting, sameDram, sameStaging, reads, Device.dram_openApplied, Device.staging_openApplied,
    Device.openReads_openApplied]
  exact ⟨rfl, rfl, x, rfl, waits⟩

theorem Device.takeWrite_core (some_ : 0 < p.len) (spad : rzSpace p.dest = 0) : (d.takeWrite false p).dram = d.dram
    ∧ (d.takeWrite false p).staging = d.staging
    ∧ ∃ x, ((d.takeWrite false p).core (rzCore p.dest)).reqs = (d.core (rzCore p.dest)).reqs ++ [x]
      ∧ x.waits p (rzCoreOff p.dest) true := by
  obtain ⟨core, acts⟩ := Device.takeWrite_applied slots live
  obtain ⟨sameDram, sameStaging, x, reqs, waits⟩ := Device.openData_core (d := d.openApplied t core p) some_ spad
  obtain ⟨last, still, _, waiting⟩ := Device.openLast_frame ((d.openApplied t core p).openData p) p
  rw [acts, last, still, waiting, sameDram, sameStaging, reqs, Device.dram_openApplied, Device.staging_openApplied,
    Device.core_openApplied]
  exact ⟨rfl, rfl, x, rfl, waits⟩

/-- A READ_REQ of DRAM in a window waits for its ticks. -/
theorem Device.takeRead_dram (dram : rzSpace p.dest = 1) : (d.takeRead false p).dram = d.dram
    ∧ (d.takeRead false p).staging = d.staging
    ∧ ∃ x, (d.takeRead false p).openReads = d.openReads ++ [x] ∧ x.waits p (rzOff p.dest) false := by
  have acts : ∃ core, d.takeRead false p = ((d.openApplied t core p).addDramReq p p.dest false).openLast p := by
    unfold Device.takeRead
    rw [slots]
    dsimp only
    rw [if_neg (by simp [live]), dram]
    exact ⟨_, rfl⟩
  obtain ⟨core, acts⟩ := acts
  obtain ⟨sameDram, sameStaging, x, reads, waits⟩ := (d.openApplied t core p).addDramReq_frame p p.dest false
  obtain ⟨last, still, waiting, _⟩ := Device.openLast_frame ((d.openApplied t core p).addDramReq p p.dest false) p
  rw [acts, last, still, waiting, sameDram, sameStaging, reads, Device.dram_openApplied, Device.staging_openApplied,
    Device.openReads_openApplied]
  exact ⟨rfl, rfl, x, rfl, waits⟩

/-- A READ_REQ of a core's scratchpad in a window waits for its copy cycles. -/
theorem Device.takeRead_core (spad : rzSpace p.dest = 0) : (d.takeRead false p).dram = d.dram
    ∧ (d.takeRead false p).staging = d.staging
    ∧ ∃ x, ((d.takeRead false p).core (rzCore p.dest)).reqs = (d.core (rzCore p.dest)).reqs ++ [x]
      ∧ x.waits p (rzCoreOff p.dest) false := by
  have acts : ∃ core, d.takeRead false p = ((d.openApplied t core p).addReq p p.dest false).openLast p := by
    unfold Device.takeRead
    rw [slots]
    dsimp only
    rw [if_neg (by simp [live]), spad]
    exact ⟨_, rfl⟩
  obtain ⟨core, acts⟩ := acts
  obtain ⟨sameDram, sameStaging, x, reqs, waits⟩ := (d.openApplied t core p).addReq_frame p p.dest false
  obtain ⟨last, still, _, waiting⟩ := Device.openLast_frame ((d.openApplied t core p).addReq p p.dest false) p
  rw [acts, last, still, waiting, sameDram, sameStaging, reqs, Device.dram_openApplied, Device.staging_openApplied,
    Device.core_openApplied]
  exact ⟨rfl, rfl, x, rfl, waits⟩

end

end

/-! ### The packets that a pair has deferred (R511) -/

theorem byPoint_perm (l : List (Nat × Packet)) : (byPoint l).Perm l := by
  have inserts (l a : List (Nat × Packet)) : (l.foldl (fun a p => a.takeWhile (fun x => !(p.2.before x.2)) ++ [p]
      ++ a.dropWhile (fun x => !(p.2.before x.2))) a).Perm (l ++ a) := by
    induction l generalizing a with
    | nil => exact .refl _
    | cons p l ih =>
      refine (ih _).trans ?_
      have placed : (a.takeWhile (fun x => !(p.2.before x.2)) ++ [p] ++ a.dropWhile (fun x => !(p.2.before x.2))).Perm (p :: a) := by
        rw [List.append_assoc, List.singleton_append]
        refine List.perm_middle.trans ?_
        rw [List.takeWhile_append_dropWhile]
      exact (placed.append_left l).trans List.perm_middle
  exact (inserts l []).trans (by rw [List.append_nil])

theorem diff_filter_self {α : Type} [BEq α] [LawfulBEq α] (due : α → Bool) (l : List α) : l.diff (l.filter due) = l.filter (fun x => !due x) := by
  have passes (a : α) (l m : List α) (h : a ∉ m) : (a :: l).diff m = a :: l.diff m := by
    induction m generalizing l with
    | nil => rfl
    | cons b m ih =>
      obtain ⟨apart, rest⟩ := not_or.1 (mt List.mem_cons.2 h)
      rw [List.diff_cons, List.diff_cons, List.erase_cons_tail (by simpa using apart), ih _ rest]
  induction l with
  | nil => rfl
  | cons a l ih =>
    by_cases h : due a = true
    · rw [List.filter_cons_of_pos h, List.diff_cons, List.erase_cons_head, ih, List.filter_cons_of_neg (by simp [h])]
    · rw [List.filter_cons_of_neg h, passes a l _ (fun m => h (List.mem_filter.1 m).2), ih,
        List.filter_cons_of_pos (by simpa using h)]

theorem Device.deferred_after (l : List (Nat × Packet)) (d : Device) :
    (l.foldl (fun d e => (d.takeDeferred e).2.applyOpen (d.takeDeferred e).1) d).fabric.deferred = d.fabric.deferred.diff l := by
  induction l generalizing d with
  | nil => rfl
  | cons e l ih =>
    have read := d.delivers_stageRead (deferralBase + 512 * e.1) 480
    have taken : (d.takeDeferred e).2.fabric.deferred = d.fabric.deferred.erase e := congrArg (List.erase · e) read.2
    rw [List.foldl_cons, ih, List.diff_cons, ((d.takeDeferred e).2.delivers_applyOpen _).2, taken]

end Sys2Proof.Machine

/-! PROOFS about the rows of open packets (Table 14-3): which packet a row takes, and what it leaves. -/

namespace Sys2Proof.Machine

set_option Elab.async false

open Sys2Proof

/-- The rows that take the oldest packet of one operation. -/
def openRows : List (Nat × Instr) := [(0, .openWrite), (1, .openReadReq), (2, .openReadData), (3, .openKeyAdd), (4, .openQmsg),
  (5, .openDone), (7, .openHost)]

theorem exec_openRow {s : State} {op : Nat} {i : Instr} (row : (op, i) ∈ openRows) : exec i s = lift (fun d => d.openRow op) s := by
  simp only [openRows, List.mem_cons, Prod.mk.injEq, List.not_mem_nil, or_false] at row
  rcases row with ⟨rfl, rfl⟩ | ⟨rfl, rfl⟩ | ⟨rfl, rfl⟩ | ⟨rfl, rfl⟩ | ⟨rfl, rfl⟩ | ⟨rfl, rfl⟩ | ⟨rfl, rfl⟩ <;> rfl

/-- A device from which an arrived packet has been taken. -/
def Device.picked (d : Device) (p : Packet) : Device := d.onFabric (fun f => { f with openIn := f.openIn.erase p })

theorem Device.op_of_nextOpen {d : Device} {op : Nat} {p : Packet} (h : d.nextOpen op = some p) : p.op = op := by
  unfold Device.nextOpen at h
  split at h
  · split at h
    · next q _ same =>
      obtain rfl := Option.some.inj h
      simp only [Bool.and_eq_true, decide_eq_true_eq] at same
      exact same.1
    · cases h
  · cases h

theorem openRow_idle {s : State} {op : Nat} {i : Instr} (row : (op, i) ∈ openRows) (none_ : s.dev.nextOpen op = none) : Becomes i s s.dev :=
  .lift (exec_openRow row) (by unfold Device.openRow; rw [none_])

theorem openRow_takes {s : State} {op : Nat} {i : Instr} {p : Packet} {P : Device → Prop} (row : (op, i) ∈ openRows)
    (next : s.dev.nextOpen op = some p) (hP : P (((s.dev.picked p).applyOpen p).withBeat s.dev.beat)) : Completes i s P := by
  refine .row (exec_openRow row) ?_
  unfold Device.openRow
  rw [next]
  exact hP

/-- What the packet acts as, by its operation. -/
theorem Device.applyOpen_of_op (d : Device) (p : Packet) : (p.op = 0 → d.applyOpen p = d.takeWrite false p)
    ∧ (p.op = 1 → d.applyOpen p = d.takeRead false p)
    ∧ (p.op = 2 → p.srcDev = d.devNum → d.applyOpen p = d.takeOrigin false p)
    ∧ (p.op = 3 → d.applyOpen p = d.takeKey false p) ∧ (p.op = 4 → d.applyOpen p = d.takeMsg p)
    ∧ (p.op = 5 → p.srcCore ≠ 0xFF → d.applyOpen p = d.takeDone false p) ∧ (p.op = 7 → d.applyOpen p = d.takeHost p) := by
  unfold Device.applyOpen
  refine ⟨fun h => by rw [h]; rfl, fun h => by rw [h]; rfl, fun h own => ?_, fun h => by rw [h]; rfl, fun h => by rw [h]; rfl,
    fun h far => ?_, fun h => by rw [h]; rfl⟩
  · rw [h]
    exact if_pos own
  · rw [h]
    exact if_neg far

section
variable {s : State} {p : Packet}

theorem openRow_keepsOthers {op : Nat} {i : Instr} (row : (op, i) ∈ openRows) (next : s.dev.nextOpen op = some p) :
    Completes i s (fun e => ∃ l, e.fabric.openIn = s.dev.fabric.openIn.erase p ++ l) :=
  openRow_takes row next ((s.dev.picked p).delivers_applyOpen p).1

/-- A packet that is refused is counted, and nothing is written. -/
theorem openRow_refuses {op : Nat} {i : Instr} (row : (op, i) ∈ openRows) (next : s.dev.nextOpen op = some p)
    (refused : (s.dev.picked p).refusedOne ((s.dev.picked p).applyOpen p)) :
    Completes i s (fun e => Sparse.get 0 e.hub.counters 12 = Sparse.get 0 s.dev.hub.counters 12 + 1
      ∧ e.dram = s.dev.dram ∧ e.staging = s.dev.staging) :=
  openRow_takes row next ⟨congrArg Prod.fst refused, congrArg (fun x => x.2.1) refused, congrArg (fun x => x.2.2) refused⟩

end

/-- Settles O58: a row takes the oldest packet of its operation, and the packet acts as its operation says (`takeWrite`, `takeRead`,
`takeOrigin`, `takeKey`, `takeMsg`, `takeDone`, `takeHost`); what follows the last packets of a TAG keeps the memories, the
requests and the refusals. -/
theorem openPackets : Obligations.OpenPackets := by
  refine ⟨fun s op i row => ⟨openRow_idle row, fun p next => openRow_keepsOthers row next⟩, fun s p => ?_, fun s => ?_⟩
  · dsimp only
    obtain ⟨write, read, origin, key, msg, done, host⟩ := (s.dev.picked p).applyOpen_of_op p
    have op {n : Nat} (next : s.dev.nextOpen n = some p) : p.op = n := Device.op_of_nextOpen next
    refine ⟨fun next out => ?_, fun t r next slots live some_ => ⟨fun staged => ?_, fun dram => ?_, fun spad => ?_⟩,
      fun next out => ?_, fun t r next slots live dram => ?_, fun t r next slots live spad => ?_, fun next own strays live => ?_,
      fun t next none_ quiet on_ has serves idle landed some_ awake held live fits => ?_, fun next on_ has serves => ?_,
      fun gone => ⟨fun next => ?_, fun next => ?_⟩, fun x next far found live => ?_, fun next staged valid free some_ => ?_,
      fun next barred => ?_⟩
    · exact openRow_refuses (by simp [openRows]) next (write (op next) ▸ Device.takeWrite_refused out)
    · refine openRow_takes (op := 0) (by simp [openRows]) next ?_
      rw [write (op next)]
      exact Device.takeWrite_staging (d := s.dev.picked p) slots live some_ staged
    · refine openRow_takes (op := 0) (by simp [openRows]) next ?_
      rw [write (op next)]
      exact Device.takeWrite_dram (d := s.dev.picked p) slots live some_ dram
    · refine openRow_takes (op := 0) (by simp [openRows]) next ?_
      rw [write (op next)]
      exact Device.takeWrite_core (d := s.dev.picked p) slots live some_ spad
    · exact openRow_refuses (by simp [openRows]) next (read (op next) ▸ Device.takeRead_refused out)
    · refine openRow_takes (op := 1) (by simp [openRows]) next ?_
      rw [read (op next)]
      exact Device.takeRead_dram (d := s.dev.picked p) slots live dram
    · refine openRow_takes (op := 1) (by simp [openRows]) next ?_
      rw [read (op next)]
      exact Device.takeRead_core (d := s.dev.picked p) slots live spad
    · exact openRow_refuses (by simp [openRows]) next (origin (op next) own ▸ Device.takeOrigin_refused strays live)
    · refine openRow_takes (op := 3) (by simp [openRows]) next ?_
      rw [key (op next)]
      exact Device.takeKey_raises (d := s.dev.picked p) (op next) none_ quiet on_ has serves idle landed some_ awake held live fits
    · refine openRow_takes (op := 4) (by simp [openRows]) next ?_
      rw [msg (op next)]
      exact Device.takeMsg_sends (d := s.dev.picked p) on_ has serves
    · exact openRow_refuses (by simp [openRows]) next (by rw [key (op next)]; exact (Device.gone_refused (d := s.dev.picked p) gone).1)
    · exact openRow_refuses (by simp [openRows]) next (by rw [msg (op next)]; exact (Device.gone_refused (d := s.dev.picked p) gone).2)
    · refine openRow_takes (op := 5) (by simp [openRows]) next ?_
      rw [done (op next) far]
      exact Device.takeDone_notes (d := s.dev.picked p) found live
    · refine openRow_takes (op := 7) (by simp [openRows]) next ?_
      rw [host (op next)]
      exact Device.takeHost_stores (d := s.dev.picked p) staged valid free some_
    · refine openRow_takes (op := 7) (by simp [openRows]) next ?_
      rw [host (op next)]
      exact Device.takeHost_barred (d := s.dev.picked p) barred
  · dsimp only
    have row : exec .openDeferralApply s = execOpenDeferralApply s := rfl
    refine ⟨fun none_ => .lift row ?_, .row row ?_⟩
    · dsimp only
      rw [List.filter_eq_nil_iff.2 (List.any_eq_false.1 none_)]
      rfl
    · exact (Device.deferred_after _ _).trans (((byPoint_perm _).diff_left _).trans (diff_filter_self _ _))

end Sys2Proof.Machine

/-! PROOFS about the records of the twin stream (R504 to R534): what each does in the role that takes it. -/

namespace Sys2Proof.Machine

set_option Elab.async false

open Sys2Proof

/-! ### Decisions (R516) -/

/-- The decision of a DECIDE record for its position `i`. -/
def decisionOf (r : TwinRec) (i : Nat) : Decision :=
  { port := auxPort r, w := r.beat, pos := auxPos r + i, word := BitVec.ofNat 64 (fieldLe r.data (8 * i) 8) }

/-- The decisions of a record, held one after the other: each stays that is not of a wall beat past, and only the twin logic changes. -/
theorem Device.holdDecisions (r : TwinRec) (n : Nat) (d : Device) : ∃ l : List Decision,
    (List.range n).foldl (fun d i => d.holdDecision (auxPort r) r.beat (auxPos r + i) (fieldLe r.data (8 * i) 8)) d
        = d.onTwin (fun t => { t with decisions := l })
      ∧ ∀ i, i < n → decisionOf r i ∈ l ∨ r.beat + 1 < d.beat.w := by
  induction n with
  | zero => exact ⟨d.twin.decisions, rfl, fun i h => absurd h (Nat.not_lt_zero i)⟩
  | succ n ih =>
    obtain ⟨l, same, held⟩ := ih
    rw [List.range_succ, List.foldl_append, List.foldl_cons, List.foldl_nil, same]
    refine ⟨_, rfl, fun i h => ?_⟩
    rcases Nat.lt_succ_iff_lt_or_eq.1 h with before | rfl
    · rcases held i before with mem | past
      · by_cases late : r.beat + 1 < d.beat.w
        · exact .inr late
        · refine .inl (List.mem_cons_of_mem _ (List.mem_filter.2 ⟨mem, ?_⟩))
          have fresh : d.beat.w ≤ r.beat + 1 := Nat.le_of_not_lt late
          have apart : (auxPos r + i == auxPos r + n) = false := by simp; omega
          show (!(_ && _ && (auxPos r + i == auxPos r + n)) && decide (d.beat.w ≤ r.beat + 1)) = true
          rw [apart, Bool.and_false, decide_eq_true fresh]
          rfl
      · exact .inr past
    · exact .inl List.mem_cons_self

theorem Device.twinSend_outbox (d : Device) (kind beat sc core aux : Nat) (data : List (BitVec 8)) : ∃ x,
    (∀ e : Device, (e.twinSend kind beat sc core aux data).twin.outbox = e.twin.outbox ++ [x])
      ∧ d.twinSend kind beat sc core aux data = d.onTwin (fun t => { t with outbox := t.outbox ++ [x] }) :=
  ⟨_, fun _ => rfl, rfl⟩

theorem twDecide_shadow (r : TwinRec) (s : State) (shadow : s.dev.twin.role = 5) (has : s.dev.hasPort (auxPort r) = true)
    (whole : auxPos r % 16 = 0) : Completes (.twDecide r) s (fun e => e.twin.missDecide = 0
      ∧ e.twin.outbox.length = s.dev.twin.outbox.length + 1
      ∧ (∀ i, i < 16 → decisionOf r i ∈ e.twin.decisions ∨ r.beat + 1 < s.dev.beat.w) ∧ e.cores = s.dev.cores ∧ e.fabric = s.dev.fabric) := by
  refine .row (show _ = execTwDecide r s from rfl) ?_
  rw [if_neg (by simp [shadow, has, whole])]
  obtain ⟨l, same, held⟩ := Device.holdDecisions r 16 s.dev
  dsimp only
  rw [same]
  obtain ⟨x, -, sends⟩ := Device.twinSend_outbox ((s.dev.onTwin (fun t => { t with decisions := l })).onTwin
    (fun t => { t with missDecide := 0 })) 2 r.beat 0 0xFF (r.aux % 2 ^ 14) []
  rw [sends]
  refine ⟨rfl, ?_, held, by simp only [Device.withBeat_cores, Device.onTwin_cores], by simp only [Device.withBeat_fabric, Device.onTwin_fabric]⟩
  show (s.dev.twin.outbox ++ [x]).length = _
  rw [List.length_append, List.length_singleton]

/-! ### Acknowledgements and READY (R508, R515, R516) -/

theorem Device.cmds_commandArrives (d : Device) (mb : Nat) : (d.commandArrives mb).twin.cmds = d.twin.cmds.filter (fun c => c.1 != mb) := rfl

theorem Device.readyIn_diverge (d : Device) (t beat tb pos : Nat) : (d.diverge t beat tb pos).twin.readyIn = d.twin.readyIn := by
  unfold Device.diverge
  extract_lets blank e own peer
  have logged : e.twin.readyIn = d.twin.readyIn := congrArg Twin.readyIn (d.twin_log _)
  clear_value e
  refine both_branches (fun d : Device => d.twin.readyIn)
    (both_branches (fun d : Device => d.twin.readyIn) logged logged) ?_
  obtain ⟨-, -, -, -, twin⟩ := (e.onTwin (fun w => { w with diverged := some (t, tb, pos) })).stopTask_frame t
  exact (congrArg Twin.readyIn twin).trans logged

theorem Device.readyIn_divergeTold (d : Device) (t beat pos n : Nat) : (d.divergeTold t beat pos n).twin.readyIn = d.twin.readyIn := by
  have diverged := d.readyIn_diverge t beat (d.taskBeat t) pos
  unfold Device.divergeTold
  dsimp only
  split <;> exact diverged

theorem Device.readyIn_readyCheck (d : Device) (p k beat crc : Nat) : (d.readyCheck p k beat crc).twin.readyIn = d.twin.readyIn := by
  have at_ : (d.divergeAt p k beat).twin.readyIn = d.twin.readyIn := by
    unfold Device.divergeAt
    split
    · exact d.readyIn_divergeTold _ _ _ _
    · rfl
  unfold Device.readyCheck
  dsimp only
  refine both_branches (fun d : Device => d.twin.readyIn) (both_branches (fun d : Device => d.twin.readyIn) at_ rfl) ?_
  split
  · refine both_branches (fun d : Device => d.twin.readyIn) rfl ?_
    split
    · exact Device.readyIn_divergeTold _ _ _ _ _
    · rfl
  · rfl

/-! ### COMMAND (R508) -/

theorem twCommand_shadow (r : TwinRec) (s : State) (shadow : s.dev.twin.role = 5) : Completes (.twCommand r) s (fun e =>
    (e.mbx (bits r.aux 0 4)).st = 1 ∧ (e.mbx (bits r.aux 0 4)).arrive = r.beat ∧ (e.mbx (bits r.aux 0 4)).twin = true
      ∧ e.tasks = s.dev.tasks
      ∧ e.twin.outbox.getLast? = (s.dev.twinSend 2 r.beat 0 0xFF (63 + bits r.aux 0 4 * 2 ^ 6) []).twin.outbox.getLast?) := by
  refine .row (show _ = execTwCommand r s from rfl) ?_
  dsimp only
  rw [if_neg (by simp [shadow])]
  generalize bits r.aux 0 4 = mb
  have held : (((s.dev.onMbx mb (fun m => { m with cmd := cellsOf r.data, source := none, twin := true })).pend mb r.beat).twinSend 2
      r.beat 0 0xFF (63 + mb * 2 ^ 6) []).mbx mb = ({ s.dev.mbx mb with cmd := cellsOf r.data, source := none, twin := true } : Mbx).pended
        r.beat s.dev.hub.arrivals s.dev.beat.aligned := by
    rw [Device.mbx_twinSend, Device.mbx_pend, Device.mbx_onMbx_same]
    rfl
  have tasks : ((s.dev.onMbx mb (fun m => { m with cmd := cellsOf r.data, source := none, twin := true })).pend mb r.beat).tasks
      = s.dev.tasks := by
    unfold Device.pend
    exact (Device.tasks_of_besidePosts (Device.besidePosts_reply _ mb)).trans rfl
  obtain ⟨x, sends, -⟩ := s.dev.twinSend_outbox 2 r.beat 0 0xFF (63 + mb * 2 ^ 6) []
  refine ⟨?_, ?_, ?_, tasks, ?_⟩
  · rw [Device.mbx_withBeat, held]; rfl
  · rw [Device.mbx_withBeat, held]; rfl
  · rw [Device.mbx_withBeat, held]; rfl
  · rw [Device.withBeat_twin, sends, sends, List.getLast?_concat, List.getLast?_concat]

/-! ### Faults of the partner (R28, R521 to R528, R534) -/

theorem Device.setRole_frame (d : Device) (role code : Nat) : (d.setRole role code).besideSignals = d.besideSignals
    ∧ (d.setRole role code).twin = { d.twin with role := role, roleKnown := true } := by
  unfold Device.setRole Device.roleRecord Device.event
  exact ⟨Device.besideSignals_log .., (Device.twin_log ..).trans rfl⟩

theorem Device.setPartner_frame (d : Device) (role code : Nat) : (d.setPartner role code).besideSignals = d.besideSignals
    ∧ (d.setPartner role code).twin = { d.twin with partner := role } := by
  unfold Device.setPartner Device.roleRecord Device.event
  split
  · next same => exact ⟨rfl, by rw [← same]⟩
  · exact ⟨Device.besideSignals_log .., (Device.twin_log ..).trans rfl⟩

theorem Device.tasks_of_besideSignals {d e : Device} (h : d.besideSignals = e.besideSignals) : d.tasks = e.tasks :=
  (congrArg Device.tasks h :)
theorem Device.cores_of_besideSignals {d e : Device} (h : d.besideSignals = e.besideSignals) : d.cores = e.cores :=
  (congrArg Device.cores h :)

theorem Device.abandon534_frame (d : Device) (status : Nat) : (d.abandon534 status).twin.role = 0
    ∧ (d.abandon534 status).twin.attach = none ∧ (d.abandon534 status).tasks = d.tasks := by
  unfold Device.abandon534
  extract_lets mb e f
  have frame : f.twin.role = 0 ∧ f.twin.attach = none ∧ f.tasks = d.tasks := by
    obtain ⟨partnerSame, partner⟩ := e.setPartner_frame 1 0
    obtain ⟨roleSame, role⟩ := (e.setPartner 1 0).setRole_frame 0 0
    exact ⟨congrArg Twin.role role, (congrArg Twin.attach role).trans (congrArg Twin.attach partner),
      (Device.tasks_of_besideSignals roleSame).trans (Device.tasks_of_besideSignals partnerSame)⟩
  clear_value mb f
  cases mb with
  | none => exact frame
  | some m =>
    dsimp only
    rw [Device.role_finish, Device.attach_finish, Device.tasks_finish]
    exact frame

theorem Device.matchFaults_books (d : Device) (t beat sc : Nat) : (d.matchFaults t beat sc).tasks = d.tasks
    ∧ (d.matchFaults t beat sc).cores = d.cores ∧ (d.matchFaults t beat sc).twin.peerPackage = d.twin.peerPackage := by
  unfold Device.matchFaults
  split
  · split <;> exact ⟨rfl, rfl, rfl⟩
  · exact ⟨rfl, rfl, rfl⟩

/-- The fault row in a pair, by the class of the code. -/
theorem twFault_pair (r : TwinRec) (s : State) (pair : s.dev.inPair = true) (own : bits r.aux 0 16 ≠ 0x0401) :
    let t := bits (fieldLe r.data 16 8) 17 3
    (classOf (bits r.aux 0 16) ≠ 3 → Completes (.twFault r) s (fun e => e.tasks = s.dev.tasks ∧ e.cores = s.dev.cores
      ∧ (classOf (bits r.aux 0 16) = 2 → s.dev.beat.w ∈ e.twin.peerPackage)))
    ∧ (classOf (bits r.aux 0 16) = 3 → (s.dev.task t).state = 2 →
        Completes (.twFault r) s (fun e => (e.task t).stopping = true ∧ e.hub = s.dev.hub ∧ e.twin = s.dev.twin))
    ∧ (classOf (bits r.aux 0 16) = 3 → (s.dev.task t).state ≠ 2 → Completes (.twFault r) s (fun e => e = s.dev)) := by
  have solo : s.dev.twin.role ≠ 2 := by
    intro two
    simp [Device.inPair, two] at pair
  intro t
  refine ⟨fun other => ?_, fun link runs => ?_, fun link rests => ?_⟩ <;> refine .row (show _ = execTwFault r s from rfl) ?_ <;>
    dsimp only <;> rw [if_neg solo, if_neg (by simp [pair]), if_neg own]
  · rw [if_neg other]
    obtain ⟨tasks, cores, package⟩ := Device.matchFaults_books (s.dev.onTwin (fun w => { w with
      faults := w.faults ++ [(bits r.aux 0 16, t, r.beat, r.sc, s.dev.beat.w + 1)],
      peerPackage := if classOf (bits r.aux 0 16) = 2 then
          w.peerPackage.filter (fun v => s.dev.beat.w < v + 2 ^ 24) ++ [s.dev.beat.w] else w.peerPackage })) t r.beat r.sc
    refine ⟨tasks, cores, fun two => ?_⟩
    rw [Device.withBeat_twin, package]
    show s.dev.beat.w ∈ (if _ then _ else _)
    rw [if_pos two]
    exact List.mem_append_right _ (List.mem_singleton_self _)
  · rw [if_pos link, if_pos (by simpa using runs)]
    obtain ⟨-, -, -, hub, twin⟩ := s.dev.stopTask_frame t
    exact ⟨congrArg Task.stopping (s.dev.task_stopTask t).1, hub, twin⟩
  · rw [if_pos link, if_neg (by simpa using rests)]
    exact Device.withBeat_of_eq rfl

end Sys2Proof.Machine

/-! PROOFS about STEER and COPY (R506, R517, R530 to R533), and about records that reach a role that does not take them. -/

namespace Sys2Proof.Machine

set_option Elab.async false

open Sys2Proof

theorem Device.beginJoin_frame (d : Device) : d.beginJoin.tasks = d.tasks ∧ d.beginJoin.cores = d.cores
    ∧ (d.twin.role = 1 → d.beginJoin.twin.role = 3) ∧ (d.twin.role ≠ 1 → d.beginJoin = d) := by
  unfold Device.beginJoin
  obtain ⟨partnerSame, partner⟩ := d.setPartner_frame 2 0
  obtain ⟨roleSame, role⟩ := (d.setPartner 2 0).setRole_frame 3 0
  split
  · next standby =>
    exact ⟨(Device.tasks_of_besideSignals roleSame).trans (Device.tasks_of_besideSignals partnerSame),
      (Device.cores_of_besideSignals roleSame).trans (Device.cores_of_besideSignals partnerSame),
      fun _ => congrArg Twin.role role, fun other => absurd standby other⟩
  · next other => exact ⟨rfl, rfl, fun standby => absurd standby other, fun _ => rfl⟩

theorem twSteer_taken (r : TwinRec) (s : State) (takes : s.dev.twin.role = 1 ∨ s.dev.twin.role = 3 ∨ s.dev.twin.role = 5) :
    Completes (.twSteer r) s (fun e => e.twin.steer = [(r.beat, r.data)] ∧ e.cores = s.dev.cores ∧ e.tasks = s.dev.tasks
      ∧ (s.dev.twin.role = 1 → e.twin.role = 3)) := by
  obtain ⟨tasks, cores, joins, stays⟩ := s.dev.beginJoin_frame
  refine .row (show _ = execTwSteer r s from rfl) ?_
  extract_lets d e
  have role : (d.twin.role == 3 || d.twin.role == 5) = true := by
    rcases takes with one | three | five
    · simp [d, joins one]
    · simp [d, stays (by simp [three]), three]
    · simp [d, stays (by simp [five]), five]
  rw [if_neg (by simp [role])]
  have steered : e.twin.steer = [(r.beat, r.data)] ∧ e.twin.role = d.twin.role ∧ e.cores = d.cores ∧ e.tasks = d.tasks := ⟨rfl, rfl, rfl, rfl⟩
  clear_value e
  generalize hf : List.foldl _ e _ = f
  have twin : f.twin = e.twin := hf ▸ foldl_keeps Device.twin _ (fun (d : Device) (p : Nat) => d.onPort_twin p _) _ _
  have sameCores : f.cores = e.cores := hf ▸ foldl_keeps Device.cores _ (fun (d : Device) (p : Nat) => d.onPort_cores p _) _ _
  have sameTasks : f.tasks = e.tasks := hf ▸ foldl_keeps Device.tasks _ (fun (d : Device) (p : Nat) => d.onPort_tasks p _) _ _
  obtain ⟨steer, same, kept, still⟩ := steered
  refine ⟨(congrArg Twin.steer twin).trans steer, (sameCores.trans kept).trans cores, (sameTasks.trans still).trans tasks, fun one => ?_⟩
  exact ((congrArg Twin.role twin).trans same).trans (joins one)

theorem Device.twin_storeState (d : Device) (a : Nat) (bs : List (BitVec 8)) : (d.storeState a bs).twin = d.twin := by
  unfold Device.storeState
  split <;> rfl

/-- What COPY does in each role that takes it. -/
theorem twCopy_taken (r : TwinRec) (s : State) :
    (s.dev.twin.role = 3 → rzSpace (fieldLe r.data 0 8) ≠ 0xE →
      Becomes (.twCopy r) s (s.dev.storeState (fieldLe r.data 0 8) (r.data.drop 8)))
    ∧ (s.dev.twin.role = 3 → rzSpace (fieldLe r.data 0 8) = 0xE → Completes (.twCopy r) s (fun e =>
        e.twin.joinIn = s.dev.twin.joinIn ++ r.data.drop 8 ∧ e = { s.dev with twin := e.twin }))
    ∧ (s.dev.twin.role = 1 → Completes (.twCopy r) s (fun e => e.twin.role = 3))
    ∧ (s.dev.inPair = true → r.data.drop 8 = [] → Becomes (.twCopy r) s (s.dev.sendWord (fieldLe r.data 0 8)))
    ∧ (∀ x : Nat × Nat × Nat, s.dev.inPair = true → r.data.drop 8 ≠ [] →
      s.dev.twin.repairs.find? (fun y => repairAddr y == (fieldLe r.data 0 8, (r.data.drop 8).length)) = some x →
      Becomes (.twCopy r) s ((if s.dev.stillMarked x then s.dev.storeState (fieldLe r.data 0 8) (r.data.drop 8)
        else s.dev).onTwin (fun t => { t with repairs := t.repairs.erase x }))) := by
  have row : exec (.twCopy r) s = execTwCopy r s := rfl
  obtain ⟨-, -, joins, stays⟩ := s.dev.beginJoin_frame
  have paired (pair : s.dev.inPair = true) : s.dev.twin.role ≠ 1 ∧ s.dev.twin.role ≠ 3 := by
    constructor <;> intro other <;> simp [Device.inPair, other] at pair
  refine ⟨fun three far => .lift row ?_, fun three state => .row row ?_, fun one => .row row ?_, fun pair none_ => .lift row ?_,
    fun x pair some_ found => .lift row ?_⟩ <;> dsimp only
  · rw [stays (by simp [three]), if_pos three, if_neg far]
  · rw [stays (by simp [three]), if_pos three, if_pos state]
    exact ⟨rfl, rfl⟩
  · rw [if_pos (joins one)]
    refine both_branches (fun d : Device => (d.withBeat s.dev.beat).twin.role) (joins one) ?_
    exact (congrArg Twin.role (Device.twin_storeState _ _ _)).trans (joins one)
  · obtain ⟨apart, far⟩ := paired pair
    rw [stays apart, if_neg far, if_neg (by simp [pair]), if_pos (by simp [none_])]
  · obtain ⟨apart, far⟩ := paired pair
    rw [stays apart, if_neg far, if_neg (by simp [pair]), if_neg (by simpa using some_), found]

/-- In a SOLO and in a muted package no record acts. -/
theorem twin_idle (r : TwinRec) (s : State) (solo : s.dev.twin.role = 0 ∨ s.dev.twin.role = 6) :
    Becomes (.twDecide r) s s.dev ∧ Becomes (.twAck r) s s.dev ∧ Becomes (.twReady r) s s.dev ∧ Becomes (.twCommand r) s s.dev
      ∧ Becomes (.twHostIn r) s s.dev ∧ Becomes (.twValue r) s s.dev ∧ Becomes (.twMissed r) s s.dev ∧ Becomes (.twFill r) s s.dev
      ∧ Becomes (.twDigest r) s s.dev ∧ Becomes (.twFault r) s s.dev ∧ Becomes (.twSteer r) s s.dev ∧ Becomes (.twCopy r) s s.dev := by
  obtain ⟨one, two, three, four, five⟩ : s.dev.twin.role ≠ 1 ∧ s.dev.twin.role ≠ 2 ∧ s.dev.twin.role ≠ 3 ∧ s.dev.twin.role ≠ 4
      ∧ s.dev.twin.role ≠ 5 := by omega
  have alone : s.dev.inPair = false := by simp [Device.inPair, four, five]
  obtain ⟨-, -, -, stays⟩ := s.dev.beginJoin_frame
  refine ⟨.lift (show _ = execTwDecide r s from rfl) ?_, .lift (show _ = execTwAck r s from rfl) ?_, .lift (show _ = execTwReady r s from rfl) ?_,
    .lift (show _ = execTwCommand r s from rfl) ?_, .lift (show _ = execTwHostIn r s from rfl) ?_,
    .lift (show _ = execTwValue r s from rfl) ?_, .lift (show _ = execTwMissed r s from rfl) ?_,
    .lift (show _ = execTwFill r s from rfl) ?_, .lift (show _ = execTwDigest r s from rfl) ?_,
    .lift (show _ = execTwFault r s from rfl) ?_, .lift (show _ = execTwSteer r s from rfl) ?_,
    .lift (show _ = execTwCopy r s from rfl) ?_⟩
  · exact if_pos (by simp [five])
  · exact if_pos (by simp [four])
  · exact if_pos (by simp [four])
  · exact if_pos (by simp [five])
  · exact if_pos (by simp [five])
  · exact if_pos (by simp [five])
  · exact if_pos (by simp [four])
  · exact if_pos (by simp [five])
  · exact if_pos (by simp [alone])
  · rw [if_neg two]
    exact if_pos (by simp [alone])
  · dsimp only
    rw [stays one]
    exact if_pos (by simp [three, five])
  · dsimp only
    rw [stays one, if_neg three]
    exact if_pos (by simp [alone])

theorem Becomes.completes_same {i : Instr} {s : State} (h : Becomes i s s.dev) : Completes i s (fun e => e = s.dev) :=
  Becomes.completes_withBeat h (Device.withBeat_of_eq rfl)

/-- Settles O43: each record by the role of the package that takes it. -/
theorem twinRecords : Obligations.TwinRecords := by
  refine ⟨twDecide_shadow, fun r s primary port => ?_, fun r s primary port => ?_, fun r s primary => ?_, twCommand_shadow,
    fun r s shadow => ?_, fun r s shadow => ?_, fun r s x primary has found good => ?_, fun r s shadow own has good => ?_,
    fun r s pair => ?_, twFault_pair, fun r s pair told => ?_, fun r s attaches => ?_, twSteer_taken,
    fun r s => (twCopy_taken r s).1, fun r s => (twCopy_taken r s).2.1, fun r s => (twCopy_taken r s).2.2.1,
    fun r s => (twCopy_taken r s).2.2.2.1, fun r s => (twCopy_taken r s).2.2.2.2, fun off bs last s => ⟨?_, ?_⟩, fun r s solo => ?_⟩
  · refine .row (show _ = execTwAck r s from rfl) ?_
    rw [if_neg (by simp [primary]), if_neg port]
    exact ⟨List.mem_append_right _ (List.mem_singleton_self _), rfl, rfl⟩
  · refine .row (show _ = execTwAck r s from rfl) ?_
    rw [if_neg (by simp [primary]), if_pos port]
    split
    · exact Device.cmds_commandArrives _ _
    · rfl
  · refine .row (show _ = execTwReady r s from rfl) ?_
    dsimp only
    rw [if_neg (by simp [primary]), Device.withBeat_twin, Device.readyIn_readyCheck]
    exact List.mem_append_right _ (List.mem_singleton_self _)
  · refine .row (show _ = execTwHostIn r s from rfl) ?_
    rw [if_neg (by simp [shadow])]
    exact ⟨rfl, rfl⟩
  · refine .row (show _ = execTwValue r s from rfl) ?_
    rw [if_neg (by simp [shadow])]
    exact ⟨List.mem_append_right _ (List.mem_singleton_self _), rfl⟩
  · refine .lift (show _ = execTwMissed r s from rfl) ?_
    rw [if_neg (by simp [primary, has]), found]
    exact if_pos good
  · refine .lift (show _ = execTwFill r s from rfl) ?_
    dsimp only
    rw [if_neg (by simp [shadow, own, has, good])]
  · refine .lift (show _ = execTwDigest r s from rfl) ?_
    dsimp only
    rw [if_neg (by simp [pair])]
  · refine .lift (show _ = execTwFault r s from rfl) ?_
    have solo : s.dev.twin.role ≠ 2 := by
      intro two
      simp [Device.inPair, two] at pair
    dsimp only
    rw [if_neg solo, if_neg (by simp [pair]), if_pos told]
  · refine .row (show _ = execTwFault r s from rfl) ?_
    dsimp only
    rw [if_pos attaches]
    exact s.dev.abandon534_frame 6
  · exact Becomes.completes_same (.lift (show _ = execTwMbox14 off bs last true s from rfl) rfl)
  · exact .lift (show _ = execTwMbox14 off bs last false s from rfl) rfl
  · obtain ⟨decide_, ack, ready, command, hostIn, value, missed, fill, digest, fault, steer, copy⟩ := twin_idle r s solo
    exact ⟨decide_.completes_same, ack.completes_same, ready.completes_same, command.completes_same, hostIn.completes_same,
      value.completes_same, missed.completes_same, fill.completes_same, digest.completes_same, fault.completes_same,
      steer.completes_same, copy.completes_same⟩

end Sys2Proof.Machine

/-! PROOFS about the decision word of a position and what it takes from the queues of its port (R322, R329, R330, R333, R338, R339). -/

namespace Sys2Proof.Machine

set_option Elab.async false

open Sys2Proof

/-! ### Decision words -/

theorem mkWord_fields (src beat pos : Nat) (nack : Option (Nat × Nat)) (votes : Nat) :
    dwSrc (mkWord src beat pos nack votes) = src % 8 ∧ dwBeat (mkWord src beat pos nack votes) = beat % 2 ^ 16
      ∧ dwPos (mkWord src beat pos nack votes) = pos % 2 ^ 8 := by
  obtain ⟨n, word, small⟩ : ∃ n, mkWord src beat pos nack votes
      = src % 8 * 2 ^ 61 + beat % 2 ^ 16 * 2 ^ 45 + pos % 2 ^ 8 * 2 ^ 37 + n ∧ n < 2 ^ 37 := by
    unfold mkWord
    cases nack with
    | none => exact ⟨votes % 4 * 2 ^ 10, Nat.add_zero _, by omega⟩
    | some x => exact ⟨votes % 4 * 2 ^ 10 + (2 ^ 36 + x.1 % 2 ^ 16 * 2 ^ 20 + x.2 % 2 ^ 8 * 2 ^ 12), Nat.add_assoc .., by omega⟩
  unfold dwSrc dwBeat dwPos bits
  rw [word]
  omega

/-- The decision of a device that decides now, by what it has chosen. -/
theorem Device.decideWord_fields {d : Device} {p w k src beat pos : Nat} {q : Port} (h : d.choose p q w k = (src, beat, pos)) :
    dwSrc (d.decideWord p q w k) = src % 8 ∧ dwBeat (d.decideWord p q w k) = beat % 2 ^ 16
      ∧ dwPos (d.decideWord p q w k) = pos % 2 ^ 8 := by
  unfold Device.decideWord
  rw [h]
  exact mkWord_fields ..

/-! ### Choosing -/

section
variable {d : Device} {p k : Nat} {q : Port}

theorem Device.txEntry_none (h : k < 9 ∨ 32 ≤ p) (s : Nat) : d.txEntry p s k = 0 := by
  unfold Device.txEntry
  rw [if_pos (by simpa using h)]

theorem Device.planned_of_kind {s n : Nat} (kind : peKind (d.txEntry p s k) = n + 1) : 9 ≤ k ∧ p < 32 := by
  by_contra none_
  rw [d.txEntry_none (by omega) s] at kind
  exact absurd kind (by simp [peKind, bits])

theorem Device.choose_idle (down : q.up = false ∨ k = 0) (w : Nat) : d.choose p q w k = (0, 0, 0) := by
  unfold Device.choose
  exact if_pos (by simpa using down)

theorem Device.choose_repair (up : q.up = true) (low : 1 ≤ k ∧ k ≤ 8) (w : Nat) :
    d.choose p q w k = match q.nextResend with | some r => (5, r.1, r.2) | none => (0, 0, 0) := by
  unfold Device.choose
  rw [if_neg (by simp [up]; omega)]
  exact if_pos low.2

theorem Device.choose_twin (port : 32 ≤ p) (high : 9 ≤ k) (w : Nat) : d.choose p q w k = (0, 0, 0) := by
  unfold Device.choose
  by_cases down : (!q.up || k = 0) = true
  · exact if_pos down
  · rw [if_neg down, if_neg (by omega), if_pos port]

variable (up : q.up = true) (w : Nat)
include up

theorem Device.choose_local {o : Nat × Nat × List (BitVec 8) × Nat} (solo : d.twin.role = 0)
    (kind : peKind (d.txEntry p d.beat.s k) = 1) (ready : q.outbox.find? (fun o => o.1 == k) = some o) :
    d.choose p q w k = (1, o.2.1, 0) := by
  obtain ⟨high, fabric⟩ := Device.planned_of_kind kind
  have served : d.readyFor p k o.2.1 (readyCrc o.2.2.1 o.2.2.2) = true := by simp [Device.readyFor, solo]
  unfold Device.choose
  rw [if_neg (by simp [up]; omega), if_neg (by omega), if_neg (by omega)]
  dsimp only
  rw [kind, ready]
  exact if_pos served

theorem Device.choose_absent (kind : peKind (d.txEntry p d.beat.s k) = 1) (none_ : q.outbox.find? (fun o => o.1 == k) = none)
    (runs : d.holdIn w = false) : d.choose p q w k = (0, 0, 0) := by
  obtain ⟨high, fabric⟩ := Device.planned_of_kind kind
  unfold Device.choose
  rw [if_neg (by simp [up]; omega), if_neg (by omega), if_neg (by omega)]
  dsimp only
  rw [kind, none_]
  exact if_neg (by simp [runs])

theorem Device.choose_open {y : Packet} {rest : List Packet} (solo : d.twin.role = 0) (kind : peKind (d.txEntry p d.beat.s k) = 3)
    (waits : Sparse.get [] q.fifos (pePort (d.txEntry p d.beat.s k)) = y :: rest) :
    d.choose p q w k = (if pePort (d.txEntry p d.beat.s k) = 63 then 3 else 4, 0, 0) := by
  obtain ⟨high, fabric⟩ := Device.planned_of_kind kind
  have served : d.readyFor p 0 y.v y.readyCrc = true := by simp [Device.readyFor, solo]
  unfold Device.choose
  rw [if_neg (by simp [up]; omega), if_neg (by omega), if_neg (by omega)]
  dsimp only
  rw [kind, waits]
  show (if (pePort (d.txEntry p d.beat.s k) != 63) = true then (4, 0, 0) else if d.readyFor p 0 y.v y.readyCrc then (3, 0, 0) else _) = _
  by_cases own : pePort (d.txEntry p d.beat.s k) = 63
  · rw [if_neg (by simp [own]), if_pos served, if_pos own]
  · rw [if_pos (by simpa using own), if_neg own]

theorem Device.choose_forward {x : List (BitVec 8)} (kind : peKind (d.txEntry p d.beat.s k) = 2)
    (came : d.forwardSlot (d.txEntry p d.beat.s k) w k = some x) (carries : slotGood x = true → trKind x ≠ 0) :
    d.choose p q w k = (2, 0, 0) := by
  obtain ⟨high, fabric⟩ := Device.planned_of_kind kind
  have has : d.forwardHas (d.txEntry p d.beat.s k) w k = true := by
    unfold Device.forwardHas
    rw [came]
    by_cases good : slotGood x = true
    · simp [carries good]
    · simp [good]
  unfold Device.choose
  rw [if_neg (by simp [up]; omega), if_neg (by omega), if_neg (by omega)]
  dsimp only
  rw [kind]
  exact if_pos has

end

/-! ### What a decided position takes -/

/-- Apart from the NACK that it carries, a position takes what its source says. -/
theorem Port.consume_noted (q : Port) (e k x : Nat) : ∃ n, ∀ r : Port, r = { q with nackSent := n } →
    (dwSrc x = 0 ∨ dwSrc x = 2 → q.consume e k x = r)
    ∧ (∀ o, dwSrc x = 1 → q.outbox.find? (fun o => o.1 == k && o.2.1 % 2 ^ 16 == dwBeat x) = some o →
        q.consume e k x = { r with outbox := r.outbox.erase o })
    ∧ (dwSrc x = 3 → q.consume e k x = { r with fifos := Sparse.upd [] r.fifos 63 (fun l => l.drop 1) }.feed)
    ∧ (dwSrc x = 4 → q.consume e k x = { r with fifos := Sparse.upd [] r.fifos (pePort e) (fun l => l.drop 1) })
    ∧ (dwSrc x = 5 → ∃ l, q.consume e k x = { r with resend := l }) := by
  unfold Port.consume
  extract_lets r
  have noted : ∃ n, r = { q with nackSent := n } := by
    unfold r
    split
    · split
      · exact ⟨_, rfl⟩
      · exact ⟨q.nackSent, rfl⟩
    · exact ⟨q.nackSent, rfl⟩
  obtain ⟨n, same⟩ := noted
  clear_value r
  refine ⟨n, fun f hf => ?_⟩
  rw [same, ← hf]
  have outbox : f.outbox = q.outbox := by rw [hf]
  refine ⟨fun src => ?_, fun o src found => ?_, fun src => ?_, fun src => ?_, fun src => ?_⟩
  · rcases src with h | h <;> rw [h] <;> rfl
  · rw [src, outbox]
    show (match q.outbox.find? (fun o => o.1 == k && o.2.1 % 2 ^ 16 == dwBeat x) with
      | some o => { f with outbox := q.outbox.erase o }
      | none => f) = _
    rw [found]
  · rw [src]
    rfl
  · rw [src]
    rfl
  · simp only [src]
    split
    · exact ⟨_, rfl⟩
    · exact ⟨f.resend, rfl⟩

end Sys2Proof.Machine

/-! PROOFS about slots as they go out on the line of a port (R322, R330, R333, R337, R339). -/

namespace Sys2Proof.Machine

set_option Elab.async false

open Sys2Proof

/-! ### One slot -/

/-- A good slot of kind `kind` at position `k` of wall beat `w`, with its BEAT, its poison and its payload. -/
def SlotCarries (x : List (BitVec 8)) (k w kind beat poison : Nat) (payload : List (BitVec 8)) : Prop :=
  slotGood x = true ∧ trKind x = kind ∧ trSlot x = k ∧ trBeat x = beat % 2 ^ 32 ∧ trPoison x = poison % 2 ^ 60
    ∧ trSeq x = w % 2 ^ 16 ∧ trRepair x = false ∧ slotPayload x = slice payload 0 480

theorem mkSlot_carries {k kind : Nat} (position : k < 224) (known : kind < 4) (payload : List (BitVec 8)) (beat poison w ledger : Nat)
    (nack : Option (Nat × Nat)) (votes : Nat) :
    SlotCarries (mkSlot payload beat poison k kind false w ledger nack votes) k w kind beat poison payload := by
  obtain ⟨tBeat, tPoison, tSlot, tKind, tRepair, tSeq, -⟩ := mkSlot_fields payload beat poison k kind false w ledger nack votes
  refine ⟨mkSlot_good .., tKind.trans (Nat.mod_eq_of_lt known), tSlot.trans (Nat.mod_eq_of_lt (by omega)), tBeat, tPoison, tSeq,
    tRepair, mkSlot_payload ..⟩

/-- A retained slot as a re-send shows REPAIR. -/
theorem asRepair_repair (s : List (BitVec 8)) : trRepair (asRepair s) = true := by
  unfold trRepair asRepair slotTr
  extract_lets t body
  have tail : slice (body ++ leBytes 4 (crc32c body)) 480 32
      = leBytes 28 (if bitAt t 121 then t else t + 2 ^ 121) ++ leBytes 4 (crc32c body) := by
    have placed := slice_append_right (slotPayload s)
      (leBytes 28 (if bitAt t 121 then t else t + 2 ^ 121) ++ leBytes 4 (crc32c body)) 32 (by simp)
    rwa [← List.append_assoc, show (slotPayload s).length = 480 from slice_length ..] at placed
  rw [tail, leNat_append, leNat_leBytes, leBytes_length]
  generalize leNat (leBytes 4 (crc32c body)) = c
  have small : t < 2 ^ 224 := Nat.mod_lt _ (by decide)
  clear_value t
  unfold bitAt bits
  rw [beq_iff_eq]
  split
  · next set => rw [beq_iff_eq] at set; omega
  · next clear => rw [beq_iff_eq] at clear; omega

/-! ### What a port counts, and what it sends -/

/-- A port that counts `n` more under `i`. -/
def Port.counted (q : Port) (i n : Nat) : Port := if n = 0 then q else { q with counters := countIn q.counters i n }

theorem Device.port_countPort (d : Device) (p i n : Nat) : (d.countPort p i n).port p = (d.port p).counted i n := by
  unfold Device.countPort Port.counted
  split
  · rfl
  · exact Device.port_onPort_same ..

theorem Port.get_counted (q : Port) (i n j : Nat) : Sparse.get 0 (q.counted i n).counters j
    = if j = i then Sparse.get 0 q.counters i + BitVec.ofNat 64 n else Sparse.get 0 q.counters j := by
  unfold Port.counted
  split
  · next none_ =>
    subst none_
    split
    · next same => subst same; simp
    · rfl
  · exact Sparse.get_countIn ..

/-- A port without its counters. -/
def Port.uncounted (q : Port) : Port := { q with counters := [] }

theorem Port.uncounted_counted (q : Port) (i n : Nat) : (q.counted i n).uncounted = q.uncounted := by
  unfold Port.counted
  split <;> rfl

/-- A port after a slot of wall beat `w` that is first sent now: the line, the counts, and what is retained. -/
def Port.sends (q : Port) (w k kind : Nat) (s : List (BitVec 8)) : Port := { q.counted 0 (b2n (kind != 0)) with
  txOut := s, sentNow := q.sentNow + b2n (kind != 0), retain := if kind != 0 then q.retain ++ [(w, k, s)] else q.retain }

/-- What sending leaves of a port: its step, its plan, and what it receives. -/
def Port.unsent (q : Port) : Port := { q with
  txOut := [], sentNow := 0, retain := [], counters := [], absentNow := [], nackSent := [], outbox := [], fifos := [], localWait := []
  resend := [] }

/-- What sending leaves of a device: all but its ports. -/
def Device.besidePorts (d : Device) : Device := { d with fabric := { d.fabric with ports := [] } }

theorem Port.unsent_counted (q : Port) (i n : Nat) : (q.counted i n).unsent = q.unsent := by
  unfold Port.counted
  split <;> rfl

theorem Port.unsent_sends (q : Port) (w k kind : Nat) (s : List (BitVec 8)) : (q.sends w k kind s).unsent = q.unsent :=
  q.unsent_counted 0 (b2n (kind != 0))

theorem Device.besidePorts_countPort (d : Device) (p i n : Nat) : (d.countPort p i n).besidePorts = d.besidePorts := by
  unfold Device.countPort
  split <;> rfl

theorem Device.txEntry_of {d e : Device} {p : Nat} (rest : e.besidePorts = d.besidePorts) (port : (e.port p).unsent = (d.port p).unsent)
    (s k : Nat) : e.txEntry p s k = d.txEntry p s k := by
  have planOn : e.fabric.planOn = d.fabric.planOn := (congrArg (fun d : Device => d.fabric.planOn) rest :)
  have base : e.fabric.base = d.fabric.base := (congrArg (fun d : Device => d.fabric.base) rest :)
  have inPlan : (e.port p).inPlan = (d.port p).inPlan := (congrArg Port.inPlan port :)
  have plan : (e.port p).plan = (d.port p).plan := (congrArg Port.plan port :)
  unfold Device.txEntry
  rw [planOn, base, inPlan, plan]

theorem Device.port_sendNew (d : Device) (p k x : Nat) (payload : List (BitVec 8)) (beat poison kind : Nat) : ∃ ledger nack votes,
    (d.sendNew p k x payload beat poison kind).port p
      = (d.port p).sends d.beat.w k kind (mkSlot payload beat poison k kind false d.beat.w ledger nack votes) := by
  have same := (d.port p).uncounted_counted 0 (b2n (kind != 0))
  have sent : ((d.port p).counted 0 (b2n (kind != 0))).sentNow = (d.port p).sentNow := (congrArg Port.sentNow same :)
  have retain : ((d.port p).counted 0 (b2n (kind != 0))).retain = (d.port p).retain := (congrArg Port.retain same :)
  refine ⟨(d.port p).sentNow + countAt (d.port p).repairedNow d.beat.w, if dwNackV x then some (dwNackW x, dwNackPos x) else none, dwVotes x, ?_⟩
  unfold Device.sendNew Port.sends
  dsimp only
  rw [Device.port_onPort_same, Device.port_countPort, sent, retain]

theorem Device.besidePorts_sendNew (d : Device) (p k x : Nat) (payload : List (BitVec 8)) (beat poison kind : Nat) :
    (d.sendNew p k x payload beat poison kind).besidePorts = d.besidePorts :=
  (d.besidePorts_countPort p 0 (b2n (kind != 0)) :)

theorem Device.unsent_sendNew (d : Device) (p k x : Nat) (payload : List (BitVec 8)) (beat poison kind : Nat) :
    ((d.sendNew p k x payload beat poison kind).port p).unsent = (d.port p).unsent := by
  obtain ⟨ledger, nack, votes, sent⟩ := d.port_sendNew p k x payload beat poison kind
  rw [sent]
  exact Port.unsent_sends ..

theorem Device.sendEmpty_eq (d : Device) (p k x : Nat) : d.sendEmpty p k x =
    if (d.port p).up && decide (peKind (d.txEntry p d.beat.s k) = 1) then
      ((d.sendNew p k x [] d.beat.s 0 0).countPort p 5 1).onPort p (fun q => { q with absentNow := bumpAt q.absentNow d.beat.w 1 })
    else d.sendNew p k x [] d.beat.s 0 0 := by
  have rest := d.besidePorts_sendNew p k x [] d.beat.s 0 0
  have unsent := d.unsent_sendNew p k x [] d.beat.s 0 0
  have beat : (d.sendNew p k x [] d.beat.s 0 0).beat = d.beat := (congrArg Device.beat rest :)
  have up : ((d.sendNew p k x [] d.beat.s 0 0).port p).up = (d.port p).up := (congrArg Port.up unsent :)
  unfold Device.sendEmpty
  dsimp only
  rw [up, Device.txEntry_of rest unsent, beat]

/-- An empty slot goes out: what is on the line, and what of an entry that has no data is counted. -/
theorem Device.sendEmpty_frame (d : Device) (p : Nat) {k : Nat} (x : Nat) (position : k < 224) :
    SlotCarries ((d.sendEmpty p k x).port p).txOut k d.beat.w 0 d.beat.s 0 []
      ∧ ((d.sendEmpty p k x).port p).outbox = (d.port p).outbox ∧ (d.sendEmpty p k x).besidePorts = d.besidePorts
      ∧ ((d.port p).up = true → peKind (d.txEntry p d.beat.s k) = 1 →
          Sparse.get 0 ((d.sendEmpty p k x).port p).counters 5 = Sparse.get 0 (d.port p).counters 5 + 1) := by
  obtain ⟨ledger, nack, votes, sent⟩ := d.port_sendNew p k x [] d.beat.s 0 0
  have rest := d.besidePorts_sendNew p k x [] d.beat.s 0 0
  have carries := mkSlot_carries position (show 0 < 4 by decide) [] d.beat.s 0 d.beat.w ledger nack votes
  rw [Device.sendEmpty_eq]
  generalize d.sendNew p k x [] d.beat.s 0 0 = e at sent rest
  split
  · have port : ((e.countPort p 5 1).onPort p (fun q => { q with absentNow := bumpAt q.absentNow d.beat.w 1 })).port p
        = { (e.port p).counted 5 1 with absentNow := bumpAt ((e.port p).counted 5 1).absentNow d.beat.w 1 } := by
      rw [Device.port_onPort_same, Device.port_countPort]
    have same := (e.port p).uncounted_counted 5 1
    rw [port]
    refine ⟨?_, ?_, (e.besidePorts_countPort p 5 1).trans rest, fun _ _ => ?_⟩
    · have line : ((e.port p).counted 5 1).txOut = (e.port p).txOut := (congrArg Port.txOut same :)
      dsimp only
      rw [line, sent]
      exact carries
    · have box : ((e.port p).counted 5 1).outbox = (e.port p).outbox := (congrArg Port.outbox same :)
      dsimp only
      rw [box, sent]
      rfl
    · dsimp only
      rw [Port.get_counted, if_pos rfl, sent]
      rfl
  · next other =>
    rw [sent]
    exact ⟨carries, rfl, rest, fun up kind => absurd (by simp [up, kind]) other⟩

end Sys2Proof.Machine

/-! PROOFS about the position that a port sends (R329, R330, R333, R339): the word decides, and the slot goes out as the word says. -/

namespace Sys2Proof.Machine

set_option Elab.async false

open Sys2Proof

/-! ### A position by its source -/

section
variable (d : Device) (p k x : Nat)

/-- What a position leaves of a device: all but the ports, the sends that a core waits for, and the meters. -/
def Device.besideLines : Device := { d.besidePorts with cores := [], ledger := [] }

theorem Device.besideLines_of {d e : Device} (h : d.besidePorts = e.besidePorts) : d.besideLines = e.besideLines :=
  (congrArg (fun d : Device => ({ d with cores := [], ledger := [] } : Device)) h :)

/-- A device whose port has given up what the decided position takes. -/
def Device.taking : Device := d.onPort p (fun q => q.consume (d.txEntry p d.beat.s k) k x)

theorem Device.port_taking : (d.taking p k x).port p = (d.port p).consume (d.txEntry p d.beat.s k) k x := Device.port_onPort_same ..

theorem Device.emit_none (src : dwSrc x = 0) : d.emit p k x = (d.taking p k x).sendEmpty p k x := by
  unfold Device.emit Device.taking
  simp only [src]

theorem Device.emit_local {o : Nat × Nat × List (BitVec 8) × Nat} (src : dwSrc x = 1)
    (found : (d.port p).outbox.find? (fun o => o.1 == k && o.2.1 % 2 ^ 16 == dwBeat x) = some o) :
    d.emit p k x = ((d.taking p k x).meterFabric (d.planOwner true p o.2.1 k) 480).sendNew p k x o.2.2.1 o.2.1 o.2.2.2 2 := by
  unfold Device.emit Device.taking
  simp only [src]
  rw [found]

theorem Device.emit_forward {s : List (BitVec 8)} (src : dwSrc x = 2)
    (came : d.forwardSlot (d.txEntry p d.beat.s k) d.beat.w k = some s) : d.emit p k x =
    if slotGood s = false then (d.taking p k x).sendFailed p k s
    else if trKind s = 0 then (d.taking p k x).sendEmpty p k x
    else (d.taking p k x).sendNew p k x (slotPayload s) (trBeat s) (trPoison s) (trKind s) := by
  unfold Device.emit Device.taking
  simp only [src]
  rw [came]
  simp only [Bool.not_eq_true']

theorem Device.emit_open {y : Packet} {rest : List Packet} {n : Nat}
    (src : dwSrc x = 3 ∧ n = 63 ∨ dwSrc x = 4 ∧ n = pePort (d.txEntry p d.beat.s k))
    (waits : Sparse.get [] (d.port p).fifos n = y :: rest) :
    d.emit p k x = (d.taking p k x).sendNew p k x y.payload d.beat.s y.poison 3 := by
  unfold Device.emit Device.taking
  rcases src with ⟨src, rfl⟩ | ⟨src, rfl⟩ <;> simp only [src] <;> rw [waits]

theorem Device.emit_again {s : List (BitVec 8)} {r : Nat × Nat} (src : dwSrc x = 5) (beat : nearest 16 (dwBeat x) d.beat.w = r.1)
    (pos : dwPos x = r.2) (held : (d.port p).retained r.1 r.2 = some s) :
    d.emit p k x = (d.taking p k x).sendAgain p k r.1 r.2 s := by
  unfold Device.emit Device.taking
  simp only [src]
  rw [beat, pos, held]

theorem Device.besideLines_sendNew (beat poison kind : Nat) (payload : List (BitVec 8)) :
    (d.sendNew p k x payload beat poison kind).besideLines = d.besideLines :=
  Device.besideLines_of (d.besidePorts_sendNew p k x payload beat poison kind)

theorem Device.besidePorts_onPort (f : Port → Port) : (d.onPort p f).besidePorts = d.besidePorts := rfl

theorem Device.besideLines_sendEmpty : (d.sendEmpty p k x).besideLines = d.besideLines := by
  have new := d.besidePorts_sendNew p k x [] d.beat.s 0 0
  rw [Device.sendEmpty_eq]
  refine Device.besideLines_of (both_branches Device.besidePorts ?_ new)
  exact (Device.besidePorts_onPort _ _ _).trans ((Device.besidePorts_countPort _ p 5 1).trans new)

theorem Device.besideLines_sendAgain (u j : Nat) (s : List (BitVec 8)) : (d.sendAgain p k u j s).besideLines = d.besideLines :=
  Device.besideLines_of ((Device.besidePorts_onPort _ _ _).trans
    ((Device.besidePorts_countPort _ p 3 1).trans (d.besidePorts_countPort p 0 1)))

theorem Device.besideLines_emit : (d.emit p k x).besideLines = d.besideLines := by
  unfold Device.emit
  extract_lets q e d1
  have took : d1.besideLines = d.besideLines := rfl
  have empty := (d1.besideLines_sendEmpty p k x).trans took
  have new (a b c : Nat) (l : List (BitVec 8)) : (d1.sendNew p k x l a b c).besideLines = d.besideLines :=
    (d1.besideLines_sendNew p k x a b c l).trans took
  clear_value d1
  split
  · split
    · exact (Device.besideLines_sendNew _ p k x _ _ _ _).trans took
    · exact empty
  · split
    · exact both_branches Device.besideLines took (both_branches Device.besideLines empty (new _ _ _ _))
    · exact empty
  · split
    · exact new _ _ _ _
    · exact empty
  · split
    · exact new _ _ _ _
    · exact empty
  · split
    · exact (d1.besideLines_sendAgain p k _ _ _).trans took
    · exact empty
  · exact empty

theorem Device.sendsDone_frame : (d.sendsDone p k x).port p = (d.emit p k x).port p ∧ (d.sendsDone p k x).besideLines = d.besideLines := by
  have emitted := d.besideLines_emit p k x
  unfold Device.sendsDone
  split
  · split
    · split
      · exact ⟨rfl, emitted⟩
      · exact ⟨rfl, emitted⟩
    · exact ⟨rfl, emitted⟩
  · exact ⟨rfl, emitted⟩

end

end Sys2Proof.Machine

/-! PROOFS about SLOT_TRANSMIT of a package that is not paired (R322, R330, R333, R339, R342): what stands at the port after a position. -/

namespace Sys2Proof.Machine

set_option Elab.async false

open Sys2Proof

/-! ### A position goes out -/

/-- Position `k` of port `p` goes out by its word. -/
def Device.carries (d : Device) (p k x : Nat) : Device :=
  if (d.port p).up then
    (if 32 ≤ p && 9 ≤ k then (d.onPort p (fun q => q.consume 0 k x)).streamSlot p k x else d.sendsDone p k x)
  else if k = 9 && 2 ≤ (d.port p).step then d.linkSlot p k x
  else d.sendEmpty p k x

section
variable {d : Device} {p k : Nat} (solo : d.twin.role = 0)
include solo

theorem Device.streamSlot_solo (x : Nat) : d.streamSlot p k x = d.sendEmpty p k x := by
  have none_ : d.copyNext = d := by
    unfold Device.copyNext
    exact if_pos (by simp [solo])
  unfold Device.streamSlot
  dsimp only
  rw [none_]
  exact if_neg (by simp [solo])

theorem Device.role_carries (x : Nat) : (d.carries p k x).twin.role = 0 := by
  have role {e : Device} (h : e.besideLines = d.besideLines) : e.twin.role = 0 :=
    ((congrArg (fun d : Device => d.twin.role) h :)).trans solo
  unfold Device.carries
  refine both_branches (fun d : Device => d.twin.role) (both_branches (fun d : Device => d.twin.role) ?_ ?_)
    (both_branches (fun d : Device => d.twin.role) ?_ ?_)
  · rw [Device.streamSlot_solo (d := d.onPort p _) solo]
    exact role ((Device.besideLines_sendEmpty _ p k x).trans rfl)
  · exact role (d.sendsDone_frame p k x).2
  · unfold Device.linkSlot
    exact role ((Device.besideLines_sendNew _ p k x _ _ _ _).trans rfl)
  · exact role (d.besideLines_sendEmpty p k x)

/-- A package that is not paired decides now. -/
theorem Device.wordFor_solo (free : p < 32 → d.decisionAt p d.beat.w k = none) :
    d.wordFor p k = (d.decideWord p (d.port p) d.beat.w k, d) := by
  unfold Device.wordFor
  by_cases twin : 32 ≤ p
  · exact if_pos twin
  · dsimp only
    rw [if_neg twin, if_neg (by simp [solo]), if_neg (by simp [solo]), free (Nat.lt_of_not_le twin)]

theorem Device.sendPos_solo (free : p < 32 → d.decisionAt p d.beat.w k = none) :
    d.sendPos p k = (d.carries p k (d.decideWord p (d.port p) d.beat.w k)).onPort p (fun q => { q with txPos := k + 1 }) := by
  have word := Device.wordFor_solo solo free
  have sent : d.sendPos p k = ((d.carries p k (d.decideWord p (d.port p) d.beat.w k)).onPort p (fun q => { q with txPos := k + 1 })).decideAhead
      p k := by
    unfold Device.sendPos
    rw [word]
    rfl
  rw [sent]
  unfold Device.decideAhead
  exact if_neg (by simp [Device.role_carries solo])

end

/-- What a position leaves: what its port shows after it. -/
theorem slotTransmit_completes {s : State} {p : Nat} (has : s.dev.hasPort p = true) (solo : s.dev.twin.role = 0)
    (goes : s.dev.transmits p = true) (inside : 1 ≤ (s.dev.port p).txPos ∧ (s.dev.port p).txPos < 224)
    (free : p < 32 → s.dev.decisionAt p s.dev.beat.w (s.dev.port p).txPos = none) {P : Device → Prop}
    (hP : ∀ f : Device, f.port p = { (s.dev.carries p (s.dev.port p).txPos (s.dev.decideWord p (s.dev.port p) s.dev.beat.w
      (s.dev.port p).txPos)).port p with txPos := (s.dev.port p).txPos + 1 } → P f) : Completes (.slotTransmit p) s P := by
  refine .unitRow (show _ = execSlotTransmit p s from rfl) has (hP _ ?_)
  dsimp only
  rw [if_pos (by simp [goes, inside]), Device.sendPos_solo solo free, Device.port_withBeat, Device.port_onPort_same]

/-! ### What stands at the port -/

theorem SlotCarries.at {f : Device} {p n k w kind beat poison : Nat} {payload : List (BitVec 8)} {q : Port}
    (g : SlotCarries q.txOut k w kind beat poison payload) (h : f.port p = { q with txPos := n }) :
    let x := (f.port p).txOut
    slotGood x = true ∧ trKind x = kind ∧ trSlot x = k ∧ trBeat x = beat % 2 ^ 32 ∧ trPoison x = poison % 2 ^ 60
      ∧ trSeq x = w % 2 ^ 16 ∧ trRepair x = false ∧ slotPayload x = slice payload 0 480 ∧ (f.port p).txPos = n := by
  obtain ⟨good, isKind, slot, isBeat, isPoison, seq, repair, carried⟩ := g
  rw [h]
  exact ⟨good, isKind, slot, isBeat, isPoison, seq, repair, carried, rfl⟩

/-- The port without what sending a slot changes. -/
theorem Port.sends_frame (q : Port) (w k kind : Nat) (s : List (BitVec 8)) : (q.sends w k kind s).outbox = q.outbox
    ∧ (q.sends w k kind s).fifos = q.fifos ∧ (q.sends w k kind s).txOut = s := by
  have same := q.uncounted_counted 0 (b2n (kind != 0))
  exact ⟨(congrArg Port.outbox same :), (congrArg Port.fifos same :), rfl⟩

theorem Device.sendNew_carries (d : Device) (p x : Nat) {k kind : Nat} (position : k < 224) (known : kind < 4)
    (payload : List (BitVec 8)) (beat poison : Nat) :
    SlotCarries ((d.sendNew p k x payload beat poison kind).port p).txOut k d.beat.w kind beat poison payload := by
  obtain ⟨ledger, nack, votes, sent⟩ := d.port_sendNew p k x payload beat poison kind
  rw [sent]
  exact mkSlot_carries position known payload beat poison d.beat.w ledger nack votes

section
variable {d : Device} {p k x : Nat} (position : k < 224)

theorem Device.carries_down (down : (d.port p).up = false) (other : k ≠ 9 ∨ (d.port p).step < 2) :
    d.carries p k x = d.sendEmpty p k x := by
  unfold Device.carries
  rw [if_neg (by simp [down]), if_neg (by simp; omega)]

theorem Device.carries_up (up : (d.port p).up = true) (fabric : p < 32 ∨ k < 9) : (d.carries p k x).port p = (d.emit p k x).port p := by
  unfold Device.carries
  rw [if_pos up, if_neg (by simp; omega)]
  exact (d.sendsDone_frame p k x).1

include position

theorem Device.carries_link (down : (d.port p).up = false) (nine : k = 9) (locked : 2 ≤ (d.port p).step) :
    slotGood ((d.carries p k x).port p).txOut = true ∧ trKind ((d.carries p k x).port p).txOut = 3 := by
  unfold Device.carries
  rw [if_neg (by simp [down]), if_pos (by simp [nine, locked])]
  unfold Device.linkSlot
  obtain ⟨good, kind, -⟩ := Device.sendNew_carries (d.onPort p _) p x position (show 3 < 4 by decide) (Packet.payload _) d.beat.s 0
  exact ⟨good, kind⟩

/-- Nothing chosen: the slot is empty, and the outbox stays. -/
theorem Device.carries_nothing (solo : d.twin.role = 0) (src : dwSrc x = 0) (up : (d.port p).up = true) :
    SlotCarries ((d.carries p k x).port p).txOut k d.beat.w 0 d.beat.s 0 [] ∧ (p < 32 ∨ k < 9 →
      ((d.carries p k x).port p).outbox = (d.port p).outbox
      ∧ (peKind (d.txEntry p d.beat.s k) = 1 →
          Sparse.get 0 ((d.carries p k x).port p).counters 5 = Sparse.get 0 (d.port p).counters 5 + 1)) := by
  by_cases fabric : p < 32 ∨ k < 9
  · obtain ⟨n, takes⟩ := (d.port p).consume_noted (d.txEntry p d.beat.s k) k x
    have port : (d.taking p k x).port p = { d.port p with nackSent := n } := (d.port_taking p k x).trans ((takes _ rfl).1 (.inl src))
    obtain ⟨carried, outbox, -, absent⟩ := (d.taking p k x).sendEmpty_frame p x position
    have unsent : ((d.taking p k x).port p).unsent = (d.port p).unsent := by rw [port]; rfl
    have entry : (d.taking p k x).txEntry p d.beat.s k = d.txEntry p d.beat.s k := Device.txEntry_of (d := d) (e := d.taking p k x) rfl unsent _ _
    rw [Device.carries_up up fabric, d.emit_none p k x src]
    refine ⟨carried, fun _ => ⟨outbox.trans (by rw [port]), fun kind => (absent ?_ ((congrArg peKind entry).trans kind)).trans (by rw [port])⟩⟩
    rw [port]
    exact up
  · refine ⟨?_, fun h => absurd h fabric⟩
    unfold Device.carries
    rw [if_pos up, if_pos (by simp; omega), Device.streamSlot_solo (d := d.onPort p _) solo]
    exact (Device.sendEmpty_frame (d.onPort p _) p x position).1

end

end Sys2Proof.Machine

/-! PROOFS about what each position of a port carries (R322, R325, R329 to R339, R342), for a package that is not paired. -/

namespace Sys2Proof.Machine

set_option Elab.async false

open Sys2Proof

theorem find?_and_of_find? {α : Type} {l : List α} {a : α} {p q : α → Bool} (found : l.find? p = some a) (also : q a = true) :
    l.find? (fun x => p x && q x) = some a := by
  obtain ⟨holds, as, bs, split, before⟩ := List.find?_eq_some_iff_append.1 found
  refine List.find?_eq_some_iff_append.2 ⟨by simp [holds, also], as, bs, split, fun x hx => ?_⟩
  simp [Bool.eq_false_of_not_eq_true' (before x hx)]

theorem Packet.mem_feed (q : Port) : Sparse.get [] q.feed.fifos 63
    = Sparse.get [] q.fifos 63 ++ q.localWait.take (32 - (Sparse.get [] q.fifos 63).length) := by
  unfold Port.feed
  extract_lets room
  split
  · next stays =>
    rcases (Bool.or_eq_true _ _).mp stays with none_ | full
    · rw [List.isEmpty_iff.1 none_, List.take_nil, List.append_nil]
    · have zero : 32 - (Sparse.get [] q.fifos 63).length = 0 := of_decide_eq_true full
      rw [zero, List.take_zero, List.append_nil]
  · dsimp only
    rw [Sparse.get_upd, if_pos rfl]

/-! ### Each source -/

section
variable {d : Device} {p k x : Nat} (position : k < 224) (up : (d.port p).up = true)
include position up

/-- A LOCAL entry whose data is ready. -/
theorem Device.carries_local {o : Nat × Nat × List (BitVec 8) × Nat} (kind : peKind (d.txEntry p d.beat.s k) = 1)
    (ready : (d.port p).outbox.find? (fun o => o.1 == k) = some o) (src : dwSrc x = 1) (beat : dwBeat x = o.2.1 % 2 ^ 16) :
    let q := (d.carries p k x).port p
    SlotCarries q.txOut k d.beat.w 2 o.2.1 o.2.2.2 o.2.2.1 ∧ q.outbox = (d.port p).outbox.erase o
      ∧ q.sentNow = (d.port p).sentNow + 1 ∧ q.retain = (d.port p).retain ++ [(d.beat.w, k, q.txOut)] := by
  have found := find?_and_of_find? (q := fun o => o.2.1 % 2 ^ 16 == dwBeat x) ready (by simp [beat])
  obtain ⟨n, takes⟩ := (d.port p).consume_noted (d.txEntry p d.beat.s k) k x
  have port : (d.taking p k x).port p = { d.port p with nackSent := n, outbox := (d.port p).outbox.erase o } :=
    (d.port_taking p k x).trans ((takes _ rfl).2.1 o src found)
  have carried := Device.sendNew_carries ((d.taking p k x).meterFabric (d.planOwner true p o.2.1 k) 480) p x position
    (show 2 < 4 by decide) o.2.2.1 o.2.1 o.2.2.2
  obtain ⟨ledger, nack, votes, sent⟩ := Device.port_sendNew ((d.taking p k x).meterFabric (d.planOwner true p o.2.1 k) 480) p k x
    o.2.2.1 o.2.1 o.2.2.2 2
  have metered : ((d.taking p k x).meterFabric (d.planOwner true p o.2.1 k) 480).port p = (d.taking p k x).port p := rfl
  dsimp only
  rw [Device.carries_up up (.inl (Device.planned_of_kind kind).2), d.emit_local p k x src found]
  refine ⟨carried, ?_⟩
  rw [sent, metered, port]
  exact ⟨(Port.sends_frame _ _ _ _ _).1, rfl, rfl⟩

/-- An OPEN entry with a packet in the FIFO that it names. -/
theorem Device.carries_open {y : Packet} {rest : List Packet} (kind : peKind (d.txEntry p d.beat.s k) = 3)
    (waits : Sparse.get [] (d.port p).fifos (pePort (d.txEntry p d.beat.s k)) = y :: rest)
    (src : dwSrc x = if pePort (d.txEntry p d.beat.s k) = 63 then 3 else 4) :
    let q := (d.carries p k x).port p
    SlotCarries q.txOut k d.beat.w 3 d.beat.s y.poison y.payload
      ∧ (pePort (d.txEntry p d.beat.s k) ≠ 63 → Sparse.get [] q.fifos (pePort (d.txEntry p d.beat.s k)) = rest)
      ∧ (pePort (d.txEntry p d.beat.s k) = 63 →
          Sparse.get [] q.fifos 63 = rest ++ (d.port p).localWait.take (32 - rest.length)) := by
  obtain ⟨n, takes⟩ := (d.port p).consume_noted (d.txEntry p d.beat.s k) k x
  obtain ⟨-, -, own, passing, -⟩ := takes _ rfl
  have emitted : d.emit p k x = (d.taking p k x).sendNew p k x y.payload d.beat.s y.poison 3 := by
    by_cases local_ : pePort (d.txEntry p d.beat.s k) = 63
    · rw [if_pos local_] at src
      exact d.emit_open p k x (.inl ⟨src, rfl⟩) (local_ ▸ waits)
    · rw [if_neg local_] at src
      exact d.emit_open p k x (.inr ⟨src, rfl⟩) waits
  have carried := Device.sendNew_carries (d.taking p k x) p x position (show 3 < 4 by decide) y.payload d.beat.s y.poison
  obtain ⟨ledger, nack, votes, sent⟩ := Device.port_sendNew (d.taking p k x) p k x y.payload d.beat.s y.poison 3
  dsimp only
  rw [Device.carries_up up (.inl (Device.planned_of_kind kind).2), emitted]
  refine ⟨carried, fun passes => ?_, fun local_ => ?_⟩
  · rw [if_neg passes] at src
    rw [sent, (Port.sends_frame _ _ _ _ _).2.1, Device.port_taking, passing src]
    refine (Sparse.get_upd [] (d.port p).fifos _ _ _).trans ((if_pos rfl).trans ?_)
    rw [waits]
    rfl
  · rw [if_pos local_] at src
    rw [local_] at waits
    have rests : Sparse.get [] (Sparse.upd [] (d.port p).fifos 63 (fun l => l.drop 1)) 63 = rest := by
      refine (Sparse.get_upd [] (d.port p).fifos _ _ _).trans ((if_pos rfl).trans ?_)
      rw [waits]
      rfl
    rw [sent, (Port.sends_frame _ _ _ _ _).2.1, Device.port_taking, own src, Packet.mem_feed]
    dsimp only
    rw [rests]

/-- A FORWARD entry with what came in at the position that it names. -/
theorem Device.carries_forward {s : List (BitVec 8)} (kind : peKind (d.txEntry p d.beat.s k) = 2)
    (came : d.forwardSlot (d.txEntry p d.beat.s k) d.beat.w k = some s) (src : dwSrc x = 2) :
    let q := (d.carries p k x).port p
    (slotGood s = true → trKind s ≠ 0 → SlotCarries q.txOut k d.beat.w (trKind s) (trBeat s) (trPoison s) (slotPayload s))
      ∧ (slotGood s = false → q.txOut = s ∧ q.retain = (d.port p).retain ++ [(d.beat.w, k, s)]) := by
  have known : trKind s < 4 := Nat.mod_lt _ (by decide)
  obtain ⟨n, takes⟩ := (d.port p).consume_noted (d.txEntry p d.beat.s k) k x
  have port : (d.taking p k x).port p = { d.port p with nackSent := n } := (d.port_taking p k x).trans ((takes _ rfl).1 (.inr src))
  dsimp only
  rw [Device.carries_up up (.inl (Device.planned_of_kind kind).2), d.emit_forward p k x src came]
  refine ⟨fun good some_ => ?_, fun failed => ?_⟩
  · rw [if_neg (by simp [good]), if_neg some_]
    exact Device.sendNew_carries (d.taking p k x) p x position known _ _ _
  · rw [if_pos failed, Device.sendFailed, Device.port_onPort_same, port]
    exact ⟨rfl, rfl⟩

end

/-! ### Repair positions (R339) -/

theorem nearest_of_near {r w : Nat} (past : r ≤ w) (near : w < r + 2 ^ 15) : nearest 16 (r % 2 ^ 16) w = r := by
  unfold nearest
  dsimp only
  split
  · omega
  · split
    · next back => simp only [Bool.and_eq_true, decide_eq_true_eq] at back; omega
    · next stays => simp only [Bool.and_eq_true, decide_eq_true_eq] at stays; omega

/-- A retained slot goes out again with REPAIR set. -/
theorem Device.carries_repair {d : Device} {p k y : Nat} {r : Nat × Nat} {x : List (BitVec 8)} (up : (d.port p).up = true)
    (low : k ≤ 8) (held : (d.port p).retained r.1 r.2 = some x) (src : dwSrc y = 5)
    (beat : nearest 16 (dwBeat y) d.beat.w = r.1) (pos : dwPos y = r.2) :
    let q := (d.carries p k y).port p
    q.txOut = asRepair x ∧ Sparse.get 0 q.counters 3 = Sparse.get 0 (d.port p).counters 3 + 1 := by
  obtain ⟨n, takes⟩ := (d.port p).consume_noted (d.txEntry p d.beat.s k) k y
  obtain ⟨l, consumed⟩ := (takes _ rfl).2.2.2.2 src
  have port := (d.port_taking p k y).trans consumed
  dsimp only
  rw [Device.carries_up up (.inr (by omega)), d.emit_again p k y src beat pos held, Device.sendAgain, Device.port_onPort_same]
  refine ⟨rfl, ?_⟩
  dsimp only
  rw [Device.port_countPort, Port.get_counted, if_pos rfl, Device.port_countPort, Port.get_counted, if_neg (by decide), port]
  rfl

end Sys2Proof.Machine

/-! PROOFS about control slots (R33, R325, Table 13-2). -/

namespace Sys2Proof.Machine

set_option Elab.async false

open Sys2Proof

/-! ### Numbers in two parts -/

theorem bits_add_high {y a : Nat} (small : y < 2 ^ a) (z lo n : Nat) : bits (y + 2 ^ a * z) (a + lo) n = bits z lo n := by
  unfold bits
  rw [Nat.pow_add, ← Nat.div_div_eq_div_mul, Nat.add_mul_div_left _ _ (Nat.two_pow_pos a), Nat.div_eq_of_lt small, Nat.zero_add]

theorem add_mul_lt_two_pow {y z a b : Nat} (low : y < 2 ^ a) (high : z < 2 ^ b) : y + 2 ^ a * z < 2 ^ (a + b) := by
  rw [Nat.pow_add]
  calc y + 2 ^ a * z < 2 ^ a + 2 ^ a * z := Nat.add_lt_add_right low _
    _ = 2 ^ a * (z + 1) := by rw [Nat.mul_add_one, Nat.add_comm]
    _ ≤ 2 ^ a * 2 ^ b := Nat.mul_le_mul_left _ high

/-! ### The payload of a control slot -/

theorem Port.ledgerWord_lt (q : Port) (w : Nat) : q.ledgerWord w < 2 ^ 64 := by
  unfold Port.ledgerWord
  omega

/-- The fields of a control payload from DEVICE down to HOLD_BEAT. -/
def Device.ctlMiddle (d : Device) (p : Nat) : Nat := b2n d.hold.now + 2 * b2n d.drone.tree + 4 * (d.ctlStateNow p % 8)
  + 2 ^ 5 * (d.drone.hops % 32) + 2 ^ 10 * (p % 64) + 2 ^ 16 * (d.devNum % 4096)

/-- The fields of a control payload from S up. -/
def Device.ctlTop (d : Device) : Nat := d.beat.s % 2 ^ 64 + 2 ^ 64 * (d.beat.w % 2 ^ 64) + 2 ^ 128 * 0xD7A15E3C

theorem Device.ctlMiddle_lt (d : Device) (p : Nat) : d.ctlMiddle p < 2 ^ 28 := by
  unfold Device.ctlMiddle b2n
  split <;> split <;> omega

theorem Device.ctlTop_lt (d : Device) : d.ctlTop < 2 ^ 160 := by
  unfold Device.ctlTop
  omega

/-- A control payload as a number: the fields below HOLD_BEAT, those up to DEVICE, the stamp and the ledger words, and the rest. -/
theorem Device.ctlPayload_eq (d : Device) (p : Nat) : ∃ low high, low < 2 ^ 660 ∧ high < 2 ^ 176
    ∧ d.ctlPayload p = leBytes 128 (low + 2 ^ 660 * (d.ctlMiddle p + 2 ^ 28 * (high + 2 ^ 176 * d.ctlTop))) ++ List.replicate 352 0 := by
  have word (i e : Nat) : ∃ x, (if i ≤ d.beat.w then (d.port p).ledgerWord (d.beat.w - i) * 2 ^ e else 0) = x * 2 ^ e ∧ x < 2 ^ 64 := by
    split
    · exact ⟨_, rfl, Port.ledgerWord_lt _ _⟩
    · exact ⟨0, (Nat.zero_mul _).symm, Nat.two_pow_pos 64⟩
  obtain ⟨first, isFirst, small⟩ := word 1 800
  obtain ⟨second, isSecond, little⟩ := word 2 736
  have stamp := ofSigned_lt (d.port p).stamp
  have power (a b c : Nat) (h : a + b = c) : (2 : Nat) ^ c = 2 ^ a * 2 ^ b := by rw [← Nat.pow_add, h]
  refine ⟨2 ^ 651 * ((d.port p).linkVer % 256
      + 2 ^ 8 * b2n (d.hold.cause != 0 || d.hold.votes.contains d.beat.w && d.deferralHigh)),
    (d.port p).stampW % 2 ^ 16 + 2 ^ 16 * ofSigned (d.port p).stamp 32 + 2 ^ 48 * second + 2 ^ 112 * first, ?_, by omega, ?_⟩
  · rw [power 651 9 660 rfl]
    refine Nat.mul_lt_mul_of_pos_left ?_ (Nat.two_pow_pos 651)
    unfold b2n
    split <;> omega
  · unfold Device.ctlPayload
    dsimp only
    rw [isFirst, isSecond, power 660 1 661 rfl, power 660 2 662 rfl, power 660 5 665 rfl, power 660 10 670 rfl, power 660 16 676 rfl,
      power 660 28 688 rfl, power 660 44 704 rfl, power 660 76 736 rfl, power 660 140 800 rfl, power 660 204 864 rfl,
      power 660 268 928 rfl, power 204 64 268 rfl, power 660 332 992 rfl, power 204 128 332 rfl, power 651 8 659 rfl]
    unfold Device.ctlMiddle Device.ctlTop
    generalize (2 : Nat) ^ 660 = a
    generalize (2 : Nat) ^ 651 = b
    congr 2
    ring

/-- The fields of a control slot that the part builds. -/
theorem Device.ctlSlot_fields (d : Device) (p beat seq ledger : Nat) (nack : Option (Nat × Nat)) (votes : Nat) :
    let x := mkSlot (d.ctlPayload p) beat 0 0 1 false seq ledger nack votes
    ctlGood x = true ∧ ctlW x = d.beat.w % 2 ^ 64 ∧ ctlS x = d.beat.s % 2 ^ 64 ∧ ctlDevice x = d.devNum % 4096
      ∧ ctlHops x = d.drone.hops % 32 ∧ ctlHold x = d.hold.now ∧ trSlot x = 0 := by
  obtain ⟨low, high, hLow, hHigh, payload⟩ := d.ctlPayload_eq p
  obtain ⟨-, -, slot, kind, -⟩ := mkSlot_fields (d.ctlPayload p) beat 0 0 1 false seq ledger nack votes
  intro x
  have good : slotGood x = true := mkSlot_good ..
  have middle := d.ctlMiddle_lt p
  have number : ctlBits x = low + 2 ^ 660 * (d.ctlMiddle p + 2 ^ 28 * (high + 2 ^ 176 * d.ctlTop)) := by
    have bound := add_mul_lt_two_pow hLow (add_mul_lt_two_pow middle (add_mul_lt_two_pow hHigh d.ctlTop_lt))
    have modulus : 256 ^ 128 = 2 ^ (660 + (28 + (176 + 160))) := (Nat.pow_mul 2 8 128).symm
    have area : slice (d.ctlPayload p) 0 480 = d.ctlPayload p := by
      have whole := slice_append_left (d.ctlPayload p) [] 480 (by rw [payload, List.length_append, leBytes_length, List.length_replicate])
      rwa [List.append_nil] at whole
    unfold ctlBits
    rw [show x = _ from mkSlot_eq .., area, payload, List.append_assoc, List.append_assoc, slice_append_left _ _ _ (leBytes_length ..),
      leNat_leBytes, modulus, Nat.mod_eq_of_lt bound]
  have below (lo n : Nat) : bits (ctlBits x) (660 + lo) n = bits (d.ctlMiddle p + 2 ^ 28 * (high + 2 ^ 176 * d.ctlTop)) lo n := by
    rw [number]
    exact bits_add_high hLow _ lo n
  have above (lo n : Nat) : bits (ctlBits x) (660 + (28 + (176 + lo))) n = bits d.ctlTop lo n := by
    rw [below, bits_add_high middle, bits_add_high hHigh]
  have tree : b2n d.drone.tree < 2 := by unfold b2n; split <;> decide
  have hold : b2n d.hold.now < 2 := by unfold b2n; split <;> decide
  refine ⟨?_, ?_, ?_, ?_, ?_, ?_, slot⟩
  · have magic : bits (ctlBits x) 992 32 = 0xD7A15E3C := by
      rw [above 128 32]
      unfold Device.ctlTop bits
      omega
    unfold ctlGood
    rw [good, show trKind x = 1 % 4 from kind, magic]
    rfl
  · unfold ctlW
    rw [above 64 64]
    unfold Device.ctlTop bits
    omega
  · unfold ctlS
    rw [above 0 64]
    unfold Device.ctlTop bits
    omega
  · unfold ctlDevice
    rw [below 16 12]
    unfold Device.ctlMiddle bits
    omega
  · unfold ctlHops
    rw [below 5 5]
    unfold Device.ctlMiddle bits
    omega
  · have bit : bits (ctlBits x) 660 1 = b2n d.hold.now := by
      rw [below 0 1]
      unfold Device.ctlMiddle bits
      omega
    unfold ctlHold bitAt
    rw [bit]
    cases d.hold.now <;> rfl

end Sys2Proof.Machine

/-! PROOFS about the rows that send (R322, R325, R330, R339): the statement. -/

namespace Sys2Proof.Machine

set_option Elab.async false

open Sys2Proof

/-! ### CONTROL_SLOT_TRANSMIT -/

theorem controlSlot_sent {s : State} {p : Nat} (has : s.dev.hasPort p = true) (solo : s.dev.twin.role = 0)
    (goes : s.dev.transmits p = true) (first : (s.dev.port p).txPos = 0) (free : p < 32 → s.dev.decisionAt p s.dev.beat.w 0 = none) :
    Completes (.controlSlotTransmit p) s (fun f => let x := (f.port p).txOut
      ctlGood x = true ∧ ctlW x = s.dev.beat.w % 2 ^ 64 ∧ ctlS x = s.dev.beat.s % 2 ^ 64 ∧ ctlDevice x = s.dev.devNum % 4096
        ∧ ctlHops x = s.dev.drone.hops % 32 ∧ ctlHold x = s.dev.hold.now ∧ trSlot x = 0 ∧ (f.port p).txPos = 1) := by
  have rest := s.dev.besidePorts_countPort p 0 1
  have role : (s.dev.countPort p 0 1).twin.role = 0 := ((congrArg (fun d : Device => d.twin.role) rest :)).trans solo
  refine .unitRow (show _ = execControlSlotTransmit p s from rfl) has ?_
  dsimp only
  rw [if_pos (by simp [goes, first]), Device.wordFor_solo solo free]
  dsimp only
  generalize s.dev.decideWord p (s.dev.port p) s.dev.beat.w 0 = x
  have fields := s.dev.ctlSlot_fields p s.dev.beat.s s.dev.beat.w 0 (if dwNackV x then some (dwNackW x, dwNackPos x) else none) (dwVotes x)
  generalize mkSlot _ _ _ _ _ _ _ _ _ _ = slot at fields
  have alone (e : Device) (h : e.twin.role = 0) : e.decideAhead p 0 = e := by
    unfold Device.decideAhead
    exact if_neg (by simp [h])
  rw [alone ((s.dev.countPort p 0 1).onPort p _) role, Device.port_withBeat, Device.port_onPort_same]
  obtain ⟨good, w, sch, dev, hops, hold, pos⟩ := fields
  exact ⟨good, w, sch, dev, hops, hold, pos, rfl⟩

/-! ### OUTBOX_READY (R330) -/

theorem Device.netsReach_frame (d : Device) (n : Nat) : (d.netsReach n).cores = d.cores ∧ (d.netsReach n).staging = d.staging
    ∧ (d.netsReach n).gate = d.gate ∧ (d.netsReach n).fabric = d.fabric ∧ (d.netsReach n).twin = d.twin :=
  ⟨foldl_keeps Device.cores _ (fun (d : Device) (r : Nat) => d.onRegion_cores r _) _ d,
    foldl_keeps Device.staging _ (fun (d : Device) (r : Nat) => d.onRegion_staging r _) _ d,
    foldl_keeps Device.gate _ (fun (d : Device) (r : Nat) => d.onRegion_gate r _) _ d,
    foldl_keeps Device.fabric _ (fun (d : Device) (r : Nat) => d.onRegion_fabric r _) _ d,
    foldl_keeps Device.twin _ (fun (d : Device) (r : Nat) => d.onRegion_twin r _) _ d⟩

theorem Device.txEntry_of_fabric {d e : Device} (h : e.fabric = d.fabric) (p s k : Nat) : e.txEntry p s k = d.txEntry p s k := by
  unfold Device.txEntry Device.port
  rw [h]

/-- What an entry's data is read from. -/
def Device.entryData (d : Device) (x : Nat) : List (BitVec 8 × Bool) :=
  if peCore x = 0xFF then (d.stageRead (peAddr x) 480).1 else (d.spadRead (peCore x) (peAddr x) 480).1

theorem Device.entryData_congr {d e : Device} (cores : e.cores = d.cores) (staging : e.staging = d.staging) (x : Nat) :
    e.entryData x = d.entryData x := by
  unfold Device.entryData Device.stageRead Device.spadRead Device.core
  dsimp only
  rw [cores, staging]

/-- A device without its hub, its cores and hub staging: what a read leaves. -/
def Device.besideReads (d : Device) : Device := { d with hub := Hub.reset, cores := [], staging := Mem.reset }

theorem Device.besideReads_event (d : Device) (code cause kind a b c : Nat) : (d.event code cause kind a b c).besideReads = d.besideReads :=
  (congrArg Device.besideReads (d.event_noHub code cause kind a b c) :)

theorem Device.besideReads_spadUe (d : Device) (c a cause : Nat) : (d.spadUe c a cause).besideReads = d.besideReads := by
  have on (d : Device) (c : Nat) (f : Core → Core) : (d.onCore c f).besideReads = d.besideReads := rfl
  have count (d : Device) (c i n : Nat) : (d.countCore c i n).besideReads = d.besideReads := by unfold Device.countCore; split <;> rfl
  have retire (d : Device) (c g : Nat) : (d.retirePage c g).besideReads = d.besideReads := by
    unfold Device.retirePage
    split
    · rfl
    · dsimp only
      rw [Device.besideReads_event, count, on, on]
  unfold Device.spadUe
  dsimp only
  split
  · rw [retire, Device.besideReads_event, on]
  · rw [Device.besideReads_event, on]

theorem Device.besideReads_spadRead (d : Device) (c a n : Nat) : (d.spadRead c a n).2.besideReads = d.besideReads := by
  have count (d : Device) (c i n : Nat) : (d.countCore c i n).besideReads = d.besideReads := by unfold Device.countCore; split <;> rfl
  unfold Device.spadRead
  dsimp only
  rw [foldl_keeps Device.besideReads _ (fun (d : Device) (x : Nat) => d.besideReads_spadUe c x 0), count, count, count]
  rfl

theorem Device.besideReads_stageRead (d : Device) (a n : Nat) : (d.stageRead a n).2.besideReads = d.besideReads := by
  have count (d : Device) (i n : Nat) : (d.countHub i n).besideReads = d.besideReads := by unfold Device.countHub; split <;> rfl
  unfold Device.stageRead
  dsimp only
  rw [foldl_keeps Device.besideReads _ (fun (d : Device) (x : Nat) => d.besideReads_event 0x0004 0 4 0 x 0), count, count, count]
  rfl

/-- The data of an entry joins the outbox of its port, and is not due again. -/
theorem Device.readOutbox_frame {d : Device} (solo : d.twin.role = 0) (p k : Nat) :
    ((d.readOutbox p k).port p).outbox = (d.port p).outbox ++ [(k, d.gate.e, (d.entryData (d.txEntry p d.gate.e k)).map (·.1),
        payloadMask (d.entryData (d.txEntry p d.gate.e k)))]
      ∧ (d.readOutbox p k).outboxDue p k = false := by
  obtain ⟨r, isRead, data, rest⟩ : ∃ r : List (BitVec 8 × Bool) × Device,
      (if peCore (d.txEntry p d.gate.e k) = 0xFF then d.stageRead (peAddr (d.txEntry p d.gate.e k)) 480
        else d.spadRead (peCore (d.txEntry p d.gate.e k)) (peAddr (d.txEntry p d.gate.e k)) 480) = r
      ∧ d.entryData (d.txEntry p d.gate.e k) = r.1 ∧ r.2.besideReads = d.besideReads := by
    refine ⟨_, rfl, ?_, ?_⟩
    · unfold Device.entryData
      split <;> rfl
    · split
      · exact d.besideReads_stageRead _ _
      · exact d.besideReads_spadRead _ _ _
  have gate : r.2.gate = d.gate := (congrArg Device.gate rest :)
  have role : r.2.twin.role = 0 := ((congrArg (fun d : Device => d.twin.role) rest :)).trans solo
  have port : r.2.port p = d.port p := port_of_fabric (congrArg Device.fabric rest :) p
  have read : d.readOutbox p k = r.2.onPort p (fun q => { q with
      ready := (k, d.gate.e) :: q.ready.filter (fun x => d.gate.e ≤ x.2 + 4)
      outbox := q.outbox ++ [(k, d.gate.e, r.1.map (·.1), payloadMask r.1)] }) := by
    unfold Device.readOutbox
    dsimp only
    rw [isRead, if_neg (by simp [role]), if_neg (by simp [role])]
  rw [read, data]
  refine ⟨?_, ?_⟩
  · rw [Device.port_onPort_same, port]
  · unfold Device.outboxDue
    rw [show (r.2.onPort p _).gate = d.gate from gate, Device.port_onPort_same]
    simp

end Sys2Proof.Machine

/-! PROOFS about the rows that send (R322, R325, R330, R339): the statement. -/

namespace Sys2Proof.Machine

set_option Elab.async false

open Sys2Proof

/-! ### OUTBOX_READY -/

section
variable {s : State} {p pos : Nat} (has : s.dev.hasPort p = true)
include has

theorem outboxReady_waits (waits : s.dev.outboxDue p pos = false ∨ (s.dev.netsReach (s.dev.readyPoint p pos s.dev.gate.e)).issuedAll
    (s.dev.readyPoint p pos s.dev.gate.e) = false) : Becomes (.outboxReady p pos) s s.dev := by
  refine .onUnit (show _ = execOutboxReady p pos s from rfl) has (if_neg ?_)
  rcases waits with none_ | behind
  · simp [none_]
  · simp [behind]

theorem outboxReady_reads (solo : s.dev.twin.role = 0) (due : s.dev.outboxDue p pos = true)
    (reached : (s.dev.netsReach (s.dev.readyPoint p pos s.dev.gate.e)).issuedAll (s.dev.readyPoint p pos s.dev.gate.e) = true) :
    Completes (.outboxReady p pos) s (fun f =>
      (f.port p).outbox = (s.dev.port p).outbox ++ [(pos, s.dev.gate.e, (s.dev.entryData (s.dev.txEntry p s.dev.gate.e pos)).map (·.1),
          payloadMask (s.dev.entryData (s.dev.txEntry p s.dev.gate.e pos)))]
        ∧ f.outboxDue p pos = false) := by
  obtain ⟨cores, staging, gate, fabric, twin⟩ := s.dev.netsReach_frame (s.dev.readyPoint p pos s.dev.gate.e)
  refine .unitRow (show _ = execOutboxReady p pos s from rfl) has ?_
  dsimp only
  rw [if_pos (by simp [due, reached])]
  generalize s.dev.netsReach _ = d at cores staging gate fabric twin
  obtain ⟨outbox, done⟩ := Device.readOutbox_frame (d := d) ((congrArg Twin.role twin).trans solo) p pos
  rw [gate, Device.txEntry_of_fabric fabric, Device.entryData_congr cores staging, Device.port_of_fabric fabric] at outbox
  exact ⟨outbox, done⟩

end

/-! ### A port that sends nothing -/

section
variable {s : State} {p : Nat} (has : s.dev.hasPort p = true)
include has

theorem slotTransmit_idle (idle : s.dev.transmits p = false ∨ (s.dev.port p).txPos = 0 ∨ 224 ≤ (s.dev.port p).txPos) :
    Becomes (.slotTransmit p) s s.dev := by
  refine .onUnit (show _ = execSlotTransmit p s from rfl) has (if_neg ?_)
  rcases idle with silent | first | past
  · simp [silent]
  · simp [first]
  · simp; omega

theorem controlSlot_idle (idle : s.dev.transmits p = false ∨ (s.dev.port p).txPos ≠ 0) :
    Becomes (.controlSlotTransmit p) s s.dev := by
  refine .onUnit (show _ = execControlSlotTransmit p s from rfl) has (if_neg ?_)
  rcases idle with silent | later
  · simp [silent]
  · simp [later]

theorem repairResend_idle (none_ : (s.dev.port p).nextResend = none) : Becomes (.repairResend p) s s.dev :=
  .onUnit (show _ = execRepairResend p s from rfl) has (if_neg (by simp [none_]))

/-- A retained slot goes out again in a repair position. -/
theorem repairResend_again {r : Nat × Nat} {x : List (BitVec 8)} (solo : s.dev.twin.role = 0) (goes : s.dev.transmits p = true)
    (first : 1 ≤ (s.dev.port p).txPos) (low : (s.dev.port p).txPos ≤ 8) (up : (s.dev.port p).up = true)
    (free : p < 32 → s.dev.decisionAt p s.dev.beat.w (s.dev.port p).txPos = none) (next : (s.dev.port p).nextResend = some r)
    (held : (s.dev.port p).retained r.1 r.2 = some x) (small : r.2 < 256) (past : r.1 ≤ s.dev.beat.w)
    (near : s.dev.beat.w < r.1 + 2 ^ 15) :
    Completes (.repairResend p) s (fun f => (f.port p).txOut = asRepair x ∧ trRepair (f.port p).txOut = true
      ∧ (f.port p).txPos = (s.dev.port p).txPos + 1
      ∧ Sparse.get 0 (f.port p).counters 3 = Sparse.get 0 (s.dev.port p).counters 3 + 1) := by
  have chosen : s.dev.choose p (s.dev.port p) s.dev.beat.w (s.dev.port p).txPos = (5, r.1, r.2) :=
    (Device.choose_repair up ⟨first, low⟩ _).trans (by rw [next])
  obtain ⟨src, beat, at_⟩ := Device.decideWord_fields chosen
  obtain ⟨line, count⟩ := Device.carries_repair up low held (src.trans rfl) ((congrArg (nearest 16 · s.dev.beat.w) beat).trans
    (nearest_of_near past near)) (at_.trans (Nat.mod_eq_of_lt small))
  refine .unitRow (show _ = execRepairResend p s from rfl) has ?_
  dsimp only
  rw [if_pos (by simp [goes, first, next, low]; omega), Device.sendPos_solo solo free, Device.port_withBeat, Device.port_onPort_same]
  refine ⟨line, ?_, rfl, count⟩
  exact (congrArg trRepair line).trans (asRepair_repair x)

end

/-! ### SLOT_TRANSMIT -/

/-- What a port shows once position `k` of wall beat `w` has gone out. -/
def Shows (f : Device) (p k w kind beat poison : Nat) (payload : List (BitVec 8)) : Prop :=
  let x := (f.port p).txOut
  slotGood x = true ∧ trKind x = kind ∧ trSlot x = k ∧ trBeat x = beat % 2 ^ 32 ∧ trPoison x = poison % 2 ^ 60
    ∧ trSeq x = w % 2 ^ 16 ∧ trRepair x = false ∧ slotPayload x = slice payload 0 480 ∧ (f.port p).txPos = k + 1

section
variable {s : State} {p k : Nat} (has : s.dev.hasPort p = true) (solo : s.dev.twin.role = 0) (goes : s.dev.transmits p = true)
  (isPos : (s.dev.port p).txPos = k) (first : 1 ≤ k) (inside : k < 224) (free : p < 32 → s.dev.decisionAt p s.dev.beat.w k = none)
include has solo goes isPos first inside free

theorem slotTransmit_down (down : (s.dev.port p).up = false) (other : k ≠ 9 ∨ (s.dev.port p).step < 2) :
    Completes (.slotTransmit p) s (fun f => Shows f p k s.dev.beat.w 0 s.dev.beat.s 0 []) := by
  subst isPos
  refine slotTransmit_completes has solo goes ⟨first, inside⟩ free (fun f port => ?_)
  rw [Device.carries_down down other] at port
  exact SlotCarries.at (Device.sendEmpty_frame _ p _ inside).1 port

theorem slotTransmit_link (down : (s.dev.port p).up = false) (nine : k = 9) (locked : 2 ≤ (s.dev.port p).step) :
    Completes (.slotTransmit p) s (fun f => slotGood (f.port p).txOut = true ∧ trKind (f.port p).txOut = 3 ∧ (f.port p).txPos = 10) := by
  subst isPos
  refine slotTransmit_completes has solo goes ⟨first, inside⟩ free (fun f port => ?_)
  obtain ⟨good, kind⟩ := Device.carries_link (x := s.dev.decideWord p (s.dev.port p) s.dev.beat.w (s.dev.port p).txPos) inside down nine locked
  rw [port]
  exact ⟨good, kind, congrArg (· + 1) nine⟩

variable (up : (s.dev.port p).up = true)
include up

theorem slotTransmit_nothing (chosen : s.dev.choose p (s.dev.port p) s.dev.beat.w k = (0, 0, 0)) :
    Completes (.slotTransmit p) s (fun f => Shows f p k s.dev.beat.w 0 s.dev.beat.s 0 [] ∧ (p < 32 →
      (f.port p).outbox = (s.dev.port p).outbox ∧ (peKind (s.dev.txEntry p s.dev.beat.s k) = 1 →
        Sparse.get 0 (f.port p).counters 5 = Sparse.get 0 (s.dev.port p).counters 5 + 1))) := by
  subst isPos
  refine slotTransmit_completes has solo goes ⟨first, inside⟩ free (fun f port => ?_)
  obtain ⟨carried, rest⟩ := Device.carries_nothing inside solo (Device.decideWord_fields chosen).1 up
  refine ⟨SlotCarries.at carried port, fun fabric => ?_⟩
  rw [port]
  exact rest (.inl fabric)

theorem slotTransmit_local {o : Nat × Nat × List (BitVec 8) × Nat} (kind : peKind (s.dev.txEntry p s.dev.beat.s k) = 1)
    (ready : (s.dev.port p).outbox.find? (fun o => o.1 == k) = some o) :
    Completes (.slotTransmit p) s (fun f => Shows f p k s.dev.beat.w 2 o.2.1 o.2.2.2 o.2.2.1
      ∧ (f.port p).outbox = (s.dev.port p).outbox.erase o ∧ (f.port p).sentNow = (s.dev.port p).sentNow + 1
      ∧ (f.port p).retain = (s.dev.port p).retain ++ [(s.dev.beat.w, k, (f.port p).txOut)]) := by
  subst isPos
  refine slotTransmit_completes has solo goes ⟨first, inside⟩ free (fun f port => ?_)
  obtain ⟨src, beat, -⟩ := Device.decideWord_fields (Device.choose_local up s.dev.beat.w solo kind ready)
  obtain ⟨carried, rest⟩ := Device.carries_local inside up kind ready src beat
  refine ⟨SlotCarries.at carried port, ?_⟩
  rw [port]
  exact rest

theorem slotTransmit_open {y : Packet} {rest : List Packet} (kind : peKind (s.dev.txEntry p s.dev.beat.s k) = 3)
    (waits : Sparse.get [] (s.dev.port p).fifos (pePort (s.dev.txEntry p s.dev.beat.s k)) = y :: rest) :
    Completes (.slotTransmit p) s (fun f => Shows f p k s.dev.beat.w 3 s.dev.beat.s y.poison y.payload
      ∧ (pePort (s.dev.txEntry p s.dev.beat.s k) ≠ 63 →
          Sparse.get [] (f.port p).fifos (pePort (s.dev.txEntry p s.dev.beat.s k)) = rest)
      ∧ (pePort (s.dev.txEntry p s.dev.beat.s k) = 63 →
          Sparse.get [] (f.port p).fifos 63 = rest ++ (s.dev.port p).localWait.take (32 - rest.length))) := by
  subst isPos
  refine slotTransmit_completes has solo goes ⟨first, inside⟩ free (fun f port => ?_)
  obtain ⟨src, -, -⟩ := Device.decideWord_fields (Device.choose_open up s.dev.beat.w solo kind waits)
  have source : (if pePort (s.dev.txEntry p s.dev.beat.s (s.dev.port p).txPos) = 63 then 3 else 4) % 8
      = if pePort (s.dev.txEntry p s.dev.beat.s (s.dev.port p).txPos) = 63 then 3 else 4 := by split <;> rfl
  obtain ⟨carried, left⟩ := Device.carries_open inside up kind waits (src.trans source)
  refine ⟨SlotCarries.at carried port, ?_⟩
  rw [port]
  exact left

theorem slotTransmit_forward {x : List (BitVec 8)} (kind : peKind (s.dev.txEntry p s.dev.beat.s k) = 2)
    (came : s.dev.forwardSlot (s.dev.txEntry p s.dev.beat.s k) s.dev.beat.w k = some x) (carries : slotGood x = true → trKind x ≠ 0) :
    Completes (.slotTransmit p) s (fun f =>
      (slotGood x = true → Shows f p k s.dev.beat.w (trKind x) (trBeat x) (trPoison x) (slotPayload x))
      ∧ (slotGood x = false → (f.port p).txOut = x ∧ (f.port p).txPos = k + 1
          ∧ (f.port p).retain = (s.dev.port p).retain ++ [(s.dev.beat.w, k, x)])) := by
  subst isPos
  refine slotTransmit_completes has solo goes ⟨first, inside⟩ free (fun f port => ?_)
  obtain ⟨src, -, -⟩ := Device.decideWord_fields (Device.choose_forward up s.dev.beat.w kind came carries)
  obtain ⟨passes, fails⟩ := Device.carries_forward inside up kind came src
  refine ⟨fun good => SlotCarries.at (passes good (carries good)) port, fun failed => ?_⟩
  obtain ⟨line, retained⟩ := fails failed
  rw [port]
  exact ⟨line, rfl, retained⟩

end

/-- Settles O55: a package that is not paired decides each position as it goes out, so that the slot on the line is the one that the
port's queues and its entry name. -/
theorem slotsSent : Obligations.SlotsSent := by
  unfold Obligations.SlotsSent
  intro s p has solo d q k e goes
  refine ⟨slotTransmit_idle has, fun sends first inside free => ?_, ?_, repairResend_idle has,
    fun sends first free => controlSlot_sent has solo sends first free, controlSlot_idle has, fun pos => ?_⟩
  · have nothing := slotTransmit_nothing has solo sends rfl first inside free
    refine ⟨slotTransmit_down has solo sends rfl first inside free, fun up none_ => ?_, slotTransmit_link has solo sends rfl first inside free,
      fun o _ up kind ready => slotTransmit_local has solo sends rfl first inside free up kind ready,
      fun fabric up kind none_ runs => ?_,
      fun y rest _ up kind waits => slotTransmit_open has solo sends rfl first inside free up kind waits,
      fun x _ up kind came => ⟨fun good some_ => ?_, fun failed => ?_⟩⟩
    · refine (nothing up ?_).mono (fun f h => h.1)
      rcases none_ with ⟨low, none_⟩ | ⟨port, high⟩
      · exact (Device.choose_repair up ⟨first, low⟩ _).trans (by rw [none_])
      · exact Device.choose_twin port high _
    · refine (nothing up (Device.choose_absent up _ kind none_ ?_)).mono (fun f h => ⟨h.1, (h.2 fabric).1, (h.2 fabric).2 kind⟩)
      exact (if_pos rfl).trans runs
    · exact (slotTransmit_forward has solo sends rfl first inside free up kind came (fun _ => some_)).mono (fun f h => h.1 good)
    · exact (slotTransmit_forward has solo sends rfl first inside free up kind came
        (fun good => absurd (good.symm.trans failed) (by decide))).mono (fun f h => h.2 failed)
  · exact fun r x sends first low up free next held small past near =>
      repairResend_again has solo sends first low up free next held small past near
  · exact ⟨fun none_ => outboxReady_waits has (.inl none_), fun _ behind => outboxReady_waits has (.inr behind),
      fun due reached => outboxReady_reads has solo due reached⟩

end Sys2Proof.Machine

/-! PROOFS about open packets as a port delivers them (R335, R336, R511): what they leave of the device and of its ports. -/

namespace Sys2Proof.Machine

set_option Elab.async false

open Sys2Proof

/-- A port with the open packets that it holds, and those that wait to be sent on it, hidden. -/
def Port.received (q : Port) : Port := { q with fifos := [], localWait := [], localNum := 0, openHeld := [] }

theorem Port.received_feed (q : Port) : q.feed.received = q.received := by
  unfold Port.feed
  extract_lets room
  split <;> rfl

/-- A device without its hub, and without what the twin logic and the fabric note of mail. -/
def Device.mailless (d : Device) : Device := { d with
  hub := Hub.reset
  twin := { d.twin with cmds := [], dirty := [] }
  fabric := { d.fabric with deferred := [] } }

/-- A device with what mail brings hidden: its hub, what it posts, and what is noted of it. -/
def Device.besideMail (d : Device) : Device := d.besidePosts.mailless

theorem Device.besideMail_of_besidePosts {d e : Device} (h : d.besidePosts = e.besidePosts) : d.besideMail = e.besideMail :=
  congrArg Device.mailless h

theorem Device.besideMail_of_noHub {d e : Device} (h : d.noHub = e.noHub) : d.besideMail = e.besideMail :=
  (congrArg Device.besideMail h :)

/-- What mail leaves of a device and of each of its ports. -/
def Device.offMail (d : Device) : Device × (Nat → Port) := (d.besideMail, fun p => (d.port p).received)

theorem Device.offMail_of {d e : Device} (rest : d.besideMail = e.besideMail) (fabric : d.fabric = e.fabric) : d.offMail = e.offMail :=
  Prod.ext rest (funext fun p => congrArg Port.received (Device.port_of_fabric fabric p))

theorem Device.offMail_of_besidePosts {d e : Device} (h : d.besidePosts = e.besidePosts) (fabric : d.fabric = e.fabric) :
    d.offMail = e.offMail :=
  Device.offMail_of (Device.besideMail_of_besidePosts h) fabric

theorem Device.offMail_of_noHub {d e : Device} (h : d.noHub = e.noHub) : d.offMail = e.offMail :=
  Device.offMail_of (Device.besideMail_of_noHub h) (congrArg Device.fabric h :)

theorem Device.offMail_onPort (d : Device) (p : Nat) {f : Port → Port} (h : ∀ q, (f q).received = q.received) :
    (d.onPort p f).offMail = d.offMail := by
  refine Prod.ext rfl (funext fun x => ?_)
  show ((d.onPort p f).port x).received = (d.port x).received
  by_cases same : x = p
  · rw [same, Device.port_onPort_same, h]
  · rw [Device.port_onPort_other _ _ _ _ same]

@[simp] theorem Device.offMail_onMbx (d : Device) (m : Nat) (f : Mbx → Mbx) : (d.onMbx m f).offMail = d.offMail := rfl
@[simp] theorem Device.offMail_onHub (d : Device) (f : Hub → Hub) : (d.onHub f).offMail = d.offMail := rfl
@[simp] theorem Device.offMail_twinSend (d : Device) (a b c e f : Nat) (x : List (BitVec 8)) :
    (d.twinSend a b c e f x).offMail = d.offMail := rfl
@[simp] theorem Device.offMail_countHub (d : Device) (i n : Nat) : (d.countHub i n).offMail = d.offMail :=
  Device.offMail_of_noHub (d.countHub_noHub i n)
@[simp] theorem Device.offMail_event (d : Device) (a b c e f g : Nat) : (d.event a b c e f g).offMail = d.offMail :=
  Device.offMail_of_noHub (d.event_noHub a b c e f g)
@[simp] theorem Device.offMail_meterFabric (d : Device) (t : Option Nat) (n : Nat) : (d.meterFabric t n).offMail = d.offMail :=
  Device.offMail_of_besidePosts (d.besidePosts_meterFabric t n) rfl

/-! ### What is sent -/

@[simp] theorem Device.offMail_sendPacket (d : Device) (dev : Nat) (pk : Packet) : (d.sendPacket dev pk).offMail = d.offMail := by
  unfold Device.sendPacket
  dsimp only
  split
  · rfl
  · have fed (r : Nat) (x : Packet) (n : Nat) :
        (d.onPort r (fun p => { p with localWait := p.localWait ++ [x], localNum := n }.feed)).offMail = d.offMail :=
      Device.offMail_onPort d r (fun q => (Port.received_feed _).trans rfl)
    split
    · rw [Device.offMail_twinSend, fed]
    · exact fed _ _ _

@[simp] theorem Device.offMail_mgmtSend (d : Device) (dev mb : Nat) (r : Bool) (off : Nat) (x : List (BitVec 8)) (last : Bool) :
    (d.mgmtSend dev mb r off x last).offMail = d.offMail := by
  unfold Device.mgmtSend
  simp

@[simp] theorem Device.offMail_mgmtPieces (d : Device) (dev mb : Nat) (r : Bool) (off : Nat) (x : List (BitVec 8)) :
    (d.mgmtPieces dev mb r off x).offMail = d.offMail := by
  unfold Device.mgmtPieces
  exact foldl_keeps Device.offMail _ (fun (d : Device) (i : Nat) => d.offMail_mgmtSend dev mb r _ _ _) _ d

@[simp] theorem Device.offMail_windowPiece (d : Device) (w off : Nat) (x : List (BitVec 8)) (last : Bool) :
    (d.windowPiece w off x last).offMail = d.offMail :=
  Device.offMail_of_besidePosts (d.besidePosts_windowPiece w off x last) (d.fabric_windowPiece w off x last)

@[simp] theorem Device.offMail_reply (d : Device) (mb : Nat) : (d.reply mb).offMail = d.offMail := by
  have twin (d : Device) (off : Nat) (x : List (BitVec 8)) (last : Bool) : (d.mbx14Send true off x last).offMail = d.offMail := rfl
  unfold Device.reply
  dsimp only
  split
  · split
    · rfl
    · split
      · split <;> simp
      · split <;> simp
  · split
    · split
      · rw [twin, twin]
      · rw [twin]
    · rfl

/-! ### Management packets -/

@[simp] theorem Device.offMail_refuseTo (d : Device) (mb src : Nat) (x : List (BitVec 8)) (a b : Nat) :
    (d.refuseTo mb src x a b).offMail = d.offMail := by
  unfold Device.refuseTo
  dsimp only
  split
  · rfl
  · split <;> simp

@[simp] theorem Device.offMail_pend (d : Device) (mb a : Nat) : (d.pend mb a).offMail = d.offMail := by
  unfold Device.pend
  rw [Device.offMail_reply, Device.offMail_onMbx, Device.offMail_onHub]

@[simp] theorem Device.offMail_accept (d : Device) (mb : Nat) (x : List Host.Cell) (src : Option Nat) :
    (d.accept mb x src).offMail = d.offMail := by
  unfold Device.accept
  extract_lets e f raw sent
  have pending : f.offMail = d.offMail := (Device.offMail_pend e mb _).trans (d.offMail_onMbx mb _)
  clear_value f
  split
  · exact Eq.trans rfl pending
  · exact pending

@[simp] theorem Device.offMail_takePiece (d : Device) (mb src off : Nat) (x : List (BitVec 8)) (last : Bool) :
    (d.takePiece mb src off x last).offMail = d.offMail := by
  unfold Device.takePiece
  dsimp only
  split_ifs <;> simp

@[simp] theorem Device.offMail_takeMgmt (d : Device) (x : Packet) : (d.takeMgmt x).offMail = d.offMail := by
  unfold Device.takeMgmt Device.takeResponse
  dsimp only
  split_ifs <;> simp

/-! ### Delivery -/

/-- What delivery leaves of a device and of its ports: all that mail leaves, but hub staging. -/
def Device.offOpen (d : Device) : Device × (Nat → Port) := ({ d.besideMail with staging := Mem.reset }, fun p => (d.port p).received)

theorem Device.offOpen_of_offMail {d e : Device} (h : d.offMail = e.offMail) : d.offOpen = e.offOpen :=
  (congrArg (fun x : Device × (Nat → Port) => (({ x.1 with staging := Mem.reset } : Device), x.2)) h :)

theorem Device.offOpen_stagePut (d : Device) (a : Nat) (x : List (BitVec 8 × Bool)) : (d.stagePut a x).offOpen = d.offOpen := by
  have mark (d : Device) (g : Nat) : (d.markDirty 2 g).offOpen = d.offOpen := by unfold Device.markDirty; split <;> rfl
  have count (d : Device) (i n : Nat) : (d.countHub i n).offOpen = d.offOpen := Device.offOpen_of_offMail (d.offMail_countHub i n)
  unfold Device.stagePut
  dsimp only
  rw [foldl_keeps Device.offOpen _ (fun (d : Device) (g : Nat) => mark d g),
    foldl_keeps Device.offOpen _ (fun (d : Device) (x : Nat) => Device.offOpen_of_offMail (d.offMail_event 0x0004 1 4 0 x 0)), count, count]
  rfl

theorem Device.offOpen_deferOpen (d : Device) (x : Packet) : (d.deferOpen x).offOpen = d.offOpen := by
  have noted (e : Device) (f : Fabric → List (Nat × Packet)) :
      (e.onFabric (fun x => { x with deferred := f x })).offOpen = e.offOpen := rfl
  unfold Device.deferOpen
  dsimp only
  rw [noted, Device.offOpen_stagePut]

theorem Device.offOpen_deliverOpen (d : Device) (x : Packet) : (d.deliverOpen x).offOpen = d.offOpen := by
  have discard : (d.discardOpen x).offOpen = d.offOpen := Device.offOpen_of_offMail (d.offMail_event ..)
  unfold Device.deliverOpen
  split
  · exact discard
  · split
    · split
      · exact Device.offOpen_of_offMail (d.offMail_takeMgmt x)
      · split
        · exact d.offOpen_deferOpen x
        · rfl
    · split
      · exact discard
      · exact Device.offOpen_of_offMail (Device.offMail_onPort _ _ (fun _ => rfl))

theorem Device.offOpen_releaseOpen (n p : Nat) (d : Device) : (d.releaseOpen p n).offOpen = d.offOpen := by
  induction n generalizing d with
  | zero => rw [Device.releaseOpen]; intro _ _ _ h; cases h
  | succ n ih =>
    rw [Device.releaseOpen.eq_def]
    split
    · next k y rest fuel _ =>
      split
      · rfl
      · cases fuel
        rw [ih, Device.offOpen_deliverOpen]
        exact Device.offOpen_of_offMail (Device.offMail_onPort _ _ (fun _ => rfl))
    · rfl

theorem Device.offOpen_deliverHeld (d : Device) (p : Nat) : (d.deliverHeld p).offOpen = d.offOpen :=
  (foldl_keeps Device.offOpen _ (fun d x => d.offOpen_deliverOpen x) _ _).trans
    (Device.offOpen_of_offMail (Device.offMail_onPort _ _ (fun _ => rfl)))

/-! ### What can be read off -/

section
variable {d e : Device} (h : d.offOpen = e.offOpen)
include h

theorem Device.port_of_offOpen (p : Nat) : (d.port p).received = (e.port p).received := (congrFun (congrArg Prod.snd h) p :)
theorem Device.beat_of_offOpen : d.beat = e.beat := (congrArg (fun x : Device × (Nat → Port) => x.1.beat) h :)
theorem Device.gate_of_offOpen : d.gate = e.gate := (congrArg (fun x : Device × (Nat → Port) => x.1.gate) h :)
theorem Device.hold_of_offOpen : d.hold = e.hold := (congrArg (fun x : Device × (Nat → Port) => x.1.hold) h :)
theorem Device.drone_of_offOpen : d.drone = e.drone := (congrArg (fun x : Device × (Nat → Port) => x.1.drone) h :)
theorem Device.tasks_of_offOpen : d.tasks = e.tasks := (congrArg (fun x : Device × (Nat → Port) => x.1.tasks) h :)
theorem Device.role_of_offOpen : d.twin.role = e.twin.role := (congrArg (fun x : Device × (Nat → Port) => x.1.twin.role) h :)

end

end Sys2Proof.Machine

/-! PROOFS about link-up (R342, Table 13-10): each event moves a port from the step that is its own, or halts it with its record. -/

namespace Sys2Proof.Machine

set_option Elab.async false

open Sys2Proof

/-- A port that has been halted, with the record of it. -/
def Device.haltsAt (d : Device) (p code : Nat) : Prop :=
  (d.port p).step = 0 ∧ (d.port p).halted = true ∧ d.lastRecord = some (code, 0, 2, p)

theorem Device.haltsAt_link (d : Device) (code p hi : Nat) : ((d.linkRecord code p hi).haltPort p).haltsAt p code := by
  have recorded : (d.linkRecord code p hi).lastRecord = some (code, 0, 2, p) := d.lastRecord_log _
  unfold Device.haltPort
  exact ⟨by rw [Device.port_onPort_same]; rfl, by rw [Device.port_onPort_same], recorded⟩

theorem Device.haltsAt_state (d : Device) (p hi lo : Nat) : ((d.event 0x000F 0 2 p hi lo).haltPort p).haltsAt p 0x000F := by
  have recorded : (d.event 0x000F 0 2 p hi lo).lastRecord = some (0x000F, 0, 2, p) := d.lastRecord_log _
  unfold Device.haltPort
  exact ⟨by rw [Device.port_onPort_same]; rfl, by rw [Device.port_onPort_same], recorded⟩

/-- A port that TOPO_SET does not know with this neighbour. -/
theorem Device.haltsAt_disabled {d : Device} {p code : Nat} (h : d.haltsAt p code) :
    (d.onPort p (fun q => { q with enabled := false })).haltsAt p code
      ∧ ((d.onPort p (fun q => { q with enabled := false })).port p).enabled = false := by
  obtain ⟨step, halted, recorded⟩ := h
  rw [Device.haltsAt, Device.port_onPort_same]
  exact ⟨⟨step, halted, recorded⟩, rfl⟩

theorem Device.port_linkEvent (d : Device) (code cause kind unit hi lo p : Nat) : (d.event code cause kind unit hi lo).port p = d.port p :=
  Device.port_of_fabric (congrArg Device.fabric (d.event_noHub code cause kind unit hi lo) :) p

/-! ### Training and framing -/

section
variable {s : State} {p : Nat} (has : s.dev.hasPort p = true)
include has

theorem linkTraining_stays (ok : Bool) (no : s.dev.mayTrain p = false) : Becomes (.linkTrainingDone p ok) s s.dev :=
  .onUnit (show _ = execLinkTrainingDone p ok s from rfl) has (if_pos (by simp [no]))

theorem linkTraining_done (may : s.dev.mayTrain p = true) : Completes (.linkTrainingDone p true) s (fun e =>
    (e.port p).step = 1 ∧ (e.port p).goodCtl = 0 ∧ (e.port p).badCtl = 0) := by
  refine .unitRow (show _ = execLinkTrainingDone p true s from rfl) has ?_
  rw [if_neg (by simp [may]), if_pos rfl, Device.port_withBeat, Device.port_onPort_same]
  exact ⟨rfl, rfl, rfl⟩

theorem linkTraining_fails (may : s.dev.mayTrain p = true) :
    Completes (.linkTrainingDone p false) s (fun e => e.haltsAt p 0x000F) := by
  refine .unitRow (show _ = execLinkTrainingDone p false s from rfl) has ?_
  rw [if_neg (by simp [may]), if_neg (by decide)]
  exact s.dev.haltsAt_state p 1 0

theorem linkFraming_locks (step : (s.dev.port p).step = 1) (good : 16 ≤ (s.dev.port p).goodCtl) :
    Completes (.linkFramingLock p) s (fun e => (∃ n : Nat,
      e.port p = { s.dev.port p with step := 2, nonce := leBytes 48 n, linkIn := [], linkOut := 0, delaySamples := [] })
      ∧ ∀ x, x ≠ p → e.port x = s.dev.port x) := by
  refine .unitRow (show _ = execLinkFramingLock p s from rfl) has ?_
  dsimp only
  rw [if_pos (by simp [step, good])]
  have same (x : Nat) : s.dev.drawFree.2.port x = s.dev.port x := rfl
  refine ⟨⟨s.dev.drawFree.1, ?_⟩, fun x other => ?_⟩
  · rw [Device.port_withBeat, Device.port_onPort_same, same]
  · rw [Device.port_withBeat, Device.port_onPort_other _ _ _ _ other, same]

theorem linkFraming_stays (no : (s.dev.port p).step ≠ 1 ∨ (s.dev.port p).goodCtl < 16) : Becomes (.linkFramingLock p) s s.dev := by
  refine .onUnit (show _ = execLinkFramingLock p s from rfl) has (if_neg ?_)
  rw [Bool.and_eq_true, beq_iff_eq, decide_eq_true_eq]
  omega

/-! ### The delay -/

theorem linkDelay_done (up : Bool) (step : (s.dev.port p).step = 5) (own : s.dev.ownLinkUp p = true)
    (all : 1024 ≤ (s.dev.port p).delaySamples.length) :
    Completes (.linkDelayDone p up) s (fun e => (e.port p).up = true
      ∧ (e.port p).delayPs = meanPs up ((s.dev.port p).delaySamples.map (·.1))
      ∧ (e.port p).thetaPs = meanPs up ((s.dev.port p).delaySamples.map (·.2))
      ∧ (e.port p).ledgerNext = some (s.dev.beat.w + 1) ∧ e.lastRecord = some (0x000F, 0, 2, p)) := by
  refine .unitRow (show _ = execLinkDelayDone p up s from rfl) has ?_
  dsimp only
  rw [if_pos (by simp [step, own, all]), Device.port_withBeat, Device.port_linkEvent, Device.port_onPort_same]
  exact ⟨rfl, rfl, rfl, rfl, Device.lastRecord_log _ _⟩

theorem linkDelay_stays (up : Bool)
    (no : (s.dev.port p).step ≠ 5 ∨ s.dev.ownLinkUp p = false ∨ (s.dev.port p).delaySamples.length < 1024) :
    Becomes (.linkDelayDone p up) s s.dev := by
  refine .onUnit (show _ = execLinkDelayDone p up s from rfl) has (if_neg ?_)
  rcases no with step | own | few
  · simp [step]
  · simp [own]
  · simp; omega

/-! ### Loss of framing, and bounds -/

theorem portFraming_lost (trained : 1 ≤ (s.dev.port p).step) (bad : 16 ≤ (s.dev.port p).badCtl) :
    Completes (.portFramingLoss p) s (fun e => (e.port p).step = 0 ∧ (e.port p).halted = (s.dev.port p).halted
      ∧ e.lastRecord = some (0x000F, 0, 2, p)) := by
  have held := Device.port_of_offOpen (s.dev.offOpen_deliverHeld p) p
  have step : ((s.dev.deliverHeld p).port p).step = (s.dev.port p).step := (congrArg Port.step held :)
  have halted : ((s.dev.deliverHeld p).port p).halted = (s.dev.port p).halted := (congrArg Port.halted held :)
  refine .unitRow (show _ = execPortFramingLoss p s from rfl) has ?_
  rw [if_pos (by simp [trained, bad]), Device.portDown, if_neg (by omega), Device.portGone, if_neg (by omega), Device.port_withBeat,
    Device.port_onPort_same, Device.port_linkEvent]
  exact ⟨rfl, halted, Device.lastRecord_log _ _⟩

theorem portFraming_stays (no : (s.dev.port p).step = 0 ∨ (s.dev.port p).badCtl < 16) : Becomes (.portFramingLoss p) s s.dev := by
  refine .onUnit (show _ = execPortFramingLoss p s from rfl) has (if_neg ?_)
  rw [Bool.and_eq_true, decide_eq_true_eq, decide_eq_true_eq]
  omega

theorem linkTimeout_other (own : s.dev.ownLinkUp p = false) (step : 2 ≤ (s.dev.port p).step) : Becomes (.linkUpTimeout p) s s.dev :=
  .onUnit (show _ = execLinkUpTimeout p s from rfl) has (if_pos (by simp [own, step]))

end

end Sys2Proof.Machine

/-! PROOFS about LINK packets (R342): what those of a port bring, and the statement of link-up. -/

namespace Sys2Proof.Machine

set_option Elab.async false

open Sys2Proof

/-! ### Step 5 -/

theorem Device.topoFree_set {d : Device} {p : Nat} (set : d.fabric.topoSet = true) : ¬ d.topoFree p = true := by
  unfold Device.topoFree
  simp [set]

section
variable {d : Device} {p : Nat} (step : (d.port p).step = 4)
include step

theorem Device.topoStep_free (free : d.topoFree p = true) : ((d.topoStep p).port p).step = 5 := by
  unfold Device.topoStep
  dsimp only
  rw [if_neg (by simp [step]), if_pos free, Device.port_onPort_same]

theorem Device.topoStep_waits (free : d.topoFree p = false) (unset : d.fabric.topoSet = false) : ((d.topoStep p).port p).step = 4 := by
  unfold Device.topoStep
  dsimp only
  rw [if_neg (by simp [step]), if_neg (by simp [free]), if_pos (by simp [unset]), step]

theorem Device.topoStep_declared (set : d.fabric.topoSet = true)
    (seen : (d.port p).seenDev = some (d.port p).nbrDev ∧ (d.port p).seenPort = (d.port p).nbrPort) :
    ((d.topoStep p).port p).step = 5 := by
  unfold Device.topoStep
  dsimp only
  rw [if_neg (by simp [step]), if_neg (Device.topoFree_set set), if_neg (by simp [set]), if_pos (by simp [seen]),
    Device.port_onPort_same]

theorem Device.topoStep_other (set : d.fabric.topoSet = true)
    (other : ¬ ((d.port p).seenDev = some (d.port p).nbrDev ∧ (d.port p).seenPort = (d.port p).nbrPort)) :
    (d.topoStep p).haltsAt p 0x0303 ∧ ((d.topoStep p).port p).enabled = false := by
  unfold Device.topoStep
  dsimp only
  rw [if_neg (by simp [step]), if_neg (Device.topoFree_set set), if_neg (by simp [set]), if_neg (by simpa using other)]
  exact Device.haltsAt_disabled (d.haltsAt_link 0x0303 p 5)

end

/-! ### What LINK packets bring -/

section
variable {d : Device} {p : Nat} {all : List (BitVec 8)}

theorem Device.port_seePartner (d : Device) (data : List (BitVec 8)) (p : Nat) : (d.seePartner data).port p = d.port p := by
  unfold Device.seePartner
  extract_lets role changed e
  have same : e.port p = d.port p := rfl
  clear_value e
  split
  · rw [Device.port_linkEvent, same]
  · exact same

theorem Device.takeLink_hello (step : (d.port p).step = 2) (known : bitAt (Config.linkVersions all) 2 = true) :
    let q := (d.takeLink p all).port p
    q.step = 3 ∧ q.linkVer = 2 ∧ q.seenDev = some (Config.linkDevice all % 4096) ∧ q.peerNonce = Config.linkNonce all
      ∧ q.peerChain = Config.linkChain all := by
  have port : (d.takeLink p all).port p = { d.port p with
      step := 3, linkVer := 2, seenDev := some (Config.linkDevice all % 4096), seenPort := Config.linkPort all % 64
      peerNonce := Config.linkNonce all, peerChain := Config.linkChain all } := by
    unfold Device.takeLink
    dsimp only
    rw [if_pos step, if_pos known]
    split
    · rw [Device.port_seePartner, Device.port_onPort_same]
    · rw [Device.port_onPort_same]
  dsimp only
  rw [port]
  exact ⟨rfl, rfl, rfl, rfl, rfl⟩

theorem Device.takeLink_unknown (step : (d.port p).step = 2) (unknown : bitAt (Config.linkVersions all) 2 = false) :
    (d.takeLink p all).haltsAt p 0x0302 := by
  unfold Device.takeLink
  dsimp only
  rw [if_pos step, if_neg (by simp [unknown])]
  exact d.haltsAt_link 0x0302 p 3

variable (step : (d.port p).step = 3)
include step

theorem Device.takeLink_unsigned (none_ : Config.linkProof all = []) : ((d.takeLink p all).port p).step = 3 := by
  unfold Device.takeLink
  dsimp only
  rw [if_neg (by omega), if_neg (by simp [none_]), step]

variable (signed : Config.linkProof all ≠ [])
include signed

theorem Device.takeLink_unproved (bad : Config.linkAuth (d.port p).peerChain (d.linkDigest p false) (Config.linkProof all) = false) :
    (d.takeLink p all).haltsAt p 0x0302 := by
  unfold Device.takeLink
  dsimp only
  rw [if_neg (by omega), if_pos (by simp [step, signed]), if_neg (by simp [bad])]
  exact d.haltsAt_link 0x0302 p 4

theorem Device.takeLink_proved (good : Config.linkAuth (d.port p).peerChain (d.linkDigest p false) (Config.linkProof all) = true) :
    d.takeLink p all = (d.onPort p (fun q => { q with step := 4 })).topoStep p := by
  unfold Device.takeLink
  dsimp only
  rw [if_neg (by omega), if_pos (by simp [step, signed]), if_pos good]

end

/-! ### What leaves -/

theorem Device.fabric_logged (d : Device) (r : HealthRec) : (d.log r).fabric = d.fabric := (congrArg Device.fabric (d.log_noHub r) :)

theorem Device.openIn_halted (d : Device) (code p hi q : Nat) : ((d.linkRecord code p hi).haltPort q).fabric.openIn = d.fabric.openIn :=
  (congrArg Fabric.openIn (d.fabric_logged _) :)

theorem Device.openIn_topoStep (d : Device) (p : Nat) : (d.topoStep p).fabric.openIn = d.fabric.openIn := by
  unfold Device.topoStep
  dsimp only
  split_ifs
  · rfl
  · rfl
  · rfl
  · rfl
  · exact d.openIn_halted 0x0303 p 5 p

theorem Device.openIn_takeLink (d : Device) (p : Nat) (all : List (BitVec 8)) : (d.takeLink p all).fabric.openIn = d.fabric.openIn := by
  have partner (d : Device) : (d.seePartner all).fabric.openIn = d.fabric.openIn := by
    unfold Device.seePartner
    extract_lets role changed e
    have same : e.fabric = d.fabric := rfl
    clear_value e
    split
    · exact (congrArg Fabric.openIn (e.fabric_logged _)).trans (congrArg Fabric.openIn same)
    · exact congrArg Fabric.openIn same
  unfold Device.takeLink
  dsimp only
  split_ifs
  · exact partner _
  · rfl
  · exact d.openIn_halted 0x0302 p 3 p
  · exact (d.onPort p _).openIn_topoStep p
  · exact d.openIn_halted 0x0302 p 4 p
  · rfl

theorem Device.openIn_linkPiece (d : Device) (p : Nat) (k : Packet) : (d.linkPiece p k).fabric.openIn = d.fabric.openIn := by
  unfold Device.linkPiece
  extract_lets old all e
  have same : e.fabric.openIn = d.fabric.openIn := rfl
  clear_value e
  split
  · rfl
  · split
    · exact (e.openIn_takeLink p all).trans same
    · exact same

/-! ### OPEN_LINK -/

theorem openLink_takes {s : State} {p : Nat} (has : s.dev.hasPort p = true) :
    Completes (.openLink p) s (fun e => ∀ k ∈ e.fabric.openIn, ¬ (k.op = 8 ∧ k.port = p)) := by
  refine .unitRow (show _ = execOpenLink p s from rfl) has ?_
  intro k waits own
  split at waits
  · next none_ =>
    exact List.find?_eq_none.1 none_ k waits (by simp [own])
  · extract_lets d at waits
    have left : d.fabric.openIn = s.dev.fabric.openIn.filter (fun k => !(k.op == 8 && k.port == p)) := rfl
    clear_value d
    have stays : k ∈ d.fabric.openIn := by
      split at waits
      · rwa [Device.withBeat_fabric, d.openIn_linkPiece] at waits
      · exact waits
    rw [left, List.mem_filter] at stays
    simp [own] at stays

section
variable {s : State} {p : Nat} (has : s.dev.hasPort p = true)
include has

theorem openLink_none (none_ : s.dev.fabric.openIn.find? (fun k => k.op == 8 && k.port == p) = none) :
    Becomes (.openLink p) s s.dev := by
  refine .onUnit (show _ = execOpenLink p s from rfl) has ?_
  rw [none_]

variable {k : Packet} (found : s.dev.fabric.openIn.find? (fun k => k.op == 8 && k.port == p) = some k)
  (own : s.dev.ownLinkUp p = true)
include found own

theorem openLink_piece {P : Device → Prop} (hP : ∀ d : Device, d.port p = s.dev.port p → d.devNum = s.dev.devNum →
    d.topoFree p = s.dev.topoFree p → d.fabric.topoSet = s.dev.fabric.topoSet → P ((d.linkPiece p k).withBeat s.dev.beat)) :
    Completes (.openLink p) s P := by
  refine .unitRow (show _ = execOpenLink p s from rfl) has ?_
  rw [found]
  dsimp -zeta only
  extract_lets d
  rw [if_pos (show d.ownLinkUp p = true from own)]
  exact hP _ rfl rfl rfl rfl

theorem openLink_outOfTurn (turn : ¬ (k.tag = 0 ∨ (s.dev.port p).linkIn.length = 448 * k.tag)) :
    Completes (.openLink p) s (fun e => e.port p = { s.dev.port p with linkIn := [] }) := by
  refine openLink_piece has found own (fun d port _ _ _ => ?_)
  unfold Device.linkPiece
  dsimp only
  rw [port, if_pos (by simpa using turn), Device.port_withBeat, Device.port_onPort_same, port]

theorem openLink_more (turn : k.tag = 0 ∨ (s.dev.port p).linkIn.length = 448 * k.tag) (more : k.last = false) :
    Completes (.openLink p) s (fun e =>
      e.port p = { s.dev.port p with linkIn := (if k.tag = 0 then [] else (s.dev.port p).linkIn) ++ k.data }) := by
  refine openLink_piece has found own (fun d port _ _ _ => ?_)
  unfold Device.linkPiece
  dsimp only
  rw [port, if_neg (by simpa [or_iff_not_imp_left] using turn), more, if_neg (by decide), if_neg (by decide), Device.port_withBeat,
    Device.port_onPort_same, port]

/-- The last packet completes what the LINK packets of a port carry. -/
theorem openLink_last (turn : k.tag = 0 ∨ (s.dev.port p).linkIn.length = 448 * k.tag) (last : k.last = true) {P : Device → Prop}
    (hP : ∀ d : Device, d.port p = { s.dev.port p with linkIn := [] } → d.linkDigest p false = s.dev.linkDigest p false →
      d.topoFree p = s.dev.topoFree p → d.fabric.topoSet = s.dev.fabric.topoSet →
      P ((d.takeLink p ((if k.tag = 0 then [] else (s.dev.port p).linkIn) ++ k.data)).withBeat s.dev.beat)) :
    Completes (.openLink p) s P := by
  refine openLink_piece has found own (fun d port num free set => ?_)
  unfold Device.linkPiece
  dsimp only
  rw [port, if_neg (by simpa [or_iff_not_imp_left] using turn), last, if_pos rfl, if_pos rfl]
  have same : (d.onPort p (fun q => { q with linkIn := [] })).port p = { s.dev.port p with linkIn := [] } := by
    rw [Device.port_onPort_same, port]
  refine hP _ same ?_ free set
  unfold Device.linkDigest
  rw [same, show (d.onPort p _).devNum = s.dev.devNum from num]

end

/-! ### LINK_UP_TIMEOUT -/

/-- The bound of step `n` of port `p` passes. -/
def Device.boundPasses (d : Device) (p n : Nat) : Device :=
  match n with
  | 0 => if d.mayTrain p then (d.event 0x000F 0 2 p 1 0).haltPort p else d
  | 1 => (d.event 0x000F 0 2 p 2 0).onPort p (fun q => q.drop)
  | 2 => (d.linkRecord 0x0302 p 3).haltPort p
  | 3 => (d.linkRecord 0x0302 p 4).haltPort p
  | 4 => if d.fabric.topoSet then ((d.linkRecord 0x0303 p 5).haltPort p).onPort p (fun q => { q with enabled := false }) else d
  | 5 => (d.event 0x000F 0 2 p 6 0).haltPort p
  | _ => d

theorem exec_linkUpTimeout (s : State) (p : Nat) : exec (.linkUpTimeout p) s = onUnit (fun d => d.hasPort p) (fun d =>
    if !d.ownLinkUp p && 2 ≤ (d.port p).step then d else d.boundPasses p (d.port p).step) s := rfl

section
variable {s : State} {p : Nat} (has : s.dev.hasPort p = true) (own : s.dev.ownLinkUp p = true) {n : Nat}
  (step : (s.dev.port p).step = n)
include has own step

theorem linkTimeout_completes {P : Device → Prop} (hP : P ((s.dev.boundPasses p n).withBeat s.dev.beat)) :
    Completes (.linkUpTimeout p) s P := by
  refine .unitRow (exec_linkUpTimeout s p) has ?_
  rwa [if_neg (by simp [own]), step]

theorem linkTimeout_becomes (same : s.dev.boundPasses p n = s.dev) : Becomes (.linkUpTimeout p) s s.dev := by
  refine .onUnit (exec_linkUpTimeout s p) has ?_
  rwa [if_neg (by simp [own]), step]

end

theorem Device.boundPasses_framing (d : Device) (p : Nat) : ((d.boundPasses p 1).port p).step = 0
    ∧ ((d.boundPasses p 1).port p).halted = (d.port p).halted ∧ (d.boundPasses p 1).lastRecord = some (0x000F, 0, 2, p) := by
  refine ⟨?_, ?_, d.lastRecord_log _⟩
  · exact (congrArg Port.step (Device.port_onPort_same _ _ _)).trans rfl
  · exact (congrArg Port.halted (Device.port_onPort_same _ _ _)).trans (congrArg (fun q => q.drop.halted) (d.port_linkEvent ..) :)

theorem Device.boundPasses_topo {d : Device} (set : d.fabric.topoSet = true) (p : Nat) :
    (d.boundPasses p 4).haltsAt p 0x0303 ∧ ((d.boundPasses p 4).port p).enabled = false := by
  have row : d.boundPasses p 4 = ((d.linkRecord 0x0303 p 5).haltPort p).onPort p (fun q => { q with enabled := false }) := if_pos set
  rw [row]
  exact Device.haltsAt_disabled (d.haltsAt_link 0x0303 p 5)

/-- Settles O57: each event of link-up is unfolded at the step that is its own; what LINK packets bring is that of the last one. -/
theorem linkUp : Obligations.LinkUp := by
  unfold Obligations.LinkUp
  intro s p has d q halts
  refine ⟨linkTraining_stays has, fun may => ⟨linkTraining_done has may, linkTraining_fails has may⟩, linkFraming_locks has,
    linkFraming_stays has, openLink_none has, fun k found own => ?_, openLink_takes has, linkDelay_done has, linkDelay_stays has,
    portFraming_lost has, portFraming_stays has, linkTimeout_other has, fun own => ?_⟩
  · refine ⟨openLink_outOfTurn has found own, openLink_more has found own, fun turn last => ?_⟩
    have lasts {P : Device → Prop} := openLink_last has found own turn last (P := P)
    refine ⟨fun step known => lasts fun e port _ _ _ => ?_, fun step unknown => lasts fun e port _ _ _ => ?_,
      fun step none_ => lasts fun e port _ _ _ => ?_, fun step signed => ⟨fun bad => lasts fun e port digest _ _ => ?_,
        fun good free => ?_, fun good free unset => ?_, fun good set seen => ?_, fun good set other => ?_⟩⟩
    · exact Device.takeLink_hello (by rw [port]; exact step) known
    · exact Device.takeLink_unknown (by rw [port]; exact step) unknown
    · exact Device.takeLink_unsigned (by rw [port]; exact step) none_
    · exact Device.takeLink_unproved (by rw [port]; exact step) signed (by rw [port, digest]; exact bad)
    all_goals
      refine lasts fun e port digest freeE setE => ?_
      have on : ((e.onPort p (fun q => { q with step := 4 })).port p) = { d.port p with linkIn := [], step := 4 } := by
        rw [Device.port_onPort_same, port]
      rw [Device.takeLink_proved (by rw [port]; exact step) signed (by rw [port, digest]; exact good)]
      replace freeE : (e.onPort p (fun q => { q with step := 4 })).topoFree p = d.topoFree p := freeE
      replace setE : (e.onPort p (fun q => { q with step := 4 })).fabric.topoSet = d.fabric.topoSet := setE
      generalize e.onPort p _ = u at on freeE setE
      have four : (u.port p).step = 4 := by rw [on]
    · exact Device.topoStep_free four (freeE.trans free)
    · exact Device.topoStep_waits four (freeE.trans free) (setE.trans unset)
    · exact Device.topoStep_declared four (setE.trans set) (by rw [on]; exact seen)
    · exact Device.topoStep_other four (setE.trans set) (by rw [on]; exact other)
  · refine ⟨fun step no => linkTimeout_becomes has own step (if_neg (Bool.eq_false_iff.1 no)), fun step may => ?_,
      fun step => linkTimeout_completes has own step (d.boundPasses_framing p), fun step => ?_,
      fun step set => linkTimeout_completes has own step (Device.boundPasses_topo set p),
      fun step unset => linkTimeout_becomes has own step (if_neg (Bool.eq_false_iff.1 unset)),
      fun step => linkTimeout_completes has own step (d.haltsAt_state p 6 0), fun up => ?_⟩
    · refine linkTimeout_completes has own step ?_
      rw [show d.boundPasses p 0 = (d.event 0x000F 0 2 p 1 0).haltPort p from if_pos may]
      exact d.haltsAt_state p 1 0
    · rcases step with step | step
      · exact linkTimeout_completes has own step (d.haltsAt_link 0x0302 p 3)
      · exact linkTimeout_completes has own step (d.haltsAt_link 0x0302 p 4)
    · obtain ⟨n, step⟩ := Nat.exists_eq_add_of_le' up
      exact linkTimeout_becomes has own step rfl

end Sys2Proof.Machine

/-! PROOFS about hub staging as ports use it (R331, R511): what stands in a slip buffer, and in the deferral area. -/

namespace Sys2Proof.Machine

set_option Elab.async false

open Sys2Proof

/-! ### Marked bytes in a memory -/

/-- The memory holds bytes at an address, good, with the marks of their poison mask. -/
def Mem.holds (m : Mem) (a mask : Nat) (bs : List (BitVec 8)) : Prop :=
  ∀ j, j < bs.length → Sparse.get 0 m.bytes (a + j) = nth bs j 0 ∧ Sparse.get false m.poison ((a + j) / 8) = bitAt mask (j / 8)
    ∧ Sparse.get 0 m.ecc ((a + j) / 8) = 0

theorem markedBytes_length (mask : Nat) (bs : List (BitVec 8)) : (markedBytes mask bs).length = bs.length := by
  rw [markedBytes, List.length_map, List.length_range]

theorem nth_markedBytes (mask : Nat) {bs : List (BitVec 8)} {j : Nat} (h : j < bs.length) :
    nth (markedBytes mask bs) j (0, false) = (nth bs j 0, bitAt mask (j / 8)) := by
  simp [markedBytes, nth, h]

theorem markedBytes_fst (mask : Nat) (bs : List (BitVec 8)) : (markedBytes mask bs).map (·.1) = bs := by
  unfold markedBytes
  rw [List.map_map]
  refine List.ext_getElem (by simp) (fun i _ h => ?_)
  simp [nth, h]

theorem Mem.holds_read {m : Mem} {a mask : Nat} {bs : List (BitVec 8)} (h : m.holds a mask bs) :
    (m.read 8 a bs.length).data = markedBytes mask bs := by
  refine (show (m.read 8 a bs.length).data = (List.range bs.length).map (fun j => (Sparse.get 0 m.bytes (a + j),
    Sparse.get false (m.read 8 a bs.length).mem.poison ((a + j) / 8))) from rfl).trans (List.map_congr_left fun j inside => ?_)
  obtain ⟨byte, poison, good⟩ := h j (List.mem_range.1 inside)
  have sound : (a + j) / 8 ∉ m.uncorrectable 8 a bs.length := by simp [Mem.mem_uncorrectable, good]
  rw [byte, Mem.read_poison, if_neg sound, poison]

section
variable {a : Nat} {bs : List (BitVec 8)} (at_ : a % 8 = 0) (whole : bs.length % 8 = 0)
include at_ whole

theorem Mem.holds_write (m : Mem) (mask : Nat) : (m.write 8 a (markedBytes mask bs)).mem.holds a mask bs := by
  intro j inside
  have listed : (a + j) / 8 ∈ unitsOf 8 a (markedBytes mask bs).length := by
    rw [markedBytes_length]
    exact mem_unitsOf_div (by decide) inside
  refine ⟨?_, ?_, ?_⟩
  · rw [Mem.write_bytes, markedBytes_fst, Sparse.get_setMany_inside _ _ _ _ _ inside]
    simp [nth, inside]
  · have covers : coversWord 8 a (markedBytes mask bs).length ((a + j) / 8) = true := by
      simp only [coversWord, markedBytes_length, Bool.and_eq_true, decide_eq_true_eq]
      omega
    rw [Bool.eq_iff_iff, Mem.write_poison m (by decide), if_pos listed, covers]
    constructor
    · rintro (⟨i, small, word, marked⟩ | ⟨no, -⟩)
      · rw [markedBytes_length] at small
        rw [nth_markedBytes mask small] at marked
        rwa [show j / 8 = i / 8 by omega]
      · exact absurd no (by decide)
    · exact fun marked => .inl ⟨j, by rwa [markedBytes_length], rfl, by rwa [nth_markedBytes mask inside]⟩
  · rw [Mem.write_ecc, if_pos listed]

/-- A write above leaves what stands below. -/
theorem Mem.holds_write_above {m : Mem} {mask b : Nat} (h : m.holds a mask bs) (above : a + bs.length ≤ b)
    (data : List (BitVec 8 × Bool)) : (m.write 8 b data).mem.holds a mask bs := by
  intro j inside
  obtain ⟨byte, poison, good⟩ := h j inside
  have away : (a + j) / 8 ∉ unitsOf 8 b data.length := by
    rw [mem_unitsOf (by decide)]
    omega
  refine ⟨?_, ?_, ?_⟩
  · rw [m.write_outside 8 b (a + j) data (by omega), byte]
  · rw [← poison, Bool.eq_iff_iff, Mem.write_poison m (by decide), if_neg away]
  · rw [Mem.write_ecc, if_neg away, good]

end

/-! ### Deferred packets (R511) -/

theorem maskOf_bitAt (x n : Nat) : maskOf n (fun i => bitAt x i) = x % 2 ^ n := by
  induction n with
  | zero => exact (Nat.mod_one x).symm
  | succ n ih =>
    have step : maskOf (n + 1) (fun i => bitAt x i)
        = if bitAt x n then maskOf n (fun i => bitAt x i) + 2 ^ n else maskOf n (fun i => bitAt x i) := by
      unfold maskOf
      rw [List.range_succ, List.foldl_append]
      rfl
    rw [step, ih, Nat.mod_pow_succ]
    unfold bitAt bits
    rcases Nat.mod_two_eq_zero_or_one (x / 2 ^ n) with even | odd
    · simp [even]
    · simp [odd]

theorem payloadMask_marked {mask : Nat} (small : mask < 2 ^ 60) {bs : List (BitVec 8)} (long : bs.length = 480) :
    payloadMask (markedBytes mask bs) = mask := by
  have words (i : Nat) (inside : i < 60) :
      (List.range 8).any (fun j => (nth (markedBytes mask bs) (8 * i + j) (0, false)).2) = bitAt mask i := by
    have each : ∀ j ∈ List.range 8, (nth (markedBytes mask bs) (8 * i + j) (0, false)).2 = bitAt mask i := by
      intro j hj
      have few := List.mem_range.1 hj
      rw [nth_markedBytes mask (by omega), show (8 * i + j) / 8 = i by omega]
    rw [Bool.eq_iff_iff, List.any_eq_true]
    exact ⟨fun ⟨j, hj, marked⟩ => (each j hj).symm.trans marked, fun marked => ⟨0, by simp, (each 0 (by simp)).trans marked⟩⟩
  have congr {p q : Nat → Bool} (n : Nat) (h : ∀ i < n, p i = q i) : maskOf n p = maskOf n q := by
    unfold maskOf
    refine List.foldl_ext _ _ _ (fun a i hi => ?_)
    rw [h i (List.mem_range.1 hi)]
  unfold payloadMask
  rw [congr 60 words, maskOf_bitAt, Nat.mod_eq_of_lt small]

theorem Device.staging_stagePut (d : Device) (a : Nat) (data : List (BitVec 8 × Bool)) :
    (d.stagePut a data).staging = (d.staging.write 8 a data).mem :=
  Device.staging_of_besideBooks (d.besideBooks_stagePut a data)

theorem Device.deferOpen_write (d : Device) (x : Packet) : ∃ i,
    (d.deferOpen x).staging
      = (d.staging.write 8 (deferralBase + 512 * i) (markedBytes x.poison (slice (x.hdr ++ x.data) 0 480))).mem
    ∧ (d.deferOpen x).fabric.openIn = d.fabric.openIn
    ∧ (d.deferOpen x).fabric.deferred = d.fabric.deferred ++ [(i, { x with hdr := [], data := [], poison := 0 })] := by
  have marks : (List.range 480).map (fun j => (nth (slice (x.hdr ++ x.data) 0 480) j 0, bitAt x.poison (j / 8)))
      = markedBytes x.poison (slice (x.hdr ++ x.data) 0 480) := by
    unfold markedBytes
    rw [slice_length]
  unfold Device.deferOpen
  dsimp only
  rw [marks]
  generalize ((List.range ((d.fabric.deferred.map (·.1)).length + 1)).find? (fun i => !(d.fabric.deferred.map (·.1)).contains i)).getD 0 = i
  have fabric : (d.stagePut (deferralBase + 512 * i) (markedBytes x.poison (slice (x.hdr ++ x.data) 0 480))).fabric = d.fabric :=
    (Device.fabric_of_besideBooks (d.besideBooks_stagePut _ _)).trans rfl
  refine ⟨i, d.staging_stagePut _ _, (congrArg Fabric.openIn fabric :), ?_⟩
  rw [← fabric]
  rfl

/-- A packet comes out of the deferral area as it went in. -/
theorem Device.takeDeferred_deferOpen {d : Device} {x : Packet} (header : x.hdr.length = 32) (data : x.data.length = min 448 x.len)
    (poison : x.poison < 2 ^ 60) : ∃ z, (d.deferOpen x).fabric.deferred = d.fabric.deferred ++ [z]
      ∧ ∀ e : Device, e.staging = (d.deferOpen x).staging → (e.takeDeferred z).1 = x := by
  obtain ⟨i, staging, -, deferred⟩ := d.deferOpen_write x
  refine ⟨_, deferred, fun e same => ?_⟩
  have size : (slice (x.hdr ++ x.data) 0 480).length = 480 := slice_length ..
  have stands : e.staging.holds (deferralBase + 512 * i) x.poison (slice (x.hdr ++ x.data) 0 480) := by
    rw [same, staging]
    refine Mem.holds_write ?_ ?_ _ _
    · unfold deferralBase; omega
    · rw [size]
  have read := Mem.holds_read stands
  rw [size] at read
  have bytes : slice (x.hdr ++ x.data) 0 480 = x.hdr ++ (x.data ++ List.replicate (480 - (32 + x.data.length)) 0) := by
    unfold slice
    dsimp only
    rw [List.drop_zero, List.take_of_length_le (by simp [header, data]; omega), List.length_append, header, List.append_assoc]
  have head : slice (slice (x.hdr ++ x.data) 0 480) 0 32 = x.hdr := by
    rw [bytes]
    exact slice_append_left _ _ _ header
  have tail : slice (slice (x.hdr ++ x.data) 0 480) 32 (min 448 x.len) = x.data := by
    rw [bytes, ← data]
    unfold slice
    dsimp only
    rw [List.drop_left' header, List.take_left' rfl, Nat.sub_self, List.replicate_zero, List.append_nil]
  have out : (e.takeDeferred (i, { x with hdr := [], data := [], poison := 0 })).1
      = { x with hdr := slice (slice (x.hdr ++ x.data) 0 480) 0 32, poison := payloadMask (markedBytes x.poison (slice (x.hdr ++ x.data) 0 480))
                 data := slice (slice (x.hdr ++ x.data) 0 480) 32
                  (min 448 ({ x with hdr := slice (slice (x.hdr ++ x.data) 0 480) 0 32 } : Packet).len) } := by
    unfold Device.takeDeferred Device.stageRead
    dsimp only
    rw [read, markedBytes_fst]
    rfl
  rw [out, head, payloadMask_marked poison size]
  exact congrArg (fun l => ({ x with data := l } : Packet)) tail

/-! ### What delivery leaves in a slip buffer -/

theorem Device.holds_deliverOpen {d : Device} {a mask : Nat} {bs : List (BitVec 8)} (at_ : a % 8 = 0) (whole : bs.length % 8 = 0)
    (below : a + bs.length ≤ deferralBase) (h : d.staging.holds a mask bs) (x : Packet) :
    (d.deliverOpen x).staging.holds a mask bs := by
  have discard : (d.discardOpen x).staging = d.staging :=
    (congrArg Device.staging (d.event_noHub 0x000B 0 2 x.port x.dest (x.srcDev * 2 ^ 24 + x.srcCore * 2 ^ 16 + x.tag)) :)
  have mgmt : (d.takeMgmt x).staging = d.staging := (congrArg (fun x : Device × (Nat → Port) => x.1.staging) (d.offMail_takeMgmt x) :)
  unfold Device.deliverOpen
  split
  · rwa [discard]
  · split
    · split
      · rwa [mgmt]
      · split
        · obtain ⟨i, staging, -⟩ := d.deferOpen_write x
          rw [staging]
          exact Mem.holds_write_above at_ whole h (by omega) _
        · exact h
    · split
      · rwa [discard]
      · exact h

theorem Device.holds_releaseOpen {a mask : Nat} {bs : List (BitVec 8)} (at_ : a % 8 = 0) (whole : bs.length % 8 = 0)
    (below : a + bs.length ≤ deferralBase) (n p : Nat) {d : Device} (h : d.staging.holds a mask bs) :
    (d.releaseOpen p n).staging.holds a mask bs := by
  induction n generalizing d with
  | zero => rwa [Device.releaseOpen]; intro _ _ _ h; cases h
  | succ n ih =>
    rw [Device.releaseOpen.eq_def]
    split
    · next k y rest fuel _ =>
      split
      · exact h
      · cases fuel
        exact ih (Device.holds_deliverOpen (d := d.onPort p _) at_ whole below h y)
    · exact h

end Sys2Proof.Machine

/-! PROOFS about what a port notes of a good slot before it files it (R323, R339 to R341, R514): votes, NACKs, and what it retains. -/

namespace Sys2Proof.Machine

set_option Elab.async false

open Sys2Proof

/-- A port with its counters, its re-sends and the slots that go on from it hidden. -/
def Port.noted (q : Port) : Port := { q with counters := [], resend := [], rxSlots := [], retain := [], sentNow := 0, sent := [] }

/-- What such notes leave of a device, of each of its ports, and of the count of dropped copies. -/
def Device.offNotes (d : Device) : Device × (Nat → Port) × (Nat → BitVec 64) :=
  ({ d with hub := Hub.reset, hold := { d.hold with votes := [] }, fabric := { d.fabric with ports := [] } },
    fun p => (d.port p).noted, fun p => Sparse.get 0 (d.port p).counters 7)

theorem Device.offNotes_onPort (d : Device) (p : Nat) {f : Port → Port} (noted : ∀ q, (f q).noted = q.noted)
    (counts : ∀ q, Sparse.get 0 (f q).counters 7 = Sparse.get 0 q.counters 7) : (d.onPort p f).offNotes = d.offNotes := by
  have port (x : Nat) : (d.onPort p f).port x = if x = p then f (d.port p) else d.port x := by
    split
    · next same => rw [same, Device.port_onPort_same]
    · next other => rw [Device.port_onPort_other _ _ _ _ other]
  refine Prod.ext rfl (Prod.ext (funext fun x => ?_) (funext fun x => ?_))
  · show ((d.onPort p f).port x).noted = (d.port x).noted
    rw [port]
    split
    · next same => rw [same, noted]
    · rfl
  · show Sparse.get 0 ((d.onPort p f).port x).counters 7 = Sparse.get 0 (d.port x).counters 7
    rw [port]
    split
    · next same => rw [same, counts]
    · rfl

theorem Device.offNotes_countPort (d : Device) (p n : Nat) {i : Nat} (other : i ≠ 7) : (d.countPort p i n).offNotes = d.offNotes := by
  unfold Device.countPort
  split
  · rfl
  · exact d.offNotes_onPort p (fun _ => rfl) (fun q => (Sparse.get_countIn q.counters i n 7).trans (if_neg other.symm))

theorem Device.offNotes_of_noHub {d e : Device} (h : d.noHub = e.noHub) : d.offNotes = e.offNotes := by
  have port (p : Nat) : d.port p = e.port p := Device.port_of_fabric (congrArg Device.fabric h :) p
  refine Prod.ext ?_ (Prod.ext (funext fun x => congrArg Port.noted (port x)) (funext fun x => ?_))
  · exact (congrArg (fun d : Device => ({ d with hold := { d.hold with votes := [] }, fabric := { d.fabric with ports := [] } } : Device)) h :)
  · exact congrArg (fun q : Port => Sparse.get 0 q.counters 7) (port x)

theorem Device.offNotes_seeVote (d : Device) (p v : Nat) : (d.seeVote p v).offNotes = d.offNotes := by
  unfold Device.seeVote
  split
  · rfl
  · extract_lets late h e
    have held : e.offNotes = d.offNotes := rfl
    clear_value e
    split
    · exact (Device.offNotes_of_noHub (Device.event_noHub _ _ _ _ _ _ _)).trans
        ((Device.offNotes_of_noHub (Device.countHub_noHub _ _ _)).trans held)
    · exact (foldl_keeps Device.offNotes _ (fun (d : Device) (q : Nat) => d.offNotes_countPort q 1 (by decide)) _ e).trans held

theorem Device.offNotes_seeVotes (d : Device) (p : Nat) (x : List (BitVec 8)) : (d.seeVotes p x).offNotes = d.offNotes := by
  unfold Device.seeVotes
  dsimp only
  split_ifs
  · rw [Device.offNotes_seeVote, Device.offNotes_seeVote]
  · rw [Device.offNotes_seeVote]
  · rw [Device.offNotes_seeVote]
  · rfl

theorem Device.offNotes_takeNack (d : Device) (p w k : Nat) : (d.takeNack p w k).offNotes = d.offNotes := by
  have counted := d.offNotes_countPort p 1 (show 4 ≠ 7 by decide)
  unfold Device.takeNack
  extract_lets e q t
  clear_value t
  split
  · split
    · exact (e.offNotes_onPort p (f := fun q => { q with resend := q.resend ++ [t] }) (fun _ => rfl) (fun _ => rfl)).trans counted
    · exact counted
  · exact counted

theorem Device.offNotes_mendForward (d : Device) (p w k : Nat) (x : List (BitVec 8)) : (d.mendForward p w k x).offNotes = d.offNotes := by
  unfold Device.mendForward
  split
  · rfl
  · refine foldl_keeps Device.offNotes _ (fun (d : Device) (q : Nat) => ?_) _ d
    split
    · rfl
    · refine foldl_keeps Device.offNotes _ (fun (d : Device) (j : Nat) => ?_) _ d
      dsimp only
      split
      · rfl
      · split
        · rfl
        · split
          · rfl
          · exact d.offNotes_onPort q (fun _ => rfl) (fun _ => rfl)

/-! ### What can be read off -/

section
variable {d e : Device} (h : d.offNotes = e.offNotes)
include h

theorem Device.port_of_offNotes (p : Nat) : (d.port p).noted = (e.port p).noted :=
  (congrArg (fun x : Device × (Nat → Port) × (Nat → BitVec 64) => x.2.1 p) h :)
theorem Device.dropped_of_offNotes (p : Nat) : Sparse.get 0 (d.port p).counters 7 = Sparse.get 0 (e.port p).counters 7 :=
  (congrArg (fun x : Device × (Nat → Port) × (Nat → BitVec 64) => x.2.2 p) h :)
theorem Device.beat_of_offNotes : d.beat = e.beat := (congrArg (fun x : Device × (Nat → Port) × (Nat → BitVec 64) => x.1.beat) h :)
theorem Device.gate_of_offNotes : d.gate = e.gate := (congrArg (fun x : Device × (Nat → Port) × (Nat → BitVec 64) => x.1.gate) h :)
theorem Device.devNum_of_offNotes : d.devNum = e.devNum :=
  (congrArg (fun x : Device × (Nat → Port) × (Nat → BitVec 64) => x.1.devNum) h :)
theorem Device.inPair_of_offNotes : d.inPair = e.inPair :=
  (congrArg (fun x : Device × (Nat → Port) × (Nat → BitVec 64) => x.1.inPair) h :)
theorem Device.openIn_of_offNotes : d.fabric.openIn = e.fabric.openIn :=
  (congrArg (fun x : Device × (Nat → Port) × (Nat → BitVec 64) => x.1.fabric.openIn) h :)
theorem Device.deferred_of_offNotes : d.fabric.deferred = e.fabric.deferred :=
  (congrArg (fun x : Device × (Nat → Port) × (Nat → BitVec 64) => x.1.fabric.deferred) h :)

theorem Device.rxEntry_of_offNotes (p b k : Nat) : d.rxEntry p b k = e.rxEntry p b k := by
  have planOn : d.fabric.planOn = e.fabric.planOn :=
    (congrArg (fun x : Device × (Nat → Port) × (Nat → BitVec 64) => x.1.fabric.planOn) h :)
  have port := Device.port_of_offNotes h p
  have inPlan : (d.port p).inPlan = (e.port p).inPlan := (congrArg Port.inPlan port :)
  have plan : (d.port p).plan = (e.port p).plan := (congrArg Port.plan port :)
  unfold Device.rxEntry
  rw [planOn, inPlan, plan]

end

/-! ### A good slot that carries something -/

theorem Device.slotUp_failed (d : Device) (p v k : Nat) {x : List (BitVec 8)} (bad : slotGood x = false) (role : d.twin.role ≠ 5) :
    let q := (d.slotUp p v k x).port p
    q.nacks = (d.port p).nacks ++ [(v, k)] ∧ q.rxPos = (d.port p).rxPos ∧ q.rxFailedNow = (d.port p).rxFailedNow + 1
      ∧ Sparse.get 0 q.counters 2 = Sparse.get 0 (d.port p).counters 2 + 1 := by
  have port : ∃ r b, (d.slotUp p v k x).port p = { (d.port p).counted 2 1 with
      rxSlots := r, badRx := b, rxFailedNow := (d.port p).rxFailedNow + 1, nacks := (d.port p).nacks ++ [(v, k)] } := by
    unfold Device.slotUp
    extract_lets e
    have line : e.port p = { d.port p with rxSlots := (d.port p).rxSlots ++ [(v, k, x)] } := by
      unfold e
      rw [if_neg (by simp [bad]), Device.port_onPort_same]
    have twin : e.twin = d.twin := both_branches Device.twin rfl rfl
    clear_value e
    rw [if_pos (by simp [bad]), Device.slotFailed, if_neg (by simp [twin, role]), Device.port_onPort_same, Device.port_onPort_same, Device.port_countPort, line]
    exact ⟨_, _, rfl⟩
  obtain ⟨r, b, port⟩ := port
  dsimp only
  rw [port]
  refine ⟨rfl, rfl, rfl, ?_⟩
  exact (Port.get_counted _ 2 1 2).trans (if_pos rfl)

/-- A good slot that carries something, and that the ledger admits, is filed. -/
theorem Device.slotUp_files (d : Device) (p v k : Nat) {x : List (BitVec 8)} (good : slotGood x = true) (carries : 2 ≤ trKind x)
    (ledger : trRepair x = true ∨ ((d.port p).rxNonEmptyNow ≤ trLedger x
      ∧ trLedger x ≤ (d.port p).rxNonEmptyNow + (d.port p).rxFailedNow)) :
    ∃ e : Device, e.offNotes = d.offNotes
      ∧ d.slotUp p v k x = (e.onPort p (fun q => { q with rxNonEmptyNow := q.rxNonEmptyNow + 1 })).fileSlot p v k x := by
  unfold Device.slotUp
  extract_lets a b c
  have first : a.offNotes = d.offNotes := by
    unfold a
    split
    · rfl
    · exact d.offNotes_onPort p (fun _ => rfl) (fun _ => rfl)
  have second : b.offNotes = d.offNotes :=
    (Device.offNotes_seeVotes _ p x).trans ((a.offNotes_countPort p 1 (show 1 ≠ 7 by decide)).trans first)
  have third : c.offNotes = d.offNotes := by
    unfold c
    split
    · exact (b.offNotes_takeNack ..).trans second
    · exact second
  clear_value c
  have port := Device.port_of_offNotes third p
  have count : (c.port p).rxNonEmptyNow = (d.port p).rxNonEmptyNow := (congrArg Port.rxNonEmptyNow port :)
  have failed : (c.port p).rxFailedNow = (d.port p).rxFailedNow := (congrArg Port.rxFailedNow port :)
  refine ⟨c, third, ?_⟩
  rw [if_neg (by simp [good]), if_neg (by omega), count, failed, if_neg]
  rcases ledger with again | inside
  · simp [again]
  · simp; omega

end Sys2Proof.Machine

/-! PROOFS about SLOT_RECEIVE (R323 to R332, R335, R338): where a good slot goes. -/

namespace Sys2Proof.Machine

set_option Elab.async false

open Sys2Proof

/-! ### The slip buffer -/

theorem slipAt_aligned (p b k : Nat) : slipAt p b k % 8 = 0 := by
  unfold slipAt
  omega

theorem slotPayload_length (x : List (BitVec 8)) : (slotPayload x).length = 480 := slice_length ..

theorem slipAt_below {p : Nat} (port : p < 32) (b : Nat) (x : List (BitVec 8)) :
    slipAt p b (trSlot x) + (slotPayload x).length ≤ deferralBase := by
  have slot : trSlot x < 2 ^ 8 := Nat.mod_lt _ (by decide)
  rw [slotPayload_length]
  unfold slipAt deferralBase
  omega

/-- A scheduled slot with a LOCAL entry takes its place in the slip buffer. -/
theorem Device.deliverScheduled_local {d : Device} {p b : Nat} {x : List (BitVec 8)} (beat : nearest 32 (trBeat x) d.beat.s = b)
    (soon : b ≤ d.gate.e + 2) (kind : peKind (d.rxEntry p b (trSlot x)) = 1) :
    ∃ e : Device, d.deliverScheduled p x = e.onPort p (fun q => { q with slip := q.slip ++ [(b, trSlot x)] }) ∧ e.fabric = d.fabric
      ∧ e.staging.holds (slipAt p b (trSlot x)) (trPoison x) (slotPayload x) := by
  unfold Device.deliverScheduled
  dsimp only
  rw [beat, if_neg (Nat.not_lt.2 soon), kind]
  have same : (d.meterFabric (d.planOwner false p b (trSlot x)) 480).fabric = d.fabric := rfl
  generalize d.meterFabric (d.planOwner false p b (trSlot x)) 480 = m at same
  refine ⟨_, rfl, ?_, ?_⟩
  · exact ((Device.fabric_of_besideBooks (m.besideBooks_stagePut _ _)).trans rfl).trans same
  · rw [Device.staging_stagePut]
    exact Mem.holds_write (slipAt_aligned ..) (by rw [slotPayload_length]) _ _

/-! ### Packets held on a port -/

theorem Device.onPort_congr {d : Device} {p : Nat} {f g : Port → Port} (h : f (d.port p) = g (d.port p)) : d.onPort p f = d.onPort p g := by
  unfold Device.onPort
  rw [h]

/-- A packet on a port that holds none: it waits for the repair of an earlier slot, or is delivered. -/
theorem Device.fileOpen_single {d : Device} {p : Nat} {y : Packet} (none_ : (d.port p).openHeld = []) :
    d.fileOpen p y = if (d.port p).gapBefore y.v y.pos then d.onPort p (fun q => { q with openHeld := [y] })
      else ((d.onPort p (fun q => { q with openHeld := [y] })).onPort p (fun q => { q with openHeld := [] })).deliverOpen y := by
  have held (first : Packet → Bool) : d.onPort p (fun q =>
      { q with openHeld := q.openHeld.takeWhile first ++ [y] ++ q.openHeld.dropWhile first }) = d.onPort p (fun q => { q with openHeld := [y] }) := by
    refine Device.onPort_congr ?_
    rw [none_]
    rfl
  have port : (d.onPort p (fun q => { q with openHeld := [y] })).port p = { d.port p with openHeld := [y] } := Device.port_onPort_same ..
  have gap : ({ d.port p with openHeld := [y] } : Port).gapBefore y.v y.pos = (d.port p).gapBefore y.v y.pos := rfl
  unfold Device.fileOpen
  dsimp only
  rw [held, port, List.length_singleton, Device.releaseOpen.eq_def, port]
  dsimp only
  rw [gap]
  split
  · rfl
  · rw [Device.releaseOpen.eq_def]

theorem Port.gapBefore_of_noted {a b : Port} (h : a.noted = b.noted) (v k : Nat) : a.gapBefore v k = b.gapBefore v k :=
  (congrArg (fun q : Port => q.gapBefore v k) h :)

/-! ### The place of a slot -/

section
variable {d : Device} {p v k : Nat} {x : List (BitVec 8)}

theorem Device.fileSlot_again (again : (nearest 16 (trSeq x) v, trSlot x) ∈ (d.port p).rxGood) :
    d.fileSlot p v k x = d.countPort p 7 1 := by
  unfold Device.fileSlot
  dsimp only
  rw [if_pos (by simpa using again)]

variable (fresh : (nearest 16 (trSeq x) v, trSlot x) ∉ (d.port p).rxGood) (port : p < 32)
include fresh port

/-- A first copy is noted, and what it mends leaves the rest. -/
theorem Device.fileSlot_fresh (room : trKind x = 3 → d.fifoFullFor p (openOf p (nearest 16 (trSeq x) v) (trSlot x)
      (nearest 32 (trBeat x) d.beat.s) x) = false) :
    ∃ e : Device, e.offNotes = (d.onPort p (fun q => { q with rxGood := (nearest 16 (trSeq x) v, trSlot x) :: q.rxGood })).offNotes
      ∧ d.fileSlot p v k x = if trKind x = 3 then
          e.fileOpen p (openOf p (nearest 16 (trSeq x) v) (trSlot x) (nearest 32 (trBeat x) d.beat.s) x)
        else (e.deliverScheduled p x).releaseOpen p ((e.deliverScheduled p x).port p).openHeld.length := by
  unfold Device.fileSlot
  extract_lets key y e f
  have mended : f.offNotes = e.offNotes := by
    unfold f
    split
    · exact e.offNotes_mendForward ..
    · rfl
  clear_value f
  refine ⟨f, mended, ?_⟩
  rw [if_neg (by simpa using fresh), if_neg, if_neg (by omega)]
  simp only [Bool.and_eq_true, decide_eq_true_eq, not_and]
  exact fun ⟨is, _⟩ => by simp [y, key, room is]

theorem Device.fileSlot_local {b : Nat} (beat : nearest 32 (trBeat x) d.beat.s = b) (kind : trKind x = 2) (soon : b ≤ d.gate.e + 2)
    (entry : peKind (d.rxEntry p b (trSlot x)) = 1) :
    let e := d.fileSlot p v k x
    (e.port p).rxPos = (d.port p).rxPos ∧ (nearest 16 (trSeq x) v, trSlot x) ∈ (e.port p).rxGood
      ∧ (e.port p).slip = (d.port p).slip ++ [(b, trSlot x)]
      ∧ (e.staging.read 8 (slipAt p b (trSlot x)) 480).data = markedBytes (trPoison x) (slotPayload x) := by
  obtain ⟨f, notes, filed⟩ := Device.fileSlot_fresh (k := k) fresh port (fun is => absurd is (by omega))
  rw [if_neg (by omega)] at filed
  have line := (Device.port_of_offNotes notes p).trans (congrArg Port.noted (Device.port_onPort_same ..))
  obtain ⟨g, delivered, fabric, holds⟩ := Device.deliverScheduled_local (d := f) (p := p) (x := x) (b := b)
    (by rw [Device.beat_of_offNotes notes]; exact beat) (by rw [Device.gate_of_offNotes notes]; exact soon)
    (by rw [Device.rxEntry_of_offNotes notes]
        refine (congrArg peKind ?_).trans entry
        unfold Device.rxEntry
        rw [Device.port_onPort_same]
        rfl)
  have slipped : ((f.deliverScheduled p x).port p) = { f.port p with slip := (f.port p).slip ++ [(b, trSlot x)] } := by
    rw [delivered, Device.port_onPort_same, Device.port_of_fabric fabric]
  have kept := Device.port_of_offOpen ((f.deliverScheduled p x).offOpen_releaseOpen ((f.deliverScheduled p x).port p).openHeld.length p) p
  rw [← filed, slipped] at kept
  have stands : (d.fileSlot p v k x).staging.holds (slipAt p b (trSlot x)) (trPoison x) (slotPayload x) := by
    rw [filed]
    refine Device.holds_releaseOpen (slipAt_aligned ..) (by rw [slotPayload_length]) (slipAt_below port b x) _ p ?_
    rw [delivered]
    exact holds
  have pos : ((d.fileSlot p v k x).port p).rxPos = (f.port p).rxPos := (congrArg Port.rxPos kept :)
  have good : ((d.fileSlot p v k x).port p).rxGood = (f.port p).rxGood := (congrArg Port.rxGood kept :)
  have slip : ((d.fileSlot p v k x).port p).slip = (f.port p).slip ++ [(b, trSlot x)] := (congrArg Port.slip kept :)
  have read := Mem.holds_read stands
  rw [slotPayload_length] at read
  dsimp only
  rw [pos, good, slip, show (f.port p).rxPos = _ from (congrArg Port.rxPos line :), show (f.port p).rxGood = _ from (congrArg Port.rxGood line :),
    show (f.port p).slip = _ from (congrArg Port.slip line :)]
  exact ⟨rfl, List.mem_cons_self, rfl, read⟩

theorem Device.fileSlot_open {y : Packet} (isOpen : openOf p (nearest 16 (trSeq x) v) (trSlot x) (nearest 32 (trBeat x) d.beat.s) x = y)
    (kind : trKind x = 3) (own : rzDev y.dest = d.devNum) (row : y.op < 8 ∧ y.op ≠ 6) (none_ : (d.port p).openHeld = []) {waits : Bool}
    (gap : ({ d.port p with rxGood := (nearest 16 (trSeq x) v, trSlot x) :: (d.port p).rxGood } : Port).gapBefore
      (nearest 16 (trSeq x) v) (trSlot x) = waits) :
    let e := d.fileSlot p v k x
    (e.port p).rxPos = (d.port p).rxPos ∧ (nearest 16 (trSeq x) v, trSlot x) ∈ (e.port p).rxGood
      ∧ (waits = true → (e.port p).openHeld = [y] ∧ e.fabric.openIn = d.fabric.openIn ∧ e.fabric.deferred = d.fabric.deferred)
      ∧ (waits = false → d.inPair = false → e.fabric.openIn = d.fabric.openIn ++ [y])
      ∧ (waits = false → d.inPair = true → ∃ z, e.fabric.deferred = d.fabric.deferred ++ [z]
          ∧ ∀ f : Device, f.staging = e.staging → (f.takeDeferred z).1 = y) := by
  have room : d.fifoFullFor p y = false := by
    unfold Device.fifoFullFor Device.onward
    rw [if_pos (by simp [own])]
  obtain ⟨f, notes, filed⟩ := Device.fileSlot_fresh (k := k) fresh port (fun _ => by rw [isOpen]; exact room)
  have line := (Device.port_of_offNotes notes p).trans (congrArg Port.noted (Device.port_onPort_same ..))
  have held : (f.port p).openHeld = [] := (congrArg Port.openHeld line :).trans none_
  have point : y.v = nearest 16 (trSeq x) v ∧ y.pos = trSlot x := by rw [← isOpen]; exact ⟨rfl, rfl⟩
  have same : (f.port p).gapBefore y.v y.pos = waits := by
    rw [point.1, point.2, Port.gapBefore_of_noted line]
    exact gap
  rw [if_pos kind, isOpen, Device.fileOpen_single held, same] at filed
  have pos : (f.port p).rxPos = (d.port p).rxPos := (congrArg Port.rxPos line :)
  have good : (f.port p).rxGood = (nearest 16 (trSeq x) v, trSlot x) :: (d.port p).rxGood := (congrArg Port.rxGood line :)
  have openIn : f.fabric.openIn = d.fabric.openIn := (Device.openIn_of_offNotes notes).trans rfl
  have deferred : f.fabric.deferred = d.fabric.deferred := (Device.deferred_of_offNotes notes).trans rfl
  have num : f.devNum = d.devNum := (Device.devNum_of_offNotes notes).trans rfl
  have pair : f.inPair = d.inPair := (Device.inPair_of_offNotes notes).trans rfl
  dsimp only
  rw [filed]
  cases waits with
  | true =>
    rw [if_pos rfl, Device.port_onPort_same]
    exact ⟨pos, by rw [good]; exact List.mem_cons_self, fun _ => ⟨rfl, openIn, deferred⟩, nofun, nofun⟩
  | false =>
    rw [if_neg (by decide)]
    have port : ((f.onPort p (fun q => { q with openHeld := [y] })).onPort p (fun q => { q with openHeld := [] })).port p
        = { f.port p with openHeld := [] } := by
      rw [Device.port_onPort_same, Device.port_onPort_same]
    replace openIn : ((f.onPort p (fun q => { q with openHeld := [y] })).onPort p (fun q => { q with openHeld := [] })).fabric.openIn
      = d.fabric.openIn := openIn
    replace deferred : ((f.onPort p (fun q => { q with openHeld := [y] })).onPort p (fun q => { q with openHeld := [] })).fabric.deferred
      = d.fabric.deferred := deferred
    replace num : ((f.onPort p (fun q => { q with openHeld := [y] })).onPort p (fun q => { q with openHeld := [] })).devNum
      = d.devNum := num
    replace pair : ((f.onPort p (fun q => { q with openHeld := [y] })).onPort p (fun q => { q with openHeld := [] })).inPair
      = d.inPair := pair
    generalize (f.onPort p (fun q => { q with openHeld := [y] })).onPort p _ = g at port openIn deferred num pair
    have kept := Device.port_of_offOpen (g.offOpen_deliverOpen y) p
    rw [port] at kept
    have delivered : g.deliverOpen y = if g.inPair then g.deferOpen y else g.onFabric (fun f => { f with openIn := f.openIn ++ [y] }) := by
      unfold Device.deliverOpen
      rw [if_neg (by omega), if_pos (own.trans num.symm), if_neg row.2]
    refine ⟨(congrArg Port.rxPos kept :).trans pos, ?_, nofun, fun _ solo => ?_, fun _ paired => ?_⟩
    · rw [show ((g.deliverOpen y).port p).rxGood = (f.port p).rxGood from (congrArg Port.rxGood kept :), good]
      exact List.mem_cons_self
    · rw [delivered, if_neg (by rw [pair, solo]; decide), ← openIn]
      rfl
    · rw [delivered, if_pos (pair.trans paired), ← deferred]
      have shape : y.hdr.length = 32 ∧ y.data.length = min 448 y.len ∧ y.poison < 2 ^ 60 := by
        rw [← isOpen]
        exact ⟨slice_length .., slice_length .., Nat.mod_lt _ (by decide)⟩
      exact Device.takeDeferred_deferOpen shape.1 shape.2.1 shape.2.2

end

end Sys2Proof.Machine

/-! PROOFS about SLOT_RECEIVE (R323, R331, R335, R338, R340): the row. -/

namespace Sys2Proof.Machine

set_option Elab.async false

open Sys2Proof

/-- The next position of port `p` comes in. -/
def Device.comesIn (d : Device) (p : Nat) : Device := d.onPort p (fun q => { q with rxPos := (d.port p).rxPos + 1 })

theorem Device.port_comesIn (d : Device) (p : Nat) : (d.comesIn p).port p = { d.port p with rxPos := (d.port p).rxPos + 1 } :=
  Device.port_onPort_same ..

/-- A port with one more slot that carries something. -/
def Port.fuller (q : Port) : Port := { q with rxNonEmptyNow := q.rxNonEmptyNow + 1 }

/-- The next position of port `p` comes in, with a slot that carries something. -/
def Device.fillsIn (d : Device) (p : Nat) : Device := (d.comesIn p).onPort p Port.fuller

theorem Device.port_fillsIn (d : Device) (p : Nat) : (d.fillsIn p).port p = { d.port p with
    rxPos := (d.port p).rxPos + 1, rxNonEmptyNow := (d.port p).rxNonEmptyNow + 1 } := by
  rw [Device.fillsIn, Device.port_onPort_same, Device.port_comesIn]
  rfl

theorem Device.offNotes_onPort_congr {d e : Device} (h : d.offNotes = e.offNotes) (p : Nat) {f : Port → Port}
    (noted : ∀ q, (f q).noted = (f q.noted).noted) (counts : ∀ q, (f q).counters = q.counters) :
    (d.onPort p f).offNotes = (e.onPort p f).offNotes := by
  refine Prod.ext (congrArg Prod.fst h :) (Prod.ext (funext fun x => ?_) (funext fun x => ?_))
  · show ((d.onPort p f).port x).noted = ((e.onPort p f).port x).noted
    by_cases same : x = p
    · rw [same, Device.port_onPort_same, Device.port_onPort_same, noted, Device.port_of_offNotes h, ← noted]
    · rw [Device.port_onPort_other _ _ _ _ same, Device.port_onPort_other _ _ _ _ same, Device.port_of_offNotes h]
  · show Sparse.get 0 ((d.onPort p f).port x).counters 7 = Sparse.get 0 ((e.onPort p f).port x).counters 7
    by_cases same : x = p
    · rw [same, Device.port_onPort_same, Device.port_onPort_same, counts, counts, Device.dropped_of_offNotes h]
    · rw [Device.port_onPort_other _ _ _ _ same, Device.port_onPort_other _ _ _ _ same, Device.dropped_of_offNotes h]

section
variable {s : State} {p : Nat} (x : List (BitVec 8)) (has : s.dev.hasPort p = true)
include has

theorem slotReceive_idle (idle : (s.dev.port p).nbrW = none ∨ (s.dev.port p).step < 2 ∨ (s.dev.port p).rxPos = 0
    ∨ 224 ≤ (s.dev.port p).rxPos) : Becomes (.slotReceive p x) s s.dev := by
  refine .onUnit (show _ = execSlotReceive p x s from rfl) has ?_
  dsimp only
  split
  · rfl
  · next v known =>
    refine if_pos ?_
    rcases idle with none_ | early | first | past
    · rw [none_] at known; cases known
    · simp [early]
    · simp [first]
    · simp [past]

variable {v : Nat} (known : (s.dev.port p).nbrW = some v) (up : (s.dev.port p).up = true) (first : 1 ≤ (s.dev.port p).rxPos)
  (inside : (s.dev.port p).rxPos < 224)
include known up first inside

theorem slotReceive_completes {P : Device → Prop}
    (hP : P (((s.dev.comesIn p).slotUp p v (s.dev.port p).rxPos x).withBeat s.dev.beat)) : Completes (.slotReceive p x) s P := by
  have six : (s.dev.port p).step = 6 := by simpa [Port.up] using up
  refine .unitRow (show _ = execSlotReceive p x s from rfl) has ?_
  dsimp only
  rw [known]
  dsimp only
  rw [if_neg (by simp [six]; omega), if_pos up]
  exact hP

theorem slotReceive_failed (bad : slotGood x = false) (role : s.dev.twin.role ≠ 5) : Completes (.slotReceive p x) s (fun e =>
    (e.port p).nacks = (s.dev.port p).nacks ++ [(v, (s.dev.port p).rxPos)] ∧ (e.port p).rxPos = (s.dev.port p).rxPos + 1
      ∧ (e.port p).rxFailedNow = (s.dev.port p).rxFailedNow + 1
      ∧ Sparse.get 0 (e.port p).counters 2 = Sparse.get 0 (s.dev.port p).counters 2 + 1) := by
  refine slotReceive_completes x has known up first inside ?_
  have failed := (s.dev.comesIn p).slotUp_failed p v (s.dev.port p).rxPos bad role
  rw [Device.port_comesIn] at failed
  exact failed

/-- A good slot that carries something is filed on the port as it was, with the position and the count moved on. -/
theorem slotReceive_files (good : slotGood x = true) (carries : 2 ≤ trKind x) (ledger : trRepair x = true
    ∨ ((s.dev.port p).rxNonEmptyNow ≤ trLedger x ∧ trLedger x ≤ (s.dev.port p).rxNonEmptyNow + (s.dev.port p).rxFailedNow))
    {P : Device → Prop} (hP : ∀ f : Device, f.offNotes = (s.dev.fillsIn p).offNotes →
      P ((f.fileSlot p v (s.dev.port p).rxPos x).withBeat s.dev.beat)) : Completes (.slotReceive p x) s P := by
  refine slotReceive_completes x has known up first inside ?_
  obtain ⟨e, notes, files⟩ := (s.dev.comesIn p).slotUp_files p v (s.dev.port p).rxPos good carries
    (by rw [Device.port_comesIn]; exact ledger)
  rw [files]
  exact hP (e.onPort p Port.fuller) (Device.offNotes_onPort_congr notes p (fun _ => rfl) (fun _ => rfl))

variable (good : slotGood x = true) (carries : 2 ≤ trKind x) (ledger : trRepair x = true
    ∨ ((s.dev.port p).rxNonEmptyNow ≤ trLedger x ∧ trLedger x ≤ (s.dev.port p).rxNonEmptyNow + (s.dev.port p).rxFailedNow))
include good carries ledger

theorem slotReceive_again (again : (nearest 16 (trSeq x) v, trSlot x) ∈ (s.dev.port p).rxGood) :
    Completes (.slotReceive p x) s (fun e => (e.port p).slip = (s.dev.port p).slip ∧ (e.port p).rxPos = (s.dev.port p).rxPos + 1
      ∧ (e.port p).rxNonEmptyNow = (s.dev.port p).rxNonEmptyNow + 1 ∧ e.fabric.openIn = s.dev.fabric.openIn
      ∧ Sparse.get 0 (e.port p).counters 7 = Sparse.get 0 (s.dev.port p).counters 7 + 1) := by
  refine slotReceive_files x has known up first inside good carries ledger (fun f notes => ?_)
  have line := (Device.port_of_offNotes notes p).trans (congrArg Port.noted (s.dev.port_fillsIn p))
  have seen : (f.port p).rxGood = (s.dev.port p).rxGood := (congrArg Port.rxGood line :)
  have count := (Device.dropped_of_offNotes notes p).trans (congrArg (fun q => Sparse.get 0 (Port.counters q) 7) (s.dev.port_fillsIn p))
  have kept : ((f.countPort p 7 1).port p).noted = (f.port p).noted := by
    rw [Device.port_countPort]
    unfold Port.counted
    split <;> rfl
  have openIn : (f.countPort p 7 1).fabric.openIn = f.fabric.openIn :=
    (congrArg (fun d : Device => d.fabric.openIn) (f.besidePorts_countPort p 7 1) :)
  rw [Device.fileSlot_again (by rw [seen]; exact again)]
  refine ⟨(congrArg Port.slip (kept.trans line) :), (congrArg Port.rxPos (kept.trans line) :), (congrArg Port.rxNonEmptyNow (kept.trans line) :),
    openIn.trans ((Device.openIn_of_offNotes notes).trans rfl), ?_⟩
  rw [Device.port_withBeat, Device.port_countPort, Port.get_counted, if_pos rfl, count]
  rfl

variable (fresh : (nearest 16 (trSeq x) v, trSlot x) ∉ (s.dev.port p).rxGood) (port : p < 32)
include fresh port

theorem slotReceive_local {b : Nat} (beat : nearest 32 (trBeat x) s.dev.beat.s = b) (kind : trKind x = 2) (soon : b ≤ s.dev.gate.e + 2)
    (entry : peKind (s.dev.rxEntry p b (trSlot x)) = 1) :
    Completes (.slotReceive p x) s (fun e => (e.port p).rxPos = (s.dev.port p).rxPos + 1
      ∧ (nearest 16 (trSeq x) v, trSlot x) ∈ (e.port p).rxGood ∧ (e.port p).slip = (s.dev.port p).slip ++ [(b, trSlot x)]
      ∧ (e.stageRead (slipAt p b (trSlot x)) 480).1 = markedBytes (trPoison x) (slotPayload x)) := by
  refine slotReceive_files x has known up first inside good carries ledger (fun f notes => ?_)
  have line := (Device.port_of_offNotes notes p).trans (congrArg Port.noted (s.dev.port_fillsIn p))
  have seen : (f.port p).rxGood = (s.dev.port p).rxGood := (congrArg Port.rxGood line :)
  have pos : (f.port p).rxPos = (s.dev.port p).rxPos + 1 := (congrArg Port.rxPos line :)
  have slip : (f.port p).slip = (s.dev.port p).slip := (congrArg Port.slip line :)
  have planned : (s.dev.fillsIn p).rxEntry p b (trSlot x) = s.dev.rxEntry p b (trSlot x) := by
    unfold Device.rxEntry
    rw [Device.port_fillsIn]
    rfl
  have filed := Device.fileSlot_local (k := (s.dev.port p).rxPos) (d := f) (by rw [seen]; exact fresh) port (b := b)
    (by rw [Device.beat_of_offNotes notes]; exact beat) kind (by rw [Device.gate_of_offNotes notes]; exact soon)
    (by rw [Device.rxEntry_of_offNotes notes, planned]; exact entry)
  rw [pos, slip] at filed
  exact filed

theorem slotReceive_open {y : Packet}
    (isOpen : openOf p (nearest 16 (trSeq x) v) (trSlot x) (nearest 32 (trBeat x) s.dev.beat.s) x = y)
    (kind : trKind x = 3) (own : rzDev y.dest = s.dev.devNum) (row : y.op < 8 ∧ y.op ≠ 6) (none_ : (s.dev.port p).openHeld = []) {waits : Bool}
    (gap : ({ s.dev.port p with rxGood := (nearest 16 (trSeq x) v, trSlot x) :: (s.dev.port p).rxGood } : Port).gapBefore
      (nearest 16 (trSeq x) v) (trSlot x) = waits) :
    Completes (.slotReceive p x) s (fun e => (e.port p).rxPos = (s.dev.port p).rxPos + 1
      ∧ (nearest 16 (trSeq x) v, trSlot x) ∈ (e.port p).rxGood
      ∧ (waits = true → (e.port p).openHeld = [y] ∧ e.fabric.openIn = s.dev.fabric.openIn
          ∧ e.fabric.deferred = s.dev.fabric.deferred)
      ∧ (waits = false → s.dev.inPair = false → e.fabric.openIn = s.dev.fabric.openIn ++ [y])
      ∧ (waits = false → s.dev.inPair = true →
          ∃ z, e.fabric.deferred = s.dev.fabric.deferred ++ [z] ∧ (e.takeDeferred z).1 = y)) := by
  refine slotReceive_files x has known up first inside good carries ledger (fun f notes => ?_)
  have line := (Device.port_of_offNotes notes p).trans (congrArg Port.noted (s.dev.port_fillsIn p))
  have seen : (f.port p).rxGood = (s.dev.port p).rxGood := (congrArg Port.rxGood line :)
  have pos : (f.port p).rxPos = (s.dev.port p).rxPos + 1 := (congrArg Port.rxPos line :)
  have held : (f.port p).openHeld = (s.dev.port p).openHeld := (congrArg Port.openHeld line :)
  have point : ({ f.port p with rxGood := (nearest 16 (trSeq x) v, trSlot x) :: (f.port p).rxGood } : Port).gapBefore
      (nearest 16 (trSeq x) v) (trSlot x) = waits :=
    (congrArg (fun q : Port => ({ q with rxGood := (nearest 16 (trSeq x) v, trSlot x) :: q.rxGood } : Port).gapBefore
      (nearest 16 (trSeq x) v) (trSlot x)) line :).trans gap
  have num : f.devNum = s.dev.devNum := (Device.devNum_of_offNotes notes).trans rfl
  obtain ⟨at_, noted, wait, solo, pair⟩ := Device.fileSlot_open (k := (s.dev.port p).rxPos) (d := f) (by rw [seen]; exact fresh) port (y := y)
    (by rw [Device.beat_of_offNotes notes]; exact isOpen) kind (own.trans num.symm) row (held.trans none_) point
  have openIn : f.fabric.openIn = s.dev.fabric.openIn := (Device.openIn_of_offNotes notes).trans rfl
  have deferred : f.fabric.deferred = s.dev.fabric.deferred := (Device.deferred_of_offNotes notes).trans rfl
  have paired : f.inPair = s.dev.inPair := (Device.inPair_of_offNotes notes).trans rfl
  rw [openIn] at wait solo
  rw [deferred] at wait pair
  refine ⟨at_.trans pos, noted, wait, fun go alone => solo go (paired.trans alone), fun go both => ?_⟩
  obtain ⟨z, last, out⟩ := pair go (paired.trans both)
  exact ⟨z, last, out _ rfl⟩

end

end Sys2Proof.Machine

/-! PROOFS about LEDGER_BREAK and LEDGER_CHECK (R340): a port whose book does not close goes down, and the tasks that use it fault. -/

namespace Sys2Proof.Machine

set_option Elab.async false

open Sys2Proof

/-- A fault of the link class leaves all older records in the log (R521, R545). -/
theorem Device.keepsRecords_linkFault (d : Device) (t cause unitKind unit sc dHi dLo : Nat) :
    d.keepsRecords 1 (d.fault t 0x0301 cause unitKind unit sc dHi dLo) := by
  have same : ∃ r : HealthRec, (d.fault t 0x0301 cause unitKind unit sc dHi dLo).hub = (d.log r).hub := by
    unfold Device.fault
    extract_lets k sec pair src r e f
    have logged : e.hub = (d.log r).hub := rfl
    have stopped : f.hub = e.hub := (e.stopTask_frame t).2.2.2.1
    clear_value e f
    refine ⟨r, ?_⟩
    split
    · exact logged
    · split
      · exact stopped.trans logged
      · rw [if_neg (by simp [classOf])]
        exact stopped.trans logged
  obtain ⟨r, hub⟩ := same
  exact Device.keepsRecords_trans (k := 0) (d.keepsRecords_log r) (Device.keepsRecords_of_hub hub 0)

/-- The faults of the tasks whose plan uses a port. -/
theorem Device.faultUsers (l : List Nat) (d : Device) (p v : Nat) :
    let e := l.foldl (fun d t => if d.planUses t p then d.fault t 0x0301 0 2 p 0 v 0 else d) d
    (∀ t ∈ l, d.planUses t p = true → (d.task t).state ≠ 5 → (e.task t).stopping = true) ∧ e.steady = d.steady
      ∧ d.keepsRecords l.length e := by
  have plan {a b : Device} (t : Nat) (h : (a.task t).plan = (b.task t).plan) : a.planUses t p = b.planUses t p := by
    unfold Device.planUses
    rw [h]
  have ruled (e : Device) (t x : Nat) : let f := if e.planUses t p then e.fault t 0x0301 0 2 p 0 v 0 else e
      (f.task x).plan = (e.task x).plan ∧ (f.task x).state = (e.task x).state := by
    obtain ⟨own, other⟩ := e.task_fault t 0x0301 0 2 p 0 v 0
    dsimp only
    split
    · by_cases at_ : x = t
      · rw [at_, own]; split <;> exact ⟨rfl, rfl⟩
      · rw [other x at_]; exact ⟨rfl, rfl⟩
    · exact ⟨rfl, rfl⟩
  have quiet (d : Device) (t : Nat) : (if d.planUses t p then d.fault t 0x0301 0 2 p 0 v 0 else d).steady = d.steady := by
    split
    · exact d.steady_fault t 0x0301 0 2 p 0 v 0
    · rfl
  refine ⟨?_, foldl_keeps Device.steady _ quiet l d, ?_⟩
  · refine (foldl_establishes (I := fun e => ∀ t, (e.task t).plan = (d.task t).plan ∧ (e.task t).state = (d.task t).state)
      (P := fun t (e : Device) => d.planUses t p = true → (d.task t).state ≠ 5 → (e.task t).stopping = true)
      (fun e t _ same x => ?_) (fun e t _ same uses alive => ?_) (fun e t _ x same was uses alive => ?_) (fun _ => ⟨rfl, rfl⟩)).2
    · exact ⟨(ruled e t x).1.trans (same x).1, (ruled e t x).2.trans (same x).2⟩
    · rw [if_pos ((plan t (same t).1).trans uses)]
      exact e.stopping_fault t 0x0301 0 2 p 0 v 0 (by rwa [(same t).2])
    · split
      · obtain ⟨own, other⟩ := e.task_fault t 0x0301 0 2 p 0 v 0
        by_cases at_ : x = t
        · subst at_
          exact e.stopping_fault x 0x0301 0 2 p 0 v 0 (by rwa [(same x).2])
        · rw [other x at_]
          exact was uses alive
      · exact was uses alive
  · have records := Device.keepsRecords_foldl (k := 1) (g := fun (d : Device) t => if d.planUses t p then d.fault t 0x0301 0 2 p 0 v 0 else d)
      (fun _ => True) (fun e t _ => ⟨trivial, by
        split
        · exact e.keepsRecords_linkFault t 0 2 p 0 v 0
        · exact Device.keepsRecords_of_hub rfl 1⟩) l (d := d) trivial
    rwa [Nat.mul_one] at records

/-- A port goes down with the record of LEDGER_BREAK, before any task is told. -/
def Device.cutPort (d : Device) (p v : Nat) : Device :=
  ((if (d.port p).step = 0 then d else d.deliverHeld p).linkRecord 0x0301 p v).portGone p

theorem Device.cutPort_frame (d : Device) (p v : Nat) : (d.cutPort p v).tasks = d.tasks ∧ ((d.cutPort p v).port p).step = 0
    ∧ ∃ r ∈ (d.cutPort p v).hub.health.take 2, r.code = 0x0301 ∧ r.unitKind = 2 ∧ r.unit = p ∧ r.dHi = v := by
  unfold Device.cutPort
  have given : (if (d.port p).step = 0 then d else d.deliverHeld p).tasks = d.tasks := by
    split
    · rfl
    · exact Device.tasks_of_offOpen (d.offOpen_deliverHeld p)
  generalize (if (d.port p).step = 0 then d else d.deliverHeld p) = a at given
  obtain ⟨r, first, fields⟩ : ∃ r, (a.linkRecord 0x0301 p v).hub.health.take 1 = [r]
      ∧ (r.code = 0x0301 ∧ r.unitKind = 2 ∧ r.unit = p ∧ r.dHi = v) :=
    ⟨_, (congrArg (fun e : Device => e.hub.health.take 1) (Device.log_eq ..)).trans rfl, rfl, rfl, rfl, rfl⟩
  have logged : (a.linkRecord 0x0301 p v).tasks = a.tasks := by
    unfold Device.linkRecord
    rw [Device.log_eq]
    rfl
  generalize a.linkRecord 0x0301 p v = b at first logged
  obtain ⟨tasks, down, -, kept⟩ := b.portGone_frame p
  refine ⟨tasks.trans (logged.trans given), down, r, kept r 1 (by decide) ?_, fields⟩
  rw [first]
  exact List.mem_cons_self

theorem Device.ledgerBreak_eq (d : Device) (p v : Nat) : d.ledgerBreak p v
    = ((d.cutPort p v).onPort p (fun q => { q with ledgerNext := none })).boundSlots.foldl
        (fun d t => if d.planUses t p then d.fault t 0x0301 0 2 p 0 v 0 else d)
        ((d.cutPort p v).onPort p (fun q => { q with ledgerNext := none })) := rfl

theorem Device.ledgerBreak_spec (d : Device) (p v : Nat) : let e := d.ledgerBreak p v
    (e.port p).step = 0 ∧ (e.port p).ledgerNext = none
      ∧ (∃ r ∈ e.hub.health, r.code = 0x0301 ∧ r.unitKind = 2 ∧ r.unit = p ∧ r.dHi = v)
      ∧ (∀ t ∈ d.boundSlots, d.planUses t p = true → (d.task t).state ≠ 5 → (e.task t).stopping = true) := by
  obtain ⟨tasks, down, r, kept, fields⟩ := d.cutPort_frame p v
  have port : ((d.cutPort p v).onPort p (fun q => { q with ledgerNext := none })).port p
      = { (d.cutPort p v).port p with ledgerNext := none } := Device.port_onPort_same ..
  replace tasks := ((d.cutPort p v).onPort_tasks p (fun q => { q with ledgerNext := none })).trans tasks
  rw [← (d.cutPort p v).onPort_hub p (fun q => { q with ledgerNext := none })] at kept
  rw [Device.ledgerBreak_eq]
  generalize (d.cutPort p v).onPort p _ = c at port tasks kept
  obtain ⟨stops, steady, records⟩ := Device.faultUsers c.boundSlots c p v
  have task (t : Nat) : c.task t = d.task t := Device.task_of_tasks tasks t
  have few := c.length_boundSlots
  dsimp only at stops steady records ⊢
  generalize c.boundSlots.foldl _ c = e at stops steady records
  have line := Device.port_of_fabric (Device.fabric_of_steady steady) p
  have listed : r ∈ e.hub.health := Device.mem_of_keepsRecords records (by omega) kept
  have step : (c.port p).step = 0 := (congrArg Port.step port).trans down
  have next : (c.port p).ledgerNext = none := congrArg Port.ledgerNext port
  have told (t : Nat) (bound : t ∈ d.boundSlots) (uses : d.planUses t p = true) (alive : (d.task t).state ≠ 5) :
      (e.task t).stopping = true := by
    have same : c.planUses t p = d.planUses t p := by unfold Device.planUses; rw [task]
    exact stops t (by rwa [Device.boundSlots_congr tasks]) (same.trans uses) (by rwa [task])
  exact ⟨(congrArg Port.step line).trans step, (congrArg Port.ledgerNext line).trans next, ⟨r, listed, fields⟩, told⟩

/-! ### LEDGER_CHECK -/

theorem Device.bookDue {d : Device} {p v : Nat} (aligned : d.beat.aligned = true) (over_ : v + 3 ≤ d.beat.w)
    (runs : (d.port p).up = false ∨ (d.port p).rxState ≠ 0) :
    ¬ ((!d.beat.aligned || d.beat.w < v + 3 || ((d.port p).up && (d.port p).rxState = 0)) = true) := by
  rcases runs with down | started
  · simp [aligned, down]; omega
  · simp [aligned, started]; omega

section
variable {s : State} {p : Nat} (has : s.dev.hasPort p = true)
include has

theorem ledgerCheck_none (none_ : (s.dev.port p).ledgerNext = none) : Becomes (.ledgerCheck p) s s.dev := by
  refine .onUnit (show _ = execLedgerCheck p s from rfl) has ?_
  rw [none_]

variable {v : Nat} (next : (s.dev.port p).ledgerNext = some v)
include next

theorem ledgerCheck_waits (early : s.dev.beat.aligned = false ∨ s.dev.beat.w < v + 3
    ∨ ((s.dev.port p).up = true ∧ (s.dev.port p).rxState = 0)) : Becomes (.ledgerCheck p) s s.dev := by
  refine .onUnit (show _ = execLedgerCheck p s from rfl) has ?_
  rw [next]
  refine if_pos ?_
  rcases early with unaligned | early | ⟨up, aligning⟩
  · simp [unaligned]
  · simp [early]
  · simp [up, aligning]

variable (aligned : s.dev.beat.aligned = true) (over_ : v + 3 ≤ s.dev.beat.w)
  (runs : (s.dev.port p).up = false ∨ (s.dev.port p).rxState ≠ 0)
include aligned over_ runs

theorem ledgerCheck_closes (closes : (s.dev.port p).closes v = true) : Completes (.ledgerCheck p) s (fun e =>
    s.dev.onlyPort e p { s.dev.port p with ledgerNext := some (v + 1) }) := by
  refine .unitRow (show _ = execLedgerCheck p s from rfl) has ?_
  rw [next]
  dsimp only
  rw [if_neg (Device.bookDue aligned over_ runs), if_pos closes]
  refine ⟨?_, fun x other => ?_, rfl⟩
  · rw [Device.port_withBeat, Device.port_onPort_same]
  · rw [Device.port_withBeat, Device.port_onPort_other _ _ _ _ other]

theorem ledgerCheck_breaks (open_ : (s.dev.port p).closes v = false) : Completes (.ledgerCheck p) s (fun e =>
    (e.port p).step = 0 ∧ (e.port p).ledgerNext = none
      ∧ (∃ r ∈ e.hub.health, r.code = 0x0301 ∧ r.unitKind = 2 ∧ r.unit = p ∧ r.dHi = v)
      ∧ (∀ t ∈ s.dev.boundSlots, s.dev.planUses t p = true → (s.dev.task t).state ≠ 5 → (e.task t).stopping = true)) := by
  refine .unitRow (show _ = execLedgerCheck p s from rfl) has ?_
  rw [next]
  dsimp only
  rw [if_neg (Device.bookDue aligned over_ runs), if_neg (by simp [open_])]
  have broken := s.dev.ledgerBreak_spec p v
  generalize s.dev.ledgerBreak p v = e at broken
  exact broken

end

end Sys2Proof.Machine

/-! PROOFS about CONTROL_SLOT_RECEIVE (R36, R325, R326, R338): what a control slot tells of its sender. -/

namespace Sys2Proof.Machine

set_option Elab.async false

open Sys2Proof

/-- What a port shows of the control slots that have come: counts, position, and the numbers of the neighbour. -/
def Port.told (q : Port) : Nat × Nat × Nat × Option Nat × Nat × Nat × Int × List Nat × Nat :=
  (q.goodCtl, q.badCtl, q.rxPos, q.nbrW, q.rxHops, q.rxState, q.stamp, q.ctlSeen, q.step)

theorem Port.told_of_noted {a b : Port} (h : a.noted = b.noted) : a.told = b.told := (congrArg Port.told h :)

theorem Port.told_of_received {a b : Port} (h : a.received = b.received) : a.told = b.told := (congrArg Port.told h :)

/-- The device goes on from a control slot with what it has told of port `p`, and with its own beat and holds. -/
def Device.hears (d e : Device) (p : Nat) (q : Port) : Prop :=
  (e.port p).told = q.told ∧ e.beat = d.beat ∧ ∀ v, e.holdWas v = d.holdWas v

theorem Device.hears_trans {a b c : Device} {p : Nat} {q : Port} (h : a.hears b p q) (g : b.hears c p (b.port p)) : a.hears c p q := by
  obtain ⟨told, beat, held⟩ := h
  obtain ⟨told', beat', held'⟩ := g
  exact ⟨told'.trans told, beat'.trans beat, fun v => (held' v).trans (held v)⟩

theorem Device.hears_of_offNotes {d e : Device} (h : e.offNotes = d.offNotes) (p : Nat) : d.hears e p (d.port p) := by
  refine ⟨Port.told_of_noted (Device.port_of_offNotes h p), Device.beat_of_offNotes h, fun v => ?_⟩
  exact (congrArg (fun x : Device × (Nat → Port) × (Nat → BitVec 64) => x.1.holdWas v) h :)

theorem Device.hears_of_offOpen {d e : Device} (h : e.offOpen = d.offOpen) (p : Nat) : d.hears e p (d.port p) := by
  refine ⟨Port.told_of_received (Device.port_of_offOpen h p), Device.beat_of_offOpen h, fun v => ?_⟩
  exact (congrArg (fun x : Device × (Nat → Port) => x.1.holdWas v) h :)

theorem Device.hears_refl (d : Device) (p : Nat) : d.hears d p (d.port p) := ⟨rfl, rfl, fun _ => rfl⟩

theorem Device.hears_ite {P : Prop} [Decidable P] {d a b : Device} {p : Nat} {q : Port} (ha : d.hears a p q) (hb : d.hears b p q) :
    d.hears (if P then a else b) p q := by
  split
  · exact ha
  · exact hb

theorem Device.holdWas_congr {d e : Device} (beat : e.beat = d.beat) (hold : e.hold = d.hold) (v : Nat) : e.holdWas v = d.holdWas v := by
  unfold Device.holdWas
  rw [beat, hold]

theorem Port.told_seen {a b : Port} (h : a.told = b.told) (w : Nat) :
    ({ a with ctlSeen := insertNew w a.ctlSeen } : Port).told = ({ b with ctlSeen := insertNew w b.ctlSeen } : Port).told := by
  simp only [Port.told, Prod.mk.injEq] at h ⊢
  simp [h]

/-! ### The fields of a good control slot -/

section
variable {d : Device} {p : Nat} {x : List (BitVec 8)} {stamp : Int}

theorem Device.port_ctlDrone (d : Device) (p : Nat) (x : List (BitVec 8)) (stamp : Int) : ((d.ctlDrone p x stamp).port p).told
    = ({ d.port p with rxHops := ctlHops x, rxState := ctlState x, stamp := stamp } : Port).told
    ∧ (d.ctlDrone p x stamp).beat = d.beat ∧ (d.ctlDrone p x stamp).hold = d.hold := by
  unfold Device.ctlDrone
  extract_lets q valid paired a b r y z
  have line : a.fabric = d.fabric ∧ a.beat = d.beat ∧ a.hold = d.hold := by
    unfold a
    split <;> exact ⟨rfl, rfl, rfl⟩
  obtain ⟨fabric, beat, hold⟩ := line
  have port : b.port p = _ := Device.port_onPort_same a p _
  have same := Device.port_of_fabric fabric p
  clear_value r y z
  refine ⟨(congrArg Port.told port).trans ?_, beat, hold⟩
  rw [same]
  rfl

/-- A good control slot on a port that has framing: what the port shows then, before its hold bit is compared. -/
theorem Device.ctlReceive_good (framed : 2 ≤ (d.port p).step) (good : ctlGood x = true) : ∃ e : Device,
    d.ctlReceive p x stamp = (if (d.port p).up && e.beat.aligned && ctlState x != 0 then e.holdSeen p (ctlW x) (ctlHold x) else e)
    ∧ d.hears e p { d.port p with
        badCtl := 0, goodCtl := (d.port p).goodCtl + 1, nbrW := some (ctlW x), rxPos := 1, rxHops := ctlHops x, rxState := ctlState x
        stamp := stamp, ctlSeen := insertNew (ctlW x) (d.port p).ctlSeen } := by
  unfold Device.ctlReceive
  extract_lets q v failed was a b c e f g h i
  have counted : a.port p = { (d.port p).counted 1 1 with
      badCtl := 0, goodCtl := ((d.port p).counted 1 1).goodCtl + 1, nbrW := some (ctlW x), rxPos := 1, rxNonEmptyNow := 0, rxFailedNow := 0 } :=
    (Device.port_onPort_same _ p _).trans (by rw [Device.port_countPort])
  have beside : a.besidePorts = d.besidePorts := d.besidePorts_countPort p 1 1
  have uncounted := (d.port p).uncounted_counted 1 1
  clear_value a
  obtain ⟨toldB, beatB, holdB⟩ : (b.port p).told
      = ({ a.port p with rxHops := ctlHops x, rxState := ctlState x, stamp := stamp } : Port).told ∧ b.beat = a.beat ∧ b.hold = a.hold :=
    a.port_ctlDrone p x stamp
  clear_value b
  have fabric : c.fabric = b.fabric ∧ c.beat = b.beat ∧ c.hold = b.hold := by
    unfold c
    split <;> exact ⟨rfl, rfl, rfl⟩
  clear_value c
  obtain ⟨fabricC, beatC, holdC⟩ := fabric
  have first : d.hears e p { d.port p with
      badCtl := 0, goodCtl := (d.port p).goodCtl + 1, nbrW := some (ctlW x), rxPos := 1, rxHops := ctlHops x, rxState := ctlState x
      stamp := stamp, ctlSeen := insertNew (ctlW x) (d.port p).ctlSeen } := by
    refine ⟨?_, (beatC.trans beatB).trans (congrArg Device.beat beside :), Device.holdWas_congr
      ((beatC.trans beatB).trans (congrArg Device.beat beside :)) ((holdC.trans holdB).trans (congrArg Device.hold beside :))⟩
    have line : c.port p = b.port p := Device.port_of_fabric fabricC p
    have port : (e.port p).told = ({ b.port p with ctlSeen := insertNew (ctlW x) (b.port p).ctlSeen } : Port).told := by
      refine (congrArg Port.told (Device.port_onPort_same c p _)).trans ?_
      rw [line]
      rfl
    rw [port, Port.told_seen toldB, counted]
    exact (congrArg (fun q : Port => ({ q with
      badCtl := 0, goodCtl := q.goodCtl + 1, nbrW := some (ctlW x), rxPos := 1, rxHops := ctlHops x, rxState := ctlState x
      stamp := stamp, ctlSeen := insertNew (ctlW x) q.ctlSeen } : Port).told) uncounted :)
  clear_value e
  have second : e.hears f p (e.port p) := Device.hears_ite (Device.hears_of_offNotes (e.offNotes_takeNack ..) p) (e.hears_refl p)
  have third : f.hears g p (f.port p) := Device.hears_of_offNotes (f.offNotes_seeVotes p x) p
  have fourth : g.hears h p (g.port p) := Device.hears_ite (Device.hears_of_offNotes (g.offNotes_seeVote ..) p) (g.hears_refl p)
  have fifth : h.hears i p (h.port p) := Device.hears_ite (Device.hears_of_offOpen (h.offOpen_releaseOpen ..) p) (h.hears_refl p)
  clear_value f g h i
  refine ⟨i, ?_, Device.hears_trans (Device.hears_trans (Device.hears_trans (Device.hears_trans first second) third) fourth) fifth⟩
  rw [if_neg (fun down : (d.port p).step = 0 => by omega), if_neg (by simp [good]), if_neg (fun framing : (d.port p).step = 1 => by omega)]

end

/-! ### The hold bit (R326) -/

theorem Device.holdSeen_agrees {d : Device} {v : Nat} {hold : Bool} (agrees : v = d.beat.w + 1 ∨ (d.holdWas v).getD hold = hold) (p : Nat) :
    ((d.holdSeen p v hold).port p).told = (d.port p).told := by
  unfold Device.holdSeen
  split
  · rw [Device.port_onPort_same]
    rfl
  · next past =>
    rw [if_neg]
    simpa using agrees.resolve_left past

theorem Device.holdSeen_differs {d : Device} {v : Nat} {hold : Bool} (past : v ≠ d.beat.w + 1) (differs : d.holdWas v = some (!hold)) (p : Nat) :
    d.holdSeen p v hold = d.ledgerBreak p v := by
  unfold Device.holdSeen
  rw [if_neg past, differs, if_pos (by simp)]

/-! ### The row -/

section
variable {s : State} {p : Nat} (x : List (BitVec 8)) (stamp : Int) (has : s.dev.hasPort p = true) (aligned : s.dev.beat.aligned = true)
include has aligned

theorem exec_controlSlotReceive : exec (.controlSlotReceive p x stamp) s = lift (fun d => d.ctlReceive p x stamp) s := by
  show execControlSlotReceive p x stamp s = _
  unfold execControlSlotReceive
  rw [if_neg (by simp [has]), if_neg (by simp [Device.alignsNow, aligned])]

theorem controlSlotReceive_down (down : (s.dev.port p).step = 0) : Becomes (.controlSlotReceive p x stamp) s s.dev :=
  .lift (exec_controlSlotReceive x stamp has aligned) (if_pos down)

theorem controlSlotReceive_bad (on : (s.dev.port p).step ≠ 0) (bad : ctlGood x = false) :
    Completes (.controlSlotReceive p x stamp) s (fun e =>
      (e.port p).badCtl = (if slotGood x then 0 else (s.dev.port p).badCtl + 1) ∧ (e.port p).goodCtl = 0 ∧ (e.port p).rxPos = 1
        ∧ (e.port p).nbrW = (s.dev.port p).nbrW.map (· + 1) ∧ e.drone = s.dev.drone) := by
  refine .row (exec_controlSlotReceive x stamp has aligned) ?_
  unfold Device.ctlReceive
  dsimp only
  rw [if_neg on, if_pos (by simp [bad])]
  have rest := s.dev.besidePorts_countPort p (if (!slotGood x) = true then 2 else 1) 1
  have port := s.dev.port_countPort p (if (!slotGood x) = true then 2 else 1) 1
  have same := (s.dev.port p).uncounted_counted (if (!slotGood x) = true then 2 else 1) 1
  generalize s.dev.countPort p _ 1 = e at rest port
  rw [← port] at same
  have count : (e.port p).badCtl = (s.dev.port p).badCtl := (congrArg Port.badCtl same :)
  rw [Device.port_withBeat, Device.port_onPort_same]
  refine ⟨?_, rfl, rfl, rfl, (congrArg Device.drone rest :)⟩
  cases slotGood x with
  | true => rfl
  | false => exact congrArg (· + 1) count

theorem controlSlotReceive_framing (framing : (s.dev.port p).step = 1) (good : ctlGood x = true) :
    Completes (.controlSlotReceive p x stamp) s (fun e => (e.port p).badCtl = 0 ∧ (e.port p).goodCtl = (s.dev.port p).goodCtl + 1
      ∧ (e.port p).rxPos = 1 ∧ (e.port p).nbrW = some (ctlW x) ∧ e.drone = s.dev.drone) := by
  refine .row (exec_controlSlotReceive x stamp has aligned) ?_
  unfold Device.ctlReceive
  dsimp only
  rw [if_neg (by omega), if_neg (by simp [good]), if_pos framing]
  have rest := s.dev.besidePorts_countPort p 1 1
  have same := (s.dev.port p).uncounted_counted 1 1
  rw [← s.dev.port_countPort p 1 1] at same
  generalize s.dev.countPort p 1 1 = e at rest same
  have count : (e.port p).goodCtl = (s.dev.port p).goodCtl := (congrArg Port.goodCtl same :)
  rw [Device.port_withBeat, Device.port_onPort_same]
  exact ⟨rfl, congrArg (· + 1) count, rfl, rfl, (congrArg Device.drone rest :)⟩

theorem controlSlotReceive_tells (framed : 2 ≤ (s.dev.port p).step) (good : ctlGood x = true)
    (agrees : (s.dev.port p).up = false ∨ ctlState x = 0 ∨ ctlW x = s.dev.beat.w + 1
      ∨ (s.dev.holdWas (ctlW x)).getD (ctlHold x) = ctlHold x) :
    Completes (.controlSlotReceive p x stamp) s (fun e =>
      (e.port p).goodCtl = (s.dev.port p).goodCtl + 1 ∧ (e.port p).badCtl = 0 ∧ (e.port p).rxPos = 1
        ∧ (e.port p).nbrW = some (ctlW x) ∧ (e.port p).rxHops = ctlHops x ∧ (e.port p).rxState = ctlState x
        ∧ (e.port p).stamp = stamp ∧ ctlW x ∈ (e.port p).ctlSeen) := by
  obtain ⟨e, received, told, beat, held⟩ := Device.ctlReceive_good (stamp := stamp) framed good
  refine .row (exec_controlSlotReceive x stamp has aligned) ?_
  have shown : ((s.dev.ctlReceive p x stamp).port p).told = (e.port p).told := by
    rw [received]
    split
    · next compared =>
      refine Device.holdSeen_agrees ?_ p
      rw [held, beat]
      simp only [Bool.and_eq_true, bne_iff_ne] at compared
      obtain ⟨⟨up, -⟩, state⟩ := compared
      rcases agrees with down | none_ | agrees
      · exact absurd (up.symm.trans down) (by decide)
      · exact absurd none_ state
      · exact agrees
    · rfl
  have all := shown.trans told
  generalize s.dev.ctlReceive p x stamp = f at all
  simp only [Port.told, Prod.mk.injEq] at all
  obtain ⟨goodCtl, badCtl, rxPos, nbrW, rxHops, rxState, stamped, ctlSeen, -⟩ := all
  rw [Device.port_withBeat]
  refine ⟨goodCtl, badCtl, rxPos, nbrW, rxHops, rxState, stamped, ?_⟩
  rw [ctlSeen]
  exact List.contains_iff_mem.1 (mem_insertNew _ _)

theorem controlSlotReceive_breaks (up : (s.dev.port p).up = true) (good : ctlGood x = true) (state : ctlState x ≠ 0)
    (past : ctlW x ≠ s.dev.beat.w + 1) (differs : s.dev.holdWas (ctlW x) = some (!ctlHold x)) :
    Completes (.controlSlotReceive p x stamp) s (fun e => (e.port p).step = 0
      ∧ ∃ r ∈ e.hub.health, r.code = 0x0301 ∧ r.unitKind = 2 ∧ r.unit = p ∧ r.dHi = ctlW x) := by
  have six : (s.dev.port p).step = 6 := by simpa [Port.up] using up
  obtain ⟨e, received, told, beat, held⟩ := Device.ctlReceive_good (stamp := stamp) (d := s.dev) (p := p) (by omega) good
  refine .row (exec_controlSlotReceive x stamp has aligned) ?_
  rw [received, if_pos (by simp [up, beat, aligned, state]), Device.holdSeen_differs (by rw [beat]; exact past) (by rw [held]; exact differs)]
  obtain ⟨step, -, record, -⟩ := e.ledgerBreak_spec p (ctlW x)
  generalize e.ledgerBreak p (ctlW x) = f at step record
  exact ⟨step, record⟩

end

end Sys2Proof.Machine

/-! PROOFS about SLIP_WRITE (R331, R559), and the statement on slots that come in. -/

namespace Sys2Proof.Machine

set_option Elab.async false

open Sys2Proof

theorem Packet.marked_fst (y : Packet) : y.marked.map (·.1) = y.data := by
  unfold Packet.marked
  rw [List.map_map]
  refine List.ext_getElem (by simp) (fun i _ h => ?_)
  simp [nth, h]

/-! ### A held slot leaves -/

/-- A held slot leaves the slip buffer of its port. -/
def Device.slipGone (d : Device) (p : Nat) (x : Nat × Nat) : Device := d.onPort p (fun q => { q with slip := q.slip.erase x })

theorem Device.port_slipGone (d : Device) (p : Nat) (x : Nat × Nat) :
    (d.slipGone p x).port p = { d.port p with slip := (d.port p).slip.erase x } := Device.port_onPort_same ..

/-- Its bytes are read from staging, which keeps them. -/
theorem Device.slipRead_frame (d : Device) (p : Nat) (x : Nat × Nat) (a : Nat) :
    let r := (d.slipGone p x).stageRead a 480
    r.1 = (d.stageRead a 480).1 ∧ r.2.fabric = (d.slipGone p x).fabric ∧ r.2.staging.bytes = d.staging.bytes ∧ r.2.dram = d.dram
      ∧ r.2.cores = d.cores := by
  have read := (d.slipGone p x).besideBooks_stageRead a 480
  exact ⟨rfl, (Device.fabric_of_besideBooks read).trans rfl, (congrArg Mem.bytes (Device.staging_of_besideBooks read)).trans rfl,
    (Device.dram_of_besideBooks read).trans rfl, (Device.cores_of_besideBooks read).trans rfl⟩

theorem Device.slipStage_frame (d : Device) (p : Nat) (x : Nat × Nat) (a b : Nat) :
    let r := (d.slipGone p x).stageRead a 480
    let e := r.2.stageWrite b r.1
    (e.port p).slip = (d.port p).slip.erase x
      ∧ e.staging.bytes = Sparse.setMany 0 d.staging.bytes b ((d.stageRead a 480).1.map (·.1)) ∧ e.dram = d.dram ∧ e.cores = d.cores := by
  obtain ⟨bytes, fabric, staging, dram, cores⟩ := d.slipRead_frame p x a
  dsimp only at bytes fabric staging dram cores ⊢
  generalize (d.slipGone p x).stageRead a 480 = r at bytes fabric staging dram cores
  have wrote := r.2.besideBooks_stageWrite b r.1
  have port := Device.port_of_fabric ((Device.fabric_of_besideBooks wrote).trans fabric) p
  refine ⟨congrArg Port.slip (port.trans (d.port_slipGone p x)), ?_, (Device.dram_of_besideBooks wrote).trans dram,
    (Device.cores_of_besideBooks wrote).trans cores⟩
  rw [Device.staging_of_besideBooks wrote]
  show (r.2.staging.write 8 b r.1).mem.bytes = _
  rw [Mem.write_bytes, staging, bytes]

theorem Device.postSlip_frame (d : Device) (c p k e : Nat) (data : List (BitVec 8 × Bool)) :
    let f := d.postSlip c p k e data
    f.fabric = d.fabric ∧ f.staging = d.staging ∧ f.dram = d.dram
      ∧ ∃ r, (f.core c).reqs = (d.core c).reqs ++ [r] ∧ r.write = true ∧ r.addr = peAddr e ∧ r.len = data.length
        ∧ r.slip = some (p, k, if peKeyEn e then some (peKey e) else none) ∧ r.pk.marked.map (·.1) = data.map (·.1) := by
  unfold Device.postSlip Device.postReq
  dsimp only
  refine ⟨rfl, rfl, rfl, ?_⟩
  rw [Device.core_onCore_same]
  exact ⟨_, rfl, rfl, rfl, rfl, rfl, Packet.marked_fst _⟩

theorem Device.slipPost_frame (d : Device) (c p : Nat) (x : Nat × Nat) (a e : Nat) :
    let r := (d.slipGone p x).stageRead a 480
    let f := r.2.postSlip c p x.2 e r.1
    (f.port p).slip = (d.port p).slip.erase x ∧ f.staging.bytes = d.staging.bytes ∧ f.dram = d.dram
      ∧ ∃ r, (f.core c).reqs = (d.core c).reqs ++ [r] ∧ r.write = true ∧ r.addr = peAddr e ∧ r.len = 480
        ∧ r.slip = some (p, x.2, if peKeyEn e then some (peKey e) else none)
        ∧ r.pk.marked.map (·.1) = (d.stageRead a 480).1.map (·.1) := by
  obtain ⟨bytes, fabric, staging, dram, cores⟩ := d.slipRead_frame p x a
  have long : ((d.slipGone p x).stageRead a 480).1.length = 480 := (List.length_map _).trans List.length_range
  dsimp only at bytes fabric staging dram cores ⊢
  generalize (d.slipGone p x).stageRead a 480 = r at bytes fabric staging dram cores long
  have core : r.2.core c = d.core c := by
    unfold Device.core
    rw [cores]
  obtain ⟨fabricF, stage, dramF, posted⟩ := r.2.postSlip_frame c p x.2 e r.1
  rw [long, core, bytes] at posted
  rw [bytes] at fabricF stage dramF ⊢
  generalize r.2.postSlip c p x.2 e (d.stageRead a 480).1 = f at fabricF stage dramF posted
  exact ⟨congrArg Port.slip ((Device.port_of_fabric (fabricF.trans fabric) p).trans (d.port_slipGone p x)),
    (congrArg Mem.bytes stage).trans staging, dramF.trans dram, posted⟩

/-! ### SLIP_WRITE -/

/-- A held slot goes where its LOCAL entry names: into hub staging, or to a core's copy engine. -/
def Device.slipTaken (d : Device) (p : Nat) (x : Nat × Nat) : Device :=
  let e := d.rxEntry p x.1 x.2
  let r := (d.slipGone p x).stageRead (slipAt p x.1 x.2) 480
  if peCore e = 0xFF then r.2.stageWrite (peAddr e) r.1 else r.2.postSlip (peCore e) p x.2 e r.1

section
variable {s : State} {p : Nat} (has : s.dev.hasPort p = true)
include has

theorem slipWrite_none (none_ : (s.dev.port p).slip.find? (fun x => decide (x.1 ≤ s.dev.gate.e)) = none) :
    Becomes (.slipWrite p) s s.dev := by
  refine .onUnit (show _ = execSlipWrite p s from rfl) has ?_
  rw [none_]

variable {x : Nat × Nat} (held : (s.dev.port p).slip.find? (fun x => decide (x.1 ≤ s.dev.gate.e)) = some x)
include held

theorem slipWrite_drops (kind : peKind (s.dev.rxEntry p x.1 x.2) ≠ 1) : Completes (.slipWrite p) s (fun f =>
    s.dev.onlyPort f p { s.dev.port p with slip := (s.dev.port p).slip.erase x }) := by
  refine .unitRow (show _ = execSlipWrite p s from rfl) has ?_
  rw [held]
  dsimp only
  rw [if_pos (by simpa using kind)]
  refine ⟨?_, fun y other => ?_, rfl⟩
  · rw [Device.port_withBeat, Device.port_onPort_same]
  · rw [Device.port_withBeat, Device.port_onPort_other _ _ _ _ other]

variable (kind : peKind (s.dev.rxEntry p x.1 x.2) = 1)
include kind

theorem slipWrite_becomes (ready : peCore (s.dev.rxEntry p x.1 x.2) = 0xFF
    ∨ (s.dev.core (peCore (s.dev.rxEntry p x.1 x.2))).power.state = 0) {P : Device → Prop}
    (hP : P ((s.dev.slipTaken p x).withBeat s.dev.beat)) : Completes (.slipWrite p) s P := by
  refine .unitRow (show _ = execSlipWrite p s from rfl) has ?_
  rw [held]
  dsimp only
  rw [if_neg (by simp [kind]), if_neg (by simpa [or_iff_not_imp_left] using ready)]
  exact hP

theorem slipWrite_staging (hub : peCore (s.dev.rxEntry p x.1 x.2) = 0xFF) : Completes (.slipWrite p) s (fun f =>
    (f.port p).slip = (s.dev.port p).slip.erase x
      ∧ f.staging.bytes = Sparse.setMany 0 s.dev.staging.bytes (peAddr (s.dev.rxEntry p x.1 x.2))
          ((s.dev.stageRead (slipAt p x.1 x.2) 480).1.map (·.1))
      ∧ f.dram = s.dev.dram ∧ f.cores = s.dev.cores) := by
  have written := s.dev.slipStage_frame p x (slipAt p x.1 x.2) (peAddr (s.dev.rxEntry p x.1 x.2))
  refine slipWrite_becomes has held kind (.inl hub) ?_
  rw [Device.slipTaken, if_pos hub]
  dsimp only at written
  generalize Device.stageWrite _ _ _ = f at written ⊢
  exact written

theorem slipWrite_wakes (core : peCore (s.dev.rxEntry p x.1 x.2) ≠ 0xFF)
    (low : (s.dev.core (peCore (s.dev.rxEntry p x.1 x.2))).power.state ≠ 0) :
    Becomes (.slipWrite p) s (s.dev.forceWake (peCore (s.dev.rxEntry p x.1 x.2)) (s.dev.port p).nbrDev) := by
  refine .onUnit (show _ = execSlipWrite p s from rfl) has ?_
  rw [held]
  dsimp only
  rw [if_neg (by simp [kind]), if_pos (by simp [core, low])]

theorem slipWrite_posts (core : peCore (s.dev.rxEntry p x.1 x.2) ≠ 0xFF)
    (active : (s.dev.core (peCore (s.dev.rxEntry p x.1 x.2))).power.state = 0) : Completes (.slipWrite p) s (fun f =>
    (f.port p).slip = (s.dev.port p).slip.erase x ∧ f.staging.bytes = s.dev.staging.bytes ∧ f.dram = s.dev.dram
      ∧ ∃ r, (f.core (peCore (s.dev.rxEntry p x.1 x.2))).reqs = (s.dev.core (peCore (s.dev.rxEntry p x.1 x.2))).reqs ++ [r]
        ∧ r.write = true ∧ r.addr = peAddr (s.dev.rxEntry p x.1 x.2) ∧ r.len = 480
        ∧ r.slip = some (p, x.2, if peKeyEn (s.dev.rxEntry p x.1 x.2) then some (peKey (s.dev.rxEntry p x.1 x.2)) else none)
        ∧ r.pk.marked.map (·.1) = (s.dev.stageRead (slipAt p x.1 x.2) 480).1.map (·.1)) := by
  have posted := s.dev.slipPost_frame (peCore (s.dev.rxEntry p x.1 x.2)) p x (slipAt p x.1 x.2) (s.dev.rxEntry p x.1 x.2)
  refine slipWrite_becomes has held kind (.inr active) ?_
  rw [Device.slipTaken, if_neg core]
  dsimp only at posted
  generalize Device.postSlip _ _ _ _ _ _ = f at posted ⊢
  exact posted

end

/-- Settles O56: a good slot is filed on a device that its notes leave alone, a control slot tells of its sender before its hold bit is
compared, and a book that does not close cuts the port and faults the tasks that use it. -/
theorem slotsReceived : Obligations.SlotsReceived := by
  unfold Obligations.SlotsReceived
  refine ⟨?_, fun s p x has idle => slotReceive_idle x has idle, fun s p x stamp has aligned => ?_, fun s p has => ?_, fun s p has => ?_⟩
  · intro s p v x has d q k known up first inside key b
    refine ⟨slotReceive_failed x has known up first inside, fun good carries ledger =>
      ⟨slotReceive_again x has known up first inside good carries ledger, fun fresh port kind soon entry =>
        slotReceive_local x has known up first inside good carries ledger fresh port rfl kind soon entry, ?_⟩⟩
    intro y waits fresh port kind own row reads none_
    exact slotReceive_open x has known up first inside good carries ledger fresh port rfl kind own ⟨row, reads⟩ none_ rfl
  · exact ⟨controlSlotReceive_down x stamp has aligned, controlSlotReceive_bad x stamp has aligned,
      controlSlotReceive_framing x stamp has aligned, controlSlotReceive_tells x stamp has aligned,
      controlSlotReceive_breaks x stamp has aligned⟩
  · exact ⟨slipWrite_none has, fun x held => ⟨slipWrite_drops has held, slipWrite_staging has held, slipWrite_posts has held,
      slipWrite_wakes has held⟩⟩
  · exact ⟨ledgerCheck_none has, fun v next early => ledgerCheck_waits has next early, fun v next aligned over_ runs =>
      ⟨ledgerCheck_closes has next aligned over_ runs, ledgerCheck_breaks has next aligned over_ runs⟩⟩

end Sys2Proof.Machine
